-- ==== Sys2Proof/Word.lean ====
section
/-! DEFINITION. The word types of the ZM1 model and the numbers of its units (spec 00, R6, R7, R10). -/

namespace Sys2Proof

/-- One byte of memory. -/
abbrev Byte := BitVec 8

/-- A control-register word; a 32-bit register holds a value below 2^32 (R11, R14). -/
abbrev Reg := BitVec 64

/-- A tile command-stream instruction word (03, R77). -/
abbrev Word128 := BitVec 128

/-- Unit numbers of Table 00-4 (R10). -/
abbrev TileId := Fin 32
abbrev HearthId := Fin 16
abbrev PortId := Fin 12
abbrev StackId := Fin 12
abbrev HobId := Fin 16
abbrev QueueId := Fin 256
/-- PCIe function: 0 the physical function, 1 to 16 the virtual functions. -/
abbrev FnId := Fin 17
/-- A synchronisation counter, 0x0000 to 0xFFFF (11, R249). -/
abbrev CtrId := Fin 65536

/-- Agents of Table 11-2 (R253). `stoker` is the management controller, which bears no agent kind of
its own: its code is that of NONE (DESIGN CHOICE, log 3). -/
inductive Agent where
  | stoker
  | tile (t : TileId)
  | hob (c : HobId)
  | port (p : PortId)
  | host (f : FnId)
  | remote (dev : BitVec 20)
deriving DecidableEq, Repr

/-- The 24-bit agent code of R253: kind in bits [23:20], number in bits [19:0]. -/
def Agent.code : Agent → Nat
  | .stoker => 0
  | .tile t => 0x100000 + t.val
  | .hob c => 0x200000 + c.val
  | .port p => 0x300000 + p.val
  | .host f => 0x400000 + f.val
  | .remote d => 0x500000 + d.toNat

/-- A bellows thread: tile, core and hardware thread (10, R223). -/
structure ThreadId where
  tile : TileId
  core : Fin 128
  thr : Fin 16
deriving DecidableEq, Repr

end Sys2Proof
end

