-- ==== Sys2Proof/Syntax.lean ====
section
/-! DEFINITION. The commands of the ZM1: one constructor per row of spec/opcode_table.json. -/

namespace Sys2Proof

/-- Corruption of one computed row by a hardware fault: for each (column, mask) the bits of that
column's output that the fault inverts. The empty list is fault-free arithmetic (15, R353, R358). -/
abbrev RowError := List (Nat × Nat)

/-- What the code of a memory word shows on a read (09, R197, R212, R213): the outcome, or what stands in the stored
word, from which the outcome follows. -/
inductive EccResult where
  | clean
  | corrected
  | uncorrectable
  /-- `n` symbols of a deep-memory code word (bits of a scratch word) are wrong, and the code word decodes to the
  address bits `abits` -/
  | wrong (n abits : Nat)
deriving DecidableEq, Repr

/-- What has come into stored words by the time of an access: for deep memory per sector, for scratch per 8-byte word,
numbered from the first of the 256-byte granule that holds its first byte. A word stays so until it is rewritten, and
every later read of it finds it so (log 53). -/
abbrev EccHits := List (Nat × EccResult)

/-- Allocation hints of R207. -/
inductive Hint where
  | alloc
  | noalloc
  | last
deriving DecidableEq, Repr

/-- A wait: a tile's SWAT or a wait slot of a hearth (11, R260, R261). -/
inductive WaitRef where
  | tile (t : TileId)
  | slot (h : HearthId) (i : Fin 32)
deriving DecidableEq, Repr

/-- A flit as the receiving port sees it (12, R282, Table 12-2): the outcome of the code word and of
the FCRC, the control word and the fields ACK and CRET of the body. -/
structure Flit where
  /-- the code word was uncorrectable -/
  uncorrectable : Bool
  /-- the code word needed correction -/
  corrected : Bool
  fcrcOk : Bool
  /-- the lane it came in on -/
  phys : Nat := 0
  ft : Nat
  lane : Nat
  fseq : Nat
  /-- ACK bit 31, bits [14:0] and the replay request of bit 30 -/
  ackValid : Bool
  ack : Nat
  replay : Bool
  /-- credits returned per channel -/
  cret : List Nat
  /-- credits that the frame units of a data flit take in this port's receive buffer -/
  takes : Nat
deriving DecidableEq, Repr

/-- A frame after decryption (12, Tables 12-3 and 12-4). `opx` holds header bytes [47:32];
`payload` the data without the poison mask, `poison` the poisoned sectors of the data. -/
structure Frame where
  ftype : Nat
  ch : Nat
  prov : Bool := false
  last : Bool := true
  clsB : Bool := false
  psn : Bool := false
  hops : Nat := 48
  dtr : Nat := 0
  ddev : Nat
  sdev : Nat
  plen : Nat := 0
  keyid : Nat := 0
  fnum : Nat := 0
  epoch : Nat := 0
  opx : BitVec 128 := 0
  payload : List Byte := []
  poison : List Nat := []
  /-- the GCM tag verifies -/
  tagOk : Bool := true
  /-- every reserved bit of the header is zero -/
  rsvdOk : Bool := true
deriving DecidableEq, Repr

/-- A HELLO frame's content (12, Table 12-7, step 1), with what the device finds of it. -/
structure Hello where
  loMaj : Nat
  hiMaj : Nat
  loMin : Nat
  hiMin : Nat
  dev : Nat
deriving DecidableEq, Repr

/-- What an HSK frame of the partner shows (12, R300, Table 12-7): the outcome of each signature
check and the fields of the membership certificate. -/
structure Handshake where
  /-- Table 12-7 step: 2 certificates, 3 and 4 key exchange, 5 signature, 6 key confirmation -/
  hstep : Nat
  sigOk : Bool
  dev : Nat
  topoid : Nat
  idHash : Nat
  firstSec : Nat
  lastSec : Nat
deriving DecidableEq, Repr

/-- What the handshake of a session or of its rekey shows (12, R300 to R302, Table 12-7): the partner's certificates and
the outcome of each signature and of the key confirmation, the ML-KEM shared secret and the hash of the handshake. -/
structure SessHs where
  loMaj : Nat
  hiMaj : Nat
  cert : Handshake
  signOk : Bool
  confirmOk : Bool
  ss : List Byte
  th : List Byte
deriving DecidableEq, Repr

/-- A device with which a session or its rekey is made, and the handshake with it. -/
structure SessPeer where
  dev : BitVec 20
  hs : SessHs
deriving DecidableEq, Repr

/-- A channel of a stack (09, R203). -/
structure StackChannel where
  stack : StackId
  ch : Fin 256
deriving DecidableEq, Repr

/-- A unit with a history record (15, R371). -/
inductive UnitRef where
  | tile (t : TileId)
  | port (p : PortId)
  | stack (k : StackId)
  | hob (c : HobId)
deriving DecidableEq, Repr

/-- Events of Table 15-7. -/
inductive UnitEvent where
  /-- a transient event of R371 -/
  | transient
  /-- a serious event of R371 -/
  | serious
  /-- 2^48 cc have passed without an event -/
  | quiet
  /-- the two rounds of a SUSPECT unit passed -/
  | roundsPass
  /-- one of them failed -/
  | roundsFail
deriving DecidableEq, Repr

/-- Reset kinds a rights-bearing action may ask for (Table 16-8). -/
inductive ResetKind where
  | warm
  | cold
deriving DecidableEq, Repr

/-- What one SMBus read command asks for (18, R426). -/
inductive SmbusItem where
  | status
  | sensors
  | records (fromSeq : Nat)
  | auditLog
  | quote (nonce : Nat)
deriving DecidableEq, Repr

/-- A request of a rights-bearing action: the key that made it, whether it came by the console, and
the hash of the request (18, R431, R432). -/
structure Request where
  keyid : Nat
  console : Bool
  reqHash : Nat
  /-- the flash write of the audit entry succeeds (R433) -/
  auditOk : Bool := true
deriving DecidableEq, Repr

/-- A firmware image as FW_LOAD examines it (18, R439). -/
structure FwImage where
  kind : Nat
  version : Nat
  minVersion : Nat
  sigOk : Bool
  bodyOk : Bool
  hash : Nat
deriving DecidableEq, Repr

/-- The commands: the operations and events of spec/opcode_table.json. -/
inductive Instr where
  -- registers and memory
  | registerWrite (a : Agent) (addr size value : Nat)
  | memoryAccess (a : Agent) (addr len : Nat) (wr : Bool) (data : List Byte) (hint : Hint) (ecc : EccHits)
  -- anvil
  | mmt (t : TileId) (w : Word128)
  | ldp (t : TileId) (w : Word128)
  | bld (t : TileId) (w : Word128)
  | bkt (t : TileId) (w : Word128)
  | ldpLoadStart (t : TileId)
  | bufferReady (t : TileId)
  | mmtRowEnter (t : TileId)
  | mmtRowWrite (t : TileId) (err shadowErr : RowError)
  -- accumulator and chains
  | ageo (t : TileId) (w : Word128)
  | ageoApply (t : TileId)
  | aini (t : TileId) (w : Word128)
  | aadd (t : TileId) (w : Word128)
  | achn (t : TileId) (w : Word128)
  | achnApply (t : TileId)
  | asnd (t : TileId) (w : Word128)
  | chainRowArrive (t : TileId)
  | chainSegmentHead (t : TileId)
  | chainRowReserved (t : TileId)
  | accChaintmo (t : TileId)
  -- window unit
  | wcf (t : TileId) (w : Word128)
  | win (t : TileId) (w : Word128)
  | wcur (t : TileId) (w : Word128)
  | winLineArrive (t : TileId) (oy ty : Nat)
  -- vector engine
  | vlen (t : TileId) (w : Word128)
  | vadr (t : TileId) (w : Word128)
  | vidx (t : TileId) (w : Word128)
  | vld (t : TileId) (w : Word128)
  | vst (t : TileId) (w : Word128)
  | vstz (t : TileId) (w : Word128)
  | epi (t : TileId) (w : Word128)
  | vfa (t : TileId) (w : Word128)
  | via (t : TileId) (w : Word128)
  | vcmp (t : TileId) (w : Word128)
  | vsel (t : TileId) (w : Word128)
  | vcvt (t : TileId) (w : Word128)
  | vmsk (t : TileId) (w : Word128)
  | vperm (t : TileId) (w : Word128)
  | vlsh (t : TileId) (w : Word128)
  | vcmpr (t : TileId) (w : Word128)
  | vexpd (t : TileId) (w : Word128)
  | vred (t : TileId) (w : Word128)
  | vecRowComplete (t : TileId) (pairMismatch : Bool)
  | vstzFinish (t : TileId)
  -- special functions and the mask generator
  | sfn (t : TileId) (w : Word128)
  | smx (t : TileId) (w : Word128)
  | srs (t : TileId) (w : Word128)
  | rst (t : TileId) (w : Word128)
  | mgn (t : TileId) (w : Word128)
  | mps (t : TileId) (w : Word128)
  -- marks, landings and launches
  | dmk (t : TileId) (w : Word128)
  | dmkTakeEffect (t : TileId)
  | dwt (t : TileId) (w : Word128)
  | bln (t : TileId) (w : Word128)
  | blwLaunch (a : Agent) (t : TileId) (value : Nat)
  | landLate (t : TileId)
  -- the bellows program instructions: the thread executes the word at its program counter
  | li (th : ThreadId)
  | lih (th : ThreadId)
  | add (th : ThreadId)
  | addi (th : ThreadId)
  | sub (th : ThreadId)
  | muli (th : ThreadId)
  | shli (th : ThreadId)
  | shri (th : ThreadId)
  | andi (th : ThreadId)
  | ldw (th : ThreadId)
  | loop (th : ThreadId)
  | endl (th : ThreadId)
  | bnz (th : ThreadId)
  | endT (th : ThreadId)
  | mwt (th : ThreadId)
  | fen (th : ThreadId)
  | lnd (th : ThreadId)
  | cinc (th : ThreadId)
  | move (th : ThreadId) (pairMismatch : Bool)
  | gath (th : ThreadId)
  | mcst (th : ThreadId)
  | pft (th : ThreadId)
  | readk (th : ThreadId)
  | readv (th : ThreadId)
  | append (th : ThreadId)
  | share (th : ThreadId)
  | releasePages (th : ThreadId)
  | kvpNofree (th : ThreadId)
  | kvpRelfull (th : ThreadId)
  | kvpRingResume (th : ThreadId)
  | zpk (th : ThreadId)
  | zup (th : ThreadId)
  | ars (th : ThreadId)
  | requestCommit (t : TileId) (i : Nat) (ecc : EccHits)
  | landingIncrement (t : TileId) (i : Nat)
  | threadResume (th : ThreadId)
  -- the command stream and the hearth's hold states
  | csFreshStart (a : Agent) (t : TileId) (word : Nat)
  | csResume (a : Agent) (t : TileId) (word : Nat)
  | csStop (a : Agent) (t : TileId)
  | csDone (t : TileId)
  | csWordIssue (t : TileId)
  | hearthHeld (h : HearthId)
  | hearthCausesClear (h : HearthId)
  | hearthResume (h : HearthId)
  | schedStall (h : HearthId)
  | hreq (a : Agent) (h : HearthId) (alsoRel : Bool)
  | hrel (a : Agent) (h : HearthId) (alsoReq : Bool)
  -- synchronisation counters
  | sinc (t : TileId) (w : Word128)
  | swat (t : TileId) (w : Word128)
  | sbas (t : TileId) (w : Word128)
  | sclm (t : TileId) (w : Word128)
  | incrementApply (c : CtrId)
  | synInc (a : Agent) (c : CtrId) (amt : BitVec 64)
  | claim (a : Agent) (c : CtrId) (alsoRelease : Bool)
  | releaseOwner (a : Agent) (c : CtrId) (alsoClaim : Bool)
  | arm (a : Agent) (h : HearthId) (i : Fin 32) (value : Nat)
  | cancel (a : Agent) (h : HearthId) (i : Fin 32)
  | waitSatisfied (r : WaitRef)
  | synTmo (r : WaitRef)
  | ownerLost (c : CtrId)
  | budgetLend (t : TileId)
  | inc (p : PortId) (f : Frame)
  | pendingIncrementApply (dev : BitVec 20) (ch : Fin 8)
  | incrementAck (dev : BitVec 20) (fnum status : Nat)
  -- links
  | flitReceive (p : PortId) (f : Flit)
  | flitReplay (p : PortId) (fseq : Nat)
  | replayTimeout (p : PortId)
  | lnkLane (p : PortId)
  | lnkCredit (p : PortId)
  | portEnable (p : PortId)
  | portDisable (p : PortId)
  | lanesLocked (p : PortId)
  | lnkTrain (p : PortId)
  | downRetry (p : PortId)
  | admitTimeout (p : PortId)
  | rejectRetry (p : PortId)
  | drainEnd (p : PortId)
  | hello (p : PortId) (f : Hello)
  | hsk (p : PortId) (f : Handshake)
  | handshakeSignature (p : PortId)
  | sessionOpen (peer : SessPeer)
  | sessionRekey (peer : SessPeer)
  | close (p : PortId) (f : Frame)
  | sessionEnd (dev : BitVec 20)
  | write (p : PortId) (f : Frame)
  | read (p : PortId) (f : Frame)
  | rdata (p : PortId) (f : Frame)
  | ack (p : PortId) (f : Frame)
  | chain (p : PortId) (f : Frame)
  | flue (p : PortId) (f : Frame)
  | coll (p : PortId) (f : Frame)
  | frameForward (p : PortId) (f : Frame)
  | sendResend (dev : BitVec 20) (fnum : Nat)
  | sendTableSlotFree
  -- collectives, phases and the quench unit
  | colRingPost (a : Agent) (p : PortId) (h : HearthId) (tail : Nat)
  | descriptorTake (p : PortId) (h : HearthId)
  | free (p : PortId) (f : Frame)
  | restart (a : Agent) (p : PortId) (h : HearthId)
  | colGrpWrite (a : Agent) (h : HearthId) (g : Fin 64) (word : Fin 2) (value : Nat)
  | collectiveComplete (p : PortId) (h : HearthId)
  | colTmo (p : PortId) (h : HearthId)
  | flueBufferRelease (p : PortId) (h : HearthId)
  | pht (t : TileId) (w : Word128)
  | anchorWrite
  | quenchChunk (p : PortId) (h : HearthId)
  | quenchBufferFree (p : PortId)
  | flip (a : Agent) (h : HearthId)
  | quenchRetract (p : PortId) (h : HearthId)
  -- checking
  | replayRow (t : TileId)
  | replayEnd (t : TileId) (err shadowErr : RowError)
  | chkOpen (a : Agent) (h : HearthId)
  | chkClose (a : Agent) (h : HearthId)
  | epochConfirm (h : HearthId)
  | chkRetract (h : HearthId) (trig : Nat)
  | noticeReceive (h : HearthId) (rank : Nat)
  | noticeSendNext (h : HearthId) (rank : Nat)
  | chkUnresolved (h : HearthId)
  | chkRefetch (h : HearthId) (granule : List Byte)
  | chkRefail (h : HearthId)
  | tsl (t : TileId) (w : Word128)
  | sparkRound (t : TileId) (kaOk : Bool) (digest : BitVec 64)
  | sparkDue (t : TileId)
  | chkOverdue (t : TileId)
  | sparkCompare (round : Nat)
  | chkClass (u : UnitRef) (e : UnitEvent)
  | chkLost
  | recordForward
  | stkFwdlost (collector : Fin 2)
  -- work queues and the ledger
  | queueTailWrite (a : Agent) (q : QueueId) (tail : Nat)
  | descriptorRead (q : QueueId)
  | itemAccept (q : QueueId) (storeOk : Bool)
  | itemStart (q : QueueId)
  | itemComplete (q : QueueId) (seq : Nat) (storeOk : Bool)
  | lgrTimeout (q : QueueId) (seq : Nat)
  | retWrite (a : Agent) (q : QueueId) (value : Nat)
  | queueResume (a : Agent) (q : QueueId)
  | queueRecovery (q : QueueId)
  | hctlPreempt (a : Agent) (h : HearthId)
  | hearthPreempted (h : HearthId)
  | hctlResume (a : Agent) (h : HearthId)
  -- Temper
  | temperVerify
  | temperQuiesced
  | tmpQuiesce
  | temperDurable (ok : Bool)
  | tmpCtlCommit (a : Agent)
  | stagedTimeout
  -- the Stoker
  | fwLoad (r : Request) (img : FwImage)
  | fwActivate (r : Request) (kind : Nat) (slotB : Bool)
  | temperSubmit (r : Request) (image : List Byte)
  | keyEnrol (r : Request) (keyid : Nat) (operator : Bool) (mask : BitVec 16)
  | keyRevoke (r : Request) (keyid : Nat)
  | calSet (r : Request) (cal : BitVec 64)
  | classReset (r : Request) (u : UnitRef)
  | settings (r : Request) (address collector0 collector1 trw ueth : Nat)
  | resetDevice (r : Request) (kind : ResetKind)
  | resetHearth (r : Request) (h : HearthId) (kind : ResetKind)
  | preempt (r : Request) (h : HearthId) (resume : Bool)
  | release (r : Request)
  | debugOpen
  | dbgnowClear
  | auditCheckpoint
  | quote (nonce : Nat)
  | smbusRead (item : SmbusItem)
  | stkRestart (sa : Fin 8)
  | stokerSlotFallback
  -- clocks, power and bring-up
  | coreStepChange (t : TileId)
  | pwrPll
  | pwrRef (absent : Bool)
  | railPowerGood
  | pwrRail (rail : Fin 8)
  | pwrInput (vin : Nat)
  | inputSag (vin : Nat)
  | powerRecompute
  | budgetReclaim (t : TileId)
  | pwrOver (watts : Nat)
  | pwrTherm (tj : Nat)
  | emergencyEnd (code : Nat)
  | functionEnable (f : Fin 76)
  | functionDisable (f : Fin 76)
  | functionStartComplete (f : Fin 76)
  | pwrFnfail (f : Fin 76)
  | functionShutdownComplete (f : Fin 76)
  | boot (ok : Bool)
  | deviceColdReset
  | deviceWarmReset
  | warmResetFallback
  | hearthWarmReset (h : HearthId)
  | hearthColdReset (h : HearthId)
  -- memory tiers
  | writeback (a : Agent) (h : HearthId)
  | wbinv (a : Agent) (h : HearthId)
  | mtlOpDone (h : HearthId)
  | mantelVictimFound (half : Fin 2)
  | mantelAgeTick
  | evictionWritebackEnd (half : Fin 2) (i : Nat)
  | patrolScrub (sector : Nat) (ecc : EccResult)
  | refreshWindow (k : StackId) (ch : Fin 256)
  | recalibration (c : StackChannel) (ok : Bool)
  | damperSample (k : StackId) (temp : Nat)
  -- host interface and module
  | perst
  | hostLinkUp (speed width : Nat)
  | flr (f : FnId)
  | vfEnableClear
  | barAccess (f : FnId) (bar : Nat) (off size : Nat) (wr : Bool) (value : Nat) (ide : Bool)
  | go (f : FnId) (image : List Byte)
  | hifIde (stream : Fin 32)
  | pwrLeak
  | coolantSample (tin tout : Int)
  | accumulatorPipeRow (t : TileId)
  | stokerTakesNoRecord
  | quenchTest (p : PortId) (pass : Bool)
  | vfEnable
  | d3hot (f : FnId) (enter : Bool)
  | ideKm (stream : Fin 32) (f : FnId)
deriving DecidableEq, Repr

end Sys2Proof
end

