-- ==== Sys2Proof/Decode.lean ====
section
/-! DEFINITION. The commands that words spell, and the fields of the instruction words of the tile
command stream and of bellows programs. -/

namespace Sys2Proof

/-- No row of the table of operations gives bits, so no word spells a command. -/
def decodeTableWord (_nbits _w : Nat) : Option Instr := none

/-- Field [hi:lo] of an instruction word (00, R6). -/
def wf (w : Word128) (hi lo : Nat) : Nat := (w.extractLsb' lo (hi + 1 - lo)).toNat

/-! MMT (03, Table 03-6) -/
namespace Mmt
def fa (w : Word128) := wf w 119 115
def af (w : Word128) := wf w 114 114
def init (w : Word128) := wf w 113 112
def dest (w : Word128) := wf w 111 110
def src (w : Word128) := wf w 109 109
def pb (w : Word128) := wf w 108 108
def mb (w : Word128) := wf w 107 107
def mreg (w : Word128) := wf w 106 103
def mm1 (w : Word128) := wf w 102 94
def px (w : Word128) := wf w 93 87
def slot (w : Word128) := wf w 86 81
def aadr (w : Word128) := wf w 80 61
def sadr (w : Word128) := wf w 60 41
def astr (w : Word128) := wf w 40 25
def sstr (w : Word128) := wf w 24 13
end Mmt

/-! LDP (03, Table 03-7) -/
namespace Ldp
def fb (w : Word128) := wf w 119 115
def t (w : Word128) := wf w 114 114
def ck (w : Word128) := wf w 113 113
def pb (w : Word128) := wf w 112 112
def kb (w : Word128) := wf w 111 111
def kreg (w : Word128) := wf w 110 107
def nb (w : Word128) := wf w 106 106
def nreg (w : Word128) := wf w 105 102
def kbm1 (w : Word128) := wf w 101 96
def nm1 (w : Word128) := wf w 95 87
def badr (w : Word128) := wf w 86 67
def bsadr (w : Word128) := wf w 66 47
def bstr (w : Word128) := wf w 46 31
def bsstr (w : Word128) := wf w 30 19
end Ldp

/-! BLD and BKT (03) -/
namespace Bld
def first (w : Word128) := wf w 119 116
def cntm1 (w : Word128) := wf w 115 112
def addr (w : Word128) := wf w 111 92
end Bld
namespace Bkt
def breg (w : Word128) := wf w 119 116
def tbase (w : Word128) := wf w 115 110
def tcntm1 (w : Word128) := wf w 109 104
end Bkt

/-! Accumulator instructions (04, Table 04-3) -/
namespace Acc
def srl (w : Word128) := wf w 119 118
def scl (w : Word128) := wf w 117 116
def sfmt (w : Word128) := wf w 115 115
def slot (w : Word128) := wf w 119 114
def px (w : Word128) := wf w 113 107
def row0 (w : Word128) := wf w 106 98
def rcm1 (w : Word128) := wf w 97 89
def spx (w : Word128) := wf w 113 107
/-- RM1 of AADD -/
def rm1 (w : Word128) := wf w 106 98
def sadr (w : Word128) := wf w 97 78
def str (w : Word128) := wf w 77 62
def ssl (w : Word128) := wf w 61 61
def sslot (w : Word128) := wf w 60 55
def okind (w : Word128) := wf w 119 118
def otile (w : Word128) := wf w 117 113
def odev (w : Word128) := wf w 112 93
def ikind (w : Word128) := wf w 92 91
def itile (w : Word128) := wf w 90 86
def idev (w : Word128) := wf w 85 66
/-- RM1 of ASND -/
def sndRm1 (w : Word128) := wf w 113 105
end Acc

/-! Window instructions (05) -/
namespace Wcf
def fmt (w : Word128) := wf w 119 115
def z (w : Word128) := wf w 114 114
def band (w : Word128) := wf w 113 113
def fw (w : Word128) := wf w 112 107 + 1
def fh (w : Word128) := wf w 106 103 + 1
def sx (w : Word128) := wf w 102 100 + 1
def sy (w : Word128) := wf w 99 97 + 1
def dx (w : Word128) := wf w 96 91 + 1
def dy (w : Word128) := wf w 90 85 + 1
def padl (w : Word128) := wf w 84 73
def padt (w : Word128) := wf w 72 63
def tap0 (w : Word128) := wf w 62 55
def tapn (w : Word128) := wf w 54 47 + 1
def cw0 (w : Word128) := wf w 46 35
def cw (w : Word128) := wf w 34 26 + 1
def bnp (w : Word128) := wf w 25 17 + 1
end Wcf
namespace Win
def iadr (w : Word128) := wf w 119 100
def istr (w : Word128) := wf w 99 84
def ih (w : Word128) := wf w 83 72 + 1
def iw (w : Word128) := wf w 71 60 + 1
def c (w : Word128) := wf w 59 48 + 1
def oh (w : Word128) := wf w 47 36 + 1
def ow (w : Word128) := wf w 35 24 + 1
end Win
namespace Wcur
def ch (w : Word128) := wf w 119 108
def oy (w : Word128) := wf w 107 96
def ox (w : Word128) := wf w 95 84
end Wcur


/-! Counter instructions (11) -/
namespace Sinc
def pipes (w : Word128) := wf w 119 115
def rem (w : Word128) := wf w 114 114
def dev (w : Word128) := wf w 113 94
def ctr (w : Word128) := wf w 93 78
def amt (w : Word128) := wf w 77 46
end Sinc
namespace Swat
def rel (w : Word128) := wf w 119 119
def breg (w : Word128) := wf w 118 116
def k (w : Word128) := wf w 115 110
def ctr (w : Word128) := wf w 109 94
def tgt (w : Word128) := wf w 93 46
end Swat
namespace Sbas
def breg (w : Word128) := wf w 119 117
def ctr (w : Word128) := wf w 116 101
end Sbas
namespace Sclm
def rls (w : Word128) := wf w 119 119
def ctr (w : Word128) := wf w 118 103
end Sclm

/-! Vector and special-function instructions, register-operand form (06, R134; 07) -/
namespace Vr
def vd (w : Word128) := wf w 119 114
def va (w : Word128) := wf w 113 108
def vb (w : Word128) := wf w 107 102
def vc (w : Word128) := wf w 101 96
def nr (w : Word128) := wf w 95 90 + 1
def mk (w : Word128) := wf w 89 87
def fn (w : Word128) := wf w 86 84
def imt (w : Word128) := wf w 83 82
def fdst (w : Word128) := wf w 81 79
def fsel (w : Word128) := wf w 78 73
def df (w : Word128) := wf w 72 68
def rm (w : Word128) := wf w 67 66
def sat (w : Word128) := wf w 65 65
def sdi (w : Word128) := wf w 64 63
def adv (w : Word128) := wf w 62 62
def imm (w : Word128) := wf w 31 0
end Vr
/-! Memory form (06, R134) -/
namespace Vm
def vr (w : Word128) := wf w 119 114
def nr (w : Word128) := wf w 113 108 + 1
def mk (w : Word128) := wf w 107 105
def sk (w : Word128) := wf w 104 104
def slot (w : Word128) := wf w 103 98
def row0 (w : Word128) := wf w 97 89
def fmt (w : Word128) := wf w 88 84
def rm (w : Word128) := wf w 83 82
def sat (w : Word128) := wf w 81 81
def ar (w : Word128) := wf w 80 78
def sar (w : Word128) := wf w 77 75
def sdi (w : Word128) := wf w 74 73
def adv (w : Word128) := wf w 72 72
def zmd (w : Word128) := wf w 71 71
def lw (w : Word128) := wf w 70 70
end Vm
namespace Vset
def vl (w : Word128) := wf w 119 110
def ar (w : Word128) := wf w 119 117
def base (w : Word128) := wf w 116 97
def str (w : Word128) := wf w 96 81
def ibase (w : Word128) := wf w 119 72
def rstr (w : Word128) := wf w 71 48
def tag (w : Word128) := wf w 47 16
end Vset
namespace Epi
def slot (w : Word128) := wf w 119 114
def row0 (w : Word128) := wf w 113 105
def rc (w : Word128) := wf w 104 96 + 1
def vb (w : Word128) := wf w 95 90
def ben (w : Word128) := wf w 89 89
def vs (w : Word128) := wf w 88 83
def scm (w : Word128) := wf w 82 81
def act (w : Word128) := wf w 80 78
def ren (w : Word128) := wf w 77 77
def rfmt (w : Word128) := wf w 76 72
def ra (w : Word128) := wf w 71 69
def dfmt (w : Word128) := wf w 68 64
def rm (w : Word128) := wf w 63 62
def sat (w : Word128) := wf w 61 61
def da (w : Word128) := wf w 60 58
def z (w : Word128) := wf w 57 57
def sdi (w : Word128) := wf w 56 55
def adv (w : Word128) := wf w 54 54
def mk (w : Word128) := wf w 53 51
def imm (w : Word128) := wf w 31 0
end Epi

/-! Special-function and mask-generator instructions (07, Table 07-7; 08, R177) -/
namespace Smx
def slot (w : Word128) := wf w 119 114
def row0 (w : Word128) := wf w 113 105
def rc (w : Word128) := wf w 104 96 + 1
/-- VS of SMX, VF of SRS -/
def vs (w : Word128) := wf w 95 90
def mau (w : Word128) := wf w 89 87
def msrc (w : Word128) := wf w 86 85
/-- FIN of SRS -/
def fin (w : Word128) := wf w 86 86
def mk (w : Word128) := wf w 84 82
def pf (w : Word128) := wf w 81 77
def rm (w : Word128) := wf w 76 75
def ar (w : Word128) := wf w 74 72
def sdi (w : Word128) := wf w 71 70
def adv (w : Word128) := wf w 69 69
def bwd (w : Word128) := wf w 68 68
def imm (w : Word128) := wf w 31 0
end Smx
namespace Rst
def gl (w : Word128) := wf w 70 68
def rsvd (w : Word128) := wf w 72 71
end Rst
namespace Mgn
def mode (w : Word128) := wf w 119 117
def qsegl (w : Word128) := wf w 116 113
def wm1 (w : Word128) := wf w 112 89
def qdadr (w : Word128) := wf w 88 69
def kdadr (w : Word128) := wf w 68 49
end Mgn
namespace Mps
def qbase (w : Word128) := wf w 119 88
def kbase (w : Word128) := wf w 87 56
end Mps

end Sys2Proof
end

