-- ==== Sys2Proof/Config.lean ====
section
/-! DEFINITION. What the spec leaves to an implementation, and the free values. Each is a constant with no
body, so that nothing can be proved from its value. -/

namespace Sys2Proof.Config

/-- FP32 exp2 (07, R160; log 10): per lower result, the exact argument i * 2^e from which the upper of the two
adjacent results is taken. -/
opaque exp2Cut : BitVec 32 → Int × Int

/-- FP32 log2 (07, R160; log 10): per scale and truncated result, the exact value i * 2^e from which the result
that is larger is taken. -/
opaque log2Cut : BitVec 32 → BitVec 32 → Int × Int

/-- A fused 0 * infinity + quiet NaN raises invalid: IEEE 754-2019 leaves it to the implementation (log 25). -/
opaque fmaInvalid : Bool

/-- `DETAIL` of an SFU_RANGE that MGN raises, which names no address register (08, R177; log 26). -/
opaque mgnDetail : BitVec 8

/-- Rows in the special-function pipe while an instruction is in it (07, Table 07-10; log 56): draw. -/
opaque sfuRows : Nat → BitVec 7

/-- `BLW_BRCH.LTILE` of a breach that no tile declares (10, R245; log 27). -/
opaque freeTile : Nat → BitVec 5

/-- A code word with more wrong symbols (or bits) than its code detects is found uncorrectable (09, R197, R212; log 53):
address, count. -/
opaque codeBeyond : Nat → Nat → Bool

/-- Address that a poison hold names when the poisoned operand has none: a gradient of a quench unit, a row of a chain
segment (09, R215; log 30). -/
opaque noAddr : Nat → BitVec 44

/-- `LAYER` and `PASS` of a flue block, which no field of the descriptor gives (08, Table 08-10; log 31). -/
opaque flueLayer : Nat → BitVec 16
opaque fluePass : Nat → BitVec 8

/-- `CHK_ECTL.TRIG` of a retract that the removal of a unit makes, for which Table 15-5 has no value (15, R372; log 33). -/
opaque removeTrig : Nat → BitVec 8

/-- Bytes that a service reads from host memory, which lies outside the device (16, R397; 20, R469; log 34): draw, byte. -/
opaque hostByte : Nat → Nat → BitVec 8

/-- `LGR_AUDIT.CRWIRE`: what is on the wire lies at the neighbours (16, R403; log 35). -/
opaque crWire : Nat → BitVec 32

/-- An ML-DSA-65 signature (`KEYID`, message, signature) verifies with the key of that identifier, which the spec
takes from FIPS 204 (17, R407; log 36). -/
opaque sectionSig : Nat → List (BitVec 8) → List (BitVec 8) → Bool

/-- A `KEYID` names one of the maker keys fused at manufacture (18, Table 18-2; log 36). -/
opaque makerKey : Nat → Bool

/-- A plate-sensor field for a reading that twelve unsigned bits do not hold (21, R482, Table 21-6; log 37). -/
opaque coldReading : Nat → BitVec 12

/-- The module's input power at a count of `SYS_CYC`, in W: `PWR_DEV.PIN` (19, Table 19-11; log 59). -/
opaque inputPower : Nat → BitVec 16

/-- `HIF_LINK.FLIT` at 16 and 32 GT/s, which the link partner decides (20, Table 20-1; log 38). -/
opaque flitMode : Nat → BitVec 1

/-- Section index in the record of a rejected image where no one section is at fault (17, R413; log 52). -/
opaque tmpSection : Nat → BitVec 16

/-- Nanoseconds by which the calendar clock is off a nominal clock after so many counts of SYS_CYC; R442 bounds
them by 50 ppm (18; log 50). -/
opaque calDrift : Nat → Int

/-- The calendar clock has stopped while the module was without input (18, R442; log 50). -/
opaque calStopped : Nat → Bool

end Sys2Proof.Config
end

