-- ==== Sys2Proof/Machine/Bits.lean ====
section
/-! DEFINITION. Bit fields, byte order, vectors by number, and tables by key. -/

namespace Sys2Proof.Machine

/-- Field [hi:lo] of a word (00, R6). -/
def fld {n : Nat} (w : BitVec n) (hi lo : Nat) : Nat := (w.extractLsb' lo (hi + 1 - lo)).toNat

/-- Ones in bits [hi:lo]. -/
def ones (n hi lo : Nat) : BitVec n := (BitVec.allOnes (hi + 1 - lo)).setWidth n <<< lo

/-- The word with field [hi:lo] replaced. -/
def setFld {n : Nat} (w : BitVec n) (hi lo v : Nat) : BitVec n :=
  (w &&& ~~~(ones n hi lo)) ||| ((BitVec.ofNat n v <<< lo) &&& ones n hi lo)

/-- Bit i of a word. -/
def bit {n : Nat} (w : BitVec n) (i : Nat) : Bool := w.getLsbD i

/-- The word with bit i set. -/
def setBit {n : Nat} (w : BitVec n) (i : Nat) (b : Bool) : BitVec n := setFld w i i (if b then 1 else 0)

/-- Addition that stops at the largest value of a field of b bits. -/
def satAdd (b x y : Nat) : Nat := min (2 ^ b - 1) (x + y)

/-- A counting field, saturating. -/
def bumpSat {n : Nat} (w : BitVec n) (hi lo d : Nat) : BitVec n :=
  setFld w hi lo (satAdd (hi + 1 - lo) (fld w hi lo) d)

/-- A counting field, modulo its width. -/
def bumpMod {n : Nat} (w : BitVec n) (hi lo d : Nat) : BitVec n := setFld w hi lo (fld w hi lo + d)

/-- Bits of a write-one-to-clear field that the device set, and the count of SYS_CYC in which it did: a clear in the
same cycle leaves them set (00, R12; log 1). -/
structure SetNow where
  cyc : Nat := 0
  bits : Nat := 0
deriving DecidableEq, Repr

/-- The device sets bits in cycle c. -/
def SetNow.note (n : SetNow) (c b : Nat) : SetNow := ⟨c, if n.cyc = c then n.bits ||| b else b⟩
/-- The bits set in cycle c, which a clear in it leaves. -/
def SetNow.held (n : SetNow) (c : Nat) : Nat := if n.cyc = c then n.bits else 0

/-- Bit of a Bool. -/
def b2n (b : Bool) : Nat := if b then 1 else 0

/-- Signed reading of b bits (two's complement). -/
def sgn (b v : Nat) : Int := if v % 2 ^ b < 2 ^ (b - 1) then (v % 2 ^ b : Nat) else (v % 2 ^ b : Nat) - 2 ^ b

/-- Two's complement code of b bits. -/
def twos (b : Nat) (i : Int) : Nat := (i % (2 ^ b : Nat)).toNat

/-- Little-endian bytes of a value (00, R7). -/
def leBytes : Nat → Nat → List Byte
  | 0, _ => []
  | k + 1, v => BitVec.ofNat 8 v :: leBytes k (v / 256)

/-- Value of little-endian bytes (00, R7). -/
def leNat : List Byte → Nat
  | [] => 0
  | b :: bs => b.toNat + 256 * leNat bs

/-- Bytes [a, a + k) of a byte list as a number; bytes beyond its end are zero. -/
def leAt (bs : List Byte) (a k : Nat) : Nat := leNat ((bs.drop a).take k)

/-- The byte list with `new` placed at offset a. -/
def patch (bs : List Byte) (a : Nat) (new : List Byte) : List Byte :=
  bs.take a ++ new ++ bs.drop (a + new.length)

/-- Element i of a vector, or a default beyond its end. -/
def vget {α : Type} {n : Nat} (v : Vector α n) (i : Nat) (d : α) : α := v[i]?.getD d

/-- The vector with element i changed; unchanged beyond its end. -/
def vmod {α : Type} {n : Nat} (v : Vector α n) (i : Nat) (f : α → α) : Vector α n :=
  match v[i]? with
  | some x => v.setIfInBounds i (f x)
  | none => v

/-- The vector with element i replaced. -/
def vput {α : Type} {n : Nat} (v : Vector α n) (i : Nat) (x : α) : Vector α n := v.setIfInBounds i x

/-- The list with element i changed. -/
def lmod {α : Type} : List α → Nat → (α → α) → List α
  | [], _, _ => []
  | x :: xs, 0, f => f x :: xs
  | x :: xs, i + 1, f => x :: lmod xs i f

/-- Entry of a table by key, or a default. -/
def look {α : Type} (l : List (Nat × α)) (k : Nat) (d : α) : α :=
  match l with
  | [] => d
  | (j, x) :: r => if j = k then x else look r k d

/-- Entry of a table by key. -/
def look? {α : Type} (l : List (Nat × α)) (k : Nat) : Option α :=
  match l with
  | [] => none
  | (j, x) :: r => if j = k then some x else look? r k

/-- Place an entry of a table, keys rising. -/
def put {α : Type} (l : List (Nat × α)) (k : Nat) (x : α) : List (Nat × α) :=
  match l with
  | [] => [(k, x)]
  | (j, y) :: r => if k < j then (k, x) :: (j, y) :: r else if j = k then (k, x) :: r else (j, y) :: put r k x

/-- Remove an entry of a table. -/
def drop1 {α : Type} (l : List (Nat × α)) (k : Nat) : List (Nat × α) := l.filter (fun e => e.1 != k)

/-- Ceiling of a division. -/
def cdiv (a b : Nat) : Nat := (a + b - 1) / b

/-- Numbers of the set bits of a mask, rising. -/
def setBits {n : Nat} (m : BitVec n) : List Nat := (List.range n).filter (fun i => m.getLsbD i)

/-- Exclusive-or of all bits of a number of at most k bits. -/
def parity : Nat → Nat → Nat
  | 0, _ => 0
  | k + 1, v => (v % 2 + parity k (v / 2)) % 2

/-- Apply a state change for each element of a list, in order. -/
def forEach {α σ : Type} (l : List α) (s : σ) (f : α → σ → σ) : σ := l.foldl (fun s x => f x s) s

end Sys2Proof.Machine
end

