-- ==== Sys2Proof/Machine/Shake.lean ====
section
/-! DEFINITION. SHAKE256 (FIPS 202), the stochastic-rounding draw of R45, and CRC-32 (15, Table 15-8). -/

namespace Sys2Proof.Machine

/-- The shift register behind the round constants, of polynomial x^8 + x^6 + x^5 + x^4 + 1, after n steps from 1. -/
def keccakLfsr : Nat → Nat
  | 0 => 1
  | n + 1 =>
    let r := 2 * keccakLfsr n
    if r < 256 then r else r ^^^ 0x171

/-- Round constant of round i: bit 2^j - 1 is the register's low bit after j + 7 i steps, for j from 0 to 6. -/
def keccakRc (i : Nat) : Nat :=
  ((List.range 7).map (fun j => (keccakLfsr (j + 7 * i) % 2) <<< (2 ^ j - 1))).sum

/-- The lanes in the order that rho visits them: from (1, 0), each (x, y) is followed by (y, 2 x + 3 y). -/
def keccakWalk : Nat → Nat × Nat
  | 0 => (1, 0)
  | n + 1 => let (x, y) := keccakWalk n; (y, (2 * x + 3 * y) % 5)

/-- Rotation of lane x + 5 y: the triangular number of its place in the walk, and 0 for lane 0. -/
def keccakRot (i : Nat) : Nat :=
  match (List.range 24).find? (fun t => (keccakWalk t).1 + 5 * (keccakWalk t).2 == i) with
  | some t => (t + 1) * (t + 2) / 2 % 64
  | none => 0

/-- Rotate a 64-bit lane left. -/
def rol64 (v n : Nat) : Nat := if n = 0 then v else (v <<< n) % 2 ^ 64 ||| v >>> (64 - n)

/-- One round on 25 lanes. -/
def keccakRound (a : List Nat) (rc : Nat) : List Nat :=
  let g := fun (l : List Nat) i => l.getD i 0
  let c := (List.range 5).map (fun x => (((g a x ^^^ g a (x + 5)) ^^^ g a (x + 10)) ^^^ g a (x + 15)) ^^^ g a (x + 20))
  let d := (List.range 5).map (fun x => g c ((x + 4) % 5) ^^^ rol64 (g c ((x + 1) % 5)) 1)
  let t := (List.range 25).map (fun i => rol64 (g a i ^^^ g d (i % 5)) (keccakRot i))
  -- rho and pi: lane (y, 2 x + 3 y) takes lane (x, y)
  let b := (List.range 25).map (fun i =>
    let x' := i % 5
    let y' := i / 5
    -- x' = y, y' = 2 x + 3 y, so x = 3 (y' - 3 y) = 3 y' + x' modulo 5, with y = x'
    let x := (x' + 3 * y') % 5
    g t (x + 5 * x'))
  let e := (List.range 25).map (fun i =>
    let x := i % 5
    let y := i / 5
    g b i ^^^ ((2 ^ 64 - 1 - g b ((x + 1) % 5 + 5 * y)) &&& g b ((x + 2) % 5 + 5 * y)))
  match e with
  | z :: r => (z ^^^ rc) :: r
  | [] => []

def keccakF (a : List Nat) : List Nat := (List.range 24).foldl (fun l i => keccakRound l (keccakRc i)) a

/-- Exclusive-or of a block of bytes into the lanes. -/
def keccakAbsorb (a : List Nat) (blk : List Byte) : List Nat :=
  (List.range 25).map (fun i => a.getD i 0 ^^^ leAt blk (8 * i) 8)

/-- Absorb n blocks of 136 bytes. -/
def shakeBlocks : Nat → List Nat → List Byte → List Nat
  | 0, a, _ => a
  | n + 1, a, bs => shakeBlocks n (keccakF (keccakAbsorb a (bs.take 136))) (bs.drop 136)

/-- Squeeze n further bytes, at most 136 a permutation. -/
def shakeOut : Nat → List Nat → List Byte
  | 0, _ => []
  | k + 1, a => (a.take 17).flatMap (leBytes 8) ++ shakeOut k (keccakF a)

/-- SHAKE256 of a message, the first n bytes. -/
def shake256 (msg : List Byte) (n : Nat) : List Byte :=
  let padLen := 136 - msg.length % 136
  let pad : List Byte := if padLen = 1 then [0x9F] else 0x1F :: (List.replicate (padLen - 2) 0 ++ [0x80])
  let m := msg ++ pad
  (shakeOut (cdiv n 136) (shakeBlocks (m.length / 136) (List.replicate 25 0) m)).take n

/-- The 32-bit value r of R45 for an element index. -/
def srDraw (seed tag idx : Nat) : Nat :=
  leAt (shake256 (leBytes 8 seed ++ leBytes 4 tag ++ leBytes 8 (idx / 8)) 32) (4 * (idx % 8)) 4

/-- CRC-32 of IEEE 802.3, one bit at a time over the reflected polynomial. -/
def crcBits : Nat → Nat → Nat
  | 0, c => c
  | k + 1, c => crcBits k (if c % 2 = 1 then (c / 2) ^^^ 0xEDB88320 else c / 2)

def crc32 (bs : List Byte) : Nat :=
  (bs.foldl (fun c b => crcBits 8 (c ^^^ b.toNat)) 0xFFFFFFFF) ^^^ 0xFFFFFFFF

end Sys2Proof.Machine
end

