-- ==== Sys2Proof/Machine/Numeric.lean ====
section
/-! DEFINITION. Number formats, exact values and rounding (02). -/

namespace Sys2Proof.Machine

/-- An exact value: NaN (signalling or quiet), infinity, or (-1)^neg * m * 2^e. -/
inductive Num where
  | nan (sig : Bool)
  | inf (neg : Bool)
  | fin (neg : Bool) (m : Nat) (e : Int)
deriving DecidableEq, Repr

/-- A floating-point element format (02, R30). `special`: 0 no infinity or NaN, 1 as IEEE 754,
2 E4M3 (no infinity, NaN only with every bit set). -/
structure FFmt where
  eb : Nat
  mb : Nat
  bias : Nat
  special : Nat
deriving DecidableEq, Repr

def ffp32 : FFmt := ⟨8, 23, 127, 1⟩
def fbf16 : FFmt := ⟨8, 7, 127, 1⟩
def ffp16 : FFmt := ⟨5, 10, 15, 1⟩
def fe4m3 : FFmt := ⟨4, 3, 7, 2⟩
def fe5m2 : FFmt := ⟨5, 2, 15, 1⟩
def fe3m2 : FFmt := ⟨3, 2, 3, 0⟩
def fe2m3 : FFmt := ⟨2, 3, 1, 0⟩
def fe2m1 : FFmt := ⟨2, 1, 1, 0⟩
/-- binary64, for the bias corrections of the quench unit (14, R343). -/
def ffp64 : FFmt := ⟨11, 52, 1023, 1⟩

/-- Format codes of Table 02-1. -/
def FP32 : Nat := 0
def BF16 : Nat := 1
def FP16 : Nat := 2
def E4M3 : Nat := 3
def E5M2 : Nat := 4
def INT8 : Nat := 5
def MXE4M3 : Nat := 6
def MXE5M2 : Nat := 7
def MXE3M2 : Nat := 8
def MXE2M3 : Nat := 9
def MXE2M1 : Nat := 10
def MXINT8 : Nat := 11
def X96 : Nat := 12

/-- Reserved format codes (02, R29). -/
def fmtRsvd (f : Nat) : Bool := 12 < f
/-- MX block formats. -/
def isMx (f : Nat) : Bool := 6 ≤ f && f ≤ 11

/-- Element layout of a format code, for the floating-point ones. -/
def ffmtOf (f : Nat) : Option FFmt :=
  match f with
  | 0 => some ffp32 | 1 => some fbf16 | 2 => some ffp16 | 3 => some fe4m3 | 4 => some fe5m2
  | 6 => some fe4m3 | 7 => some fe5m2 | 8 => some fe3m2 | 9 => some fe2m3 | 10 => some fe2m1
  | _ => none

/-- Bits of an element in memory (02, Table 02-3). -/
def eltBits (f : Nat) : Nat :=
  match f with
  | 0 => 32 | 1 => 16 | 2 => 16 | 8 => 6 | 9 => 6 | 10 => 4 | 12 => 96 | _ => 8

/-- Bytes of n elements of a format. -/
def eltBytes (f n : Nat) : Nat := cdiv (eltBits f * n) 8

/-- Elements packed as a little-endian bit stream, as Table 02-3 lays them out. -/
def unpack (bits n : Nat) (bs : List Byte) : List Nat :=
  (List.range n).map (fun i =>
    let lo := bits * i / 8
    (leAt bs lo (cdiv (bits + 7) 8) >>> (bits * i % 8)) % 2 ^ bits)

/-- The bytes of packed elements. -/
def packElts (bits : Nat) (es : List Nat) : List Byte :=
  leBytes (cdiv (bits * es.length) 8) (es.foldr (fun e acc => e % 2 ^ bits + acc * 2 ^ bits) 0)

/-- Value of a code of a floating-point format (02, R30). -/
def ffDecode (f : FFmt) (code : Nat) : Num :=
  let neg := decide (code / 2 ^ (f.eb + f.mb) % 2 = 1)
  let ex := code / 2 ^ f.mb % 2 ^ f.eb
  let m := code % 2 ^ f.mb
  if f.special = 1 ∧ ex = 2 ^ f.eb - 1 then
    if m = 0 then .inf neg else .nan (m < 2 ^ (f.mb - 1))
  else if f.special = 2 ∧ ex = 2 ^ f.eb - 1 ∧ m = 2 ^ f.mb - 1 then .nan false
  else if ex = 0 then .fin neg m (1 - (f.bias : Int) - f.mb)
  else .fin neg (2 ^ f.mb + m) ((ex : Int) - f.bias - f.mb)

/-- Two's-complement integer of b bits as a value scaled by 2^e. -/
def intNum (b code : Nat) (e : Int) : Num :=
  let i := sgn b code
  .fin (decide (i < 0)) i.natAbs e

/-- Value of an element code, without its block's scale (02, R30, R31). -/
def decodeElt (f code : Nat) : Num :=
  match ffmtOf f with
  | some ff => ffDecode ff code
  | none => if f = 11 then intNum 8 code (-6) else intNum 8 code 0

/-- Multiply by an E8M0 scale (02, R35). -/
def scaleBy (x : Num) (code : Nat) : Num :=
  if code = 255 then .nan false
  else match x with
    | .fin n m e => .fin n m (e + ((code : Int) - 127))
    | y => y

/-- An X96 integer N at position P (02, R38). -/
def x96Num (n : Nat) (p : Int) : Num := intNum 96 n (p - 64)

/-- Rounding modes of Table 02-6; `sr r` carries the 32-bit value of R45. -/
inductive Rm where
  | rne
  | rtz
  | sr (r : Nat)
deriving DecidableEq, Repr

/-- m * 2^sh rounded to an integer, and whether that changed it (02, R44, R45). -/
def roundShift (rm : Rm) (m : Nat) (sh : Int) : Nat × Bool :=
  if 0 ≤ sh then (m * 2 ^ sh.toNat, false)
  else
    let d := 2 ^ (-sh).toNat
    let lo := m / d
    let rem := m % d
    let up := match rm with
      | .rne => decide (d < 2 * rem) || (decide (2 * rem = d) && decide (lo % 2 = 1))
      | .rtz => false
      | .sr r => decide (r < rem * 2 ^ 32 / d)
    (if up then lo + 1 else lo, decide (rem ≠ 0))

/-- floor(log2 m) for m > 0. -/
def flog2 (m : Nat) : Nat := Nat.log2 m

/-- Flags of a conversion or operation, in the bit order of VEC_FLAG (06, Table 06-10). -/
def fIV : Nat := 1
def fOF : Nat := 2
def fUF : Nat := 4
def fNX : Nat := 8
def fDZ : Nat := 16

/-- Largest finite code, infinity code, and canonical NaN of a format, without sign (02, Table 02-2). -/
def FFmt.maxCode (f : FFmt) : Nat :=
  match f.special with
  | 1 => (2 ^ f.eb - 1) * 2 ^ f.mb - 1
  | 2 => 2 ^ (f.eb + f.mb) - 2
  | _ => 2 ^ (f.eb + f.mb) - 1
def FFmt.infCode (f : FFmt) : Nat := (2 ^ f.eb - 1) * 2 ^ f.mb
def FFmt.nanCode (f : FFmt) : Nat :=
  match f.special with
  | 1 => (2 ^ f.eb - 1) * 2 ^ f.mb + 2 ^ (f.mb - 1)
  | _ => 2 ^ (f.eb + f.mb) - 1
def FFmt.sign (f : FFmt) (neg : Bool) (c : Nat) : Nat := if neg then 2 ^ (f.eb + f.mb) + c else c

/-- A finite magnitude m * 2^e rounded into a format: its code before any overflow rule, whether it
is above the largest finite value, whether it changed, and whether the result is below the smallest
normal (02, R44, R49). -/
def ffRound (f : FFmt) (rm : Rm) (m : Nat) (e : Int) : Nat × Bool × Bool × Bool :=
  if m = 0 then (0, false, false, false)
  else
    let emin : Int := 1 - f.bias
    let q := max ((flog2 m : Int) + e) emin - f.mb
    let (n, nx) := roundShift rm m (e - q)
    let (n, q) := if n = 2 ^ (f.mb + 1) then (2 ^ f.mb, q + 1) else (n, q)
    if n < 2 ^ f.mb then (n, false, nx, true)
    else
      let code := (q + f.mb + f.bias).toNat * 2 ^ f.mb + (n - 2 ^ f.mb)
      (code, decide (f.maxCode < code), nx, false)

/-- Conversion of a value into a floating-point format with infinities or E4M3 (02, Table 02-7): the
code and the flags. -/
def ffConvert (f : FFmt) (rm : Rm) (sat : Bool) (x : Num) : Nat × Nat :=
  match x with
  | .nan sig => (f.nanCode, if sig then fIV else 0)
  | .inf neg =>
    if f.special = 1 then
      if sat then (f.sign neg f.maxCode, fIV) else (f.sign neg f.infCode, 0)
    else if sat then (f.sign neg f.maxCode, fIV) else (f.nanCode, fIV)
  | .fin neg m e =>
    let (c, ov, nx, sub) := ffRound f rm m e
    if ov then
      let toMax := sat || decide (rm = .rtz)
      (if toMax then f.sign neg f.maxCode
        else if f.special = 1 then f.sign neg f.infCode else f.nanCode, fOF + fNX)
    else (f.sign neg c, (if nx then fNX else 0) + (if nx && sub then fUF else 0))

/-- Result of an FP32 operation (02, R49 with SAT = 0). -/
def f32Of (rm : Rm) (x : Num) : Nat × Nat := ffConvert ffp32 rm false x

/-- Conversion to INT8 (02, Table 02-7). -/
def int8Convert (rm : Rm) (x : Num) : Nat × Nat :=
  match x with
  | .nan _ => (0, fIV)
  | .inf neg => (if neg then 0x80 else 0x7F, fIV)
  | .fin neg m e =>
    let (n, nx) := roundShift rm m e
    if neg then
      if 128 < n then (0x80, fIV)
      else ((256 - n) % 256, (if nx then fNX else 0) + (if nx && n == 0 then fUF else 0))
    else if 127 < n then (0x7F, fIV)
    else (n, (if nx then fNX else 0) + (if nx && n == 0 then fUF else 0))

/-- Compare magnitudes m1 * 2^e1 < m2 * 2^e2. -/
def magLt (m1 : Nat) (e1 : Int) (m2 : Nat) (e2 : Int) : Bool :=
  let e := min e1 e2
  decide (m1 * 2 ^ (e1 - e).toNat < m2 * 2 ^ (e2 - e).toNat)

/-- An exact finite sum: an integer times 2^e. -/
structure Dy where
  i : Int
  e : Int
deriving DecidableEq, Repr

def Dy.add (a b : Dy) : Dy :=
  let e := min a.e b.e
  ⟨a.i * 2 ^ (a.e - e).toNat + b.i * 2 ^ (b.e - e).toNat, e⟩
def Dy.mul (a b : Dy) : Dy := ⟨a.i * b.i, a.e + b.e⟩
def Dy.neg (a : Dy) : Dy := ⟨-a.i, a.e⟩
def Dy.zero : Dy := ⟨0, 0⟩
def Dy.num (a : Dy) : Num := .fin (decide (a.i < 0)) a.i.natAbs a.e
def Dy.le (a b : Dy) : Bool := decide ((a.add b.neg).i ≤ 0)
def Dy.abs (a : Dy) : Dy := ⟨a.i.natAbs, a.e⟩

/-- Finite part of a value; zero for the others. -/
def Num.dy : Num → Dy
  | .fin n m e => ⟨if n then -(m : Int) else m, e⟩
  | _ => Dy.zero
def Num.isNan : Num → Bool
  | .nan _ => true
  | _ => false
def Num.isInf : Num → Bool
  | .inf _ => true
  | _ => false
def Num.isFin : Num → Bool
  | .fin _ _ _ => true
  | _ => false
def Num.isZero : Num → Bool
  | .fin _ 0 _ => true
  | _ => false
def Num.neg : Num → Bool
  | .nan _ => false
  | .inf n => n
  | .fin n _ _ => n
def Num.negate : Num → Num
  | .nan s => .nan s
  | .inf n => .inf !n
  | .fin n m e => .fin (!n) m e
def Num.sig : Num → Bool
  | .nan s => s
  | _ => false

/-- Exact sum of two values with the invalid case of opposite infinities (02, R34; IEEE 754-2019). -/
def numAdd (a b : Num) : Num × Nat :=
  match a, b with
  | .nan s, y => (.nan false, if s || y.sig then fIV else 0)
  | .fin _ _ _, .nan s => (.nan false, if s then fIV else 0)
  | .inf _, .nan s => (.nan false, if s then fIV else 0)
  | .inf n, .inf k => if n = k then (.inf n, 0) else (.nan false, fIV)
  | .inf n, .fin _ _ _ => (.inf n, 0)
  | .fin _ _ _, .inf k => (.inf k, 0)
  | .fin n m e, .fin k m' e' =>
    let d := (Num.fin n m e).dy.add (Num.fin k m' e').dy
    if d.i = 0 then (.fin (n && k && (m == 0)) 0 0, 0) else (d.num, 0)

/-- Exact product (IEEE 754-2019). -/
def numMul (a b : Num) : Num × Nat :=
  match a, b with
  | .nan s, y => (.nan false, if s || y.sig then fIV else 0)
  | .fin _ _ _, .nan s => (.nan false, if s then fIV else 0)
  | .inf _, .nan s => (.nan false, if s then fIV else 0)
  | .inf n, .inf k => (.inf (n ^^ k), 0)
  | .inf n, .fin k m _ => if m = 0 then (.nan false, fIV) else (.inf (n ^^ k), 0)
  | .fin n m _, .inf k => if m = 0 then (.nan false, fIV) else (.inf (n ^^ k), 0)
  | .fin n m e, .fin k m' e' => (.fin (n ^^ k) (m * m') (e + e'), 0)

/-- X96 status bits (02, Table 02-5). -/
def xINX : Nat := 1
def xOVF : Nat := 2
def xNAN : Nat := 4
def xPINF : Nat := 8
def xNINF : Nat := 16

/-- A term as it enters an X96 element at position P: the integer added and the status (02, R39). -/
def x96Term (p : Int) (x : Num) : Int × Nat :=
  let lim : Int := 2 ^ 71 - 1
  match x with
  | .nan _ => (0, xNAN)
  | .inf neg => (if neg then -lim else lim, xOVF + (if neg then xNINF else xPINF))
  | .fin neg m e =>
    let (n, nx) := roundShift .rne m (e - (p - 64))
    let inx := if nx then xINX else 0
    if 2 ^ 71 ≤ n then (if neg then -lim else lim, inx + xOVF)
    else (if neg then -(n : Int) else n, inx)

/-- Integer addition of X96 codes modulo 2^96 (02, R40, R41). -/
def x96Add (n : Nat) (i : Int) : Nat := twos 96 ((n : Int) + i)

/-- Conversion of an X96 integer from P to P' (02, R41). -/
def x96Move (n : Nat) (p p' : Int) : Nat × Nat :=
  match x96Num n p with
  | .fin neg m e =>
    let (k, nx) := roundShift .rne m (e - (p' - 64))
    let inx := if nx then xINX else 0
    if 2 ^ 95 ≤ k then (twos 96 (if neg then -(2 ^ 95 - 1) else 2 ^ 95 - 1), inx ||| xOVF)
    else (twos 96 (if neg then -(k : Int) else k), inx)
  | _ => (0, 0)

/-- Saturating exponents emax of Table 02-3. -/
def mxEmax (f : Nat) : Int :=
  match f with
  | 6 => 8 | 7 => 15 | 8 => 4 | 9 => 2 | 10 => 2 | _ => 0

/-- One element of an MX block quantised at scale x = 2^sx (02, R37). -/
def mxElt (f : Nat) (rm : Rm) (sx : Int) (v : Num) : Nat × Nat :=
  match v with
  | .fin neg m e =>
    match ffmtOf f with
    | some ff =>
      let (c, _, nx, sub) := ffRound ff rm m (e - sx)
      let mx := if ff.special = 1 then (2 ^ ff.eb - 1) * 2 ^ ff.mb - 1 else ff.maxCode
      if mx < c then (ff.sign neg mx, fOF + fNX)
      else (ff.sign neg c, (if nx then fNX else 0) + (if nx && sub then fUF else 0))
    | none =>
      let (n, nx) := roundShift rm m (e - sx + 6)
      if neg then
        if 128 < n then (0x80, fOF + fNX)
        else ((256 - n) % 256, (if nx then fNX else 0) + (if nx && n == 0 then fUF else 0))
      else if 127 < n then (0x7F, fOF + fNX)
      else (n, (if nx then fNX else 0) + (if nx && n == 0 then fUF else 0))
  | _ => (0, 0)

/-- Largest magnitude of a list of finite values. -/
def maxMag (vs : List Num) : Nat × Int :=
  vs.foldl (fun a v => match v with
    | .fin _ m e => if a.1 = 0 then (m, e) else if m ≠ 0 ∧ magLt a.1 a.2 m e then (m, e) else a
    | _ => a) (0, 0)

/-- Quantisation of a block (02, R37): scale code, element codes and flags; `rms` gives each element's
rounding (they differ under SR). -/
def mxQuant (f : Nat) (rms : List Rm) (vs : List Num) : Nat × List Nat × List Nat :=
  if vs.any (fun v => v.isNan || v.isInf) then
    (255, vs.map (fun _ => 0), vs.map (fun v => if v.isInf || v.sig then fIV else 0))
  else
    let (m, e) := maxMag vs
    if m = 0 then
      (0, vs.map (fun v => match ffmtOf f with | some ff => ff.sign v.neg 0 | none => 0), vs.map (fun _ => 0))
    else
      let ec := (flog2 m : Int) + e - mxEmax f + 127
      let sc := min (max ec 0) 254
      let r := (vs.zip rms).map (fun p => mxElt f p.2 (sc - 127) p.1)
      (sc.toNat, r.map (·.1), r.map (·.2))

/-- Term of a block: exact sum of its products scaled (03, R60, R62), and the ANV_FLAG bits it sets
(NANOP 1, INV 2, INFOP 8); a signalling operand raises invalid (02, R33). A term that is exactly zero is -0 when every
product has a negative sign, an integer zero times a negative one included (log 54). -/
def blockTerm (fa fb : Nat) (a w : List Nat) (sa sb : Nat) : Num × Nat :=
  let xs := a.map (fun c => scaleBy (decodeElt fa c) sa)
  let ys := w.map (fun c => scaleBy (decodeElt fb c) sb)
  let ps := xs.zip ys
  let nanop := ps.any (fun p => p.1.isNan || p.2.isNan)
  let sig := ps.any (fun p => p.1.sig || p.2.sig)
  let prods := (ps.filter (fun p => !(p.1.isNan || p.2.isNan))).map (fun p => numMul p.1 p.2)
  let pinf := prods.any (fun p => p.1 == .inf false)
  let ninf := prods.any (fun p => p.1 == .inf true)
  let inv := prods.any (fun p => p.1.isNan) || (pinf && ninf)
  if nanop || inv then (.nan false, (if nanop then 1 else 0) + (if inv || sig then 2 else 0))
  else if pinf then (.inf false, 8)
  else if ninf then (.inf true, 8)
  else
    let d := prods.foldl (fun acc p => acc.add p.1.dy) Dy.zero
    if d.i = 0 then (.fin (prods.all (fun p => p.1.neg)) 0 0, 0) else (d.num, 0)

/-- One fused step of the FP32 running sum (03, R61, R62): new code and ANV_FLAG bits (INV 2, OVF 4). A signalling
running sum, which an initial value may be, raises invalid (02, R33). -/
def sumStep (s : Nat) (t : Num) : Nat × Nat :=
  let (x, fl) := numAdd (ffDecode ffp32 s) t
  let (c, cf) := f32Of .rne x
  (c, (if fl.testBit 0 then 2 else 0) + (if cf.testBit 1 then 4 else 0))

/-- FP32 addition with round-to-nearest-even (04, R100). -/
def add32 (a b : Nat) : Nat := (f32Of .rne (numAdd (ffDecode ffp32 a) (ffDecode ffp32 b)).1).1
/-- An operand of an FP32 addition is a signalling NaN (02, R33). -/
def sig32 (a b : Nat) : Bool := (ffDecode ffp32 a).sig || (ffDecode ffp32 b).sig

/-- Rounding mode of a 2-bit code with the SR value at hand (02, Table 02-6). -/
def rmOf (code r : Nat) : Rm := if code = 0 then .rne else if code = 1 then .rtz else .sr r

end Sys2Proof.Machine
end

