-- ==== Sys2Proof/Machine/StateTile.lean ====
section
/-! DEFINITION. The state of one tile: anvil, accumulator, window unit, vector and special-function
units, command stream, bellows cores (03 to 08, 10, 11, 15). Registers are words of 64 bits whose
fields are read by position, so that a register is what software reads. -/

namespace Sys2Proof.Machine

/-- The plane an LDP gives: format, KP, NP, checksum column (03, R63, R64, R69). -/
structure PlaneInfo where
  fmt : Nat
  kp : Nat
  np : Nat
  ck : Bool
deriving DecidableEq, Repr

/-- One plane buffer (03, R58, R66, R68): the most recent LDP issued to it, and what its cells hold:
per column the KP element codes and the KP/32 scale codes. -/
structure PlaneBuf where
  issued : Option PlaneInfo := none
  loading : Bool := false
  ready : Bool := false
  cols : List (List Nat) := []
  scales : List (List Nat) := []
deriving DecidableEq, Repr

/-- An MMT past its issue checks: the word, the values its bound registers gave, the plane it was
checked against, the window row it starts at and the chain segment it consumes or sends. -/
structure MmtJob where
  w : Word128
  m : Nat
  plane : PlaneInfo
  /-- first window-unit row: (oy, ox or r, ch), for `SRC` = 1 -/
  win : Nat × Nat × Nat
  /-- sequence number of the segment sent, for `DEST` = chain-out -/
  seqOut : Nat
  /-- rows entered, and rows whose output has been written or sent -/
  entered : Nat := 0
  written : Nat := 0
  /-- X96 status raised so far, with that of the initial slot or arriving segment (R104, R105) -/
  status : Nat := 0
  /-- fc at which its present chain wait began (R108) -/
  waitFc : Option Nat := none
deriving DecidableEq, Repr

/-- An LDP past its issue checks (03, R63, R64). -/
structure LdpJob where
  w : Word128
  info : PlaneInfo
deriving DecidableEq, Repr

/-- An AINI, AADD or ASND in the accumulator pipe, with the rows it has processed (04, R97 to R107). -/
structure AccJob where
  w : Word128
  rows : Nat
  done : Nat := 0
  seqOut : Nat := 0
  /-- fc at which an ASND began to wait for credit (R108) -/
  waitFc : Option Nat := none
deriving DecidableEq, Repr

/-- What the anvil queue holds (03, R75; 04, R97). -/
inductive AnvOp where
  | mmt (j : MmtJob)
  | ldp (j : LdpJob)
  | acc (j : AccJob)
deriving DecidableEq, Repr

/-- An instruction in issue order: `seq` numbers every issued instruction of the tile, `idx` is its
word index in the command stream. -/
structure AnvJob where
  seq : Nat
  idx : Nat
  op : AnvOp
deriving DecidableEq, Repr

/-- An input row in the array (03, R57, R71; 15, R354): its MMT, its index, the term of every block of
every column with the ANV_FLAG bits they set, and the initial values taken when `INIT` = chain-in. -/
structure ArrayRow where
  seq : Nat
  row : Nat
  terms : List (List Num)
  flags : Nat
  init : List Nat
deriving DecidableEq, Repr

/-- One row of a chain segment with the header and, on the last row, the trailer (04, R104). -/
structure ChainRow where
  fmt : Nat
  px : Nat
  m : Nat
  np : Nat
  seq : Nat
  row : Nat
  vals : List Nat
  status : Nat
  remote : Bool
  poison : Bool := false
deriving DecidableEq, Repr

/-- A resident window-unit line: output row, tap row, elements, whether a ZRC row overran its stride, and a poisoned
sector among its bytes (05, R120, R122; 09, R215). -/
structure WinLine where
  line : Nat
  oy : Nat
  ty : Nat
  elems : List Nat
  overrun : Bool
  poison : Option Nat
deriving DecidableEq, Repr

/-- A vector or special-function instruction past issue, with the vector length, address registers
and index values in force at its issue (06, R128, R139; 07, R157). -/
structure VecJob where
  seq : Nat
  idx : Nat
  w : Word128
  vl : Nat
  addr : List Reg
  ibase : Nat
  rstr : Nat
  tag : Nat
  /-- seed read when the instruction enters the pipe (R145) -/
  seed : Nat := 0
  /-- rows completed -/
  done : Nat := 0
  /-- flags collected, in `VEC_FLAG` order, and the lanes that raised a flag selected by `FSEL` -/
  flags : Nat := 0
  fmask : BitVec 512 := 0
  /-- first row and lowest lane with an out-of-range index (R144) -/
  oor : Option (Nat × Nat) := none
  /-- ZRC bytes so far: written in memory units and in total (R151) -/
  zpos : Nat := 0
  zlen : Nat := 0
deriving DecidableEq, Repr

/-- Increment of SINC or CINC: a local or remote counter (11, R254, R275). -/
structure SincOp where
  remote : Bool
  dev : Nat
  ctr : Nat
  amt : Nat
deriving DecidableEq, Repr

/-- A DMK or SINC that has issued and not taken effect (10, R229; 11, R275). -/
structure MarkOp where
  seq : Nat
  pipes : Nat
  sinc : Option SincOp
deriving DecidableEq, Repr

/-- Outcome of a wait (11, R258), in order of precedence. -/
inductive WaitEnd where
  | satisfied
  | ownerLost
  | timeout
deriving DecidableEq, Repr

/-- The SWAT in progress of a tile (11, R256 to R260). -/
structure TileWait where
  ctr : Nat
  tgt : Nat
  k : Nat
  /-- fc at which it was posted, and fc its hearth had spent outside RUN by then -/
  fc : Nat
  held : Nat
  ended : Option WaitEnd := none
  lent : Bool := false
  /-- the record of the owner loss that ended it; the fc in which the outcome arose, and the owner of the counter then -/
  esq : Option Nat := none
  endFc : Nat := 0
  owner : Nat := 0
deriving DecidableEq, Repr

/-- Where a bellows request writes. -/
inductive ReqDst where
  /-- a local address -/
  | loc (a : Nat)
  /-- window offset in every tile of a mask -/
  | tiles (mask : BitVec 32) (off : Nat)
  /-- an address of another device -/
  | dev (d : BitVec 20) (a : Nat)
  /-- bytes of table `slot` of the thread's instruction, from this offset on -/
  | tab (slot off : Nat)
  /-- a prefetch or a directory read: no destination -/
  | none
deriving DecidableEq, Repr

/-- A request in flight (10, R225): at most one granule of whole sectors, its source, destination,
hint and the landing it serves. -/
structure Req where
  core : Nat
  thr : Nat
  /-- local source address, or the device and address of a remote source -/
  src : Nat
  srcDev : Option (BitVec 20)
  /-- frame number of the READ or WRITE that carries it -/
  fnum : Option Nat := none
  len : Nat
  dst : ReqDst
  hint : Hint
  /-- landing group: requests of one instruction share its number -/
  grp : Nat
  /-- the row of an invalid page: zero bytes with no source (R240) -/
  zero : Bool := false
  /-- its READ or WRITE has been given to the link -/
  sent : Bool := false
  /-- the bytes themselves, where the device makes them and reads no source -/
  data : List Byte := []
  /-- the directory entry whose APPEND it belongs to (08, R181, R184) -/
  ent : Option Nat := none
deriving DecidableEq, Repr

/-- State of a bellows thread that is not IDLE (10, Table 10-1). -/
inductive ThreadSt where
  | run
  | wait
  | fault
deriving DecidableEq, Repr

/-- A bellows thread: registers b0 to b15, program counter, loop stack of (first word, count)
(10, R224), and the page walker's stall (08, R185). -/
structure Thread where
  st : ThreadSt := .run
  b : Vector (BitVec 64) 16
  pc : Nat
  loops : List (Nat × Nat) := []
  /-- ring stall of the page walker: true for the release ring; the fc at which it began -/
  stall : Option (Bool × Nat) := none
  /-- a move or page walk is under way: rows, positions or entries done, the index or directory entry last
  read, its landing group, and requests that wait for a token -/
  going : Bool := false
  step : Nat := 0
  aux : Nat := 0
  grp : Nat := 0
  todo : List Req := []
  /-- its tables on other devices have been read and its checks made -/
  begun : Bool := false
  /-- bytes of those tables: slot, offset, bytes, poisoned -/
  tabs : List (Nat × Nat × List Byte × Bool) := []
  /-- the directory entry last read: its address and value (10, R241) -/
  entry : Option (Nat × Nat) := none
deriving DecidableEq, Repr

/-- A landing increment not yet made: counter `land` of the tiles of `mask`, once no request of group
`grp` is in flight (10, R230). -/
structure Landing where
  grp : Nat
  land : Nat
  mask : BitVec 32
deriving DecidableEq, Repr

/-- A row recorded for poison recovery: the source sector reached this tile's scratch by a multicast
(15, R366). -/
structure McstRow where
  src : Nat
  len : Nat
  mask : BitVec 32
  off : Nat
deriving DecidableEq, Repr

/-- A failed row being replayed (15, R358): the row, the first result, whether the pair's shadow
differed, and the rows suppressed with it, in entry order. -/
structure Replay where
  row : ArrayRow
  first : List Nat
  firstShadow : List Nat
  entered : Bool
  later : List ArrayRow
deriving DecidableEq, Repr

/-- A pipe held on a poisoned sector (09, R215): which pipe (0 row, 1 load, 2 accumulator, 3 vector or
special-function) and the address. -/
structure Hold where
  pipe : Nat
  addr : Nat
deriving DecidableEq, Repr

/-- Anvil and plane state of a tile (03, Tables 03-9 to 03-14). -/
structure Anvil where
  cfg : Reg := 0
  flag : Reg := 0
  flagNow : SetNow := {}
  fault : Reg := 0
  bound : Vector Reg 16 := Vector.replicate 16 0
  bkt : Vector Reg 64 := Vector.replicate 64 0
  buf : Vector PlaneBuf 2 := Vector.replicate 2 {}
  /-- the anvil queue of 16 entries -/
  queue : List AnvJob := []
  /-- the MMT in the row pipe, and finished ones whose rows are still in the array -/
  rowPipe : List AnvJob := []
  loadPipe : Option AnvJob := none
  accPipe : Option AnvJob := none
  array : List ArrayRow := []
  replay : Option Replay := none
  /-- rows to re-enter after a resolved replay -/
  reenter : List ArrayRow := []
deriving DecidableEq, Repr

/-- Accumulator and chain state (04, Tables 04-10 to 04-15). -/
structure Accum where
  /-- reset: CTMO 30 -/
  cfg : Reg := 0x3C00
  /-- reset: NSLOT 8, SCL and SRL 0b11 -/
  geom : Reg := 0x80F
  chain : Reg := 0
  fault : Reg := 0
  /-- PX, INC and STATUS; WPEND is computed on read; reset PX 64 -/
  sst : Vector Reg 64 := Vector.replicate 64 0x4000
  sstNow : Vector SetNow 64 := Vector.replicate 64 {}
  /-- PX that the instructions issued so far leave (R93) -/
  trackPX : Vector Nat 64 := Vector.replicate 64 64
  segIn : Nat := 0
  fifo : List ChainRow := []
  /-- rows reserved for the upstream tile and rows on their way (R106) -/
  reserved : Nat := 0
  arriving : List ChainRow := []
  seqOut : Nat := 0
  /-- last sequence number from the chain-in source; by source, as ACC_CHAIN names it, those of earlier ones; and
  whether no segment has been consumed since the ACHN (R105, log 18) -/
  seqIn : Nat := 0
  seqOld : List (Nat × Nat) := []
  seqNew : Bool := true
  /-- fc since which the stream holds at an MMT that waits for the header of its segment (R105, R108) -/
  headFc : Option Nat := none
  /-- bytes of a remote segment whose row is not complete (R107, Table 12-4) -/
  rx : List Byte := []
  rxRow : Nat := 0
  /-- poisoned sectors of `rx`, by number from its first byte, and the header of the segment arriving -/
  rxPsn : List Nat := []
  rxHdr : Option (List Byte) := none
  /-- CHAIN_LATE declared for the present wait for a reservation -/
  late : Bool := false
deriving DecidableEq, Repr

/-- Window-unit state (05, R114, R118, R120, Tables 05-4 and 05-5). -/
structure Window where
  wcf : Option Word128 := none
  win : Option Word128 := none
  oy : Nat := 0
  ox : Nat := 0
  ch : Nat := 0
  lines : List WinLine := []
  fault : Reg := 0
  /-- LINE_LATE declared for the line being waited for -/
  late : Bool := false
deriving DecidableEq, Repr

/-- Vector and special-function state (06, Tables 06-8 to 06-12; 07, Table 07-11; 08, Table 08-2). -/
structure Vec where
  /-- lane l of register r at key 512 r + l; an unlisted lane holds 0 -/
  lanes : List (Nat × BitVec 32) := []
  masks : Vector (BitVec 512) 8 := Vector.replicate 8 0
  vl : Nat := 512
  cfg : Reg := 0
  flag : Reg := 0
  flagNow : SetNow := {}
  fault : Reg := 0
  zlen : Reg := 0
  idx : Reg := 0
  tag : Reg := 0
  addr : Vector Reg 8 := Vector.replicate 8 0
  queue : List VecJob := []
  run : Option VecJob := none
  sfuFault : Reg := 0
  mgen : Reg := 0
  mdoc : Reg := 0
  mpos : Reg := 0
deriving DecidableEq, Repr

/-- Bellows and command-stream state (10, Tables 10-13 to 10-18 and 10-24). -/
structure Bellows where
  /-- reset: THR 0b01 -/
  cfg : Reg := 0x2
  mark : Reg := 0
  fault : Reg := 0
  pfdrop : Reg := 0
  land : Vector Reg 32 := Vector.replicate 32 0
  csBase : Reg := 0
  csLim : Reg := 0
  /-- WORD and STATE of BLW_CSCTL -/
  csCtl : Reg := 0
  /-- program memory; an unlisted word is 0 -/
  prog : List (Nat × BitVec 64) := []
  /-- threads that are not IDLE, at key 16 core + thread -/
  threads : List (Nat × Thread) := []
  /-- per core, the thread that issued last (10, R223) -/
  turns : List (Nat × Nat) := []
  /-- a reset waits for the requests in flight of the hearth that made them (10, R226) -/
  draining : Option Nat := none
  reqs : List Req := []
  landings : List Landing := []
  nextGrp : Nat := 0
  marks : List MarkOp := []
  mcst : List McstRow := []
  /-- an AGEO or ACHN that holds the command stream until it applies (R98, R103) -/
  pend : Option Word128 := none
  /-- fc at which the stream began to hold at its word -/
  pendFc : Nat := 0
  /-- landing counter and value a DWT is late for (R231) -/
  late : Option (Nat × Nat) := none
deriving DecidableEq, Repr

/-- Counter, check and phase state of a tile (11, Table 11-14; 13, R331; 15, Tables 15-12 to 15-15). -/
structure TileMisc where
  synTb : Vector Reg 8 := Vector.replicate 8 0
  synTbW : Vector Bool 8 := Vector.replicate 8 false
  synFault : Reg := 0
  wait : Option TileWait := none
  scrEcc : Reg := 0
  chkTcfg : Reg := 0
  chkTstat : Reg := 0
  /-- reset: ST DUE -/
  chkSpk0 : Reg := 0x4
  chkSpk1 : Reg := 0
  chkFault : Reg := 0
  /-- fc of the last spark round and of becoming DUE -/
  spkLast : Nat := 0
  spkDue : Nat := 0
  /-- OVERDUE raised once (R370) -/
  spkOver : Bool := false
  holds : List Hold := []
  /-- record that stopped the stream last (16, Table 16-6) -/
  faultSeq : Option Nat := none
  /-- open phase window: tag and start (13, R331) -/
  ph : Option (Nat × Nat) := none
  /-- scratch MiB lent (R199) -/
  lend : Nat := 0
  /-- number of the next instruction issued -/
  seq : Nat := 0
deriving DecidableEq, Repr

/-- One tile. -/
structure Tile where
  anv : Anvil := {}
  acc : Accum := {}
  win : Window := {}
  vec : Vec := {}
  blw : Bellows := {}
  misc : TileMisc := {}
deriving DecidableEq, Repr

end Sys2Proof.Machine
end

