-- ==== Sys2Proof/Machine/StateHearth.lean ====
section
/-! DEFINITION. The state of a hearth, of the work queues and of the Temper engine (08 to 11, 13 to 17). -/

namespace Sys2Proof.Machine

/-- A queue entry of a JOB section (17, Table 17-9). -/
structure QEntry where
  queue : Nat
  logn : Nat
  prod : Nat
  lbase : Nat
deriving DecidableEq, Repr

/-- HEARTH payload fields (17, Table 17-7); `present` is false for a hearth that owns no units. -/
structure HearthSec where
  present : Bool := false
  tiles : BitVec 32 := 0
  hobs : BitVec 16 := 0
  svc : Nat := 0
  vf : Nat := 0
  regions : BitVec 64 := 0
  hash : Bool := false
  lend : Nat := 0
  thr : Nat := 1
  srl : Nat := 3
  scl : Nat := 3
  sfmt : Nat := 0
  geoen : Nat := 0
  cbase : Nat := 0
  nblk : Nat := 0
  min0 : Nat := 0
  min1 : Nat := 0
  queues : BitVec 256 := 0
  part : List Nat := []
deriving DecidableEq, Repr

/-- LIMITS payload fields (17, Table 17-8). -/
structure LimitsSec where
  pbudget : Nat := 0
  clkmin : Nat := 3
  clkmax : Nat := 0
  bwfloor : Nat := 0
  lvlmax : Nat := 0
  ivl : Nat := 41
  defer : Nat := 40
  bytemax : Nat := 0
  incmax : Nat := 0
  wins : List (List Nat) := []
deriving DecidableEq, Repr

/-- JOB payload fields (17, Table 17-9). -/
structure JobSec where
  level : Nat := 0
  dyn : Nat := 0
  oortrap : Nat := 0
  qchen : Nat := 0
  ngrp : Nat := 1
  ctmo : Nat := 30
  qs : List QEntry := []
deriving DecidableEq, Repr

/-- The sections of one hearth. -/
structure HearthCfg where
  h : HearthSec := {}
  l : LimitsSec := {}
  j : JobSec := {}
  regs : List (Nat × Nat) := []
deriving DecidableEq, Repr

/-- DEVICE and ALLOW payload fields (17, Tables 17-4 and 17-5). -/
structure DevCfg where
  pcap : Nat := 2200
  nvf : Nat := 0
  topoid : Nat := 0
  tkey : List Byte := []
  ranges : List (Nat × Nat) := []
  revs : List Nat := []
deriving DecidableEq, Repr

/-- LINK payload fields (17, Table 17-6): per port (role, media, ctmo, rtmo); per port detour byte. -/
structure LinkCfg where
  mode : Nat := 0
  dev : Nat := 0
  size : Nat := 0
  etmo : Nat := 18
  ports : List (Nat × Nat × Nat × Nat) := []
  dtr : List Nat := []
deriving DecidableEq, Repr

/-- A whole configuration: what the committed images of every scope say. -/
structure Cfg where
  dev : DevCfg := {}
  link : LinkCfg := {}
  hearths : Vector HearthCfg 16 := Vector.replicate 16 {}
  serDev : Nat := 0
  ser : Vector Nat 16 := Vector.replicate 16 0
deriving DecidableEq, Repr

/-- Temper engine states (17, Table 17-13). -/
inductive TmpSt where
  | idle
  | verify
  | quiesce
  | apply
  | staged
  | committing
deriving DecidableEq, Repr

/-- The Temper engine (17, R412 to R419, Tables 17-17 to 17-19): the image in progress as bytes, the
configuration it leads to, the function that submitted it through a mailbox, the hearths the device
pre-empted and the ports it disabled for it, and the fc at which the state was entered. -/
structure Temper where
  st : TmpSt := .idle
  image : List Byte := []
  next : Option Cfg := none
  mbx : Option Nat := none
  boot : Bool := false
  preempted : List Nat := []
  ports : List Nat := []
  since : Nat := 0
  code : Nat := 0
  rejects : Nat := 0
  scope : Nat := 0
  hearth : Nat := 0
  /-- QTMO, reset 36 -/
  qtmo : Nat := 36
  /-- the configuration in force and the durable one that the next reset applies -/
  cur : Cfg := {}
  durable : Cfg := {}
deriving DecidableEq, Repr

/-- A maintenance operation in progress (09, R211): granules still to write back. -/
structure MtlJob where
  inv : Bool
  base : Nat
  len : Nat
deriving DecidableEq, Repr

/-- A notice to a member of the check group (15, R363): rank, kind 1 CONFIRM, 2 RETRACT, 3 COMMIT,
epoch, trigger; `sent` while its increment is not acknowledged. -/
structure Notice where
  rank : Nat
  kind : Nat
  epoch : Nat
  trig : Nat
  sent : Bool := false
deriving DecidableEq, Repr

/-- A poison recovery in progress (15, R366): the source sector, the holder's agent code, the fc at
which the peer was asked. -/
structure Recovery where
  addr : Nat
  dst : Nat
  agent : Nat
  since : Nat
deriving DecidableEq, Repr

/-- Registers of a hearth's control block: page walker, memory, schedule and arena (08, Table 08-7;
09, Tables 09-12 to 09-14; 10, Tables 10-19 to 10-23; 06, Table 06-13). -/
structure HMem where
  vecSeed : Vector Reg 4 := Vector.replicate 4 0
  kvcfg : Reg := 0x1400
  kvrc : Reg := 0
  kvfree : Reg := 8
  kvfptr : Reg := 0
  kvrel : Reg := 8
  kvrptr : Reg := 0
  kvcnt : Reg := 0
  /-- directory entries on which an APPEND is under way, and what each becomes (08, R181, R184) -/
  kvLocks : List (Nat × Nat) := []
  /-- LEND, MIN1, MIN0; the USED counts are computed on read -/
  mtlShare : Reg := 0
  mtlOp : Reg := 0
  mtlNow : SetNow := {}
  mtlOpadr : Reg := 0
  mtlOplen : Reg := 0
  mtlStat0 : Reg := 0
  mtlStat1 : Reg := 0
  /-- reset: HTMO 30 -/
  sched : Reg := 0x1E00
  brch : Reg := 0
  held : Reg := 0
  mcg : Vector Reg 16 := Vector.replicate 16 0
  actBase : Reg := 0
  actLim : Reg := 0
  actUsed : Reg := 0
deriving DecidableEq, Repr

/-- Counter, link, collective and quench registers of a hearth (11, Tables 11-11 to 11-13; 12, Tables
12-19 and 12-20; 13, Tables 13-14 and 13-15; 14, Tables 14-6 to 14-8). -/
structure HNet where
  /-- reset: TMO_DEF 28 -/
  synCfg : Reg := 0x1C000000
  issued : Reg := 0
  done : Reg := 0
  loc : Reg := 0
  out : Reg := 0
  rxacc : Reg := 0
  rxapp : Reg := 0
  pend : Reg := 0
  rxcnt : Reg := 0
  ws0 : Vector Reg 32 := Vector.replicate 32 0
  ws1 : Vector Reg 32 := Vector.replicate 32 0
  lnkWin : Vector (Vector Reg 4) 16 := Vector.replicate 16 (Vector.replicate 4 0)
  lnkRate : Reg := 0
  lnkRateCnt : Reg := 0
  grp0 : Vector Reg 64 := Vector.replicate 64 0
  grp1 : Vector Reg 64 := Vector.replicate 64 0
  /-- reset: TMO 30 -/
  colCfg : Reg := 30
  phBase : Reg := 0
  phPtr : Reg := 0
  /-- reset: NGRP 1 -/
  qchCfg : Reg := 0x4
  qchGen : Reg := 0
  qchStat0 : Reg := 0
  qchStat1 : Reg := 0
deriving DecidableEq, Repr

/-- Check, work and power registers of a hearth (15, Tables 15-16 to 15-20; 16, Table 16-16; 19,
Table 19-12). -/
structure HChk where
  /-- reset: CTMO 34, RTMO 24, IVL 41, DEFER 40 -/
  chkCfg : Reg := 0x898A68000000
  epoch : Reg := 0
  /-- the value last written to `CHK_EPOCH`, which an OPEN opens -/
  epochReq : Reg := 0
  ectl : Reg := 0
  chkGrp0 : Reg := 0
  chkGrp1 : Reg := 0
  peer : Vector Reg 3 := Vector.replicate 3 0
  hstat : Reg := 0
  /-- reset: MAXRST 3, TMO_DEF 40 -/
  hcfg : Reg := 0x3A000000000
  hctl : Reg := 0
  salt : Reg := 0
  audit : Vector Reg 4 := Vector.replicate 4 0
  pwr0 : Reg := 0
  /-- reset: STEP 3, CLKMIN 3, CLKMAX 0 -/
  pwr1 : Reg := 0x3C
deriving DecidableEq, Repr

/-- What a hearth holds beside its registers. -/
structure HRun where
  /-- RWL fields locked by a commit (R11, R417) -/
  locked : Bool := false
  /-- fc at which the hold state was entered -/
  since : Nat := 0
  /-- last window of 2^16 fc in which each cause raised a record (R245) -/
  seen : Vector (Option Nat) 9 := Vector.replicate 9 none
  /-- fc at which each armed wait slot was posted; outcome fixed and not yet notified -/
  wsFc : Vector Nat 32 := Vector.replicate 32 0
  wsEnd : Vector (Option WaitEnd) 32 := Vector.replicate 32 none
  /-- fc in which that outcome arose -/
  wsEndFc : Vector Nat 32 := Vector.replicate 32 0
  mtl : Option MtlJob := none
  /-- highest epoch opened since the last cold reset (R360) -/
  epochHigh : Nat := 0
  /-- the 16 most recent retracted epochs (R364) -/
  retracted : List Nat := []
  /-- what the check unit last read on the board: epoch at key 4 rank + kind; the value of `NCTR` it has read
  up to; fc at which the epoch became CONFIRMED -/
  board : List (Nat × Nat) := []
  nctrRead : Nat := 0
  confirmedFc : Nat := 0
  notices : List Notice := []
  recovery : List Recovery := []
  /-- per-source use of the rate limits in the present window (R304): source, bytes, increments -/
  rateWin : Nat := 0
  rate : List (Nat × Nat × Nat) := []
  /-- next DSEQ of each group (R311) -/
  dseq : Vector Nat 64 := Vector.replicate 64 0
  /-- a unit it held has been excluded (R372) -/
  removed : Bool := false
  /-- last window in which a phase entry raised SYS_UNMAPPED (R331) -/
  phSeen : Option Nat := none
  /-- a hearth boundary has occurred and no item has started since (R402) -/
  boundary : Bool := false
  /-- epochs of which an item ended other than OK (R400) -/
  epochBad : List Nat := []
deriving DecidableEq, Repr

/-- One hearth. -/
structure Hearth where
  mem : HMem := {}
  net : HNet := {}
  chk : HChk := {}
  run : HRun := {}
deriving DecidableEq, Repr

/-- Where an accepted item stands (16, R387, R388). -/
inductive ItemSt where
  | pending
  /-- running since this fc -/
  | running (fc : Nat)
  /-- ended with this outcome and detail; the done part is not yet durable -/
  | ended (outcome detail : Nat)
  /-- done part durable, completion not yet posted -/
  | durable (outcome detail : Nat)
deriving DecidableEq, Repr

/-- An accepted item that has not completed: its descriptor (16, Table 16-1), restarts, and the state
of its service: latched generation, collective increments still awaited, record that ended it. -/
structure Item where
  seq : Nat
  desc : List Byte
  st : ItemSt := .pending
  restarts : Nat := 0
  gen : Nat := 0
  left : Nat := 0
  /-- COLL: the ring position of its first descriptor, and descriptors copied -/
  ring : Nat := 0
  copied : Nat := 0
  /-- place in the order of acceptance of the device -/
  ord : Nat := 0
  esq : Option Nat := none
  /-- SYS_CYC at its start, and whether it has started -/
  cyc : Nat := 0
  began : Bool := false
  /-- the epoch is open, or CLOSE has been written -/
  closed : Bool := false
deriving DecidableEq, Repr

/-- A work queue (16, Table 16-15). -/
structure WorkQ where
  /-- reset: LOGN 4 -/
  cfg : Reg := 0x80000
  ring : Reg := 0
  cring : Reg := 0
  ptr : Reg := 0
  acc : Reg := 0
  done : Reg := 0
  ret : Reg := 0
  stat : Reg := 0
  items : List Item := []
  /-- the descriptor read at HEAD, waiting for its ledger record -/
  read : Option (List Byte) := none
  /-- recorded RET of the queue header (16, R384) and retirements since it was written -/
  hdrRet : Nat := 0
  hdrSince : Nat := 0
  /-- class of the reset that the queue recovers from (`RCLASS`), and the restarts of the items that it found
  unfinished, by SEQ -/
  rclass : Nat := 3
  kept : List (Nat × Nat) := []
deriving DecidableEq, Repr

/-- The ledger store (16, R383 to R386, Table 16-17): its bytes from record 4,096 on, read-back
mismatches in a row, the device registers. -/
structure Ledger where
  bytes : List (Nat × Byte) := []
  bad : Nat := 0
  /-- items accepted so far -/
  accepted : Nat := 0
  dev : Reg := 0
  lstat : Reg := 0
deriving DecidableEq, Repr

end Sys2Proof.Machine
end

