-- ==== Sys2Proof/Machine/StatePlat.lean ====
section
/-! DEFINITION. The state of the memory system, the records, the Stoker, power and clocks, and the host
interface (09, 15, 16, 18 to 21). -/

namespace Sys2Proof.Machine

/-- A mantel tile that holds a block (09, R206 to R209): index in its pool, block number (address div
65,536), valid and dirty bit of each granule, age, owner, whether it is being filled or written back,
the Hob cores that hold a line of a granule (R195), as (granule, core mask), and the sectors of clean granules
that a fill delivered poisoned while their stored code word carries no poison (R213, R214). -/
structure MTile where
  idx : Nat
  block : Nat
  valid : BitVec 256 := 0
  dirty : BitVec 256 := 0
  /-- granules that the maintenance operation in progress found dirty at its start (R211) -/
  marked : BitVec 256 := 0
  age : Nat := 0
  owner : Nat
  busy : Bool := false
  hobs : List (Nat × BitVec 16) := []
  bad : List Nat := []
deriving DecidableEq, Repr

/-- Stored words whose check code does not decode clean (09, R197, R212): deep-memory sectors by number (address div 32)
and scratch words by number (address div 8). -/
structure Codes where
  deep : List (Nat × EccResult) := []
  words : List (Nat × EccResult) := []
deriving DecidableEq, Repr

/-- An access that waits for a mantel victim (09, R209). -/
structure MAccess where
  agent : Agent
  hearth : Nat
  addr : Nat
  len : Nat
  wr : Bool
  data : List Byte
  poison : List Nat
  hint : Hint := .alloc
  /-- of an operation of the device, which makes the access again once its tile is there -/
  again : Bool := false
deriving DecidableEq, Repr

/-- One mantel pool (09, R199, R206): the tiles that hold a block, in rising index order; the hearth
that lends each tile from index 2,048 on; the accesses that wait. -/
structure Pool where
  tiles : List MTile := []
  lent : List Nat := []
  waiting : List MAccess := []
deriving DecidableEq, Repr

/-- The memory system's registers (09, Tables 09-8 to 09-11). -/
structure MemSys where
  pool : Vector Pool 2 := Vector.replicate 2 {}
  /-- reset: TILES 2,048 -/
  cfg : Vector Reg 2 := Vector.replicate 2 2048
  rgn : Vector Reg 32 := Vector.replicate 32 0
  /-- reset: DUTY 8 -/
  stk : Vector Reg 12 := Vector.replicate 12 0x8000000
  rcfNow : Vector SetNow 12 := Vector.replicate 12 {}
  ecc0 : Reg := 0
  ecc1 : Reg := 0
  /-- the last recalibration of each channel: temperature in eighths of a degree and fc; (0, 0) where not listed (R219) -/
  recal : List (Nat × Nat × Nat) := []
deriving DecidableEq, Repr

/-- An error record (15, Table 15-10): its 64 bytes, as named fields. -/
structure Rec where
  seq : Nat
  cyc : Nat
  cal : Nat := 0
  cls : Nat
  sev : Nat
  space : Nat
  code : Nat
  detail : Nat := 0
  hearth : Nat := 255
  agent : Nat
  epoch : Nat := 0
  arg0 : Nat := 0
  arg1 : Nat := 0
  arg2 : Nat := 0
deriving DecidableEq, Repr

/-- Unit classes of R371. -/
inductive UClass where
  | good
  | watch
  | suspect
  | permanent
deriving DecidableEq, Repr

/-- History of a unit (15, R371): class, SYS_CYC of each event kept, and of the last one. -/
structure UnitHist where
  cls : UClass := .good
  events : List Nat := []
  last : Nat := 0
  /-- SYS_CYC of the last serious event -/
  lastSer : Nat := 0
  /-- uncorrectable sectors of a stack, by their `SYS_CYC` -/
  ues : List Nat := []
deriving DecidableEq, Repr

/-- Record rings, spark coordination and exclusions (15, Tables 15-21 to 15-23). -/
structure Records where
  /-- records in the Stoker's ring and in the overflow behind it, oldest first -/
  ring : List Rec := []
  overflow : List Rec := []
  /-- CHK_ERING head and tail positions -/
  head : Nat := 0
  tail : Nat := 0
  seq : Nat := 0
  /-- suppressed records since the last CHK_LOST -/
  supp : Nat := 0
  suppTotal : Nat := 0
  ovf : Nat := 0
  /-- fc at which the Stoker last took a record or the ring last was empty -/
  taken : Nat := 0
  sseed : Reg := 0
  sround : Reg := 0
  excl0 : Reg := 0
  excl1 : Reg := 0
  tiles : Vector UnitHist 32 := Vector.replicate 32 {}
  ports : Vector UnitHist 12 := Vector.replicate 12 {}
  stks : Vector UnitHist 12 := Vector.replicate 12 {}
  hobs : Vector UnitHist 16 := Vector.replicate 16 {}
  /-- random digests: round, tile, digest (R369) -/
  digests : List (Nat × Nat × BitVec 64) := []
  /-- a round whose digests disagree, with two tiles that disagree in it -/
  dispute : Option (Nat × Nat × Nat) := none
  /-- the Stoker has taken no record for 2^30 fc (R395) -/
  silent : Bool := false
deriving DecidableEq, Repr

/-- An enrolled key (18, Table 18-2): its KEYID, and for an operator its mask of hearths. -/
structure Key where
  keyid : Nat
  operator : Bool
  mask : BitVec 16
deriving DecidableEq, Repr

/-- An audit entry (18, Table 18-4), as named fields. -/
structure Audit where
  seq : Nat
  cal : Nat
  cyc : Nat
  keyid : Nat
  role : Nat
  action : Nat
  result : Nat
  hearth : Nat
  req : Nat
  prev : Nat
  arg : Nat
deriving DecidableEq, Repr

/-- What a firmware slot holds (18, R439). -/
structure FwSlot where
  accepted : Bool := false
  version : Nat := 0
  minVersion : Nat := 0
  hash : Nat := 0
deriving DecidableEq, Repr

/-- A calendar anchor (13, R330; 18, R443). -/
structure Anchor where
  cal : Nat
  cyc : Nat
deriving DecidableEq, Repr

/-- A syslog collector: address, the records awaiting delivery, records dropped since it was last
reachable (18, R425). -/
structure Collector where
  addr : Nat := 0
  store : List Rec := []
  dropped : Nat := 0
deriving DecidableEq, Repr

/-- The Stoker (18). -/
structure Stoker where
  /-- reset: FACTORY 1 -/
  stat : Reg := 0x2000
  dbg : Reg := 0
  keys : List Key := []
  addr : Nat := 0
  collectors : Vector Collector 2 := Vector.replicate 2 {}
  trw : Nat := 4
  ueth : Nat := 16
  /-- audit log, newest first, and the entries not covered by a checkpoint -/
  audit : List Audit := []
  auditSeq : Nat := 0
  unsigned : Nat := 0
  /-- (SEQ, hash) of each signed checkpoint -/
  checkpoints : List (Nat × Nat) := []
  /-- slots A and B of kinds 1 to 5 -/
  slots : Vector (FwSlot × FwSlot) 5 := Vector.replicate 5 ({}, {})
  /-- highest minimum version that any active image of the kind has carried -/
  minVer : Vector Nat 5 := Vector.replicate 5 0
  meas : Vector Nat 24 := Vector.replicate 24 0
  /-- the calendar clock: its value when `calCyc` was the SYS_CYC value, and the last 16 anchors -/
  cal : Nat := 0
  calCyc : Nat := 0
  anchors : List Anchor := []
  /-- SMBus address select sampled (21, R476) -/
  sa : Nat := 0
  /-- the Stoker is in service -/
  up : Bool := true
  /-- KEYID of the identity key, and the module serial number that its certificate binds (18, R434; 21, R487; log 60) -/
  identity : Nat := 0
  serial : BitVec 64 := 0
deriving DecidableEq, Repr

/-- Clocks and power (19; 21, Table 21-6). -/
structure Power where
  clkStat : Reg := 0
  /-- reset: STEP 3, GATED 1 -/
  clkTile : Vector Reg 32 := Vector.replicate 32 0x31
  /-- reset: CAP 2,200 -/
  dev : Reg := 2200
  /-- the input voltage that the Stoker measured last, in 10 mV units (21, R479): it stays through every reset; 0 before the
  first -/
  volts : Nat := 0
  base : Reg := 0
  tj : Reg := 0
  fn : Vector Reg 76 := Vector.replicate 76 0
  cool : Reg := 0
  /-- rails in regulation: bit order of Table 19-2, VSB bit 0 -/
  rails : BitVec 8 := 0
  /-- powered down by R449; leaves only by RESET_DEVICE -/
  off : Bool := false
  /-- boot steps begun, and the step at which boot stopped -/
  booted : BitVec 12 := 0
  bootWarm : Bool := false
  bootStop : Option Nat := none
  /-- the device is in the write-back of a warm reset since this fc (R221) -/
  warming : Option Nat := none
  /-- emergencies in force: (code, fc at which the condition was last seen) -/
  emerg : List (Nat × Nat) := []
  /-- PWR_INPUT raised for the present sag (R450); the value of B and PCAP last scaled for (R452) -/
  sagged : Bool := false
  /-- the module input fell below its limit since the last power-on (18, R442; 19, R449) -/
  lostInput : Bool := false
  scaledFor : Option (Nat × Nat) := none
  /-- tiles lent, and their reclaims that wait for the power manager -/
  lentTiles : BitVec 32 := 0
  /-- functions whose last enable from outside fell at an fc, with their state before it; functions last disabled at an fc (19, R457) -/
  enAt : List (Nat × Nat × Nat) := []
  disAt : List (Nat × Nat) := []
  /-- tile steps decided and not yet applied at a 15-fc boundary -/
  nextStep : Vector (Option Nat) 32 := Vector.replicate 32 none
deriving DecidableEq, Repr

/-- A PCIe function (20). -/
structure HostFn where
  fn : Reg := 0
  /-- reset: LOGN 6 -/
  ering0 : Reg := 6
  ering1 : Reg := 0
  ap : Vector Reg 4 := Vector.replicate 4 0
  mbx0 : Reg := 0
  mbx1 : Reg := 0
  mbx2 : Reg := 0
  stat : Reg := 0
  d3 : Bool := false
  /-- MSI-X table of BAR4; an unlisted byte is 0 (Table 20-3) -/
  msix : List (Nat × Byte) := []
deriving DecidableEq, Repr

/-- An IDE stream (20, R472). -/
structure IdeStream where
  fn : Option Nat := none
  insecure : Bool := false
deriving DecidableEq, Repr

/-- The host interface (20). -/
structure HostIf where
  link : Reg := 0
  fns : Vector HostFn 17 := Vector.replicate 17 {}
  vfEn : Bool := false
  ide : Vector IdeStream 32 := Vector.replicate 32 {}
deriving DecidableEq, Repr

/-- A Hob core (16, R396): held in reset, pending interrupt bits 16 to 18 of mip. -/
structure Hob where
  run : Bool := false
  mip : BitVec 64 := 0
deriving DecidableEq, Repr

/-- What leaves the block: messages to the host, to Hob cores, to the management network. -/
inductive Output where
  /-- an MSI-X vector of a function -/
  | msix (fn vec : Nat)
  /-- a Hob core's interrupt (16, R396) -/
  | hobIrq (core cause : Nat)
  /-- a write to host memory by a function -/
  | hostWrite (fn addr : Nat) (data : List Byte)
  /-- data a read returned -/
  | readData (a : Agent) (data : List Byte) (poisoned : List Nat)
  /-- an error record forwarded to a collector -/
  | syslog (collector : Nat) (r : Rec)
  /-- the reply to an SMBus read or a quote -/
  | reply (bytes : List Nat)
  /-- a frame that leaves on a port -/
  | frame (port : Nat) (f : Frame)
  /-- a control message sent on a port: kind (1 replay, 2 HELLO, 3 HSK) and argument -/
  | link (port kind arg : Nat)
  /-- a flit sent on a port: FT, LANE, FSEQ, ACK, the replay request, credits returned per channel (12, R282, Table 12-2) -/
  | flit (port ft lane fseq : Nat) (ack : Option Nat) (replay : Bool) (cret : List Nat)
  /-- the identity certificate in step 2 of a port's handshake: its key and the serial number it binds (18, R434) -/
  | certificate (port keyid : Nat) (serial : BitVec 64)
  /-- the PCIe Device Serial Number, as configuration space reports it once boot step 8 has ended (20, Table 20-1, R462) -/
  | deviceSerial (serial : BitVec 64)
  /-- a handshake step of this device's own with another device (12, Table 12-7) -/
  | handshake (dev step : Nat)
deriving DecidableEq, Repr

end Sys2Proof.Machine
end

