-- ==== Sys2Proof/Machine/StateLink.lean ====
section
/-! DEFINITION. The state of the link ports, sessions, collective engines, quench units and
synchronisation counters (11 to 14). -/

namespace Sys2Proof.Machine

/-- Link-layer state of one port direction pair (12, R282 to R286). -/
structure LinkLayer where
  /-- next FSEQ expected, and whether a discard waits for it -/
  rxNext : Nat := 0
  discarding : Bool := false
  /-- next FSEQ sent; data flits kept for replay -/
  txNext : Nat := 0
  kept : List Nat := []
  /-- FSEQ the consecutive replays started from, and their count -/
  repFrom : Nat := 0
  repCount : Nat := 0
  /-- fc of the last ACK advance, and of the last credit return -/
  ackFc : Nat := 0
  credFc : Nat := 0
  /-- the next flit sent carries a replay request; fc of the last flit sent -/
  ask : Bool := false
  sentFc : Nat := 0
  /-- credits to return, per channel -/
  retq : Vector Nat 8 := Vector.replicate 8 0
  /-- credits taken at the neighbour, in the order in which their frames left: 2 channel + class, and their number -/
  crOut : List (Nat × Nat) := []
  /-- flits whose LANE disagrees with their stream position in a row, per lane -/
  lane : Vector Nat 8 := Vector.replicate 8 0
deriving DecidableEq, Repr

/-- A COLL chunk header (13, R317, R318): chunk, STEP, REFRANK, BADRANK, MIS, XST, PX, NCON, BADSTEP. -/
structure ChunkHdr where
  chunk : Nat
  step : Nat
  refRank : Nat
  badRank : Nat
  mis : Bool
  xst : Nat
  px : Nat
  ncon : Nat
  badStep : Nat
deriving DecidableEq, Repr

/-- What a send-table entry carries when it ends without its bytes (12, R290, R291). -/
inductive SendUse where
  /-- a bellows request of tile t -/
  | req (t : TileId) (core grp : Nat)
  /-- an increment of hearth h -/
  | inc (h : HearthId) (amt : Nat)
  /-- a collective engine's frame -/
  | coll (p : PortId) (h : HearthId)
  /-- a notice of the check unit -/
  | notice (h : HearthId) (rank : Nat)
  /-- a refetch READ -/
  | refetch (h : HearthId) (addr : Nat)
  /-- a chain segment of tile t -/
  | chain (t : TileId)
  /-- service s of item seq of queue q: a checkpoint, a restore or a data item -/
  | item (q : QueueId) (seq : Nat)
  | other
deriving DecidableEq, Repr

/-- A send-table entry (12, R290): the frame, the fc of its last sending, its resends, the fc at which a
BUSY or RATE defers it, and who waits for it. -/
structure SendEntry where
  dev : BitVec 20
  frame : Frame
  sent : Nat
  resends : Nat := 0
  deferred : Option Nat := none
  use : SendUse
  /-- units of a READ's response that have arrived -/
  units : List Nat := []
  /-- a copy leaves at the end of this fc, unless its acknowledgement comes first -/
  due : Bool := false
deriving DecidableEq, Repr

/-- What an active collective descriptor of an engine holds (13, R308 to R328): its 64 bytes, DSEQ, group size
and rank, the fc of activation or of the last frame, and `SYS_CYC` when it was taken. -/
structure ActiveCol where
  desc : List Byte
  dseq : Nat
  n : Nat
  rank : Nat
  lastFc : Nat
  cyc : Nat
  /-- ranges received: (phase, sending rank of a DIRECT, slot of a PERM or step of a FLUE; first; count) -/
  got : List (Nat × Nat × Nat) := []
  /-- sums of the elements that a later hop or phase needs: (element, (code, poisoned)) -/
  part : List (Nat × Nat × Bool) := []
  /-- chunk headers, keyed by phase and chunk, or by the sending rank of a DIRECT -/
  hdr : List ChunkHdr := []
  /-- the shard is reported as not complete -/
  incomplete : Bool := false
  /-- INPLACE: positions into which a move to another device is under way, and the lowest positions of the
  cycles still to lead, the first of them staged -/
  moves : List Nat := []
  cycles : List Nat := []
  /-- INPLACE: steps still to take: position y for which a FREE has come, or none to stage the next cycle (R327) -/
  todo : List (Option Nat) := []
  /-- FLUE: blocks sent, buffers released; PERM: moves that have committed; AG from a quench job: runs of 256 sent -/
  sent : Nat := 0
  released : Nat := 0
  /-- FLUE: fc since which it waits for the release of a buffer (08, R191) -/
  waitFc : Option Nat := none
  /-- frames that have not left the engine, oldest first (R308) -/
  sendq : List SendEntry := []
deriving DecidableEq, Repr

/-- A coefficient group of the port's store with its bias corrections (14, Table 14-2, R343). -/
structure Coef where
  bytes : List Byte
  c1 : Nat
  c2 : Nat
deriving DecidableEq, Repr

/-- A segment of a shard map (14, Table 14-1). -/
structure Seg where
  first : Nat
  count : Nat
  group : Nat
  wadr : Nat
  madr : Nat
  vadr : Nat
  oadr : Nat
  osadr : Nat
  gstr : Nat
deriving DecidableEq, Repr

/-- A final reduced chunk in a quench buffer: first shard element, the sums, X96 position, poison and
the step mismatch of its header (14, R337, R348, R349). -/
structure QChunk where
  first : Nat
  vals : List Nat
  x96 : Bool
  px : Nat
  mis : Bool
  why : Nat × Nat × Nat × Nat := (0, 0, 0, 0)
  poison : Bool
deriving DecidableEq, Repr

/-- The quench job of a port for one hearth (14, R334, R341, R344, R347). -/
structure QJob where
  dseq : Nat
  /-- fc in which its last chunk was written (R346) -/
  lastFc : Nat := 0
  /-- address of the shard map -/
  map : Nat
  epoch : Nat
  prov : Bool
  g : Nat
  segs : List Seg
  coefs : List (Nat × Coef)
  n : Nat
  /-- elements written, as ranges (first, count) -/
  written : List (Nat × Nat) := []
  withheld : List (Nat × Nat) := []
  incomplete : Bool := false
  div0 : Bool := false
  nonfin : Bool := false
  /-- new weights of MX blocks that wait for the rest of their 32 elements, by shard element -/
  mx : List (Nat × Nat) := []
  /-- ranks and steps of the first chunk withheld: REFRANK, BADRANK, STEP, BADSTEP (R348) -/
  why : Nat × Nat × Nat × Nat := (0, 0, 0, 0)
deriving DecidableEq, Repr

/-- One link port with its collective engine and quench unit (12, Tables 12-13 to 12-16; 13, Table
13-13; 14, Table 14-9). -/
structure Port where
  /-- reset: CTMO 22, RTMO 14 -/
  cfg : Reg := 0x58E
  state : Reg := 0
  fec : Reg := 0
  retry : Reg := 0
  rx0 : Reg := 0
  rx1 : Reg := 0
  /-- reset: TOTAL 2048 -/
  crd : Reg := 0x800
  /-- reset: LOGN 6 -/
  ring0 : Vector Reg 16 := Vector.replicate 16 6
  ring1 : Vector Reg 16 := Vector.replicate 16 0
  ring2 : Vector Reg 16 := Vector.replicate 16 0
  /-- reset: TOTAL 64, FREE 64 -/
  qbuf : Reg := 0x400040
  ll : LinkLayer := {}
  /-- fc at which the port state was entered -/
  since : Nat := 0
  /-- frames waiting to leave, oldest first, each with its source: input port 0 to 11, 12 the device's own sources, 13
  channel 7; the source and per source the channel served last (R298); the fc since which they wait without a credit
  returned -/
  outq : List (Nat × Frame) := []
  rrGrp : Nat := 13
  rrCh : Vector Nat 14 := Vector.replicate 14 7
  waitFc : Option Nat := none
  /-- last window of 2^30 fc in which LNK_TRAIN was raised -/
  trainSeen : Option Nat := none
  /-- handshake: HELLO seen (agreed major, minor, device), certificates passed, signature requested,
  made and verified -/
  hello : Option (Nat × Nat × Nat) := none
  certOk : Bool := false
  sigWant : Bool := false
  sigSeen : Bool := false
  sigMade : Bool := false
  active : Vector (Option ActiveCol) 16 := Vector.replicate 16 none
  /-- the ring whose active descriptor the engine served last (13, R308) -/
  rrCol : Nat := 15
  /-- frames that passed their checks and stay in the receive buffer until they can take effect: a COLL frame of its
  group's next sequence (13, R317), a CHAIN frame whose rows find no room (04, R107), an access that must wait -/
  held : List Frame := []
  jobs : Vector (Option QJob) 16 := Vector.replicate 16 none
  /-- chunks in quench buffers, with their hearth -/
  qchunks : List (Nat × QChunk) := []
  /-- the hearth on whose chunk the quench unit holds for poison (09, R215) -/
  qheld : Option Nat := none
  /-- final-step credits withheld (14, R349) -/
  withhold : Bool := false
  /-- quench-unit known-answer tests passed and failed (15, R370) -/
  tested : Nat := 0
  testFails : Nat := 0
  /-- per hearth: the ring neighbour's receive buffers that await their release, oldest first, each with the flue counter
  that tells of it, and the value of each such counter whose releases have been taken (08, R191) -/
  flueTx : Vector (List (Nat × Nat)) 16 := Vector.replicate 16 []
  flueSeen : Vector (List (Nat × Nat)) 16 := Vector.replicate 16 []
deriving DecidableEq, Repr

/-- Increment accepted and pending (11, R267, R268). -/
structure PendInc where
  fnum : Nat
  ctr : Nat
  bytes : Nat
  amt : Nat
  /-- port and channel of the receive buffer that holds its frame, and the credits it keeps -/
  port : Nat := 0
  ch : Nat := 0
  cred : Nat := 0
  /-- the hearth whose books hold it (R273); none once a cold reset of the hearth has cleared them -/
  book : Option Nat := none
deriving DecidableEq, Repr

/-- One channel of a session as its receiver keeps it (11, R267 to R269). -/
structure RxChan where
  com : Nat := 0
  ann : Nat := 0
  hwm : Nat := 0
  pend : List PendInc := []
deriving DecidableEq, Repr

/-- One channel of a session as its sender keeps it (11, R267; 12, R289): next increment sequence,
bytes of each source agent since its last increment. -/
structure TxChan where
  seq : Nat := 1
  bytes : List (Nat × Nat) := []
deriving DecidableEq, Repr

/-- A session with another device (12, R290 to R292, R300 to R302). -/
structure Session where
  dev : BitVec 20
  /-- identity hash of the peer's certificate; keys and salts sent and received with, and the old one still accepted -/
  idHash : Nat := 0
  keyTx : List Byte := []
  keyRx : List Byte := []
  oldRx : List Byte := []
  keyid : Nat := 0
  oldKey : Bool := false
  fnumTx : Nat := 1
  fnumHigh : Nat := 0
  /-- accepted numbers below the highest, newest first -/
  accepted : List Nat := []
  txFrames : Nat := 0
  rxFrames : Nat := 0
  used : Nat := 0
  rx : Vector RxChan 8 := Vector.replicate 8 {}
  tx : Vector TxChan 8 := Vector.replicate 8 {}
deriving DecidableEq, Repr

/-- A synchronisation counter (11, Table 11-1). -/
structure Counter where
  value : BitVec 48 := 0
  sat : Bool := false
  rem : Bool := false
  owner : BitVec 24 := 0
  lost : Bool := false
  epoch : BitVec 16 := 0
deriving DecidableEq, Repr

/-- An increment on its way to a local counter (11, R254, R255): counter, amount, the hearth whose books
hold it under LOCAL, whether it came from a remote device, the phase window (start, tag, agent) that its application ends
(13, R331), and the writes of its agent that wait at a mantel pool and must commit before it (R254). -/
structure Flight where
  ctr : Nat
  amt : Nat
  hearth : Option HearthId
  remote : Bool
  phase : Option (Nat × Nat × Nat) := none
  after : List MAccess := []
deriving DecidableEq, Repr

/-- Link and session state of the device (12, Tables 12-17 and 12-18). -/
structure LinkDev where
  /-- reset: ETMO 18 -/
  topo : Reg := 0x120000000000000
  ended : Nat := 0
  dtr : Vector Reg 12 := Vector.replicate 12 0
  sessions : List Session := []
  /-- identity hashes that devices have proved in a handshake (R299, R300) -/
  ids : List (Nat × Nat) := []
  send : List SendEntry := []
  /-- frames that wait for a slot of the send table or for a session -/
  waiting : List SendEntry := []
  /-- last window of 2^16 fc in which (source, code) was logged (R303) -/
  seen : List (Nat × Nat × Nat) := []
deriving DecidableEq, Repr

end Sys2Proof.Machine
end

