-- ==== Sys2Proof/Machine/State.lean ====
section
/-! DEFINITION. The state of the ZM1 as plain data, its reset, and the reasons a step can stop. -/

namespace Sys2Proof.Machine

/-- Reasons a step can stop with a fault. No command of the table faults: the spec gives every one an
effect or leaves the device unchanged (00, R2). Raised by none; safe. -/
inductive Fault where
  /-- raised by no command -/
  | stuck
deriving DecidableEq, Repr

/-- Reasons a command is refused by the model. -/
inductive Refusal where
  /-- raised by an arm of `exec` whose command has no meaning in the model yet; safe -/
  | notModelled (mnemonic : String)
deriving DecidableEq, Repr

/-- The whole device and its queue of waiting commands. -/
structure State where
  /-- commands waiting, first in first out -/
  pending : List Instr
  /-- SYS_CYC (13, R330); the fabric clock is half of it -/
  cyc : Nat
  /-- COL_ANCHOR (13, Table 13-16): CYC and CAL -/
  anchor0 : Reg
  anchor1 : Reg
  tiles : Vector Tile 32
  hearths : Vector Hearth 16
  ports : Vector Port 12
  queues : Vector WorkQ 256
  hobs : Vector Hob 16
  /-- synchronisation counters; an unlisted counter is zero -/
  counters : List (Nat × Counter)
  flights : List Flight
  /-- claims of unowned counters in this fc: counter and agent code (11, R263) -/
  claims : List (Nat × Nat)
  lnk : LinkDev
  tmp : Temper
  lgr : Ledger
  /-- scratch, accumulator memory and deep memory by local address; an unlisted byte reads 0 -/
  mem : List Host.Cell
  /-- numbers (address div 32) of the poisoned sectors, rising -/
  poison : List Nat
  codes : Codes
  msys : MemSys
  recs : Records
  stk : Stoker
  pwr : Power
  hif : HostIf
  /-- what has left the block, newest first (the model's own field, log 5) -/
  out : List Output
  /-- free values drawn so far (the model's own field, log 6) -/
  fresh : Nat
deriving DecidableEq, Repr

/-- The machine right after its first cold reset (00, R13): every register at its reset value, memory
zero and unpoisoned, nothing queued. Values no chapter gives are those of the log entries. -/
def State.reset : State where
  pending := []
  cyc := 0
  anchor0 := 0
  anchor1 := 0
  tiles := Vector.replicate 32 {}
  hearths := Vector.replicate 16 {}
  ports := Vector.replicate 12 {}
  queues := Vector.replicate 256 {}
  hobs := Vector.replicate 16 {}
  counters := []
  flights := []
  claims := []
  lnk := {}
  tmp := {}
  lgr := {}
  mem := []
  poison := []
  codes := {}
  msys := {}
  recs := {}
  stk := {}
  pwr := {}
  hif := {}
  out := []
  fresh := 0

end Sys2Proof.Machine
end

