-- ==== Sys2Proof/Machine/Ops.lean ====
section
/-! DEFINITION. The named operations over memory, units and error records (00, 09, 15). -/

namespace Sys2Proof.Machine

/-- Outcome of a command. -/
abbrev Out := Host.Outcome State Fault Refusal

/-- Fabric-clock count (13, R330; 19, Table 19-1). -/
def fc (s : State) : Nat := s.cyc / 2

/-! ### Units -/

def tileAt (s : State) (t : Nat) : Tile := vget s.tiles t {}
def modTile (s : State) (t : Nat) (f : Tile → Tile) : State := { s with tiles := vmod s.tiles t f }
def hearthAt (s : State) (h : Nat) : Hearth := vget s.hearths h {}
def modHearth (s : State) (h : Nat) (f : Hearth → Hearth) : State := { s with hearths := vmod s.hearths h f }
def portAt (s : State) (p : Nat) : Port := vget s.ports p {}
def modPort (s : State) (p : Nat) (f : Port → Port) : State := { s with ports := vmod s.ports p f }
def queueAt (s : State) (q : Nat) : WorkQ := vget s.queues q {}
def modQueue (s : State) (q : Nat) (f : WorkQ → WorkQ) : State := { s with queues := vmod s.queues q f }
def emit (s : State) (o : Output) : State := { s with out := o :: s.out }

/-- Sections in force of a hearth (17). -/
def hsec (s : State) (h : Nat) : HearthCfg := vget s.tmp.cur.hearths h {}
/-- The hearth exists. -/
def hOn (s : State) (h : Nat) : Bool := (hsec s h).h.present

/-- Hearth that owns a unit by a mask of its section (01, R18). -/
def ownerBy (s : State) (p : HearthSec → Bool) : Option Nat :=
  (List.range 16).find? (fun h => hOn s h && p (hsec s h).h)
def tileHearth (s : State) (t : Nat) : Option Nat := ownerBy s (fun x => bit x.tiles t)
def hobHearth (s : State) (c : Nat) : Option Nat := ownerBy s (fun x => bit x.hobs c)
def queueHearth (s : State) (q : Nat) : Option Nat := ownerBy s (fun x => bit x.queues q)
def regionHearth (s : State) (r : Nat) : Option Nat := ownerBy s (fun x => bit x.regions r)
def ctrHearth (s : State) (c : Nat) : Option Nat :=
  ownerBy s (fun x => decide (256 * x.cbase ≤ c) && decide (c < 256 * (x.cbase + x.nblk)))
/-- Hearth that virtual function f serves (20, R464). -/
def fnHearth (s : State) (f : Nat) : Option Nat :=
  if f = 0 then none else ownerBy s (fun x => x.vf == f)
/-- Tiles of a hearth, rising. -/
def hTiles (s : State) (h : Nat) : List Nat := if hOn s h then setBits (hsec s h).h.tiles else []
def hHobs (s : State) (h : Nat) : List Nat := if hOn s h then setBits (hsec s h).h.hobs else []
/-- Half of a tile, Hob core or port (00, Table 00-4; 01, Table 01-1). -/
def tileHalf (t : Nat) : Nat := t / 16

/-- Hearth whose rights an agent has (09, R201; 20, R466). -/
def agentHearth (s : State) (a : Agent) : Option Nat :=
  match a with
  | .tile t => tileHearth s t.val
  | .hob c => hobHearth s c.val
  | .host f => fnHearth s f.val
  | _ => none

/-- Role of a tile in a pair (15, Table 15-12): 0 single, 1 working, 2 shadow, and its partner. -/
def tileRole (s : State) (t : Nat) : Nat := fld (tileAt s t).misc.chkTcfg 7 6
def partner (s : State) (t : Nat) : Nat := fld (tileAt s t).misc.chkTcfg 4 0
/-- The tile whose execution a tile shows: its working partner for a shadow (15, R356). -/
def execTile (s : State) (t : Nat) : Nat := if tileRole s t = 2 then partner s t else t

/-- This device's number (12, Table 12-17). -/
def devNo (s : State) : Nat := fld s.lnk.topo 51 32
/-- Check level of a hearth (15, Table 15-16). -/
def chkLevel (s : State) (h : Nat) : Nat := fld (hearthAt s h).chk.chkCfg 1 0

/-! ### The local address map (00, Table 00-3) -/

def deepTop : Nat := 0x18000000000
def scrWin : Nat := 0x80000000000
def ctlBase : Nat := 0xF0000000000
/-- Base of a tile's scratch window, and of its accumulator mapping (00, Table 00-3; 04, R92). -/
def winBase (t : Nat) : Nat := scrWin + t * 0x2000000
def accBase (t : Nat) : Nat := winBase t + 0x1800000
/-- Bytes of scratch that a tile has (09, R199). -/
def scrSize (s : State) (t : Nat) : Nat := (24 - (tileAt s t).misc.lend) * 0x100000

inductive Place where
  | deep (a : Nat)
  /-- scratch or accumulator mapping of tile t at an offset of its window -/
  | win (t off : Nat)
  | ctl (off : Nat)
  | unmapped
deriving DecidableEq, Repr

/-- Where a local address lies (00, Table 00-3). -/
def place (a : Nat) : Place :=
  if a < deepTop then .deep a
  else if scrWin ≤ a ∧ a < scrWin + 32 * 0x2000000 then .win ((a - scrWin) / 0x2000000) ((a - scrWin) % 0x2000000)
  else if ctlBase ≤ a ∧ a < 2 ^ 44 then .ctl (a - ctlBase)
  else .unmapped

/-- Region of a deep-memory address (09, R202). -/
def regionOf (a : Nat) : Nat := a / 0x600000000

/-- An agent of hearth h may reach offsets lo to hi of a tile's window. -/
def winOk (s : State) (h : Option Nat) (t lo hi : Nat) : Bool :=
  (decide (hi < scrSize s t) || decide (0x1800000 ≤ lo) || decide (0x1800000 ≤ scrSize s t)) && decide (tileRole s t ≠ 2) &&
  (match h with
    | none => true
    | some k => tileHearth s t == some k)

/-- An agent of hearth h may reach bytes [a, a + n) of memory: its own regions, and the windows of its
own tiles but for lent ranges and shadows (09, R199, R201; 15, R356). `none` is the physical function or
the Stoker, which reach every hearth's (20, R466). -/
def reach (s : State) (h : Option Nat) (a n : Nat) : Bool :=
  match place a, place (a + n - 1) with
  | .deep x, .deep y =>
    match h with
    | none => true
    | some k => ((List.range (regionOf y + 1 - regionOf x)).map (· + regionOf x)).all
        (fun r => regionHearth s r == some k)
  | .win t o, .win t' o' => (List.range (t' + 1 - t)).all (fun i =>
      winOk s h (t + i) (if i = 0 then o else 0) (if t + i = t' then o' else 0x1FFFFFF))
  | _, _ => false

/-! ### Bytes and poison -/

/-- Byte at a local address; an unlisted byte is zero (09, R198, R220). -/
def readByte (m : List Host.Cell) (a : Nat) : Byte := look m a 0

/-- Bytes [a, a + n). -/
def readMem (m : List Host.Cell) (a n : Nat) : List Byte :=
  let w := m.filter (fun c => decide (a ≤ c.1) && decide (c.1 < a + n))
  (List.range n).map (fun i => look w (a + i) 0)

/-- Cells for bytes from address a on; zero bytes have none. -/
def cellsOf : Nat → List Byte → List Host.Cell
  | _, [] => []
  | a, b :: bs => if b = 0 then cellsOf (a + 1) bs else (a, b) :: cellsOf (a + 1) bs

/-- Memory with the bytes placed at address a; the canonical form is kept. -/
def writeMem (m : List Host.Cell) (a : Nat) (bs : List Byte) : List Host.Cell :=
  m.filter (fun c => decide (c.1 < a)) ++ cellsOf a bs ++ m.filter (fun c => decide (a + bs.length ≤ c.1))

/-- Memory with bytes [a, a + n) zero. -/
def zeroMem (m : List Host.Cell) (a n : Nat) : List Host.Cell :=
  m.filter (fun c => decide (c.1 < a) || decide (a + n ≤ c.1))

/-- The canonical form of memory: addresses rising, no byte equal to what an unlisted address reads. -/
abbrev memWf (m : List Host.Cell) : Prop := m.Pairwise (fun x y => x.1 < y.1) ∧ ∀ c ∈ m, c.2 ≠ 0

/-- Sector numbers of bytes [a, a + n). -/
def sectors (a n : Nat) : List Nat :=
  if n = 0 then [] else (List.range ((a + n - 1) / 32 + 1 - a / 32)).map (· + a / 32)

/-- Poisoned sectors among those of bytes [a, a + n). -/
def poisoned (s : State) (a n : Nat) : List Nat :=
  if n = 0 then [] else s.poison.filter (fun k => decide (a / 32 ≤ k) && decide (k ≤ (a + n - 1) / 32))

/-- Insert into a rising list without repeats. -/
def insSet (k : Nat) : List Nat → List Nat
  | [] => [k]
  | x :: r => if k < x then k :: x :: r else if k = x then x :: r else x :: insSet k r

/-- Write bytes at a local address with the poison of each destination sector (09, R197, R212, R214): a whole
sector takes its source's poison, a partial write leaves a poisoned sector poisoned, a whole scratch word takes a valid
code. -/
def storeAt (s : State) (a : Nat) (bs : List Byte) (src : List Nat) : State :=
  let full := fun k => decide (a ≤ 32 * k) && decide (32 * k + 32 ≤ a + bs.length)
  let p0 := s.poison.filter (fun k => !full k)
  { s with mem := writeMem s.mem a bs, poison := src.foldl (fun p k => insSet k p) p0
           codes := { s.codes with words := s.codes.words.filter (fun x =>
             !(decide (a ≤ 8 * x.1) && decide (8 * x.1 + 8 ≤ a + bs.length))) } }

/-- Write bytes; a write into a working tile's scratch window is also made into its shadow's (15, R356). -/
def store (s : State) (a : Nat) (bs : List Byte) (src : List Nat) : State :=
  let s1 := storeAt s a bs src
  match place a with
  | .win t o =>
    if tileRole s t = 1 then
      let b := winBase (partner s t) + o
      storeAt s1 b bs (src.map (fun k => k + b / 32 - a / 32))
    else s1
  | _ => s1

/-- Bytes of a tile's window. -/
def scrRead (s : State) (t off n : Nat) : List Byte := readMem s.mem (winBase t + off) n
def scrWrite (s : State) (t off : Nat) (bs : List Byte) : State := store s (winBase t + off) bs []
/-- Some sector of these window bytes is poisoned: the lowest such local address. -/
def scrPoison (s : State) (t off n : Nat) : Option Nat := (poisoned s (winBase t + off) n).head?.map (· * 32)

/-- Zero a range, unpoisoned and with valid codes (09, R198, R220). -/
def zeroRange (s : State) (a n : Nat) : State :=
  { s with mem := zeroMem s.mem a n
           poison := s.poison.filter (fun k => decide (k < a / 32) || decide ((a + n + 31) / 32 ≤ k))
           codes := { deep := s.codes.deep.filter (fun x => decide (x.1 < a / 32) || decide ((a + n + 31) / 32 ≤ x.1))
                      words := s.codes.words.filter (fun x => decide (x.1 < a / 8) || decide ((a + n + 7) / 8 ≤ x.1)) } }

/-! ### Error records (15, R373, R374, R376, R489) -/

/-- Class and severities (first, and the one that a condition gives) of a record (15, Table 15-25). -/
def recClass (space code : Nat) : Nat × Nat × Nat :=
  match space with
  | 0x01 | 0x02 | 0x03 | 0x04 | 0x05 | 0x07 => (2, 3, 3)
  | 0x06 => if code = 1 then (2, 0, 0) else (5, 2, 2)
  | 0x08 => if code = 0x10 then (3, 4, 4) else (3, 2, 2)
  | 0x09 => match code with
    | 1 | 2 | 3 | 6 => (2, 3, 3)
    | 4 => (7, 3, 3)
    | 5 => (7, 0, 3)
    | _ => (1, 0, 0)
  | 0x0A => match code with
    | 8 | 9 | 10 | 11 => (1, 0, 0)
    | 13 => (6, 3, 3)
    | _ => (6, 2, 2)
  | 0x0B => match code with
    | 6 | 7 => (6, 3, 3)
    | 0x08 | 0x0B | 0x24 | 0x25 => (10, 3, 3)
    | 0x23 => (10, 0, 0)
    | 0x26 => (1, 0, 0)
    | _ => (2, 3, 3)
  | 0x0D => match code with
    | 1 => (1, 2, 2)
    | 2 | 6 => (1, 0, 0)
    | 3 | 5 => (11, 5, 5)
    | 4 => (11, 0, 0)
    | 7 | 8 => (10, 3, 3)
    | _ => (10, 0, 0)
  | 0x0F => match code with
    | 4 => (1, 0, 0)
    | 2 | 6 | 7 | 9 => (11, 2, 2)
    | _ => (11, 0, 0)
  | 0x0C => match code with
    | 0x01 | 0x02 => (4, 2, 3)
    | 0x03 | 0x05 | 0x0B => (4, 1, 1)
    | 0x04 | 0x0C | 0x0D => (4, 3, 3)
    | 0x06 | 0x07 | 0x16 => (10, 3, 3)
    | 0x08 | 0x0A => (10, 0, 0)
    | 0x09 => (10, 4, 4)
    | 0x13 => (1, 0, 0)
    | 0x14 | 0x15 => (2, 3, 3)
    | 0x18 | 0x10 => (8, 0, 0)
    | 0x0E | 0x0F => (8, 2, 2)
    | 0x11 => (9, 2, 0)
    | 0x12 => (9, 2, 4)
    | _ => (11, 2, 2)
  | 0x0E => if code ≤ 0x0C then (1, 0, 0) else if code = 0x0D then (11, 2, 2) else (11, 0, 0)
  | 0x10 => match code with
    | 0x01 | 0x02 | 0x03 | 0x09 | 0x0B => (11, 5, 5)
    | 0x04 | 0x05 => (11, 2, 5)
    | 0x08 => (9, 2, 2)
    | _ => (11, 2, 2)
  | 0x11 => match code with
    | 0x03 | 0x05 => (1, 0, 0)
    | 0x06 => (11, 0, 0)
    | _ => (11, 2, 2)
  | _ => (1, 0, 0)

/-- The 60 bytes of a record that its CRC covers (15, Table 15-8). -/
def Rec.body (r : Rec) (dev cal : Nat) : List Byte :=
  leBytes 8 (1 + r.cls * 2 ^ 8 + r.sev * 2 ^ 16 + r.space * 2 ^ 24 + r.code * 2 ^ 32 + r.detail % 256 * 2 ^ 40 +
    (if r.hearth < 16 then r.hearth + 0x80 else 0) * 2 ^ 48) ++
  leBytes 3 r.agent ++ leBytes 3 dev ++ leBytes 2 r.arg2 ++ leBytes 8 r.seq ++ leBytes 8 r.cyc ++
  leBytes 8 cal ++ leBytes 8 r.epoch ++ leBytes 8 r.arg0 ++ leBytes 4 r.arg1

/-- The 64 bytes of a record. -/
def Rec.bytes (r : Rec) (dev cal : Nat) : List Byte :=
  let b := r.body dev cal
  b ++ leBytes 4 (crc32 b)

/-- A function's requests reach the host: link UP, function enabled and not in D3hot (20). -/
def fnAlive (s : State) (f : Nat) : Bool :=
  decide (fld s.hif.link 1 0 = 2) && !(vget s.hif.fns f {}).d3 && (decide (f = 0) || s.hif.vfEn) &&
  bit (vget s.hif.fns f {}).fn 0

/-- Requests of a function travel in a secure selective IDE stream when it demands IDE (20, R472). -/
def ideOk (s : State) (f : Nat) : Bool :=
  !bit (vget s.hif.fns f {}).fn 2 || s.hif.ide.toList.any (fun x => x.fn == some f && !x.insecure)
def modFn (s : State) (f : Nat) (g : HostFn → HostFn) : State := { s with hif := { s.hif with fns := vmod s.hif.fns f g } }
/-- A request of a function: none when it cannot be made, or is dropped for want of IDE. -/
def hostReq (s : State) (f : Nat) : Bool × State :=
  if !fnAlive s f then (false, s)
  else if ideOk s f then (true, s)
  else (false, modFn s f (fun x => { x with stat := bumpSat x.stat 15 0 1 }))

/-- Copy of a record to a function's error ring (15, R374; 20, R470), with its MSI-X message (R468). -/
def hostCopy (s : State) (f : Nat) (r : Rec) : State :=
  let g := vget s.hif.fns f {}
  if !bit g.ering1 0 then s
  else if !(hostReq s f).1 then (hostReq s f).2
  else
    let n := fld g.ering0 5 0
    let a := fld g.ering0 63 6 * 64 + 64 * (fld g.ering1 63 32 % 2 ^ n)
    let s := emit s (.hostWrite f a (r.bytes (devNo s) 0))
    let s := modFn s f (fun g => { g with ering1 := bumpMod g.ering1 63 32 1 })
    emit s (.msix f (fld g.ering1 11 1))

/-- The record rings with a record placed: in the Stoker ring, or in the overflow behind a full one. A record that
finds both full waits behind them with its unit (log 7). -/
def putRec (s : State) (r : Rec) : Records :=
  let q := s.recs
  { q with
    taken := if q.ring.isEmpty then fc s else q.taken
    ring := if q.ring.length < 4096 then q.ring ++ [r] else q.ring
    tail := if q.ring.length < 4096 then (q.tail + 1) % 2 ^ 32 else q.tail
    overflow := if q.ring.length < 4096 then q.overflow else q.overflow ++ [r]
    ovf := if q.ring.length < 4096 then q.ovf else satAdd 32 q.ovf 1
    seq := q.seq + 1 }

/-- A record of a hearth goes to its virtual function's ring, and its Hob cores are interrupted (15, R374; 16, R396). -/
def tellHearth (s : State) (r : Rec) : State :=
  if r.hearth < 16 then
    let f := (hsec s r.hearth).h.vf
    let s := if f = 0 then s else hostCopy s f r
    forEach (hHobs s r.hearth) s (fun c s =>
      emit { s with hobs := vmod s.hobs c (fun x => { x with mip := x.mip ||| (1#64 <<< 18) }) } (.hobIrq c 18))
  else s

/-- Place a record in the Stoker ring or behind it, and copy it to the host rings (15, R374). -/
def placeRec (s : State) (r : Rec) : State :=
  let r := { r with seq := s.recs.seq }
  tellHearth (hostCopy { s with recs := putRec s r } 0 r) r

/-- Record with class and severity given. -/
def raiseWith (s : State) (cls sev space code detail : Nat) (h : Option Nat) (agent arg0 arg1 arg2 : Nat) : State :=
  placeRec s { seq := 0, cyc := s.cyc, cls := cls, sev := sev, space := space, code := code,
               detail := detail % 256, hearth := h.getD 255, agent := agent,
               epoch := (h.map (fun k => (hearthAt s k).chk.epoch.toNat)).getD 0,
               arg0 := arg0, arg1 := arg1, arg2 := arg2 }

/-- Raise a record; `alt` selects the severity that Table 15-25 gives under a condition. -/
def raise (s : State) (space code detail : Nat) (h : Option Nat) (agent : Nat) (arg0 arg1 arg2 : Nat := 0)
    (alt : Bool := false) : State :=
  let c := recClass space code
  raiseWith s c.1 (if alt then c.2.2 else c.2.1) space code detail h agent arg0 arg1 arg2

def SYS_UNMAPPED : Nat := 1

/-- Generic misuse record (15, R376, Table 15-24). An access of a host function beyond its reach is also counted
and recorded by the host interface (20, R466, R473; log 4). -/
def misuse (s : State) (code : Nat) (a : Agent) (arg0 : Nat) : State :=
  let s1 := raise s 0x12 code 0 (agentHearth s a) a.code arg0
  match a with
  | .host f =>
    if code = SYS_UNMAPPED then
      let s2 := modFn s1 f.val (fun g => { g with stat := bumpSat g.stat 63 32 1 })
      raise s2 0x11 3 f.val (agentHearth s a) a.code arg0
    else s1
  | _ => s1

def SYS_ALIGN : Nat := 2
def SYS_RWL : Nat := 3
def SYS_BUSY : Nat := 4
def SYS_HEADER : Nat := 5
def SYS_OBLIG : Nat := 6

/-- An agent may write the registers of a hearth: a unit or function of it, the physical function or the
Stoker (09, R201; 20, R466). -/
def mayHearth (s : State) (a : Agent) (h : Nat) : Bool :=
  match a with
  | .stoker => true
  | .host f => decide (f.val = 0) || fnHearth s f.val == some h
  | _ => agentHearth s a == some h

/-- Addresses of control blocks (09, Table 09-3). -/
def anvReg (t off : Nat) : Nat := ctlBase + t * 0x10000 + off
def hearthReg (h off : Nat) : Nat := ctlBase + 0x1000000 + h * 0x10000 + off
def blwReg (t off : Nat) : Nat := ctlBase + 0x3000000 + t * 0x10000 + off
def portReg (p off : Nat) : Nat := ctlBase + 0x4000000 + p * 0x100000 + off
def ctrReg (c off : Nat) : Nat := ctlBase + 0x10000000 + c * 0x100 + off

/-- A fresh free value's number. -/
def draw (s : State) : Nat × State := (s.fresh, { s with fresh := s.fresh + 1 })

end Sys2Proof.Machine
end

