-- ==== Sys2Proof/Machine/Calendar.lean ====
section
/-! DEFINITION. Calendar time (13, R330; 18, R441 to R443). -/

namespace Sys2Proof.Machine

/-- `CALVALID` (18, Table 18-8). -/
def calValid (s : State) : Bool := bit s.stk.stat 14

/-- Calendar arithmetic of R443 from an anchor: the time at count t. -/
def calAt (a : Anchor) (t : Nat) : Nat :=
  let ns : Int := (((t : Int) - a.cyc) * 2) / 5
  let total : Int := (a.cal / 2 ^ 30 * 1000000000 + a.cal % 2 ^ 30 : Nat) + ns
  if total < 0 then 0 else (total.toNat / 1000000000) * 2 ^ 30 + total.toNat % 1000000000

/-- Nanoseconds that the calendar clock has run over d counts: its own rate, within 50 ppm (18, R442; log 50). -/
def calRun (d : Nat) : Nat :=
  let ns := d * 2 / 5
  let m : Int := (ns * 50 / 1000000 : Nat)
  if m = 0 then ns else ((ns : Int) + max (-m) (min m (Config.calDrift d))).toNat

/-- The calendar clock now: the value it was last set to, run on; zero while it is not valid (18, R441, R442). -/
def calNow (s : State) : Nat :=
  if calValid s then
    let total := s.stk.cal / 2 ^ 30 * 1000000000 + s.stk.cal % 2 ^ 30 + calRun (s.cyc - s.stk.calCyc)
    total / 1000000000 * 2 ^ 30 + total % 1000000000
  else 0

/-- The calendar clock runs on while `SYS_CYC` starts anew (13, R330; 18, R442). -/
def calRebase (s : State) : State :=
  { s with stk := { s.stk with cal := if calValid s then calNow s else s.stk.cal, calCyc := 0 } }

/-- At power-on the Stoker finds whether the calendar has stopped (18, R442). -/
def calCheck (s : State) : State :=
  if s.pwr.lostInput && calValid s then
    let (n, s) := draw s
    let s := { s with pwr := { s.pwr with lostInput := false } }
    if Config.calStopped n then
      raise { s with stk := { s.stk with stat := setBit s.stk.stat 14 false, anchors := [] } } 0x0F 6 0 none 0
    else s
  else { s with pwr := { s.pwr with lostInput := false } }

/-- Calendar time of a record stamped with count t (18, R443). -/
def calOf (s : State) (t : Nat) : Nat :=
  if calValid s then
    match s.stk.anchors.find? (fun a => decide (a.cyc ≤ t)) with
    | some a => calAt a t
    | none => match s.stk.anchors.getLast? with
      | some a => calAt a t
      | none => 0
  else 0

end Sys2Proof.Machine
end

