-- ==== Sys2Proof/Machine/Mantel.lean ====
section
/-! DEFINITION. Where deep memory lies, the mantel pools, check codes, and the reads and writes of every agent (09).
The bytes of an address are held once, in `mem`; a mantel tile holds which granules it has and which are dirty
(R195). -/

namespace Sys2Proof.Machine

/-! ### Where an address lives -/

/-- The pair of a region is in SPLIT mode (09, R202, Table 09-8). -/
def isSplit (s : State) (r : Nat) : Bool := bit (vget s.msys.rgn (r / 2) 0) 11

/-- Where a deep-memory address lies (09, R203, Table 09-4): region, granule in the region, run, slot, channel, granule
in the channel, bank, row, sector of the row. -/
structure DeepLoc where
  region : Nat
  granule : Nat
  run : Nat
  slot : Nat
  channel : Nat
  inChannel : Nat
  bank : Nat
  row : Nat
  sector : Nat
deriving DecidableEq, Repr

/-- The map of R203, for a region in FULL or SPLIT mode. -/
def deepMap (split : Bool) (a : Nat) : DeepLoc :=
  let rg := regionOf a
  let o := a % 0x600000000
  let q := o / 256
  let n := if split then 1536 else 3072
  let base := if split then 1536 * (rg % 2) else 0
  let t := q / n
  let slot := if split then 2 * (rg / 2) + t / 32768 else rg
  let tl := if split then t % 32768 else t
  let h := ((t ^^^ (t / 128)) * 725) % n
  let g := slot * 32768 + tl
  { region := rg, granule := q, run := t, slot := slot, channel := base + (q % n + h) % n, inChannel := g
    bank := (g % 32) ^^^ (g / 32 % 32), row := g / 32, sector := o % 256 / 32 }

def deepLoc (s : State) (a : Nat) : DeepLoc := deepMap (isSplit s (regionOf a)) a
/-- Channel of a deep-memory address (09, R203). -/
def channelOf (s : State) (a : Nat) : Nat := (deepLoc s a).channel
/-- Stack of a deep-memory address (09, R203). -/
def stackOf (s : State) (a : Nat) : Nat := channelOf s a / 256

/-- Stacks that a region occupies (09, R202, R217). -/
def regionStacks (s : State) (r : Nat) : List Nat :=
  if isSplit s r then (List.range 6).map (· + 6 * (r % 2)) else List.range 12
/-- Hearths that own a region occupying a stack. -/
def stackHearths (s : State) (k : Nat) : List Nat :=
  (List.range 16).filter (fun h => hOn s h &&
    (setBits (hsec s h).h.regions).any (fun r => (regionStacks s r).contains k))

def tripped (s : State) (k : Nat) : Bool := bit (vget s.msys.stk k 0) 1

/-- Home pool of a deep-memory address (09, R206). -/
def homePool (s : State) (a : Nat) : Nat :=
  if isSplit s (regionOf a) then regionOf a % 2 else parity 28 (a / 65536 % 2 ^ 28)

/-! ### Check codes (09, R197, R212, R213) -/

/-- The address bits of a code word (09, R212). -/
def codeAbits (a : Nat) : Nat := (a / 256 % 16) ^^^ (a / 4096 % 16)

/-- The 261 bits that the 29 data symbols of a sector's code word hold: data, poison bit and address bits, from bit 0 up
(09, R212; the order within them is the model's, log 53). -/
def codeData (a : Nat) (bs : List Byte) (psn : Bool) : BitVec 261 :=
  BitVec.ofNat 261 (leNat (bs.take 32) + b2n psn * 2 ^ 256 + codeAbits a * 2 ^ 257)
/-- Data symbol i: the 9 pins of beat i. -/
def dataSymbol (w : BitVec 261) (i : Nat) : BitVec 9 := BitVec.ofNat 9 (fld w (9 * i + 8) (9 * i))

/-- What a deep-memory code word shows when it is read (09, R212): one wrong symbol is corrected, two are detected, and a
wrong address-bit value is uncorrectable. More wrong symbols have no stated outcome (`Config.codeBeyond`, log 53). -/
def deepCode (a : Nat) : EccResult → EccResult
  | .wrong n ab =>
    if ab ≠ codeAbits a then .uncorrectable
    else match n with
      | 0 => .clean
      | 1 => .corrected
      | 2 => .uncorrectable
      | k => if Config.codeBeyond a k then .uncorrectable else .clean
  | r => r
/-- What a scratch word shows (09, R197): one wrong bit is corrected, two are detected. -/
def wordCode (k : Nat) : EccResult → EccResult
  | .wrong 0 _ => .clean
  | .wrong 1 _ => .corrected
  | .wrong 2 _ => .uncorrectable
  | .wrong n _ => if Config.codeBeyond (8 * k) n then .uncorrectable else .clean
  | r => r

/-- Stored words have gone bad by the time of an access (log 53). -/
def noteCodes (s : State) (a : Nat) (e : EccHits) : State :=
  let e := e.filter (fun x => x.2 != .clean)
  match place a with
  | .deep _ => { s with codes := { s.codes with deep := e.foldl (fun l x => put l (a / 256 * 8 + x.1) x.2) s.codes.deep } }
  | .win _ _ => { s with codes := { s.codes with words := e.foldl (fun l x => put l (a / 256 * 32 + x.1) x.2) s.codes.words } }
  | _ => s

/-- The stored word k has been rewritten. -/
def dropDeep (s : State) (p : Nat → Bool) : State :=
  { s with codes := { s.codes with deep := s.codes.deep.filter (fun x => !p x.1) } }
def dropWord (s : State) (k : Nat) : State :=
  { s with codes := { s.codes with words := s.codes.words.filter (fun x => x.1 != k) } }

/-- An uncorrectable deep-memory sector (09, R213). -/
def dpmUe (s : State) (a : Nat) : State :=
  let s := { s with msys := { s.msys with ecc0 := bumpSat s.msys.ecc0 63 32 1, ecc1 := setFld s.msys.ecc1 43 0 (a / 32 * 32) } }
  let k := stackOf s a
  let s := { s with recs := { s.recs with stks := vmod s.recs.stks k (fun u => { u with
    ues := s.cyc :: u.ues.filter (fun c => decide (s.cyc < c + 2 ^ 48)) }) } }
  raise s 6 2 0 (regionHearth s (regionOf a)) 0 (a / 32 * 32)
/-- A corrected deep-memory sector. -/
def dpmCe (s : State) : State := { s with msys := { s.msys with ecc0 := bumpSat s.msys.ecc0 31 0 1 } }

/-- The code words that a read of the sectors `seen` finds, and the sectors it finds uncorrectable. A corrected word is
rewritten, an uncorrectable one is left as it is (09, R213). -/
def seeDeep (s : State) (seen : Nat → Bool) : State × List Nat :=
  (s.codes.deep.filter (fun x => seen x.1)).foldl (fun r x => match deepCode (32 * x.1) x.2 with
    | .corrected => (dropDeep (dpmCe r.1) (· == x.1), r.2)
    | .uncorrectable => (dpmUe r.1 (32 * x.1), r.2 ++ [x.1])
    | _ => r) (s, [])

/-- An uncorrectable scratch word at offset o of tile t's window: its sector is delivered poisoned, and stays so until it
is written (09, R197, log 53). -/
def scrUe (s : State) (t o : Nat) : State :=
  let s := modTile s t (fun x => { x with misc := { x.misc with
    scrEcc := setFld (bumpSat x.misc.scrEcc 31 16 1) 63 40 (o / 32) } })
  let s := { s with poison := insSet ((winBase t + o) / 32) s.poison }
  raise s 6 6 0 (tileHearth s t) (0x100000 + t) (winBase t + o)

/-- A read of bytes [a, a + n) of a scratch window finds these words; a corrected word is written back (09, R197). -/
def seeWords (s : State) (a n : Nat) : State :=
  (s.codes.words.filter (fun x => decide (8 * x.1 < a + n) && decide (a < 8 * x.1 + 8))).foldl (fun s x =>
    match place (8 * x.1), wordCode x.1 x.2 with
    | .win t _, .corrected =>
      dropWord (modTile s t (fun x => { x with misc := { x.misc with scrEcc := bumpSat x.misc.scrEcc 15 0 1 } })) x.1
    | .win t o, .uncorrectable => dropWord (if o < 0x1800000 then scrUe s t o else s) x.1
    | _, _ => s) s

/-- An engine of tile t reads n bytes of its window. -/
def scrSee (s : State) (t off n : Nat) : State := seeWords s (winBase t + off) n

/-! ### Mantel -/

def modPool (s : State) (p : Nat) (f : Pool → Pool) : State :=
  { s with msys := { s.msys with pool := vmod s.msys.pool p f } }
def poolAt (s : State) (p : Nat) : Pool := vget s.msys.pool p {}
/-- The mantel tile that holds a block. -/
def tileOf (s : State) (b : Nat) : Option MTile := (poolAt s (homePool s (b * 65536))).tiles.find? (fun m => m.block == b)

/-- Count in MTL_STAT of a hearth: word 0 HIT and MISS, word 1 EVICT and WB (09, Table 09-14). -/
def mtlStat (s : State) (h : Option Nat) (word hi lo n : Nat) : State :=
  match h with
  | some k => modHearth s k (fun x => { x with mem :=
      if word = 0 then { x.mem with mtlStat0 := bumpMod x.mem.mtlStat0 hi lo n }
      else { x.mem with mtlStat1 := bumpMod x.mem.mtlStat1 hi lo n } })
  | none => s

/-- Granules of block b that bytes [a, a + n) touch, as a mask. -/
def granuleMask (b a n : Nat) : BitVec 256 :=
  let lo := max a (b * 65536)
  let hi := min (a + n) (b * 65536 + 65536)
  if lo < hi then
    let g0 := (lo - b * 65536) / 256
    let g1 := (hi - 1 - b * 65536) / 256
    ones 256 g1 g0
  else 0

/-- Blocks that bytes [a, a + n) touch. -/
def blocksOf (a n : Nat) : List Nat :=
  if n = 0 then [] else (List.range ((a + n - 1) / 65536 + 1 - a / 65536)).map (· + a / 65536)

/-- A free tile for hearth h, lowest index first; a lent tile only for its lender (09, R209). -/
def freeTile (x : Pool) (h : Nat) : Option Nat :=
  (List.range (2048 + x.lent.length)).find? (fun i =>
    !(x.tiles.any (fun m => m.idx == i)) && (decide (i < 2048) || x.lent.getD (i - 2048) 99 == h))

def insTile (m : MTile) : List MTile → List MTile
  | [] => [m]
  | x :: r => if m.idx < x.idx then m :: x :: r else x :: insTile m r

/-- A hit on the block: ages, granules, dirty bits and the Hob lines that a write invalidates (09, R195,
R207 to R209). -/
def hitTile (m : MTile) (mask : BitVec 256) (hint : Hint) (wr : Bool) (line : Option Nat) : MTile :=
  { m with
    valid := m.valid ||| mask
    dirty := if wr then m.dirty ||| mask else m.dirty
    bad := if wr then m.bad.filter (fun k => !mask.getLsbD (k % 2048 / 8)) else m.bad
    age := if hint = .last then 65535 else 0
    hobs := if wr then m.hobs.filterMap (fun e =>
        let k := match line with
          | some c => e.2 &&& (1#16 <<< c)
          | none => 0
        if !mask.getLsbD e.1 then some e else if k = 0 then none else some (e.1, k))
      else match line with
        | some c => (setBits mask).foldl (fun l g => put l g (look l g 0 ||| (1#16 <<< c))) m.hobs
        | none => m.hobs }

/-- One block of an access: none when it must wait for a mantel tile, or for the write-back of the one it finds. -/
def touchBlock (s : State) (h : Option Nat) (hint : Hint) (a n : Nat) (wr : Bool) (line : Option Nat) (b : Nat) :
    Option State :=
  let p := homePool s (b * 65536)
  let mask := granuleMask b a n
  match tileOf s b with
  | some m =>
    if m.busy then none
    else
      let s := mtlStat s h 0 31 0 1
      some (modPool s p (fun x => { x with tiles := x.tiles.map (fun k => if k.idx = m.idx then hitTile m mask hint wr line else k) }))
  | none => match hint, h with
    | .alloc, some k => match freeTile (poolAt s p) k with
      | some i =>
        let s := mtlStat s h 0 63 32 1
        let m : MTile := { idx := i, block := b, owner := k }
        some (modPool s p (fun x => { x with tiles := insTile (hitTile m mask hint wr line) x.tiles }))
      | none => none
    | _, _ => some (mtlStat s h 0 63 32 1)

/-- The granules of an access that deep memory serves: those that no mantel tile holds valid. -/
def fromDeep (s : State) (a n : Nat) : Bool :=
  (blocksOf a n).any (fun b =>
    match tileOf s b with
    | some m => (granuleMask b a n &&& ~~~m.valid) != 0
    | none => true)

/-- A stack that the access needs is tripped (09, R218). -/
def stackWaits (s : State) (a n : Nat) : Bool :=
  fromDeep s a n && ((List.range ((a + n - 1) / 256 + 1 - a / 256)).any (fun i =>
    tripped s (stackOf s ((a / 256 + i) * 256)) && fromDeep s ((a / 256 + i) * 256) 256))

/-- An access to deep memory through its home pools; none when it must wait (09, R207 to R209, R218). Hob
cores cache what they read (R195): `line` names the core. -/
def touch (s : State) (h : Option Nat) (hint : Hint) (a n : Nat) (wr : Bool) (line : Option Nat := none) : Option State :=
  if stackWaits s a n then none
  else (blocksOf a n).foldl (fun o b => o.bind (fun s => touchBlock s h hint a n wr line b)) (some s)

/-! ### Accesses -/

/-- A fill delivered sector k poisoned to its mantel tile (09, R213, R214); `clean` says that its granule is clean. -/
def fillPoison (clean : Bool) (k : Nat) (s : State) : State :=
  if s.poison.contains k then s
  else
    let s := { s with poison := insSet k s.poison }
    if clean then modPool s (homePool s (k / 2048 * 65536)) (fun x => { x with
      tiles := x.tiles.map (fun m => if m.block = k / 2048 then { m with bad := insSet k m.bad } else m) })
    else s

/-- A tile leaves its pool without writing a granule back: the poison that a fill gave its sectors goes with it. -/
def dropFill (m : MTile) (s : State) : State :=
  if m.bad.isEmpty then s else { s with poison := s.poison.filter (fun k => !m.bad.contains k) }

/-- Sector k lies within bytes [a, a + n), wholly or in part. -/
def inBytes (a n k : Nat) : Bool := decide (32 * k < a + n) && decide (a < 32 * k + 32)
/-- All of sector k lies within them. -/
def wholeIn (a n k : Nat) : Bool := decide (a ≤ 32 * k) && decide (32 * k + 32 ≤ a + n)

/-- A write of bytes [a, a + n) covers part of a sector of the granule of sector k, which it therefore fills. -/
def fillsPart (a n k : Nat) : Bool :=
  (decide (a % 32 ≠ 0) && decide (a / 256 = k / 8)) || (decide ((a + n) % 32 ≠ 0) && decide ((a + n - 1) / 256 = k / 8))

/-- What the codes show on an access to deep memory, s0 before and s after its granules were filled: the sectors it reads
there, those of fills and its own; the poisoned ones of a read are given (09, R208, R213). A part of a sector that is
written past the mantel is written into the word that was read, which takes its poison (R212, R214). -/
def eccDeep (s0 s : State) (a n : Nat) (wr : Bool) : State × List Nat :=
  if s.codes.deep.isEmpty then (s, [])
  else
    let deep := fun k => fromDeep s0 (32 * k) 32
    let filled := fun k => deep k && !fromDeep s (32 * k) 32 && (!wr || fillsPart a n k)
    let direct := fun k => inBytes a n k && deep k && fromDeep s (32 * k) 32
    let (s, p) := seeDeep s (fun k => filled k || (direct k && (!wr || !wholeIn a n k)))
    let s := (p.filter filled).foldl (fun s k => fillPoison (!wr) k s) s
    if wr then (dropDeep ((p.filter direct).foldl (fun s k => { s with poison := insSet k s.poison }) s) direct, [])
    else (s, p.filter (inBytes a n))

/-- A write of bytes to deep memory or a scratch window by an agent of a hearth; none when it waits. -/
def devWrite (s : State) (h : Option Nat) (hint : Hint) (a : Nat) (bs : List Byte) (poison : List Nat)
    (line : Option Nat := none) (e : EccHits := []) : Option State :=
  match place a with
  | .deep _ => (touch (noteCodes s a e) h hint a bs.length true line).map (fun u =>
      store (eccDeep s u a bs.length true).1 a bs poison)
  | _ => some (store (noteCodes s a e) a bs poison)

/-- A read: the state after it, the bytes and the poisoned sectors delivered; none when it waits. -/
def devRead (s : State) (h : Option Nat) (hint : Hint) (a n : Nat) (e : EccHits) (line : Option Nat := none) :
    Option (State × List Byte × List Nat) :=
  match place a with
  | .deep _ => (touch (noteCodes s a e) h hint a n false line).map (fun u =>
      let (v, p) := eccDeep s u a n false
      (v, readMem s.mem a n, poisoned s a n ++ p))
  | _ =>
    let v := seeWords (noteCodes s a e) a n
    some (v, readMem s.mem a n, poisoned v a n)

/-- A read and a write of n bytes, poison with them (09, R214); none when either waits. -/
def devCopy (s : State) (h : Option Nat) (hint : Hint) (src dst n : Nat) : Option State :=
  if n = 0 then some s
  else (devRead s h hint src n []).bind (fun r =>
    devWrite r.1 h hint dst r.2.1 (r.2.2.map (fun q => q + dst / 32 - src / 32)))

/-! ### Accesses that wait -/

/-- Blocks of a waiting access that must get a tile of pool p (09, R209). -/
def blocksWanted (s : State) (p : Nat) (m : MAccess) : List Nat :=
  if m.hint = .alloc ∧ m.hearth < 16 ∧ !stackWaits s m.addr m.len then
    (blocksOf m.addr m.len).filter (fun b => decide (homePool s (b * 65536) = p) && (tileOf s b).isNone)
  else []

/-- The pool at which an access waits: that of the first block which finds no free tile there. -/
def waitPool (s : State) (m : MAccess) : Nat :=
  match (blocksOf m.addr m.len).find? (fun b =>
      (tileOf s b).isNone && (freeTile (poolAt s (homePool s (b * 65536))) m.hearth).isNone) with
  | some b => homePool s (b * 65536)
  | none => homePool s m.addr

/-- The access waits for a mantel tile at its home pool. -/
def waitTile (s : State) (m : MAccess) : State :=
  let p := waitPool s m
  if m.again && (poolAt s p).waiting.contains m then s
  else modPool s p (fun x => { x with waiting := x.waiting ++ [m] })

/-- An operation of the device finds that its access must wait, and makes it again later: one that needs a mantel tile
waits for it at the pool. -/
def waitOp (s : State) (a : Agent) (h addr n : Nat) (hint : Hint) : State :=
  if hint = .alloc ∧ !stackWaits s addr n then
    waitTile s { agent := a, hearth := h, addr := addr, len := n, wr := false, data := [], poison := [], again := true }
  else s

/-- The agent of a 24-bit code (11, Table 11-2). -/
def agentOf (code : Nat) : Agent :=
  let n := code % 2 ^ 20
  match code / 2 ^ 20 with
  | 1 => .tile (Fin.ofNat 32 n)
  | 2 => .hob (Fin.ofNat 16 n)
  | 3 => .port (Fin.ofNat 12 n)
  | 4 => .host (Fin.ofNat 17 n)
  | 5 => .remote (BitVec.ofNat 20 n)
  | _ => .stoker

/-- A write that an agent of hearth h makes and does not wait for: one that must wait is made in its turn at the home
pool. -/
def postWrite (s : State) (a : Agent) (h : Nat) (hint : Hint) (addr : Nat) (bs : List Byte) (ps : List Nat) : State :=
  (devWrite s (some h) hint addr bs ps).getD (waitTile s
    { agent := a, hearth := h, addr := addr, len := bs.length, wr := true, data := bs, poison := ps, hint := hint })
/-- The writes of an agent that have still to commit at a pool. -/
def waitingWrites (s : State) (a : Agent) : List MAccess :=
  s.msys.pool.toList.flatMap (fun x => x.waiting.filter (fun m => m.wr && m.agent == a))
def writesWait (s : State) (a : Agent) : Bool := !(waitingWrites s a).isEmpty

/-- Serve a waiting access; none while it still waits. -/
def serveAccess (s : State) (m : MAccess) : Option State :=
  let line := match m.agent with | .hob c => some c.val | _ => none
  let h := if m.hearth < 16 then some m.hearth else none
  if m.again then touch s h m.hint m.addr m.len false
  else if m.wr then devWrite s h m.hint m.addr m.data m.poison line
  else (devRead s h m.hint m.addr m.len [] line).map (fun r => emit r.1 (.readData m.agent r.2.1 r.2.2))

/-- Serve the accesses that wait at a pool, in order, as far as they can be. -/
def serveWaiting (s : State) (p : Nat) : State :=
  forEach (poolAt s p).waiting s (fun m s => match serveAccess s m with
    | some s => modPool s p (fun x => { x with waiting := x.waiting.erase m })
    | none =>
      if waitPool s m = p then s
      else waitTile (modPool s p (fun x => { x with waiting := x.waiting.erase m })) m)

/-! ### Victims (09, R209, R210) -/

def usedBy (x : Pool) (h : Nat) : Nat := (x.tiles.filter (fun m => m.owner == h)).length
def minShare (s : State) (h p : Nat) : Nat :=
  let r := (hearthAt s h).mem.mtlShare
  if p = 0 then fld r 11 0 else fld r 23 12

/-- The victim for hearth h in pool p. -/
def victim (s : State) (p h : Nat) : Option MTile :=
  let x := poolAt s p
  let cand := x.tiles.filter (fun m => !m.busy && (m.owner == h || decide (minShare s m.owner p < usedBy x m.owner)) &&
    (decide (m.idx < 2048) || x.lent.getD (m.idx - 2048) 99 == h))
  cand.foldl (fun b m => match b with
    | none => some m
    | some v => if v.age < m.age then some m else some v) none

/-- The granules of a tile reach deep memory: their code words are new (09, R208, R212). -/
def toDeep (s : State) (m : MTile) (mask : BitVec 256) : State :=
  if s.codes.deep.isEmpty then s else dropDeep s (fun k => k / 2048 == m.block && mask.getLsbD (k % 2048 / 8))

/-- A tile leaves its pool, its dirty granules written back. -/
def leavePool (s : State) (p i : Nat) : State :=
  modPool (forEach ((poolAt s p).tiles.filter (fun m => m.idx == i)) s (fun m s => dropFill m (toDeep s m m.dirty))) p
    (fun x => { x with tiles := x.tiles.filter (fun m => m.idx != i) })

/-- Dirty granules of a tile. -/
def dirtyCount (m : MTile) : Nat := (setBits m.dirty).length
/-- A granule of these cannot be written back: its stack is tripped (09, R218). -/
def backWaits (s : State) (m : MTile) (mask : BitVec 256) : Bool :=
  (setBits mask).any (fun g => tripped s (stackOf s (m.block * 65536 + 256 * g)))

/-- The hearths for whose accesses pool p has still to find a tile, in the order of the waiting accesses: one for each
block that no tile holds, less the tiles already in eviction. -/
def tilesWanted (s : State) (p : Nat) : List Nat :=
  let want := (poolAt s p).waiting.foldl (fun l m =>
    l ++ ((blocksWanted s p m).filter (fun b => !(l.any (fun e => e.1 == b)))).map (fun b => (b, m.hearth))) ([] : List (Nat × Nat))
  (want.drop ((poolAt s p).tiles.filter (·.busy)).length).map (·.2)

/-- MANTEL_VICTIM_FOUND (09, R209): the first access that lacks a tile gets a free one, or a victim is evicted for it. -/
def victimFound (s : State) (p : Nat) : State :=
  match tilesWanted s p with
  | [] => serveWaiting s p
  | h :: _ =>
    if (freeTile (poolAt s p) h).isSome then serveWaiting s p
    else match victim s p h with
      | none => s
      | some v =>
        let s := mtlStat s (some v.owner) 1 31 0 1
        if v.dirty = 0 then serveWaiting (leavePool s p v.idx) p
        else modPool s p (fun x => { x with tiles := x.tiles.map (fun k =>
          if k.idx = v.idx then { v with busy := true, hobs := [] } else k) })

/-- EVICTION_WRITEBACK_END (09, R208). -/
def evictEnd (s : State) (p i : Nat) : State :=
  match (poolAt s p).tiles.find? (fun m => m.idx == i) with
  | some m =>
    if m.busy && !backWaits s m m.dirty then
      serveWaiting (leavePool (mtlStat s (some m.owner) 1 63 32 (dirtyCount m)) p i) p
    else s
  | none => s

/-- MANTEL_AGE_TICK (09, R209). -/
def ageTick (s : State) : State :=
  { s with msys := { s.msys with pool := s.msys.pool.map (fun x =>
    { x with tiles := x.tiles.map (fun m => { m with age := min 65535 (m.age + 1) }) }) } }

end Sys2Proof.Machine
end

