-- ==== Sys2Proof/Machine/Sched.lean ====
section
/-! DEFINITION. Command streams, tile faults, schedule breaches and hold states, and the frame in which a
tile instruction issues (03, R76; 10, R229 to R233, R245 to R248). -/

namespace Sys2Proof.Machine

def modBlw (s : State) (t : Nat) (f : Bellows → Bellows) : State := modTile s t (fun x => { x with blw := f x.blw })

/-! ### Command streams -/

def csState (s : State) (t : Nat) : Nat := fld (tileAt s t).blw.csCtl 5 4
def csWord (s : State) (t : Nat) : Nat := fld (tileAt s t).blw.csCtl 63 32
def csStopped : Nat := 0
def csRunning : Nat := 1
def csDoneSt : Nat := 2
def csFaulted : Nat := 3

def setCs (s : State) (t st : Nat) : State :=
  modTile s t (fun x => { x with blw := { x.blw with csCtl := setFld x.blw.csCtl 5 4 st } })
def setCsWord (s : State) (t w : Nat) : State :=
  modTile s t (fun x => { x with blw := { x.blw with csCtl := setFld x.blw.csCtl 63 32 w } })

/-- Hold state of a hearth (10, Table 10-9): 0 RUN, 1 HOLDING, 2 HELD, 3 RESUMING, 4 STALLED. -/
def holdState (s : State) (h : Nat) : Nat := fld (hearthAt s h).mem.sched 34 32
def holdCauses (s : State) (h : Nat) : Nat := fld (hearthAt s h).mem.sched 47 40

def setHold (s : State) (h st : Nat) : State :=
  modHearth s h (fun x => { x with mem := { x.mem with sched := setFld x.mem.sched 34 32 st }
                                   run := { x.run with since := fc s } })
def setCause (s : State) (h cause : Nat) (on : Bool) : State :=
  modHearth s h (fun x => { x with mem := { x.mem with sched := setBit x.mem.sched (39 + cause) on } })

/-- The tile belongs to a hearth that is in RUN. -/
def tileRuns (s : State) (t : Nat) : Bool :=
  match tileHearth s t with
  | some h => decide (holdState s h = 0)
  | none => false

/-- Words and arrays that the row pipe, load pipe, accumulator pipe, vector pipe hold. -/
def anvilIdle (x : Tile) : Bool :=
  x.anv.queue.isEmpty && x.anv.rowPipe.isEmpty && x.anv.loadPipe.isNone && x.anv.accPipe.isNone &&
  x.anv.array.isEmpty && x.anv.replay.isNone && x.anv.reenter.isEmpty
def vecIdle (x : Tile) : Bool := x.vec.queue.isEmpty && x.vec.run.isNone
/-- Every pipe and queue of the tile is empty (10, R231, R233). -/
def tileIdle (x : Tile) : Bool := anvilIdle x && vecIdle x

/-! ### Breaches -/

def cLAND : Nat := 1
def cCHAIN : Nat := 2
def cLINE : Nat := 3
def cDUTY : Nat := 4
def cPOISON : Nat := 5
def cREPLAY : Nat := 6
def cCLOCK : Nat := 7
def cSOFT : Nat := 8

/-- A schedule breach of a hearth (10, R245, R246, Tables 10-8 and 10-9). `LTILE` of a breach that no tile
declares is a free value (log 27). -/
def breach (s : State) (h cause : Nat) (tile : Option Nat) (agent : Nat) : State :=
  let w := fc s / 2 ^ 16
  let (free, s) := match tile with
    | some t => (t, s)
    | none => ((Config.freeTile s.fresh).toNat, (draw s).2)
  let tile := free
  let first := vget (hearthAt s h).run.seen cause none != some w
  let s := modHearth s h (fun x =>
    { x with mem := { x.mem with brch := setFld (setFld (bumpSat x.mem.brch 63 32 1) 15 8 cause) 4 0 tile }
             run := { x.run with seen := vput x.run.seen cause (some w) } })
  let s := if first then raise s 0x08 cause 0 (some h) agent else s
  if cause = cDUTY then s
  else
    let s := setCause s h cause true
    if holdState s h = 0 ∨ holdState s h = 3 then setHold s h 1 else s

/-- A holding cause ends. -/
def endCause (s : State) (h cause : Nat) : State := setCause s h cause false

/-- The causes LAND_LATE, CHAIN_LATE and LINE_LATE follow the tiles that are late under them. -/
def refreshLate (s : State) (h : Nat) : State :=
  if holdState s h = 4 then s else
  let ts := hTiles s h
  let keep := fun (s : State) c (f : Tile → Bool) =>
    if ts.any (fun t => f (tileAt s t)) then s else endCause s h c
  let s := keep s cLAND (fun x => x.blw.late.isSome)
  let s := keep s cCHAIN (fun x => x.acc.late)
  keep s cLINE (fun x => x.win.late)

/-! ### Faults and stops of a tile -/

/-- The stream stops at its present word (10, R233): STATE FAULTED, and what it held at that word ends. -/
def stopStream (s : State) (t : Nat) : State :=
  if csState s t = csRunning then
    let s := setCs s t csFaulted
    modTile s t (fun x => { x with
      acc := { x.acc with headFc := none }
      blw := { x.blw with pend := none }
      misc := { x.misc with wait := none, faultSeq := some s.recs.seq } })
  else s

/-- Fault register contents: word index, bits [31:16], code, detail. -/
def faultWord (word mid code detail : Nat) : Reg :=
  BitVec.ofNat 64 (word % 2 ^ 32 * 2 ^ 32 + mid % 2 ^ 16 * 2 ^ 16 + code % 256 * 2 ^ 8 + detail % 256)

/-- Code spaces of the tile units (15, Table 15-10). -/
def spANV : Nat := 1
def spACC : Nat := 2
def spWIN : Nat := 3
def spVEC : Nat := 4
def spSFU : Nat := 5
def spBLW : Nat := 7
def spSYN : Nat := 9
def spCHK : Nat := 12
def spCOL : Nat := 11

/-- Write a tile's fault register of a space. -/
def setFault (s : State) (t space : Nat) (v : Reg) : State :=
  modTile s t (fun x =>
    match space with
    | 1 => { x with anv := { x.anv with fault := v } }
    | 2 => { x with acc := { x.acc with fault := v } }
    | 3 => { x with win := { x.win with fault := v } }
    | 4 => { x with vec := { x.vec with fault := v } }
    | 5 => { x with vec := { x.vec with sfuFault := v } }
    | 7 => { x with blw := { x.blw with fault := v } }
    | 9 => { x with misc := { x.misc with synFault := v } }
    | _ => { x with misc := { x.misc with chkFault := v } })

/-- A tile fault at a word (03, R76): the register, the error record, the stream FAULTED at the word. -/
def tileFault (s : State) (t space code detail word mid : Nat) : State :=
  let s := setFault s t space (faultWord word mid code detail)
  let s := stopStream s t
  raise s space code detail (tileHearth s t) (0x100000 + t) 0 word

/-- Every stream of a hearth stops at its next word, with a code in CHK_FAULT when given (15, R364, R365). -/
def stopHearth (s : State) (h : Nat) (chk : Option Nat) : State :=
  forEach (hTiles s h) s (fun t s =>
    if csState s t = csRunning then
      let s := match chk with
        | some c => setFault s t spCHK (faultWord (csWord s t) 0 c 0)
        | none => s
      stopStream s t
    else s)

/-! ### Issue of a tile instruction -/

/-- What the issue of an instruction word comes to. -/
inductive Issue where
  /-- issued; the stream goes to the next word -/
  | done (s : State)
  /-- issued; the stream goes to this word -/
  | goto (s : State) (w : Nat)
  /-- holds the stream at this word -/
  | hold (s : State)
  /-- faults at issue: space, code, detail in bits [7:0] and bits [31:16] of the fault register above -/
  | fault (space code detail : Nat)

/-- Opcode of an instruction word. -/
def opOf (w : Word128) : Nat := fld w 127 120

/-- With OORTRAP set, the word after a VPERM does not issue until that VPERM has ended (06, R144). -/
def permHolds (x : Tile) : Bool :=
  bit x.vec.cfg 0 && (x.vec.run.toList ++ x.vec.queue).any (fun v => decide (opOf v.w = 0x4E))

/-- The stream of tile t may issue word w: it runs and has not reached LIMIT, its hearth is in RUN, the tile
is no shadow, and the word is the one it holds at, when it holds at one. -/
def canIssue (s : State) (t : Nat) (w : Word128) : Bool :=
  decide (csState s t = csRunning) && decide (csWord s t < fld (tileAt s t).blw.csLim 31 0) && tileRuns s t && decide (tileRole s t ≠ 2) && !permHolds (tileAt s t) &&
  (match (tileAt s t).blw.pend with
    | none => true
    | some v => decide (v = w))

/-- The stream moves on to word n. -/
def advance (s : State) (t n : Nat) : State :=
  let s := setCsWord s t n
  modTile s t (fun x => { x with blw := { x.blw with pend := none }
                                 misc := { x.misc with seq := x.misc.seq + 1 } })

/-- Issue of a word by the stream of tile t. -/
def issue (t : Nat) (w : Word128) (f : State → Issue) (s : State) : State :=
  if canIssue s t w then
    match f s with
    | .done s' => advance s' t (csWord s' t + 1)
    | .goto s' n => advance s' t n
    | .hold s' => modTile s' t (fun x => { x with blw := { x.blw with
        pend := some w
        pendFc := if x.blw.pend.isNone then fc s else x.blw.pendFc } })
    | .fault sp c d => tileFault s t sp c (d % 256) (csWord s t) (d / 256)
  else s

/-- A tile-instruction command: the word must carry the command's opcode. -/
def issueCmd (op t : Nat) (w : Word128) (f : State → Issue) (s : State) : Out :=
  .next (if opOf w = op then issue t w f s else s)

end Sys2Proof.Machine
end

