-- ==== Sys2Proof/Machine/CtrOps.lean ====
section
/-! DEFINITION. Operations on synchronisation counters, waits, owners and books (11). -/

namespace Sys2Proof.Machine

def ctrAt (s : State) (c : Nat) : Counter := look s.counters c {}
def modCtr (s : State) (c : Nat) (f : Counter → Counter) : State :=
  { s with counters := put s.counters c (f (ctrAt s c)) }

def modNet (s : State) (h : Nat) (f : HNet → HNet) : State := modHearth s h (fun x => { x with net := f x.net })
def modRun (s : State) (h : Nat) (f : HRun → HRun) : State := modHearth s h (fun x => { x with run := f x.run })

/-- The counter lies in the hearth's range (11, R250). -/
def ctrIn (s : State) (h c : Nat) : Bool :=
  let x := (hsec s h).h
  decide (256 * x.cbase ≤ c) && decide (c < 256 * (x.cbase + x.nblk))

/-- A counter refusal at an interface other than a tile's: class MISUSE, severity INFO (15, Table 15-25). -/
def synRefuse (s : State) (code : Nat) (h : Option Nat) (agent arg0 : Nat) (detail : Nat := 0) : State :=
  raiseWith s 1 0 spSYN code detail h agent arg0 0 0

/-- `SYN_WS` fields of a slot (11, Table 11-13). -/
def wsCtr (x : Hearth) (i : Nat) : Nat := fld (vget x.net.ws0 i 0) 63 48
def wsTgt (x : Hearth) (i : Nat) : Nat := fld (vget x.net.ws0 i 0) 47 0
def wsSt (x : Hearth) (i : Nat) : Nat := fld (vget x.net.ws1 i 0) 11 8

/-- Precedence of the outcomes that arise in one fc (11, R258). -/
def WaitEnd.rank : WaitEnd → Nat
  | .timeout => 0
  | .ownerLost => 1
  | .satisfied => 2
/-- An outcome o arises in fc `now`: the wait has none, or one of this fc that gives way to it (11, R258). -/
def endsWith (old : Option WaitEnd) (oldFc now : Nat) (o : WaitEnd) : Bool :=
  match old with
  | none => true
  | some e => decide (oldFc = now) && decide (e.rank < o.rank)

/-- A tile's wait gets an outcome. -/
def endWait (s : State) (o : WaitEnd) (w : TileWait) : TileWait :=
  { w with ended := some o, endFc := fc s, owner := (ctrAt s w.ctr).owner.toNat
           esq := if o = .ownerLost then some s.recs.seq else none }

/-- Fix the outcome of every wait on a counter that has not ended, or that gives way to this outcome, and that `ok` selects
by its target (11, R256, R258). -/
def fixWaits (s : State) (c : Nat) (o : WaitEnd) (ok : Nat → Bool) : State :=
  let takes := fun (x : Hearth) (i : Nat) => decide (wsSt x i = 1) && decide (wsCtr x i = c) && ok (wsTgt x i) &&
    endsWith (vget x.run.wsEnd i none) (vget x.run.wsEndFc i 0) (fc s) o
  { s with
    tiles := s.tiles.map (fun x => match x.misc.wait with
      | some w => if w.ctr = c ∧ ok w.tgt ∧ endsWith w.ended w.endFc (fc s) o then
          { x with misc := { x.misc with wait := some (endWait s o w) } } else x
      | none => x)
    hearths := s.hearths.map (fun x => { x with run := { x.run with
      wsEnd := x.run.wsEnd.mapIdx (fun i e => if takes x i then some o else e)
      wsEndFc := x.run.wsEndFc.mapIdx (fun i e => if takes x i then fc s else e) } }) }

/-- An increment reaches a counter (11, R251): saturation raises one record; the waits it meets are
satisfied (R256). -/
def applyInc (s : State) (c amt : Nat) : State :=
  let x := ctrAt s c
  let v := x.value.toNat + amt
  let ovf := decide (2 ^ 48 - 1 < v)
  let s := if x.sat then s
    else modCtr s c (fun x => { x with value := BitVec.ofNat 48 (min v (2 ^ 48 - 1)), sat := ovf })
  let s := if ovf && !x.sat then raise s spSYN 9 0 (ctrHearth s c) 0 c else s
  let now := (ctrAt s c).value.toNat
  fixWaits s c .satisfied (fun t => decide (t ≤ now))

/-- Books of a hearth (11, Table 11-12). -/
def bookIssue (s : State) (h amt : Nat) (remote : Bool) : State :=
  modNet s h (fun n =>
    { n with issued := n.issued + BitVec.ofNat 64 amt
             loc := if remote then n.loc else n.loc + BitVec.ofNat 64 amt
             out := if remote then n.out + BitVec.ofNat 64 amt else n.out })
def bookDone (s : State) (h amt : Nat) (remote : Bool) : State :=
  modNet s h (fun n =>
    { n with done := n.done + BitVec.ofNat 64 amt
             loc := if remote then n.loc else n.loc - BitVec.ofNat 64 amt
             out := if remote then n.out - BitVec.ofNat 64 amt else n.out })

/-- An increment issued to a local counter is on its way (11, R255, R273): the phase window that it ends, and the writes that
must commit before it. -/
def issueWith (s : State) (h : Option Nat) (c amt : Nat) (phase : Option (Nat × Nat × Nat)) (after : List MAccess) : State :=
  let hid : Option HearthId := h.bind (fun k => if p : k < 16 then some ⟨k, p⟩ else none)
  let s := match h with
    | some k => bookIssue s k amt false
    | none => s
  { s with flights := s.flights ++ [{ ctr := c, amt := amt, hearth := hid, remote := false, phase := phase, after := after }] }
def issueLocal (s : State) (h : Option Nat) (c amt : Nat) : State := issueWith s h c amt none []

/-- Owner fields of a record (11, R259): DETAIL and ARG2. -/
def ownDetail (o : Nat) : Nat := (o / 2 ^ 20) % 16 * 16 + (o / 2 ^ 16) % 16
def ownArg2 (o : Nat) : Nat := o % 2 ^ 16

/-- A wait on the counter has not ended. -/
def anyWait (s : State) (c : Nat) : Bool :=
  s.tiles.toList.any (fun x => match x.misc.wait with
    | some w => decide (w.ctr = c) && w.ended.isNone
    | none => false) ||
  s.hearths.toList.any (fun x => (List.range 32).any (fun i =>
    decide (wsSt x i = 1) && decide (wsCtr x i = c) && (vget x.run.wsEnd i none).isNone))

/-- OWNER_LOST of a counter whose owner is gone (11, R265). -/
def loseOwner (s : State) (c : Nat) : State :=
  let x := ctrAt s c
  if x.owner = 0 ∨ x.lost then s
  else
    let ep := (x.epoch.toNat + 1) % 2 ^ 16
    let waited := anyWait s c
    let s := modCtr s c (fun x => { x with lost := true, epoch := BitVec.ofNat 16 ep })
    let s := fixWaits s c .ownerLost (fun _ => true)
    let o := x.owner.toNat
    raise s spSYN 5 (ownDetail o) (ctrHearth s c) 0 (c * 2 ^ 48 + ep) 0 (ownArg2 o) waited

/-- The owner with this agent code is lost: every counter it owns (11, R264). -/
def ownerGone (s : State) (code : Nat) : State :=
  forEach (s.counters.filterMap (fun e => if e.2.owner.toNat = code then some e.1 else none)) s (fun c s => loseOwner s c)

/-- Every owned counter of a hearth loses its owner (11, Table 11-5: the hearth is pre-empted). -/
def hearthOwnersGone (s : State) (h : Nat) : State :=
  forEach (s.counters.filterMap (fun e => if ctrIn s h e.1 ∧ e.2.owner ≠ 0 then some e.1 else none)) s
    (fun c s => loseOwner s c)

/-- Claim by an agent (11, R263): none when refused. A claim of an unowned counter is decided at the end of its fc. -/
def claimCtr (s : State) (c code : Nat) : Option State :=
  let x := ctrAt s c
  if x.owner = 0 then some { s with claims := s.claims.filter (· != (c, code)) ++ [(c, code)] }
  else if x.lost ∨ x.owner.toNat = code then
    some (modCtr s c (fun x => { x with owner := BitVec.ofNat 24 code, lost := false }))
  else none
/-- The claims of this fc: of each counter's, the one with the lowest agent code succeeds (11, R263). A tile that loses finds
the owner when its SCLM goes on; any other agent is refused at once. -/
def claimsDue (s : State) : State :=
  forEach s.claims { s with claims := [] } (fun k s' =>
    if s.claims.all (fun e => e.1 != k.1 || decide (k.2 ≤ e.2)) then
      modCtr s' k.1 (fun x => { x with owner := BitVec.ofNat 24 k.2, lost := false })
    else if k.2 / 2 ^ 20 = 1 then s'
    else synRefuse s' 6 (ctrHearth s' k.1) k.2 k.1)

/-- Release by an agent (11, R263). -/
def releaseCtr (s : State) (c code : Nat) : Option State :=
  if (ctrAt s c).owner.toNat = code then
    some (modCtr s c (fun x => { x with owner := 0, lost := false }))
  else none

/-- Outcome that a wait posted now has at once (11, R256, R265). -/
def postOutcome (s : State) (c tgt : Nat) : Option WaitEnd :=
  let x := ctrAt s c
  if tgt ≤ x.value.toNat then some .satisfied else if x.lost then some .ownerLost else none

/-- Notify a waiter or queue consumer: an MSI-X vector, or a Hob core's local interrupt (16, R396; 20, R468). -/
def notify (s : State) (code vec mip : Nat) : State :=
  let kind := code / 2 ^ 20
  let n := code % 2 ^ 20
  if kind = 4 then (if (hostReq s n).1 then emit s (.msix n vec) else (hostReq s n).2)
  else if kind = 2 then
    emit { s with hobs := vmod s.hobs n (fun x => { x with mip := x.mip ||| (1#64 <<< mip) }) } (.hobIrq n mip)
  else s

/-- Record of a timed-out wait (11, R259). -/
def tmoRecord (s : State) (h : Option Nat) (c tgt waiter : Nat) : State :=
  let x := ctrAt s c
  raise s spSYN 4 (ownDetail x.owner.toNat) h waiter (c * 2 ^ 48 + tgt) (min (2 ^ 32 - 1) (tgt - x.value.toNat))
    (ownArg2 x.owner.toNat)

/-- Check of a signed 64-bit amount (11, R252): the code that refuses it. -/
def amtBad (v : BitVec 64) : Option Nat :=
  if bit v 63 then some 7 else if fld v 62 32 ≠ 0 then some 8 else none

end Sys2Proof.Machine
end

