-- ==== Sys2Proof/Machine/LinkOps.lean ====
section
/-! DEFINITION. Sessions, the send table, routing and the requests that travel to other devices (11, R267 to
R270; 12, R287 to R304). -/

namespace Sys2Proof.Machine

/-- Frame types of Table 12-4. -/
def fHELLO : Nat := 0x01
def fHSK : Nat := 0x02
def fWRITE : Nat := 0x10
def fREAD : Nat := 0x11
def fRDATA : Nat := 0x12
def fACK : Nat := 0x18
def fINC : Nat := 0x20
def fCHAIN : Nat := 0x21
def fFLUE : Nat := 0x22
def fCOLL : Nat := 0x23
def fCLOSE : Nat := 0x2F

/-- Acknowledgement status of Table 12-5. -/
def aOK : Nat := 0
def aREFUSED : Nat := 1
def aRATE : Nat := 2
def aBUSY : Nat := 3
def aDUP : Nat := 4

def portState (s : State) (p : Nat) : Nat := fld (portAt s p).state 2 0
def portUp (s : State) (p : Nat) : Bool := decide (portState s p = 3)

/-- The allow-list revokes the identity that this device number has proved (12, R299, R300). -/
def revoked (s : State) (dev : Nat) : Bool :=
  match look? s.lnk.ids dev with
  | some i => s.tmp.cur.dev.revs.contains i
  | none => false
/-- A device number is admitted (12, R299). -/
def admitted (s : State) (dev : Nat) : Bool :=
  s.tmp.cur.dev.ranges.any (fun r => decide (r.1 ≤ dev) && decide (dev ≤ r.2)) && !revoked s dev

def sessOf (s : State) (dev : Nat) : Option Session := s.lnk.sessions.find? (fun x => x.dev.toNat == dev)
def modSess (s : State) (dev : Nat) (f : Session → Session) : State :=
  { s with lnk := { s.lnk with sessions := s.lnk.sessions.map (fun x => if x.dev.toNat = dev then f x else x) } }

/-- Channel of a source agent (12, Table 12-8). -/
def chanOf (code : Nat) : Nat :=
  match code / 2 ^ 20 with
  | 1 => code % 2 ^ 20 % 4
  | 2 => 4
  | 4 => 4
  | _ => 5

/-- A record of the receive or routing path: at most once per source and cause in each window of 2^16 fc
(12, R303), and suppressed when it would have to wait (15, R374). -/
def rxRaise (s : State) (code dev arg0 detail : Nat) (h : Option Nat) (space : Nat := 0x0A) : State :=
  let w := fc s / 2 ^ 16
  let key := code + 256 * space
  if s.lnk.seen.any (fun e => decide (e.1 = dev ∧ e.2.1 = key ∧ e.2.2 = w)) then s
  else
    let s := { s with lnk := { s.lnk with seen := (dev, key, w) :: s.lnk.seen.filter (fun e => decide (e.2.2 = w)) } }
    if 4096 ≤ s.recs.ring.length ∧ 256 ≤ s.recs.overflow.length then
      { s with recs := { s.recs with supp := s.recs.supp + 1, suppTotal := satAdd 32 s.recs.suppTotal 1 } }
    else raise s space code detail h (0x500000 + dev) arg0

/-! ### Routing (12, R294 to R297) -/

/-- Size and coordinate of a dimension. -/
def dimSize (s : State) (d : Nat) : Nat :=
  if d < 4 then fld s.lnk.topo (19 + 4 * d) (16 + 4 * d) + 1 else fld s.lnk.topo (13 + 2 * (d - 4)) (12 + 2 * (d - 4)) + 1
def coord (dev d : Nat) : Nat :=
  if d < 4 then dev / 2 ^ (4 * d) % 16 else dev / 2 ^ (16 + 2 * (d - 4)) % 4

/-- The neighbour that a TORUS port leads to (12, R294). -/
def neighbour (s : State) (p : Nat) : Nat :=
  let me := devNo s
  let d := p % 6
  let sz := dimSize s d
  let c := coord me d
  let c' := if p < 6 then (c + 1) % sz else (c + sz - 1) % sz
  let sh := if d < 4 then 4 * d else 16 + 2 * (d - 4)
  me - c * 2 ^ sh + c' * 2 ^ sh

inductive RouteTo where
  | port (p : Nat)
  | detour (p : Nat)
  | none
  | here
deriving DecidableEq, Repr

/-- The port that dimension order gives (12, R295): none for a destination that has no route. -/
def dimPort (s : State) (dev : Nat) : Option Nat :=
  if dev = 0xFFFFF ∨ (List.range 6).any (fun d => decide (dimSize s d ≤ coord dev d)) then none
  else ((List.range 6).find? (fun d => decide (coord dev d ≠ coord (devNo s) d))).map (fun d =>
    let sz := dimSize s d
    let f := (coord dev d + sz - coord (devNo s) d) % sz
    if f ≤ sz - f then d else 6 + d)

def portRole (s : State) (p : Nat) : Nat := fld (portAt s p).cfg 15 14
/-- `LNK_TOPO.MODE` is SWITCHED. -/
def switched (s : State) : Bool := bit s.lnk.topo 63
/-- The port is in service in the mode of the device (12, R293). -/
def carries (s : State) (p : Nat) : Bool := portUp s p && decide (portRole s p = if switched s then 2 else 1)

/-- Output port for a destination and channel (12, R295 to R297). -/
def route (s : State) (dev ch : Nat) : RouteTo :=
  if dev = devNo s then .here
  else if switched s then
    let ups := (List.range 12).filter (carries s)
    if ups.isEmpty then .none else .port (ups.getD ((8 * dev + ch) % ups.length) 0)
  else match dimPort s dev with
    | Option.none => .none
    | some p =>
      if carries s p then .port p
      else
        let e := vget s.lnk.dtr p 0
        let q := fld e 3 0
        if bit e 7 && carries s q then .detour q else .none

/-- Buffer class after leaving on port p: B once the dateline of the dimension is crossed or a detour is
taken (12, R288). A switch has no dateline. -/
def classAfter (s : State) (p : Nat) (f : Frame) (sameDim detoured : Bool) : Bool :=
  let d := p % 6
  let c := coord (devNo s) d
  let cross := if p < 6 then decide (c = dimSize s d - 1) else decide (c = 0)
  detoured || decide (0 < f.dtr) || (!switched s && ((sameDim && f.clsB) || cross))

/-- Bytes of a frame, and the credits it takes (12, R285, R286). -/
def frameBytes (f : Frame) : Nat := 64 + 32 * f.plen
def frameCredits (f : Frame) : Nat := cdiv (frameBytes f) 256

/-- Credits that frames of a channel and class have taken at the neighbour of a port. -/
def crTaken (x : Port) (k : Nat) : Nat := (x.ll.crOut.filter (fun e => e.1 == k)).foldl (fun n e => n + e.2) 0
/-- Key of a frame's channel and class. -/
def crKey (f : Frame) : Nat := 2 * f.ch + b2n f.clsB
/-- Credits of the shared pool in use, when channel and class k takes n more (12, R286). -/
def crShared (x : Port) (k n : Nat) : Nat :=
  (List.range 16).foldl (fun u j => u + (crTaken x j + (if j = k then n else 0) - 64)) 0
/-- The frame finds its credits: 64 of its channel and class, then the shared pool of 1,024. Channel 7 never waits for them
(12, R286). -/
def crOk (x : Port) (f : Frame) : Bool := decide (f.ch = 7) || decide (crShared x (crKey f) (frameCredits f) ≤ 1024)
/-- AVAIL of `LNK_CRD` follows the credits taken. -/
def crSet (x : Port) (l : List (Nat × Nat)) : Port :=
  { x with ll := { x.ll with crOut := l }, crd := setFld x.crd 63 48 (2048 - l.foldl (fun n e => n + e.2) 0) }
/-- n credits of a channel come back: they are those of its earliest frames (12, Table 12-2; log 58). -/
def crBack (ch : Nat) : Nat → List (Nat × Nat) → List (Nat × Nat)
  | _, [] => []
  | n, (k, m) :: r =>
    if k / 2 ≠ ch then (k, m) :: crBack ch n r
    else if m ≤ n then crBack ch (n - m) r else (k, m - n) :: r

/-- The frame that a port serves next: round robin over the sources, and over the channels of each; none whose turn finds
credits (12, R298). -/
def nextOut (x : Port) : Option (Nat × Frame) :=
  (List.range 14).findSome? (fun i =>
    let g := (x.rrGrp + 1 + i) % 14
    (List.range 8).findSome? (fun j =>
      let c := (vget x.rrCh g 7 + 1 + j) % 8
      (x.outq.find? (fun e => e.1 == g && e.2.ch == c)).filter (fun e => crOk x e.2)))

/-- Serve frames while one may leave. -/
def serveLoop : Nat → Port → List Frame → Port × List Frame
  | 0, x, l => (x, l)
  | n + 1, x, l => match nextOut x with
    | none => (x, l)
    | some (g, f) =>
      let x := crSet x (x.ll.crOut ++ [(crKey f, frameCredits f)])
      serveLoop n { x with outq := x.outq.erase (g, f), rrGrp := g, rrCh := vput x.rrCh g f.ch } (l ++ [f])

/-- Flits that carry a frame: each frame begins a flit (12, Table 12-2; log 21). -/
def flitsOf (f : Frame) : Nat := cdiv (frameBytes f) 608

/-- One flit is sent on a port (12, R282, R283, R286, Table 12-2): FT 0 data, which is kept for replay, 1 idle. It carries
the highest FSEQ received in order, the replay request of a discard, and the credits to return. -/
def sendFlit (s : State) (p ft : Nat) : State :=
  let l := (portAt s p).ll
  let ack := if l.rxNext = 0 ∧ !l.ask then none else some ((l.rxNext + 32767) % 32768)
  let s := emit s (.flit p ft (l.txNext % 8) l.txNext ack l.ask l.retq.toList)
  let all := if ft = 0 then l.kept ++ [l.txNext] else l.kept
  modPort s p (fun x => { x with crd := setFld x.crd 31 16 0, ll := { l with
    txNext := (l.txNext + 1) % 32768, kept := all.drop (all.length - 2048), ask := false, sentFc := fc s
    ackFc := if l.kept.isEmpty then fc s else l.ackFc, retq := Vector.replicate 8 0 } })

def serveOut (s : State) (p : Nat) : State :=
  if portUp s p then
    let x := portAt s p
    let (y, out) := serveLoop x.outq.length x []
    let wait := if y.outq.isEmpty then none else if out.isEmpty then some (x.waitFc.getD (fc s)) else some (fc s)
    let s := modPort s p (fun _ => { y with waitFc := wait })
    forEach out s (fun f s => forEach (List.range (flitsOf f)) (emit s (.frame p f)) (fun _ s => sendFlit s p 0))
  else s

/-- A frame of a source is given to an output port. -/
def putOut (s : State) (p grp : Nat) (f : Frame) : State :=
  serveOut (modPort s p (fun x => { x with outq := x.outq ++ [(if f.ch = 7 then 13 else grp, f)] })) p

/-- Counts of `LNK_RX`; each saturates (12). -/
def rxCount (s : State) (p : Nat) (malf tag noroute refused : Nat) : State :=
  modPort s p (fun x => { x with rx0 := bumpSat (bumpSat x.rx0 63 32 noroute) 31 0 refused
                                 rx1 := bumpSat (bumpSat x.rx1 63 32 malf) 31 0 tag })

/-- A frame is dropped for want of a route (12, R295, R296). -/
def noRoute (s : State) (p : Nat) (f : Frame) : State :=
  rxRaise (rxCount s p 0 0 1 0) 0x0C f.sdev f.ddev 0 none

/-- A frame of this device's own goes on its way, one of its 48 hops taken (12, R295, Table 12-11). One without a route is
dropped and counted at the port that dimension order gives, or at port 0 (log 58); it waits for its resend (R290). -/
def launch (s : State) (f : Frame) : State :=
  let f := { f with hops := f.hops - 1 }
  match route s f.ddev f.ch with
  | .port p => putOut s p 12 { f with clsB := classAfter s p f false false }
  | .detour p => putOut s p 12 { f with dtr := f.dtr + 1, clsB := true }
  | .none => noRoute s ((if switched s then none else dimPort s f.ddev).getD 0) f
  | .here => s

/-! ### The send table (12, R290) -/

/-- Bytes of data that a frame adds to its channel's announced count (11, R267). -/
def dataBytes (f : Frame) : Nat :=
  if f.ftype = fWRITE ∨ f.ftype = fFLUE ∨ f.ftype = fCOLL ∨ f.ftype = fCHAIN then f.payload.length else 0

/-- Source agent code that a WRITE, READ or FLUE frame carries in bytes [40:38] (12, Table 12-4). -/
def frameAgent (f : Frame) : Nat := fld f.opx 71 48
/-- Local address in bytes [37:32]. -/
def frameAddr (f : Frame) : Nat := fld f.opx 43 0
/-- OPX of an address and an agent. -/
def opxOf (addr agent : Nat) : BitVec 128 := BitVec.ofNat 128 (addr % 2 ^ 44 + agent % 2 ^ 24 * 2 ^ 48)

/-- Payload of a remote increment (11, Table 11-6). -/
def incPayload (sdev ch ctr seq bytes amt : Nat) : List Byte :=
  leBytes 3 sdev ++ leBytes 1 ch ++ leBytes 2 ctr ++ leBytes 2 0 ++ leBytes 8 seq ++ leBytes 6 bytes ++
  leBytes 2 0 ++ leBytes 4 amt ++ leBytes 4 0

/-- An increment of this channel to this device is not acknowledged (12, R289). -/
def incOutstanding (s : State) (dev ch : Nat) : Bool :=
  s.lnk.send.any (fun e => decide (e.dev.toNat = dev) && decide (e.frame.ftype = fINC) && decide (e.frame.ch = ch))

/-- The other device that a request reads or writes. -/
def Req.peer (r : Req) : Option (BitVec 20) :=
  match r.srcDev, r.dst with
  | some d, _ => some d
  | none, .dev d _ => some d
  | none, _ => none

/-- The first request of a bellows instruction sent to a device that has no frame number takes this one. -/
def bindFirst (core grp : Nat) (dev : BitVec 20) (fnum : Nat) : List Req → List Req
  | [] => []
  | r :: rest =>
    if r.core = core ∧ r.grp = grp ∧ r.sent ∧ r.fnum = none ∧ r.peer = some dev then { r with fnum := some fnum } :: rest
    else r :: bindFirst core grp dev fnum rest
def bindReq (s : State) (t core grp : Nat) (dev : BitVec 20) (fnum : Nat) : State :=
  modTile s t (fun x => { x with blw := { x.blw with reqs := bindFirst core grp dev fnum x.blw.reqs } })

/-- A frame enters the send table and leaves (12, R290): its number, and an increment's sequence and byte
count (11, R267). -/
def enterSend (s : State) (e : SendEntry) : State :=
  match sessOf s e.dev.toNat with
  | none => s
  | some x =>
    let dev := e.dev.toNat
    let f := e.frame
    let ch := f.ch
    let tx := vget x.tx ch {}
    let ag := if f.ftype = fINC then leAt f.payload 32 4 else frameAgent f
    let isInc := decide (f.ftype = fINC)
    let pay := if isInc then incPayload (devNo s) ch (leAt f.payload 4 2) tx.seq (look tx.bytes ag 0) (leAt f.payload 24 4)
      else f.payload
    let f := { f with fnum := x.fnumTx, sdev := devNo s, keyid := x.keyid, hops := 48, payload := pay }
    let s := modSess s dev (fun x => { x with
      fnumTx := x.fnumTx + 1, txFrames := x.txFrames + 1, used := fc s
      tx := vmod x.tx ch (fun t =>
        { t with seq := if isInc then t.seq + 1 else t.seq
                 bytes := if isInc then put t.bytes ag 0 else put t.bytes ag (look t.bytes ag 0 + dataBytes f) }) })
    let s := { s with lnk := { s.lnk with send := s.lnk.send ++ [{ e with frame := f, sent := fc s }] } }
    let s := match e.use with
      | .req t core grp => bindReq s t.val core grp e.dev f.fnum
      | _ => s
    launch s f

/-- The first waiting frame that may enter the send table: its session is open, a slot is free, and no
earlier increment of its channel is outstanding (12, R289, R290). -/
def mayEnter (s : State) (e : SendEntry) : Bool :=
  (sessOf s e.dev.toNat).isSome && decide (s.lnk.send.length < 16384) &&
  !(e.frame.ftype = fINC && incOutstanding s e.dev.toNat e.frame.ch)

/-! ### Requests of bellows cores (10, R225, R226) -/

/-- The hearth whose program made the requests of a tile. -/
def reqHearth (s : State) (t : Nat) : Option Nat :=
  match (tileAt s t).blw.draining with
  | some h => some h
  | none => tileHearth s t

/-- The reset of a tile that waited for its requests is complete (09, R198; 10, R226). -/
def drained (s : State) (t : Nat) : State :=
  let b := (tileAt s t).blw
  if b.draining.isSome && b.reqs.isEmpty then
    zeroRange (modBlw s t (fun b => { b with prog := [], threads := [], turns := [], draining := none })) (winBase t) 0x2000000
  else s

/-- Request i of a tile is gone and its token with it. The last row request of an APPEND gives its token to the write of the
directory entry; with that one the entry is free again (08, R181, R184). -/
def removeReq (s : State) (t i : Nat) : State :=
  match (tileAt s t).blw.reqs[i]? with
  | none => s
  | some r =>
    let rest := (tileAt s t).blw.reqs.eraseIdx i
    let done := drained (modBlw s t (fun b => { b with reqs := rest })) t
    match r.ent, reqHearth s t with
    | some ea, some h =>
      if rest.any (fun q => q.ent == some ea) then done
      else match look? (hearthAt s h).mem.kvLocks ea with
        | none => done
        | some e =>
          if r.dst = .loc ea then drained (modHearth (modBlw s t (fun b => { b with reqs := rest })) h (fun x =>
            { x with mem := { x.mem with kvLocks := drop1 x.mem.kvLocks ea } })) t
          else modBlw s t (fun b => { b with reqs := rest ++ [{ r with
            srcDev := none, src := ea, fnum := none, sent := false, zero := false, len := 8, dst := .loc ea, hint := .noalloc, data := leBytes 8 e }] })
    | _, _ => done

/-- Position of the request that a frame number names, or of the first one given to the link for a device whose frame never
entered the send table. -/
def reqIdx (s : State) (t core grp fnum : Nat) (dev : BitVec 20) : Option Nat :=
  (tileAt s t).blw.reqs.findIdx? (fun r => r.core == core && r.grp == grp && r.sent && r.peer == some dev &&
    r.fnum == (if fnum = 0 then none else some fnum))

/-- A row recorded for poison recovery loses the members whose bytes are written again (15, R366). -/
def dropMcst (s : State) (h t off n : Nat) : State :=
  forEach (hTiles s h) s (fun k s => modBlw s k (fun b => { b with mcst := (b.mcst.map (fun r =>
    if r.off < off + n ∧ off < r.off + r.len then { r with mask := r.mask &&& ~~~(1#32 <<< t) } else r)).filter (fun r => r.mask != 0) }))

/-- Bytes of a request, from offset off, reach their destination with the poisoned sectors among them: none when that access
waits. -/
def deliver (s : State) (h t : Nat) (r : Req) (off : Nat) (bs : List Byte) (ps : List Nat) : Option State :=
  match r.dst with
  | .loc b =>
    let s := match place (b + off) with
      | .win k o => dropMcst s h k o bs.length
      | _ => s
    devWrite s (some h) r.hint (b + off) bs (ps.map (· + (b + off) / 32))
  | .tiles mask o => some (forEach (setBits mask) s (fun k s =>
      let a := winBase k + o + off
      store (dropMcst s h k (o + off) bs.length) a bs (ps.map (· + a / 32))))
  | .tab slot o => some (modBlw s t (fun b => { b with threads := b.threads.map (fun x =>
      if x.1 = 16 * r.core + r.thr then (x.1, { x.2 with tabs := x.2.tabs ++ [(slot, o + off, bs, !ps.isEmpty)] }) else x) }))
  | _ => some s

/-- A request ends without its data (12, R291, R302): it commits, a READ's destination zero and poisoned. -/
def reqFail (s : State) (t core grp fnum : Nat) (dev : BitVec 20) : State :=
  match reqIdx s t core grp fnum dev, reqHearth s t with
  | some i, some h =>
    let s := match (tileAt s t).blw.reqs[i]? with
      | some r =>
        let zero := List.replicate r.len (0 : Byte)
        if r.srcDev.isNone then s
        else match r.dst with
          | .loc a => postWrite s (agentOf (0x100000 + t)) h r.hint a zero (sectors a r.len)
          | _ => (deliver s h t r 0 zero (List.range (r.len / 32))).getD s
      | none => s
    removeReq s t i
  | some i, none => removeReq s t i
  | none, _ => s

/-- A send-table entry ends without its bytes (12, R291, R302). -/
def entryFail (s : State) (e : SendEntry) : State :=
  match e.use with
  | .req t core grp => reqFail s t.val core grp e.frame.fnum e.dev
  | .inc h amt => bookDone s h.val amt true
  | .notice h r =>
    let s := modRun s h.val (fun x => { x with notices := x.notices.filter (fun n => !(n.rank == r && n.sent)) })
    if e.frame.ftype = fINC then bookDone s h.val 1 true else s
  | _ => s

/-- Send a frame to another device: into the table when its session is open and nothing earlier to that
device waits, else it waits (12, R290, R302). To a device not admitted it ends at once (R302). -/
def sendFrame (s : State) (e : SendEntry) : State :=
  let dev := e.dev.toNat
  if !admitted s dev then rxRaise (entryFail s e) 7 dev dev 0 none
  else if mayEnter s e && !(s.lnk.waiting.any (fun w => w.dev == e.dev)) then enterSend s e
  else
    let s := if (sessOf s dev).isSome || s.lnk.waiting.any (fun w => w.dev == e.dev) then s else emit s (.handshake dev 1)
    { s with lnk := { s.lnk with waiting := s.lnk.waiting ++ [e] } }

/-- Waiting frames enter the table, oldest first, each device's in order. -/
def admitWaiting (s : State) : State :=
  match s.lnk.waiting.find? (fun e => mayEnter s e &&
      decide ((s.lnk.waiting.find? (fun w => w.dev == e.dev)) = some e)) with
  | none => s
  | some e =>
    let s := { s with lnk := { s.lnk with waiting := s.lnk.waiting.erase e } }
    enterSend s e

/-- A remote increment by an agent of a hearth (11, R254, R273). The payload holds counter, amount and
agent until the frame enters the table. -/
def issueRemoteUse (s : State) (h : HearthId) (agent dev ctr amt : Nat) (use : SendUse) : State :=
  let s := bookIssue s h.val amt true
  let pay := leBytes 4 0 ++ leBytes 2 ctr ++ leBytes 18 0 ++ leBytes 4 amt ++ leBytes 4 0 ++ leBytes 4 agent
  sendFrame s { dev := BitVec.ofNat 20 dev, sent := fc s, use := use
                frame := { ftype := fINC, ch := chanOf agent, ddev := dev, sdev := devNo s, plen := 1, payload := pay } }
def issueRemote (s : State) (h : HearthId) (agent dev ctr amt : Nat) : State :=
  issueRemoteUse s h agent dev ctr amt (.inc h amt)

/-- Check epoch that frames of a hearth carry: its current epoch while OPEN or CLOSED (15, R360). -/
def epochOf (s : State) (h : Nat) : Option Nat :=
  let st := fld (hearthAt s h).chk.ectl 4 2
  if st = 1 ∨ st = 2 then some (hearthAt s h).chk.epoch.toNat else none

/-- An acknowledgement goes back (12, R290, Table 12-5). -/
def sendAck (s : State) (dev fnum status : Nat) : State :=
  match sessOf s dev with
  | none => s
  | some x =>
    let f : Frame := { ftype := fACK, ch := 7, ddev := dev, sdev := devNo s, fnum := x.fnumTx, keyid := x.keyid
                       opx := BitVec.ofNat 128 (fnum % 2 ^ 64 + status * 2 ^ 64) }
    launch (modSess s dev (fun x => { x with fnumTx := x.fnumTx + 1, txFrames := x.txFrames + 1 })) f

/-- Payload bytes and poison mask of data read locally (12, R285): the units and the data. -/
def dataUnits (n : Nat) (poison : List Nat) : Nat := cdiv n 32 + (if poison.isEmpty then 0 else 1)

/-- Sectors of data that are poisoned, numbered from its first byte. -/
def poisonOf (s : State) (a n : Nat) : List Nat := (poisoned s a n).map (fun k => k - a / 32)

/-- A WRITE of local bytes to another device (12, Table 12-4). -/
def sendWrite (s : State) (agent : Nat) (h : Option Nat) (dev addr : Nat) (bs : List Byte) (poison : List Nat)
    (use : SendUse) : State :=
  let ep := h.bind (epochOf s)
  sendFrame s { dev := BitVec.ofNat 20 dev, sent := fc s, use := use
                frame := { ftype := fWRITE, ch := chanOf agent, ddev := dev, sdev := devNo s
                           prov := ep.isSome, epoch := ep.getD 0, psn := !poison.isEmpty
                           plen := dataUnits bs.length poison, opx := opxOf addr agent
                           payload := bs, poison := poison } }

/-- A READ of another device's bytes (12, Table 12-4). -/
def sendRead (s : State) (agent dev addr n : Nat) (use : SendUse) : State :=
  sendFrame s { dev := BitVec.ofNat 20 dev, sent := fc s, use := use
                frame := { ftype := fREAD, ch := chanOf agent, ddev := dev, sdev := devNo s
                           opx := opxOf addr agent ||| BitVec.ofNat 128 (cdiv n 32 * 2 ^ 72) } }

end Sys2Proof.Machine
end

