-- ==== Sys2Proof/Machine/Window.lean ====
section
/-! DEFINITION. The window unit (05). -/

namespace Sys2Proof.Machine

/-- Formats the window unit reads (05, R112). -/
def winFmtOk (f : Nat) : Bool := f = BF16 || f = FP16 || f = E4M3 || f = E5M2 || f = INT8

/-- Positions in a row of the cursor: OW in DENSE form, ceil(OW / BNP) in BAND form (05, R118). -/
def winWidth (c n : Word128) : Nat := if Wcf.band c = 1 then cdiv (Win.ow n) (Wcf.bnp c) else Win.ow n

/-- Input row of output row oy and tap row ty, when it lies in the input (05, R113). -/
def winIy (c n : Word128) (oy ty : Nat) : Option Nat :=
  let i : Int := (oy * Wcf.sy c : Nat) - (Wcf.padt c : Int) + (ty * Wcf.dy c : Nat)
  if 0 ≤ i ∧ i < (Win.ih n : Int) then some i.toNat else none

/-- Input position, when it lies in the input. -/
def winIx (n : Word128) (i : Int) : Option Nat := if 0 ≤ i ∧ i < (Win.iw n : Int) then some i.toNat else none

/-- Tap rows that a row of an MMT reads (05, R116, R117). -/
def winTapRows (c : Word128) : List Nat :=
  if Wcf.band c = 1 then [Wcf.tap0 c]
  else (List.range (Wcf.fh c)).filter (fun ty =>
    decide (Wcf.tap0 c / Wcf.fw c ≤ ty) && decide (ty ≤ (Wcf.tap0 c + Wcf.tapn c - 1) / Wcf.fw c))

/-- The lines that output row oy needs: tap rows that do not fall in padding (05, R120). -/
def winNeeds (c n : Word128) (oy : Nat) : List Nat :=
  (winTapRows c).filter (fun ty => (winIy c n oy ty).isSome)

/-- The resident line of output row oy and tap row ty. -/
def winLine (x : Tile) (oy ty : Nat) : Option WinLine :=
  x.win.lines.find? (fun l => l.oy == oy && l.ty == ty)

/-- Element (oy, ty, input position, channel); +0 outside the input. -/
def winElt (x : Tile) (c n : Word128) (oy ty : Nat) (ix : Int) (ch : Nat) : Nat :=
  match winIy c n oy ty, winIx n ix with
  | some _, some i => match winLine x oy ty with
    | some l => l.elems.getD (i * Win.c n + ch) 0
    | none => 0
  | _, _ => 0

/-- The input row of K elements that the window register forms (05, R116, R117). -/
def winRow (x : Tile) (c n : Word128) (oy ox ch kp : Nat) : List Nat :=
  (List.range kp).map (fun (k : Nat) =>
    if Wcf.band c = 1 then
      winElt x c n oy (Wcf.tap0 c) ((ox * Wcf.bnp c * Wcf.sx c : Nat) - (Wcf.padl c : Int) + (k : Int)) ch
    else
      let t := Wcf.tap0 c + k / Wcf.cw c
      let ty := t / Wcf.fw c
      let tx := t % Wcf.fw c
      winElt x c n oy ty ((ox * Wcf.sx c : Nat) - (Wcf.padl c : Int) + (tx * Wcf.dx c : Nat)) (Wcf.cw0 c + k % Wcf.cw c))

/-- Checks of an MMT with `SRC` = 1 at issue (05, R114, R123): code and detail. -/
def winMmtFault (x : Tile) (w : Word128) (m : Nat) (p : PlaneInfo) : Option (Nat × Nat) :=
  match x.win.wcf, x.win.win with
  | some c, some n =>
    let wd := winWidth c n
    if Mmt.fa w ≠ Wcf.fmt c then some (2, 0)
    else if Win.c n < Wcf.cw0 c + Wcf.cw c then some (1, 5)
    else if Win.oh n * wd < x.win.oy * wd + x.win.ox + m then some (8, 0)
    else if Wcf.band c = 0 ∧ p.kp ≠ Wcf.tapn c * Wcf.cw c then some (5, 0)
    else if Wcf.band c = 1 ∧ (p.np ≠ Wcf.bnp c ∨
        p.kp < (Wcf.bnp c - 1) * Wcf.sx c + (Wcf.fw c - 1) * Wcf.dx c + 1) then some (6, 0)
    else none
  | _, _ => some (7, 0)

/-- Cursor m rows on (05, R118). -/
def winAdvance (x : Tile) (m : Nat) : Tile :=
  match x.win.wcf, x.win.win with
  | some c, some n =>
    let wd := winWidth c n
    let p := x.win.oy * wd + x.win.ox + m
    { x with win := { x.win with oy := p / wd, ox := p % wd } }
  | _, _ => x

/-- An MMT with `SRC` = 1 that has not entered its last row: in the queue or the row pipe. -/
def winPending (x : Tile) : Bool :=
  (x.anv.queue ++ x.anv.rowPipe).any (fun j => match j.op with
    | .mmt k => decide (Mmt.src k.w = 1) && decide (k.entered < k.m)
    | _ => false)

/-- The output row whose lines the unit fetches from: that of the next row to enter, else the cursor's. -/
def winFrom (x : Tile) : Nat :=
  let js := (x.anv.rowPipe ++ x.anv.queue).filterMap (fun j => match j.op with
    | .mmt k => if Mmt.src k.w = 1 ∧ k.entered < k.m then some k else none
    | _ => none)
  match js.head?, x.win.wcf, x.win.win with
  | some k, some c, some n => (k.win.1 * winWidth c n + k.win.2.1 + k.entered) / max 1 (winWidth c n)
  | _, _, _ => x.win.oy

/-- Lines of the up to 4 output rows ahead that are still to be fetched (05, R120, Table 05-4). -/
def winFetching (x : Tile) : Bool :=
  match x.win.wcf, x.win.win with
  | some c, some n => (List.range 4).any (fun i =>
      let oy := winFrom x + i
      decide (oy < Win.oh n) && (winNeeds c n oy).any (fun ty => (winLine x oy ty).isNone))
  | _, _ => false

/-- Decode of a ZRC row of n elements of size e bytes, in at most lim bytes (05, R122; 02, R51 to R54):
the elements, and whether a byte beyond the limit was needed. -/
def zrcDecode : Nat → Nat → List Byte → List Nat × Bool
  | 0, _, _ => ([], false)
  | g + 1, e, bs =>
    if bs.length < 8 then ([], true)
    else
      let mask := leAt bs 0 8
      let c := parityCount mask
      let size := 32 * cdiv (8 + c * e) 32
      if bs.length < 8 + c * e then ([], true)
      else
        let vals := (List.range c).map (fun i => leAt bs (8 + i * e) e)
        let (es, _) := (List.range 64).foldl (fun (acc : List Nat × List Nat) i =>
          if mask.testBit i then (acc.1 ++ [acc.2.headD 0], acc.2.tail) else (acc.1 ++ [0], acc.2)) ([], vals)
        let (r, o) := zrcDecode g e (bs.drop size)
        (es ++ r, o)
where
  /-- number of set bits of a 64-bit mask -/
  parityCount (m : Nat) : Nat := ((List.range 64).filter (fun i => m.testBit i)).length

/-- A window instruction holds while an earlier MMT with `SRC` = 1 has rows to enter (05, R119). -/
def winGate (t : Nat) (s : State) (f : State → Issue) : Issue :=
  if winPending (tileAt s t) then .hold s else f s

/-- Set the configuration: cursor to zero, lines to be fetched anew. -/
def winSet (x : Tile) (f : Window → Window) (oy ox ch : Nat) : Tile :=
  { x with win := { (f x.win) with oy := oy, ox := ox, ch := ch, lines := [], late := false } }

/-- WCF (05, R114, R125). A reserved format code is WIN_FMT like every format outside R112: Table 05-3 has no FMT_RSVD
(log 55). -/
def issueWcf (t : Nat) (w : Word128) (s : State) : Issue :=
  if fmtRsvd (Wcf.fmt w) || !winFmtOk (Wcf.fmt w) then .fault spWIN 2 0
  else if Wcf.fh w = 16 then .fault spWIN 1 0
  else if 2 ≤ Wcf.fh w ∧ 15 < Wcf.fw w then .fault spWIN 1 1
  else if (Wcf.band w = 0 ∧ Wcf.fh w * Wcf.fw w < Wcf.tap0 w + Wcf.tapn w) ∨
      (Wcf.band w = 1 ∧ Wcf.fh w ≤ Wcf.tap0 w) then .fault spWIN 1 4
  else winGate t s (fun s => .done (modTile s t (fun x => winSet x (fun v => { v with wcf := some w }) 0 0 0)))

/-- WIN (05, R114, R125). Its check of a ZRC row length reads the configuration in force; a WCF after it makes none
(log 55). -/
def issueWin (t : Nat) (w : Word128) (s : State) : Issue :=
  let z := match (tileAt s t).win.wcf with
    | some c => Wcf.z c
    | none => 0
  if 4096 < Win.iw w * Win.c w then .fault spWIN 3 0
  else if scrSize s t < 32 * (Win.iadr w + Win.ih w * Win.istr w) then .fault spWIN 4 0
  else if z = 1 ∧ Win.iw w * Win.c w % 64 ≠ 0 then .fault spWIN 5 0
  else winGate t s (fun s => .done (modTile s t (fun x => winSet x (fun v => { v with win := some w }) 0 0 0)))

/-- WCUR (05, R118, R125). Before WCF and WIN there is no output, and every position lies beyond it (log 55). -/
def issueWcur (t : Nat) (w : Word128) (s : State) : Issue :=
  let x := tileAt s t
  match x.win.wcf, x.win.win with
  | some c, some n =>
    if Win.oh n ≤ Wcur.oy w ∨ winWidth c n ≤ Wcur.ox w ∨ Win.c n ≤ Wcur.ch w then .fault spWIN 8 0
    else winGate t s (fun s => .done (modTile s t (fun x => winSet x id (Wcur.oy w) (Wcur.ox w) (Wcur.ch w))))
  | _, _ => .fault spWIN 8 0

/-- Bytes of an input row that a line fetch reads. -/
def lineBytes (c n : Word128) : Nat :=
  if Wcf.z c = 1 then 32 * Win.istr n else Win.iw n * Win.c n * (eltBits (Wcf.fmt c) / 8)

/-- The line of output row oy and tap row ty as its input row iy stands in scratch (05, R112, R120, R122). A dense row
takes the bytes of its IW x C elements, past its stride if need be; of a ZRC row the elements beyond the last whole
group of 64 are +0 (log 55). -/
def lineOf (s : State) (t : Nat) (c n : Word128) (oy ty iy : Nat) : WinLine :=
  let e := eltBits (Wcf.fmt c) / 8
  let cnt := Win.iw n * Win.c n
  let off := 32 * (Win.iadr n + iy * Win.istr n)
  let len := lineBytes c n
  let bs := scrRead s t off len
  let (es, ov) := if Wcf.z c = 1 then zrcDecode (cnt / 64) e bs else (unpack (8 * e) cnt bs, false)
  { line := 16 * (oy % 4) + ty, oy := oy, ty := ty, elems := es, overrun := ov, poison := scrPoison s t off len }

/-- Lines fetched from poisoned sectors, read anew (09, R215). -/
def relines (s : State) (t : Nat) : State :=
  match (tileAt s t).win.wcf, (tileAt s t).win.win with
  | some c, some n => modTile s t (fun x => { x with win := { x.win with lines := x.win.lines.map (fun l =>
      if l.poison.isSome then ((winIy c n l.oy l.ty).map (fun iy => lineOf s t c n l.oy l.ty iy)).getD l else l) } })
  | _, _ => s

/-- A fetched line becomes resident (05, R120). -/
def lineArrive (s : State) (t oy ty : Nat) : State :=
  let x := tileAt s t
  match x.win.wcf, x.win.win with
  | some c, some n =>
    match winIy c n oy ty with
    | some iy =>
      let from0 := winFrom x
      if oy < from0 ∨ from0 + 4 ≤ oy ∨ Win.oh n ≤ oy ∨ Wcf.fh c ≤ ty ∨ (winLine x oy ty).isSome then s
      else
        let s := scrSee s t (32 * (Win.iadr n + iy * Win.istr n)) (lineBytes c n)
        let l := lineOf s t c n oy ty iy
        let s := modTile s t (fun x => { x with win := { x.win with
          lines := x.win.lines.filter (fun k => k.line != l.line) ++ [l] } })
        let x := tileAt s t
        let here := winFrom x
        let arrived := (winNeeds c n here).all (fun k => (winLine x here k).isSome)
        if x.win.late && arrived then
          let s := modTile s t (fun x => { x with win := { x.win with late := false } })
          match tileHearth s t with
          | some h => refreshLate s h
          | none => s
        else s
    | none => s
  | _, _ => s

/-- WCF. -/
def execWcf (t : TileId) (w : Word128) (s : State) : Out := issueCmd 0x30 t.val w (issueWcf t.val w) s
/-- WIN. -/
def execWin (t : TileId) (w : Word128) (s : State) : Out := issueCmd 0x31 t.val w (issueWin t.val w) s
/-- WCUR. -/
def execWcur (t : TileId) (w : Word128) (s : State) : Out := issueCmd 0x32 t.val w (issueWcur t.val w) s
/-- WIN_LINE_ARRIVE (05, R120). -/
def execWinLineArrive (t : TileId) (oy ty : Nat) (s : State) : Out := .next (lineArrive s t.val oy ty)

end Sys2Proof.Machine
end

