-- ==== Sys2Proof/Machine/Epoch.lean ====
section
/-! DEFINITION. Check epochs, notices and poison holds (15, R360 to R367; 09, R215). -/

namespace Sys2Proof.Machine

/-- A phase window of a hearth's agent ends now (13, R331, Table 13-11). -/
def phaseEntry (s : State) (h start tag agent kind : Nat) : State :=
  let n := (hearthAt s h).net.phPtr.toNat
  let a := fld (hearthAt s h).net.phBase 43 17 * 131072 + 32 * (n % 4096)
  let bs := leBytes 8 start ++ leBytes 8 s.cyc ++ leBytes 2 tag ++ leBytes 3 agent ++ leBytes 1 kind ++ leBytes 2 0 ++ leBytes 8 n
  let s := modNet s h (fun x => { x with phPtr := x.phPtr + 1 })
  if decide (a + 32 ≤ deepTop) && reach s (some h) a 32 then postWrite s (agentOf agent) h .noalloc a bs []
  else
    let w := fc s / 2 ^ 16
    if (hearthAt s h).run.phSeen = some w then s
    else raise (modRun s h (fun r => { r with phSeen := some w })) 0x12 SYS_UNMAPPED 0 (some h) agent a

/-- The active descriptor of a ring leaves it without its increment: its window ends (13, R331). -/
def dropActive (s : State) (p h : Nat) : State :=
  match vget (portAt s p).active h none with
  | some a => phaseEntry (modPort s p (fun x => { x with active := vput x.active h none })) h a.cyc (leAt a.desc 10 2) (0x300000 + p) 1
  | none => s

def modChk (s : State) (h : Nat) (f : HChk → HChk) : State := modHearth s h (fun x => { x with chk := f x.chk })

/-- Epoch states (15, Table 15-17). -/
def eIDLE : Nat := 0
def eOPEN : Nat := 1
def eCLOSED : Nat := 2
def eCONFIRMED : Nat := 3
def eCOMMITTED : Nat := 4
def eRETRACTED : Nat := 5
def eUNRESOLVED : Nat := 6

def ecState (s : State) (h : Nat) : Nat := fld (hearthAt s h).chk.ectl 4 2
def setEc (s : State) (h st : Nat) : State := modChk s h (fun c => { c with ectl := setFld c.ectl 4 2 st })
def epochE (s : State) (h : Nat) : Nat := (hearthAt s h).chk.epoch.toNat

/-! ### The check group (15, R363) -/

def chkEn (s : State) (h : Nat) : Bool := bit (hearthAt s h).chk.chkGrp1 0
def chkGroup (s : State) (h : Nat) : Nat := fld (hearthAt s h).chk.chkGrp1 7 2
def chkNctr (s : State) (h : Nat) : Nat := fld (hearthAt s h).chk.chkGrp1 63 48
def chkCctr (s : State) (h : Nat) : Nat := fld (hearthAt s h).chk.chkGrp1 47 32
def chkBoard (s : State) (h : Nat) : Nat := fld (hearthAt s h).chk.chkGrp0 43 0

/-- Member count, rank and device list of a group (13, R311, Table 13-14). -/
def grpN (s : State) (h g : Nat) : Nat := fld (vget (hearthAt s h).net.grp0 g 0) 19 0 + 1
def grpRank (s : State) (h g : Nat) : Nat := fld (vget (hearthAt s h).net.grp1 g 0) 63 44
def grpList (s : State) (h g : Nat) : Nat := fld (vget (hearthAt s h).net.grp0 g 0) 63 20
def grpDev (s : State) (h g r : Nat) : Nat := leNat (readMem s.mem (grpList s h g + 4 * r) 4) % 2 ^ 20

/-- Ranks of the other members of the check group. -/
def otherRanks (s : State) (h : Nat) : List Nat :=
  let g := chkGroup s h
  (List.range (grpN s h g)).filter (fun r => r != grpRank s h g)

/-- Agent code of the lowest Hob core of a hearth. -/
def lowHob (s : State) (h : Nat) : Nat :=
  match hHobs s h with
  | c :: _ => 0x200000 + c
  | [] => 0

/-- A board entry (15, Table 15-6). -/
def boardEntry (epoch kind trig rank dev : Nat) : List Byte :=
  leBytes 8 epoch ++ leBytes 1 kind ++ leBytes 1 trig ++ leBytes 2 0 ++ leBytes 4 rank ++ leBytes 3 dev ++
  List.replicate 13 0

/-- The next notice to a member leaves once no earlier one is outstanding (15, R363). -/
def noticeNext (s : State) (h : HearthId) (rank : Nat) : State :=
  let ns := (hearthAt s h.val).run.notices
  if ns.any (fun n => n.rank == rank && n.sent) then s
  else match ns.find? (fun n => n.rank == rank) with
    | none => s
    | some n =>
      let g := chkGroup s h.val
      let me := grpRank s h.val g
      let dev := grpDev s h.val g rank
      let ag := lowHob s h.val
      let s := modRun s h.val (fun r => { r with notices := r.notices.map (fun m => if m = n then { m with sent := true } else m) })
      let s := sendWrite s ag none dev (chkBoard s h.val + 96 * me + 32 * (n.kind - 1))
        (boardEntry n.epoch n.kind n.trig me (devNo s)) [] (.notice h rank)
      issueRemoteUse s h ag dev (chkNctr s h.val) 1 (.notice h rank)

/-- A notice to every other member (15, R363). -/
def postNotice (s : State) (h kind trig : Nat) : State :=
  if p : h < 16 then
    if chkEn s h then
      let e := epochE s h
      forEach (otherRanks s h) s (fun r s =>
        let s := modRun s h (fun x => { x with notices := x.notices ++ [{ rank := r, kind := kind, epoch := e, trig := trig }] })
        noticeNext s ⟨h, p⟩ r)
    else s
  else s

/-! ### Retraction -/

/-- Check epoch of a collective descriptor that carries PROV (13, Table 13-1); an INPLACE PERM ignores it (R328). -/
def colEpoch (desc : List Byte) : Option Nat :=
  if bit (BitVec.ofNat 8 (leAt desc 1 1)) 5 && !(leAt desc 0 1 == 4 && leAt desc 1 1 % 4 == 1) then some (leAt desc 56 8) else none
/-- The active descriptor is part of epoch e: it carries it, or it is a FLUE pass or the RS of a quench job, which always
belong to the step's epoch (08, R192; 14, R346). -/
def colBelongs (x : Port) (h e : Nat) (a : ActiveCol) : Bool :=
  match colEpoch a.desc with
  | some k => k == e
  | none => leAt a.desc 0 1 == 5 || (match vget x.jobs h none with
    | some j => j.epoch == e && j.dseq == a.dseq
    | none => false)

/-- The job of a hearth on a port's quench unit stops and returns its buffers (14, R346). -/
def quenchStop (s : State) (p h : Nat) : State :=
  modPort s p (fun x =>
    let n := (x.qchunks.filter (fun c => c.1 == h)).length
    { x with jobs := vput x.jobs h none
             qchunks := x.qchunks.filter (fun c => c.1 != h)
             qheld := if x.qheld = some h then none else x.qheld
             qbuf := setFld (setFld x.qbuf 7 0 (fld x.qbuf 7 0 + n)) 15 8 (fld x.qbuf 15 8 - n) })

/-- Items that `p` selects and that have not ended end with this outcome (16, R391); `esq` is the record that ends
them. -/
def endItems (s : State) (h : Nat) (p : Item → Bool) (outcome detail : Nat) (esq : Option Nat) : State :=
  forEach (if hOn s h then setBits (hsec s h).h.queues else []) s (fun q s => modQueue s q (fun w =>
    { w with items := w.items.map (fun i =>
      if p i then match i.st with
        | .pending => { i with st := .ended outcome detail, esq := esq }
        | .running _ => { i with st := .ended outcome detail, esq := esq }
        | _ => i
      else i) }))

/-- Position of a port's ring that the active descriptor of a hearth was taken from (13, R308). -/
def activeIdx (s : State) (p h : Nat) : Nat := (fld (vget (portAt s p).ring1 h 0) 31 0 + 2 ^ 32 - 1) % 2 ^ 32

/-- The descriptor at a ring position ends without its increment: the COLL item that posted it has FAILED (16,
Tables 16-2 and 16-7). -/
def collFailed (s : State) (p h idx : Nat) : State :=
  forEach (if hOn s h then setBits (hsec s h).h.queues else []) s (fun q s => modQueue s q (fun w =>
    { w with items := w.items.map (fun i =>
      let k := (idx + 2 ^ 32 - i.ring) % 2 ^ 32
      match i.st with
      | .running _ => if leAt i.desc 8 1 = 3 ∧ leAt i.desc 32 4 % 16 = p ∧ k < leAt i.desc 36 4 then { i with st := .ended 1 (k % 256), esq := some s.recs.seq } else i
      | _ => i) }))

/-- A poison recovery is abandoned: its READs end (15, R366). -/
def dropRefetch (s : State) (h : Nat) (p : Nat → Bool) : State :=
  let keep := fun (e : SendEntry) => match e.use with | .refetch k a => !(k.val == h && p a) | _ => true
  { s with lnk := { s.lnk with send := s.lnk.send.filter keep, waiting := s.lnk.waiting.filter keep } }

/-- The hearth's epoch E becomes RETRACTED (15, R364; 16, R391). -/
def becomeRetracted (s : State) (h trig : Nat) : State :=
  let e := epochE s h
  let s := setEc s h eRETRACTED
  let s := modChk s h (fun c => { c with ectl := setFld c.ectl 15 8 trig })
  let s := modRun s h (fun r => { r with retracted := (e :: r.retracted).take 16, recovery := [] })
  let s := endCause (dropRefetch s h (fun _ => true)) h cPOISON
  let s := stopHearth s h (some 7)
  let s := endItems s h (fun i => leAt i.desc 24 8 == e) 3 0 (some s.recs.seq)
  let s := forEach (List.range 12) s (fun p s =>
    let s := match vget (portAt s p).active h none with
      | some d => if colBelongs (portAt s p) h e d then dropActive (collFailed s p h (activeIdx s p h)) p h else s
      | none => s
    match vget (portAt s p).jobs h none with
    | some j => if j.epoch == e then quenchStop s p h else s
    | none => s)
  forEach (hTiles s h) s (fun t s => modTile s t (fun x => { x with acc := { x.acc with
    fifo := x.acc.fifo.filter (fun r => !r.remote), arriving := x.acc.arriving.filter (fun r => !r.remote)
    rx := [], rxRow := 0, rxPsn := [], rxHdr := none } }))

/-- A trigger of Table 15-5 retracts an OPEN or CLOSED epoch, and RETRACT is sent (15, R362). -/
def retractEpoch (s : State) (h trig : Nat) : State :=
  if ecState s h = eOPEN ∨ ecState s h = eCLOSED then
    let s := becomeRetracted s h trig
    let s := modChk s h (fun c => { c with hstat := bumpSat c.hstat 47 32 1 })
    let s := raise s spCHK 6 trig (some h) 0
    postNotice s h 2 trig
  else s

/-- A CONFIRMED epoch commits (15, R365). -/
def commitEpoch (s : State) (h : Nat) : State :=
  let s := setEc s h eCOMMITTED
  let s := raise s spCHK 8 0 (some h) 0
  let s := postNotice s h 3 0
  if ctrIn s h (chkCctr s h) then
    { s with flights := s.flights ++ [{ ctr := chkCctr s h, amt := 1, hearth := none, remote := false }] }
  else synRefuse s 2 (some h) 0 (chkCctr s h)

/-- Every other member has confirmed E (15, Table 15-4). -/
def allConfirmed (s : State) (h : Nat) : Bool :=
  !chkEn s h || (otherRanks s h).all (fun r => look? (hearthAt s h).run.board (4 * r + 1) == some (epochE s h))

/-- A CLOSED epoch becomes CONFIRMED (15, R361). -/
def confirmEpoch (s : State) (h : Nat) : State :=
  let s := setEc s h eCONFIRMED
  let s := modRun s h (fun r => { r with confirmedFc := fc s })
  let s := postNotice s h 1 0
  if chkEn s h then s else commitEpoch s h

/-- At the end of an fc in which every other member has confirmed, a CONFIRMED epoch commits: a RETRACT of that fc has won
(01, R24; 15, R365). -/
def commitDue (s : State) : State :=
  forEach (List.range 16) s (fun h s => if ecState s h = eCONFIRMED ∧ allConfirmed s h then commitEpoch s h else s)

/-! ### Poison (15, R366, R367) -/

/-- Deep-memory source of a scratch sector that an MCST of the hearth delivered to tile t (15, R366): the
most recent such row. -/
def mcstSource (s : State) (h t addr : Nat) : Option Nat :=
  match place addr with
  | .win t' o =>
    if t' = t then
      (((hTiles s h).flatMap (fun k => (tileAt s k).blw.mcst)).reverse.find? (fun r =>
        bit r.mask t && decide (r.off ≤ o) && decide (o < r.off + r.len))).bind (fun r =>
          match place (r.src + (o - r.off)) with
          | .deep a => some (a / 32 * 32)
          | _ => none)
    else none
  | _ => none

/-- The peer range covers a source address (15, Table 15-19). -/
def peerCovers (s : State) (h a : Nat) : Bool :=
  let p := (hearthAt s h).chk.peer
  let b := fld (vget p 1 0) 43 0
  bit (vget p 0 0) 0 && decide (b ≤ a) && decide (a < b + fld (vget p 2 0) 43 0)
def peerDev (s : State) (h : Nat) : Nat := fld (vget (hearthAt s h).chk.peer 0 0) 63 44

/-- A pipe of tile t is held (09, R215). -/
def pipeHeld (x : Tile) (pipe : Nat) : Bool := x.misc.holds.any (fun h => h.pipe == pipe)

/-- A hold on poison that cannot be recovered (09, R215; 10, Table 10-8; 15, R367): the breach is declared, and its
cause ends at once with the recovery that cannot be made (log 28). -/
def poisonLost (s : State) (h : Nat) (tile : Option Nat) (agent addr : Nat) : State :=
  let s := breach s h cPOISON tile agent
  let s := if (hearthAt s h).run.recovery.isEmpty then endCause s h cPOISON else s
  retractEpoch (raise s spCHK 0x0D 0 (some h) agent addr) h 7

/-- A pipe is about to read a poisoned sector and holds (09, R215; 15, R366, R367). -/
def poisonHold (s : State) (t pipe addr : Nat) : State :=
  if pipeHeld (tileAt s t) pipe then s
  else
    let s := modTile s t (fun x => { x with misc := { x.misc with holds := x.misc.holds ++ [⟨pipe, addr⟩] } })
    match tileHearth s t with
    | none => raise s spCHK 0x0D 0 none (0x100000 + t) addr
    | some h =>
      match (mcstSource s h t addr).filter (peerCovers s h) with
      | some src =>
        let g := src / 256 * 256
        if (hearthAt s h).run.recovery.any (fun r => r.addr == g) then s
        else
          let s := breach s h cPOISON (some t) (0x100000 + t)
          let s := modRun s h (fun r => { r with recovery := r.recovery ++ [⟨g, addr, 0x100000 + t, fc s⟩] })
          sendRead s (0x100000 + t) (peerDev s h) g 256 (.refetch ⟨h % 16, Nat.mod_lt _ (by decide)⟩ g)
      | none => poisonLost s h (some t) (0x100000 + t) addr

/-- The holds of a hearth whose source lies in a granule: (tile, hold). -/
def holdsOn (s : State) (h g : Nat) : List (Nat × Hold) :=
  (hTiles s h).flatMap (fun t => ((tileAt s t).misc.holds.filter (fun k =>
    (mcstSource s h t k.addr).map (· / 256 * 256) == some g)).map (fun k => (t, k)))

/-- A recovery of a granule is over; with the last one cause POISON ends. -/
def dropRecovery (s : State) (h g : Nat) : State :=
  let s := modRun s h (fun r => { r with recovery := r.recovery.filter (fun k => k.addr != g) })
  let s := dropRefetch s h (fun a => a == g)
  if (hearthAt s h).run.recovery.isEmpty then endCause s h cPOISON else s

/-- Every MCST row that carried a byte of a granule is executed again (15, R366); none when one must wait. -/
def redoMcst (s : State) (h g : Nat) : Option State :=
  let rows := ((hTiles s h).flatMap (fun k => (tileAt s k).blw.mcst)).filter (fun r =>
    decide (r.src < g + 256) && decide (g < r.src + r.len))
  rows.foldl (fun o r => o.bind (fun s => (devRead s (some h) .noalloc r.src r.len []).map (fun q =>
    forEach (setBits r.mask) q.1 (fun t s =>
      let a := winBase t + r.off
      store s a q.2.1 (q.2.2.map (fun k => k + a / 32 - r.src / 32)))))) (some s)

/-- The granule arrives unpoisoned (15, R366): it is written through its home pool, the rows are executed again, the window
lines fetched from them are read again, and the held pipes go on. None when an access must wait. -/
def refetchDone (s : State) (h g : Nat) (bs : List Byte) : Option State :=
  if !(hearthAt s h).run.recovery.any (fun r => r.addr == g) then some s else
  let hs := holdsOn s h g
  ((devWrite s (some h) .noalloc g bs []).bind (fun s => redoMcst s h g)).map (fun s =>
    let s := forEach (hTiles s h) s (fun t s => relines s t)
    let s := forEach hs s (fun k s =>
      let s := modTile s k.1 (fun x => { x with misc := { x.misc with holds := x.misc.holds.erase k.2 } })
      raise s spCHK 0x0B 0 (some h) (0x100000 + k.1) k.2.addr)
    let s := modChk s h (fun c => { c with hstat := bumpSat c.hstat 63 48 1 })
    dropRecovery s h g)

/-- A recovery fails after the peer was asked (15, R367). -/
def refetchFail (s : State) (h g : Nat) : State :=
  if !(hearthAt s h).run.recovery.any (fun r => r.addr == g) then s else
  let s := forEach (holdsOn s h g) s (fun k s => raise s spCHK 0x0C 0 (some h) (0x100000 + k.1) k.2.addr)
  let s := dropRecovery s h g
  retractEpoch s h 7

end Sys2Proof.Machine
end

