-- ==== Sys2Proof/Machine/Tiers.lean ====
section
/-! DEFINITION. Maintenance operations, the damper, recalibration and the patrol scrub (09). -/

namespace Sys2Proof.Machine

/-! ### Maintenance operations (09, R211) -/

/-- The granules of a range that are dirty now are marked for the operation that starts (09, R211). -/
def markDirty (s : State) (base len : Nat) : State :=
  forEach (List.range 2) s (fun p s => modPool s p (fun x => { x with tiles := x.tiles.map (fun m =>
    let k := granuleMask m.block base len
    { m with marked := (m.marked &&& ~~~k) ||| (m.dirty &&& k) }) }))

/-- A write of `MTL_OP` that starts an operation. -/
def mtlStart (s : State) (a : Agent) (h : Nat) (inv : Bool) : State :=
  if !mayHearth s a h then misuse s SYS_UNMAPPED a (hearthReg h 0x308)
  else if (hearthAt s h).run.mtl.isSome then misuse s SYS_BUSY a (hearthReg h 0x308)
  else
    let x := (hearthAt s h).mem
    let base := fld x.mtlOpadr 43 8 * 256
    let len := fld x.mtlOplen 43 8 * 256
    let op := fun (s : State) (code done : Nat) => modHearth s h (fun y => { y with mem := { y.mem with
      mtlOp := setFld (setFld y.mem.mtlOp 15 8 code) 2 2 (if done = 1 then 1 else fld y.mem.mtlOp 2 2)
      mtlNow := if done = 1 then y.mem.mtlNow.note s.cyc 4 else y.mem.mtlNow } })
    let ok := len = 0 || (decide (base + len ≤ deepTop) && reach s (some h) base len)
    if !ok then raise (op s 1 1) 6 1 0 (some h) a.code base
    else markDirty (modHearth (op s 0 0) h (fun y => { y with run := { y.run with mtl := some ⟨inv, base, len⟩ } })) base len

/-- The tile lies wholly within bytes [base, base + len). -/
def wholly (m : MTile) (base len : Nat) : Bool :=
  decide (base ≤ m.block * 65536) && decide (m.block * 65536 + 65536 ≤ base + len)

/-- The granules that an operation writes back from a tile: those it marked and that are still dirty, and all dirty ones of
a tile that WBINV frees (09, R208, R211). -/
def backMask (m : MTile) (base len : Nat) (inv : Bool) : BitVec 256 :=
  if m.busy then 0 else if inv && wholly m base len then m.dirty else m.dirty &&& m.marked &&& granuleMask m.block base len

/-- The granules of `backMask` are written back; `inv` frees the tiles that lie wholly within the range (09, R211). -/
def writeBack (s : State) (h base len : Nat) (inv : Bool) : State :=
  let n := (List.range 2).foldl (fun n p => (poolAt s p).tiles.foldl (fun n m =>
    n + (setBits (backMask m base len inv)).length) n) 0
  let frees := fun (m : MTile) => inv && !m.busy && wholly m base len
  let s := forEach (List.range 2) s (fun p s =>
    let s := forEach (poolAt s p).tiles s (fun m s => toDeep s m (backMask m base len inv))
    modPool (forEach ((poolAt s p).tiles.filter frees) s dropFill) p (fun x =>
      { x with tiles := (x.tiles.filter (fun m => !frees m)).map (fun m =>
          { m with dirty := m.dirty &&& ~~~(backMask m base len inv), marked := m.marked &&& ~~~(granuleMask m.block base len) }) }))
  mtlStat s (some h) 1 63 32 n

/-- A granule that the write-back of a range covers stands on a tripped stack (09, R218). -/
def backBlocked (s : State) (base len : Nat) (inv : Bool) : Bool :=
  (List.range 2).any (fun p => (poolAt s p).tiles.any (fun m => backWaits s m (backMask m base len inv)))

/-- MTL_OP_DONE (09, R211): every granule of the range that was dirty at the start is written back; WBINV frees the tiles
that lie wholly within it. A granule whose stack is tripped is awaited (R218). -/
def mtlDone (s : State) (h : Nat) : State :=
  match (hearthAt s h).run.mtl with
  | none => s
  | some j =>
    if backBlocked s j.base j.len j.inv then s
    else
      let s := writeBack s h j.base j.len j.inv
      let s := modHearth s h (fun y => { y with mem := { y.mem with mtlOp := setFld y.mem.mtlOp 2 2 1, mtlNow := y.mem.mtlNow.note s.cyc 4 }, run := { y.run with mtl := none } })
      if j.inv then serveWaiting (serveWaiting s 0) 1 else s

/-! ### The damper (09, R216 to R219) -/

def modStk (s : State) (k : Nat) (f : Reg → Reg) : State := { s with msys := { s.msys with stk := vmod s.msys.stk k f } }

/-- The declared floor of a stack (09, R217). -/
def stackFloor (s : State) (k : Nat) : Nat := (stackHearths s k).foldl (fun m h => max m (hsec s h).l.bwfloor) 0

/-- DAMPER_SAMPLE (09, R216 to R218). -/
def damper (s : State) (k temp : Nat) : State :=
  let r := vget s.msys.stk k 0
  let floor := stackFloor s k
  let duty := fld r 27 24
  let trip := bit r 1
  let trip' := if trip then decide (776 < temp) else decide (864 ≤ temp)
  let duty' := if trip ∧ !trip' then 2 else if trip then duty
    else if 800 ≤ temp then max 2 (duty - 1) else if temp ≤ 776 then min 8 (duty + 1) else duty
  let brch' := trip' || decide (duty' < floor)
  let starts := trip' && !trip
  let rises := brch' && !bit r 0
  let s := modStk s k (fun r => setBit (setBit (setFld (setFld (setFld r 47 36 temp) 27 24 duty') 23 20 floor) 1 trip') 0 brch')
  let s := if starts || rises then
      let s := modStk s k (fun r => bumpSat r 63 48 1)
      let s := forEach (stackHearths s k) s (fun h s => breach s h cDUTY none 0)
      raise s 6 (if starts then 4 else 3) 0 none 0 k
    else s
  if trip && !trip' then serveWaiting (serveWaiting s 0) 1 else s

/-- A recalibration of a channel of the stack has failed. -/
def setRcf (s : State) (k : Nat) : State :=
  let s := modStk s k (fun r => setBit r 2 true)
  { s with msys := { s.msys with rcfNow := vmod s.msys.rcfNow k (fun n => n.note s.cyc 4) } }

/-- A channel is due for recalibration: 2^24 fc have passed, or its stack has moved by 4 °C or more (09, R219). -/
def recalDue (s : State) (k ch : Nat) : Bool :=
  let l := look s.msys.recal (256 * k + ch) (0, 0)
  let temp := fld (vget s.msys.stk k 0) 47 36
  decide (l.2 + 2 ^ 24 ≤ fc s) || decide (l.1 + 32 ≤ temp) || decide (temp + 32 ≤ l.1)

/-- RECALIBRATION of channel ch of stack k in its refresh window (09, R219). One that fails keeps its settings. -/
def recalibrate (s : State) (k ch : Nat) (ok : Bool) : State :=
  if !recalDue s k ch then s
  else
    let s := { s with msys := { s.msys with recal := put s.msys.recal (256 * k + ch) (fld (vget s.msys.stk k 0) 47 36, fc s) } }
    if ok then s else raise (setRcf s k) 6 5 0 none 0 k

/-- PATROL_SCRUB reads a sector, as `e` says it stands (09, R213). -/
def patrol (s : State) (sector : Nat) (e : EccResult) : State :=
  let a := 32 * sector
  if deepTop ≤ a ∨ tripped s (stackOf s a) then s
  else (seeDeep (noteCodes s a [(sector % 8, e)]) (· == sector)).1

/-! ### Commands -/

/-- WRITEBACK. -/
def execWriteback (a : Agent) (h : HearthId) (s : State) : Out := .next (mtlStart s a h.val false)
/-- WBINV. -/
def execWbinv (a : Agent) (h : HearthId) (s : State) : Out := .next (mtlStart s a h.val true)
/-- MTL_OP_DONE. -/
def execMtlOpDone (h : HearthId) (s : State) : Out := .next (mtlDone s h.val)
/-- MANTEL_VICTIM_FOUND. -/
def execMantelVictimFound (half : Fin 2) (s : State) : Out := .next (victimFound s half.val)
/-- MANTEL_AGE_TICK. -/
def execMantelAgeTick (s : State) : Out := .next (ageTick s)
/-- EVICTION_WRITEBACK_END. -/
def execEvictionWritebackEnd (half : Fin 2) (i : Nat) (s : State) : Out := .next (evictEnd s half.val i)
/-- PATROL_SCRUB. -/
def execPatrolScrub (sector : Nat) (ecc : EccResult) (s : State) : Out := .next (patrol s sector ecc)
/-- REFRESH_WINDOW (09, R205): no data moves on the channel during its window; nothing that software reads changes. -/
def execRefreshWindow (_k : StackId) (_ch : Fin 256) (s : State) : Out := .next s
/-- RECALIBRATION. -/
def execRecalibration (c : StackChannel) (ok : Bool) (s : State) : Out := .next (recalibrate s c.stack.val c.ch.val ok)
/-- DAMPER_SAMPLE. -/
def execDamperSample (k : StackId) (temp : Nat) (s : State) : Out := .next (damper s k.val temp)

end Sys2Proof.Machine
end

