-- ==== Sys2Proof/Machine/Phase.lean ====
section
/-! DEFINITION. Phase windows, the cycle count and its anchor (13, R329 to R332). -/

namespace Sys2Proof.Machine

/-- The open window of a tile ends. -/
def endTilePhase (s : State) (t : Nat) : State :=
  match (tileAt s t).misc.ph, tileHearth s t with
  | some (tag, start), some h =>
    phaseEntry (modTile s t (fun x => { x with misc := { x.misc with ph := none } })) h start tag (0x100000 + t) 0
  | _, _ => s

/-- PHT at issue (13, R329). -/
def issuePht (t : Nat) (w : Word128) (s : State) : Issue :=
  let s := endTilePhase s t
  .done (modTile s t (fun x => { x with misc := { x.misc with ph := some (wf w 119 104, s.cyc) } }))

/-- ANCHOR_WRITE (13, R330; 18, R443): the Stoker pairs calendar time and count. -/
def anchorWrite (s : State) : State :=
  if s.stk.up then
    let s := { s with anchor0 := BitVec.ofNat 64 s.cyc, anchor1 := BitVec.ofNat 64 (calNow s) }
    if calValid s then { s with stk := { s.stk with anchors := ({ cal := calNow s, cyc := s.cyc } :: s.stk.anchors).take 16 } }
    else s
  else s

/-- PHT. -/
def execPht (t : TileId) (w : Word128) (s : State) : Out := issueCmd 0xA0 t.val w (issuePht t.val w) s
/-- ANCHOR_WRITE. -/
def execAnchorWrite (s : State) : Out := .next (anchorWrite s)

end Sys2Proof.Machine
end

