-- ==== Sys2Proof/Machine/CollOps.lean ====
section
/-! DEFINITION. Collective descriptors, COLL frames and the moves of a PERM (13, R308 to R328). -/

namespace Sys2Proof.Machine

/-! ### Descriptor and frame fields (13, Tables 13-1 and 13-4) -/

namespace Col
def opc (d : List Byte) := leAt d 0 1
def mode (d : List Byte) := leAt d 1 1
def alg (d : List Byte) := mode d % 4
def cmp (d : List Byte) := mode d / 4 % 4
def qch (d : List Byte) : Bool := mode d / 16 % 2 == 1
def prov (d : List Byte) : Bool := mode d / 32 % 2 == 1
def gen (d : List Byte) := mode d / 64 % 2
def wfmt (d : List Byte) := leAt d 2 1
def lfmt (d : List Byte) := leAt d 3 1
def px (d : List Byte) := leAt d 4 1
def group (d : List Byte) := leAt d 5 1
def param (d : List Byte) := leAt d 6 1
def ctr (d : List Byte) := leAt d 8 2
def phase (d : List Byte) := leAt d 10 2
def amt (d : List Byte) := leAt d 12 4
def src (d : List Byte) := leAt d 16 8
def dst (d : List Byte) := leAt d 24 8
def nelem (d : List Byte) := leAt d 32 8
def aux (d : List Byte) := leAt d 40 8
def step (d : List Byte) := leAt d 48 8
def epoch (d : List Byte) := leAt d 56 8
end Col

/-- Operations of Table 13-2. -/
def oRS : Nat := 1
def oAG : Nat := 2
def oAR : Nat := 3
def oPERM : Nat := 4
def oFLUE : Nat := 5

namespace CollF
def offset (f : Frame) := fld f.opx 47 0
def opc (f : Frame) := fld f.opx 55 48
def wfmt (f : Frame) := fld f.opx 63 56
def group (f : Frame) := fld f.opx 69 64
def first (f : Frame) : Bool := bit f.opx 71
def hop (f : Frame) := fld f.opx 79 72
def dseq (f : Frame) := fld f.opx 111 80
end CollF

/-- Agent code of a port engine (11, Table 11-2). -/
def portAgent (p : Nat) : Nat := 0x300000 + p

/-- A port or hearth number as an identifier. -/
def pidOf (p : Nat) : PortId := ⟨p % 12, Nat.mod_lt _ (by decide)⟩
def hidOf (h : Nat) : HearthId := ⟨h % 16, Nat.mod_lt _ (by decide)⟩

def activeAt (s : State) (p h : Nat) : Option ActiveCol := vget (portAt s p).active h none
def setActive (s : State) (p h : Nat) (a : Option ActiveCol) : State :=
  modPort s p (fun x => { x with active := vput x.active h a })
def modActive (s : State) (p h : Nat) (f : ActiveCol → ActiveCol) : State :=
  modPort s p (fun x => { x with active := vmod x.active h (fun o => o.map f) })

/-! ### Reads and writes of an engine (13, R315) -/

/-- Bytes with their poisoned sectors, numbered from the first; none while the read, or an earlier write of the engine,
waits. -/
def engRead (s : State) (p h a n : Nat) : Option (State × List Byte × List Nat) :=
  if writesWait s (.port (pidOf p)) then none
  else (devRead s (some h) .noalloc a n []).map (fun r => (r.1, r.2.1, r.2.2.map (fun k => k - a / 32)))
/-- A write of the engine; its poisoned sectors are numbered from the first. -/
def engWrite (s : State) (p h : Nat) (hint : Hint) (a : Nat) (bs : List Byte) (ps : List Nat) : State :=
  if bs.isEmpty then s else postWrite s (.port (pidOf p)) h hint a bs (ps.map (· + a / 32))

/-- Steps of an engine in order, as far as none of them waits. -/
def optEach {α : Type} (l : List α) (s : State) (f : α → State → Option State) : Option State :=
  l.foldl (fun o x => o.bind (f x)) (some s)

/-- Ranges that an engine reads for its own use, and the first poisoned address among them. -/
def engSee (p h : Nat) (l : List (Nat × Nat)) (s : State) : Option (State × Option Nat) :=
  l.foldl (fun o r => o.bind (fun (s, bad) => (engRead s p h r.1 r.2).map (fun (s, _, ps) =>
    (s, bad.orElse (fun _ => ps.head?.map (fun k => (r.1 / 32 + k) * 32)))))) (some (s, none))

/-! ### Sending COLL frames (13, R317) -/

/-- OPX of a COLL frame. -/
def collOpx (off opc wfmt group : Nat) (first : Bool) (hop dseq : Nat) : BitVec 128 :=
  BitVec.ofNat 128 (off % 2 ^ 48 + opc % 256 * 2 ^ 48 + wfmt % 32 * 2 ^ 56 + group % 64 * 2 ^ 64 + b2n first * 2 ^ 71 +
    hop % 256 * 2 ^ 72 + dseq % 2 ^ 32 * 2 ^ 80)

/-- Frames of the descriptor carry its epoch: with `PROV`, but for an INPLACE PERM, which ignores it (R319, R328). -/
def colProv (d : List Byte) : Bool := Col.prov d && !(Col.opc d == oPERM && Col.alg d == 1)

/-- A frame joins those that its descriptor has still to send (R308). -/
def queueFrame (s : State) (p h dev : Nat) (f : Frame) : State :=
  modActive s p h (fun b => { b with sendq := b.sendq ++
    [{ dev := BitVec.ofNat 20 dev, sent := fc s, use := .coll (pidOf p) (hidOf h), frame := f }] })

/-- One COLL frame of a descriptor to a device. -/
def sendColl (s : State) (p h : Nat) (a : ActiveCol) (dev hop off : Nat) (first : Bool) (bs : List Byte) (ps : List Nat) : State :=
  let d := a.desc
  let pr := colProv d
  queueFrame s p h dev { ftype := fCOLL, ch := 5, ddev := dev, sdev := devNo s, prov := pr
                         epoch := if pr then Col.epoch d else 0, psn := !ps.isEmpty
                         plen := if bs.isEmpty then 0 else dataUnits bs.length ps
                         opx := collOpx off (Col.opc d) (Col.wfmt d) (Col.group d) first hop a.dseq
                         payload := bs, poison := ps }

/-- The next ring that the engine serves: in round-robin order, one with a frame to send, none of whose frames waits for a
session or a place in the send table (R308). -/
def pumpNext (s : State) (p : Nat) : Option (Nat × SendEntry) :=
  (List.range 16).findSome? (fun i =>
    let h := ((portAt s p).rrCol + 1 + i) % 16
    if s.lnk.waiting.any (fun e => decide (e.use = .coll (pidOf p) (hidOf h))) then none
    else (activeAt s p h).bind (fun a => a.sendq.head?.map (fun e => (h, e))))
/-- Frames leave the engine of a port one by one. -/
def pumpLoop (p : Nat) : Nat → State → State
  | 0, s => s
  | k + 1, s => match pumpNext s p with
    | none => s
    | some (h, e) =>
      let s := modActive (modPort s p (fun x => { x with rrCol := h })) p h (fun b => { b with sendq := b.sendq.drop 1 })
      pumpLoop p k (sendFrame s { e with sent := fc s })
def pump (s : State) (p : Nat) : State :=
  pumpLoop p ((portAt s p).active.toList.foldl (fun n o => n + o.elim 0 (fun a => a.sendq.length)) 0) s
def pumpAll (s : State) : State := forEach (List.range 12) s (fun p s => pump s p)

/-- Groups of 256 elements that one frame carries beside a header and a poison mask. -/
def groupsPer (bits : Nat) : Nat := max 1 (126 / bits)

/-- Elements from `off` on, in frames of whole groups of 256; the header travels in the first. -/
def sendElems (p h : Nat) (a : ActiveCol) (dev hop bits : Nat) : Nat → State → Nat → List Byte → List Nat → Option (List Byte) → State
  | 0, s, _, _, _, _ => s
  | g + 1, s, off, bs, ps, hdr =>
    let k := 32 * bits * groupsPer bits
    let now := bs.take k
    let cut := k / 32
    let p0 := ps.filter (fun i => decide (i < cut))
    let pay := match hdr with
      | some x => x ++ now
      | none => now
    let s := sendColl s p h a dev hop off hdr.isSome pay (if hdr.isSome then p0.map (· + 1) else p0)
    let rest := bs.drop k
    if rest.isEmpty then s
    else sendElems p h a dev hop bits g s (off + 256 * groupsPer bits) rest ((ps.filter (fun i => decide (cut ≤ i))).map (· - cut)) none

/-! ### The moves of a PERM (13, R326, R327) -/

/-- Slots per device, and bytes of a slot. -/
def permM (d : List Byte) : Nat := Col.param d + 1
def slotBytes (d : List Byte) : Nat := eltBytes (Col.lfmt d) (Col.nelem d)
/-- Word x of the permutation table. -/
def permAt (s : State) (d : List Byte) (x : Nat) : Nat := leNat (readMem s.mem (Col.aux d + 4 * x) 4)
/-- The position whose content y receives. -/
def permInv (s : State) (a : ActiveCol) (y : Nat) : Nat :=
  ((List.range (a.n * permM a.desc)).find? (fun x => permAt s a.desc x == y)).getD y
/-- Rank that holds a position, and the local address of a position in an area of slots. -/
def permRank (a : ActiveCol) (x : Nat) : Nat := x / permM a.desc
def permAddr (a : ActiveCol) (base x : Nat) : Nat := base + x % permM a.desc * slotBytes a.desc
/-- Lowest position of the cycle through x. -/
def cycleMin (s : State) (d : List Byte) : Nat → Nat → Nat → Nat → Nat
  | 0, _, _, m => m
  | k + 1, x0, x, m =>
    let y := permAt s d x
    if y = x0 then m else cycleMin s d k x0 y (min m y)
def cycleOf (s : State) (a : ActiveCol) (x : Nat) : Nat := cycleMin s a.desc (a.n * permM a.desc) x x x

/-- A slot has its new content. -/
def permGot (s : State) (p h : Nat) (a : ActiveCol) (y : Nat) : State :=
  modActive s p h (fun b => { b with got := b.got ++ [(y % permM a.desc, 0, Col.nelem a.desc)] })

/-- Content at a local address goes to position y: a local copy, or frames. True when it is local; none while it waits. -/
def permMove (s : State) (p h : Nat) (a : ActiveCol) (from' base y : Nat) : Option (State × Bool) :=
  let n := slotBytes a.desc
  (engRead s p h from' n).map (fun (s, bs, ps) =>
    if permRank a y = a.rank then (permGot (engWrite s p h .noalloc (permAddr a base y) bs ps) p h a y, true)
    else
      let dev := grpDev s h (Col.group a.desc % 64) (permRank a y)
      (sendElems p h a dev 0 (eltBits (Col.lfmt a.desc)) (n / 32 + 1) s (y * Col.nelem a.desc) bs ps none, false))

/-- Every cycle that this device leads: the lowest positions of cycles longer than 1, rising. -/
def ledCycles (s : State) (a : ActiveCol) : List Nat :=
  ((List.range (permM a.desc)).map (· + a.rank * permM a.desc)).filter (fun x =>
    permAt s a.desc x != x && cycleOf s a x == x)

/-- The content of position z has been moved: the cycle goes on with a FREE for z, or is complete when z was staged. -/
def permDone (s : State) (p h : Nat) (a : ActiveCol) (z : Nat) : State :=
  modActive s p h (fun b =>
    if a.cycles.head? = some z then { b with sent := b.sent + 1, cycles := b.cycles.drop 1, todo := b.todo ++ [none] }
    else { b with sent := b.sent + 1, todo := b.todo ++ [some z] })

/-- One step of the moves along cycles (13, R327): `some y` is a FREE for position y, which goes to the holder of the position
that moves into y, or moves it when that is this device; `none` stages the first cycle still to lead. -/
def permStep (s : State) (p h : Nat) (a : ActiveCol) (w : Option Nat) : Option State :=
  match w with
  | none => match a.cycles.head? with
    | none => some s
    | some x => (engRead s p h (permAddr a (Col.src a.desc) x) (slotBytes a.desc)).map (fun (s, bs, ps) =>
        modActive (engWrite s p h .noalloc (Col.dst a.desc) bs ps) p h (fun b => { b with todo := b.todo ++ [some x] }))
  | some y =>
    let z := permInv s a y
    if permRank a z ≠ a.rank then
      if writesWait s (.port (pidOf p)) then none
      else some (sendColl s p h a (grpDev s h (Col.group a.desc % 64) (permRank a z)) 0 (y * Col.nelem a.desc) false [] [])
    else
      let from' := if a.cycles.head? == some z then Col.dst a.desc else permAddr a (Col.src a.desc) z
      (permMove s p h a from' (Col.src a.desc) y).map (fun (s, loc) =>
        if loc then permDone s p h a z else modActive s p h (fun b => { b with moves := b.moves ++ [y] }))

/-- The steps that stand open are taken, in order, until one must wait. -/
def permGo (p h : Nat) : Nat → State → State
  | 0, s => s
  | k + 1, s => match activeAt s p h with
    | none => s
    | some a => match a.todo with
      | [] => s
      | w :: _ => match permStep s p h a w with
        | none => s
        | some n => permGo p h k (modActive n p h (fun b => { b with todo := b.todo.drop 1 }))
/-- Steps that the local part of the cycles can take. -/
def permFuel (a : ActiveCol) : Nat := 4 * permM a.desc + 4
def permRun (s : State) (p h : Nat) : State := permGo p h ((activeAt s p h).elim 0 permFuel) s

/-- Frames of the descriptor that concern a slot and are not acknowledged. -/
def slotPending (s : State) (p h : Nat) (a : ActiveCol) (y : Nat) : Bool :=
  (s.lnk.send ++ s.lnk.waiting ++ a.sendq).any (fun e => decide (e.use = .coll (pidOf p) (hidOf h)) &&
    CollF.dseq e.frame == a.dseq % 2 ^ 32 && !e.frame.payload.isEmpty && CollF.offset e.frame / Col.nelem a.desc == y)

/-- A frame of the engine has been acknowledged (13, R327): the move it ends is followed by its FREE. -/
def collAcked (s : State) (p h : Nat) (f : Frame) : State :=
  match activeAt s p h with
  | none => s
  | some a =>
    let y := CollF.offset f / Col.nelem a.desc
    if Col.opc a.desc ≠ oPERM ∨ CollF.dseq f ≠ a.dseq % 2 ^ 32 ∨ f.payload.isEmpty ∨ !a.moves.contains y ∨ slotPending s p h a y then s
    else
      let s := modActive s p h (fun b => { b with moves := b.moves.filter (· != y) })
      pump (permRun (permDone s p h a (permInv s a y)) p h) p

/-- Each unfinished cycle that this device leads is named by its leader position (13, R328). -/
def cyclesLost (s : State) (p h code g : Nat) (a : ActiveCol) (arg : Nat) : State :=
  forEach (if Col.opc a.desc = oPERM then a.cycles else []) s (fun x s => raise s spCOL code g (some h) (portAgent p) x arg)

end Sys2Proof.Machine
end

