-- ==== Sys2Proof/Machine/Operands.lean ====
section
/-! DEFINITION. Operands of tile instructions: slots, slot status, rows of scratch, and which earlier
instructions use a slot (03, 04, 07). -/

namespace Sys2Proof.Machine

/-- Slot geometry (04, R89): rows, columns, element bytes, slot count. -/
def geomSR (x : Tile) : Nat := 64 * 2 ^ fld x.acc.geom 1 0
def geomSC (x : Tile) : Nat := 64 * 2 ^ fld x.acc.geom 3 2
def geomFmt (x : Tile) : Nat := fld x.acc.geom 4 4
def geomN (x : Tile) : Nat := fld x.acc.geom 14 8
def geomE (x : Tile) : Nat := if geomFmt x = 1 then 12 else 4
/-- ACC_GEOM of a geometry, with NSLOT (04, R89). -/
def mkGeom (srl scl sfmt : Nat) : Reg :=
  let n := min 64 (8388608 / (64 * 2 ^ srl * (64 * 2 ^ scl) * (if sfmt = 1 then 12 else 4)))
  BitVec.ofNat 64 (n * 256 + sfmt * 16 + scl * 4 + srl)

/-- Local address of element (r, c) of a slot (04, R92). -/
def slotAddr (x : Tile) (t slot r c : Nat) : Nat :=
  accBase t + (slot * geomSR x * geomSC x + r * geomSC x + c) * geomE x

/-- n element codes of a slot row from column 0. -/
def slotRow (s : State) (t slot r n : Nat) : List Nat :=
  let x := tileAt s t
  unpack (8 * geomE x) n (readMem s.mem (slotAddr x t slot r 0) (n * geomE x))

/-- Write a slot row's first elements (04, R91). -/
def putSlotRow (s : State) (t slot r : Nat) (es : List Nat) : State :=
  let x := tileAt s t
  store s (slotAddr x t slot r 0) (packElts (8 * geomE x) es) []

/-- A poisoned sector among n elements of a slot row. -/
def slotPoison (s : State) (t slot r n : Nat) : Option Nat :=
  let x := tileAt s t
  (poisoned s (slotAddr x t slot r 0) (n * geomE x)).head?.map (· * 32)

/-- P + 64 of a slot, its status bits, and updates of them (04, Table 04-15). -/
def sstAt (x : Tile) (slot : Nat) : Reg := vget x.acc.sst slot 0
def modSst (s : State) (t slot : Nat) (f : Reg → Reg) : State :=
  modTile s t (fun x => { x with acc := { x.acc with sst := vmod x.acc.sst slot f } })
/-- The device sets bits of a slot's status or its INC bit. -/
def setSst (s : State) (t slot bits : Nat) : State :=
  modTile s t (fun x => { x with acc := { x.acc with
    sst := vmod x.acc.sst slot (fun r => r ||| BitVec.ofNat 64 bits)
    sstNow := vmod x.acc.sstNow slot (fun n => n.note s.cyc bits) } })
def orStatus (s : State) (t slot st : Nat) : State := setSst s t slot (st % 32)
/-- The device sets flags of ANV_FLAG. -/
def raiseFlags (s : State) (t flags : Nat) : State :=
  modTile s t (fun x => { x with anv := { x.anv with
    flag := x.anv.flag ||| BitVec.ofNat 64 (flags % 16)
    flagNow := x.anv.flagNow.note s.cyc (flags % 16) } })
/-- P of a PX field. -/
def pOf (px : Nat) : Int := (px : Int) - 64

/-- Slots that a job of the anvil queue reads or writes (04, R102). -/
def jobSlots (j : AnvJob) : List Nat :=
  match j.op with
  | .mmt k => if Mmt.init k.w = 1 ∨ Mmt.dest k.w = 0 then [Mmt.slot k.w] else []
  | .ldp _ => []
  | .acc k => match opOf k.w with
    | 0x22 => if Acc.ssl k.w = 1 then [Acc.slot k.w, Acc.sslot k.w] else [Acc.slot k.w]
    | _ => [Acc.slot k.w]

/-- The job is an MMT; an accumulator-pipe instruction. -/
def isMmt (j : AnvJob) : Bool := match j.op with | .mmt _ => true | _ => false
def isLdp (j : AnvJob) : Bool := match j.op with | .ldp _ => true | _ => false
def isAcc (j : AnvJob) : Bool := match j.op with | .acc _ => true | _ => false

/-- All jobs of the anvil pipes, those started first. -/
def anvJobs (x : Tile) : List AnvJob :=
  x.anv.rowPipe ++ x.anv.loadPipe.toList ++ x.anv.accPipe.toList ++ x.anv.queue

/-- Opcode 0x61 is SMX and 0x62 SRS; the slot they read is in `sfuSlot` (07, R169). -/
def sfuSlot (w : Word128) : List Nat :=
  match opOf w with
  | 0x61 => [wf w 119 114]
  | 0x62 => [wf w 119 114]
  | _ => []

/-- Vector-queue instructions in issue order. -/
def vecJobs (x : Tile) : List VecJob := x.vec.run.toList ++ x.vec.queue

/-- An earlier instruction of another pipe uses slot sl and has not finished (04, R102; 07, R169). -/
def slotBusyForMmt (x : Tile) (seq sl : Nat) : Bool :=
  (anvJobs x).any (fun j => isAcc j && decide (j.seq < seq) && (jobSlots j).contains sl) ||
  (vecJobs x).any (fun v => decide (v.seq < seq) && (sfuSlot v.w).contains sl)
def slotBusyForAcc (x : Tile) (seq sl : Nat) : Bool :=
  (anvJobs x).any (fun j => isMmt j && decide (j.seq < seq) && (jobSlots j).contains sl) ||
  (vecJobs x).any (fun v => decide (v.seq < seq) && (sfuSlot v.w).contains sl)
def slotBusyForSfu (x : Tile) (seq sl : Nat) : Bool :=
  (anvJobs x).any (fun j => !isLdp j && decide (j.seq < seq) && (jobSlots j).contains sl)

/-- The slot's WPEND (04, Table 04-15). -/
def wpend (x : Tile) (slot : Nat) : Bool :=
  (anvJobs x).any (fun j => (jobSlots j).contains slot) || (vecJobs x).any (fun v => (sfuSlot v.w).contains slot)

/-- Bytes [off, off + n) lie in the tile's scratch (09, R199). -/
def inScratch (s : State) (t off n : Nat) : Bool := decide (off + n ≤ scrSize s t)

/-- Bytes [off, off + n) lie in the tile's 32 MiB window and outside its lent range (06, R148; 09, R199). -/
def inWindow (s : State) (t off n : Nat) : Bool :=
  decide (off + n ≤ 0x2000000) &&
  ((tileAt s t).misc.lend == 0 || decide (0x1800000 ≤ off) || decide (off + n ≤ scrSize s t))

/-- Append a job to the anvil queue in issue order. -/
def pushAnv (s : State) (t : Nat) (op : AnvOp) : State :=
  let w := csWord s t
  modTile s t (fun x => { x with anv := { x.anv with
    queue := x.anv.queue ++ [{ seq := x.misc.seq, idx := w, op := op }] } })

/-- The anvil queue has no free entry (03, R75). -/
def anvFull (x : Tile) : Bool := decide (16 ≤ x.anv.queue.length)

end Sys2Proof.Machine
end

