-- ==== Sys2Proof/Machine/Quench.lean ====
section
/-! DEFINITION. The quench unit: shard maps, coefficients, bias correction, the recurrence, generations and
buffers (14). -/

namespace Sys2Proof.Machine

/-! ### Codes of Table 14-5 -/

def qMAP : Nat := 0x20
def qGRP : Nat := 0x21
def qFMT : Nat := 0x22
def qDIV0 : Nat := 0x23
def qNONFIN : Nat := 0x24
def qWITHHELD : Nat := 0x25
def qGENBUSY : Nat := 0x26
def qOFF : Nat := 0x27

/-! ### Exact division and square root -/

/-- Integer square root by bits, from bit k down. -/
def isqrt : Nat → Nat → Nat → Nat
  | 0, r, _ => r
  | k + 1, r, m => isqrt k (if (r + 2 ^ k) * (r + 2 ^ k) ≤ m then r + 2 ^ k else r) m

/-- Square root of a binary32 value, with a sticky bit below 2^-200: enough for one exact rounding of a sum
with another binary32 value. -/
def numSqrt (x : Num) : Num :=
  match x with
  | .nan _ => .nan false
  | .inf neg => if neg then .nan false else .inf false
  | .fin neg m e =>
    if m = 0 then .fin neg 0 0
    else if neg then .nan false
    else
      let k := m * 2 ^ (e + 400).toNat
      let r := isqrt 270 0 k
      if r * r = k then .fin false r (-200) else .fin false (2 * r + 1) (-201)

/-- Quotient, with a sticky bit far below the last place of any format (IEEE 754-2019). -/
def numDiv (a b : Num) : Num :=
  match a, b with
  | .nan _, _ => .nan false
  | _, .nan _ => .nan false
  | .inf _, .inf _ => .nan false
  | .inf n, .fin k _ _ => .inf (n ^^ k)
  | .fin n _ _, .inf k => .fin (n ^^ k) 0 0
  | .fin n m e, .fin k m' e' =>
    if m' = 0 then (if m = 0 then .nan false else .inf (n ^^ k))
    else
      let x := m * 2 ^ 160
      .fin (n ^^ k) (2 * (x / m') + (if x % m' = 0 then 0 else 1)) (e - e' - 161)

/-- Value of a binary32 code, and a value rounded to binary32 and to binary64 (14, R337, R343). -/
def f32 (c : Nat) : Num := ffDecode ffp32 c
def r32 (x : Num) : Nat := (ffConvert ffp32 .rne false x).1
def r64 (x : Num) : Nat := (ffConvert ffp64 .rne false x).1
def f64 (c : Nat) : Num := ffDecode ffp64 c
def nAdd (a b : Num) : Num := (numAdd a b).1
def nMul (a b : Num) : Num := (numMul a b).1

/-! ### Coefficients (14, Table 14-2, R341 to R343) -/

namespace Cf
def f (c : Coef) (i : Nat) := leAt c.bytes (4 * i) 4
def gamma (c : Coef) := f c 0
def lamc (c : Coef) := f c 1
def a1 (c : Coef) := f c 2
def a2 (c : Coef) := f c 3
def b1 (c : Coef) := f c 4
def b2 (c : Coef) := f c 5
def eps (c : Coef) := f c 6
def k1 (c : Coef) := f c 7
def k2 (c : Coef) := f c 8
def eta (c : Coef) := f c 9
def lam (c : Coef) := f c 10
def ctl1 (c : Coef) := leAt c.bytes 44 1
def ctl2 (c : Coef) := leAt c.bytes 45 1
def h (c : Coef) := ctl1 c % 4
def phi (c : Coef) := ctl1 c / 4 % 4
def psi (c : Coef) := ctl1 c / 16 % 2
def mhat (c : Coef) := ctl1 c / 32 % 2
def bc1 (c : Coef) := ctl1 c / 64 % 2
def bc2 (c : Coef) := ctl1 c / 128 % 2
def men (c : Coef) : Bool := ctl2 c % 2 == 1
def ven (c : Coef) : Bool := ctl2 c / 2 % 2 == 1
def mbf (c : Coef) : Bool := ctl2 c / 4 % 2 == 1
def vbf (c : Coef) : Bool := ctl2 c / 8 % 2 == 1
def wfmt (c : Coef) := leAt c.bytes 46 1 % 32
end Cf

/-- p of R343 over the bits of t from the top. -/
def powBits (a : Nat) (t : BitVec 64) : Nat → Nat → Nat
  | 0, p => p
  | j + 1, p =>
    let p := r64 (nMul (f64 p) (f64 p))
    powBits a t j (if bit t j then r64 (nMul (f64 p) (f64 a)) else p)

/-- Bias correction (14, R343): c as binary32, and whether it was forced to 1.0 with its bit set. -/
def biasOf (bc a : Nat) (t : BitVec 64) : Nat × Bool :=
  let one64 : Nat := 0x3FF0000000000000
  let p := powBits (r64 (f32 a)) t 64 one64
  let d := r64 (nAdd (f64 one64) (f64 p).negate)
  let x := f64 d
  if bc = 0 then (0x3F800000, false)
  else if x.isNan || x.isZero || x.neg then (0x3F800000, true)
  else (r32 (f64 (r64 (numDiv (f64 one64) x))), false)

/-- An entry is illegal (14, R342): the code that it fails with. -/
def coefBad (c : Coef) : Option Nat :=
  if Cf.h c = 3 ∨ Cf.phi c = 3 ∨ 15 < Cf.ctl2 c ∨ 31 < leAt c.bytes 46 1 ∨ leAt c.bytes 47 17 ≠ 0 ∨
      (List.range 11).any (fun i => (f32 (Cf.f c i)).isNan) then some qGRP
  else if Cf.wfmt c = INT8 ∨ 11 < Cf.wfmt c then some qFMT
  else none

/-! ### The shard map (14, R335) -/

/-- The addresses of a segment, each with the bytes of its tensor; of a tensor that the job does not use, the address
alone. -/
def segRanges (g : Seg) (c : Coef) : List (Nat × Nat) :=
  let f := Cf.wfmt c
  [(g.wadr, 4 * g.count), (g.madr, if Cf.men c then (if Cf.mbf c then 2 else 4) * g.count else 1),
   (g.vadr, if Cf.ven c then (if Cf.vbf c then 2 else 4) * g.count else 1),
   (g.oadr, eltBytes f g.count), (g.osadr, if isMx f then g.count / 32 else 1)]

/-- Segment entry i of a map. -/
def segAt (s : State) (a i : Nat) : Seg × Bool :=
  let b := readMem s.mem (a + 64 * i) 64
  ({ first := leAt b 0 4, count := leAt b 4 4, group := leAt b 8 1, wadr := leAt b 16 8, madr := leAt b 24 8
     vadr := leAt b 32 8, oadr := leAt b 40 8, osadr := leAt b 48 8, gstr := leAt b 56 8 }, leAt b 9 7 == 0)

/-- Coefficient entry i of bank g (14, R341). -/
def coefAt (s : State) (h g i : Nat) : Coef :=
  let base := fld (hearthAt s h).net.qchCfg 43 14 * 16384
  { bytes := readMem s.mem (base + g * 16384 + 64 * i) 64, c1 := 0, c2 := 0 }

/-- A segment keeps R335 and names a legal coefficient entry: none, or the code that the check gives. -/
def segBad (s : State) (h g : Nat) (sg : Seg) (zero : Bool) : Option Nat :=
  let c := coefAt s h g sg.group
  if !zero ∨ sg.count = 0 ∨ 2 ^ 31 < sg.count then some qMAP
  else if fld (hearthAt s h).net.qchCfg 10 2 ≤ sg.group then some qGRP
  else match coefBad c with
    | some k => some k
    | none =>
      if isMx (Cf.wfmt c) ∧ (sg.first % 32 ≠ 0 ∨ sg.count % 32 ≠ 0) then some qMAP
      else if sg.gstr % 32 ≠ 0 ∨ (segRanges sg c).any (fun r => r.1 % 32 != 0 || !reach s (some h) r.1 r.2 ||
          !reach s (some h) (r.1 + sg.gstr) r.2) then some qMAP
      else none

/-- The segments of a map from entry i on, whose next one starts at `first`; n is the shard's length. -/
def mapFrom (s : State) (h g a n : Nat) : Nat → Nat → Nat → Except Nat (List Seg)
  | 0, _, _ => .error qMAP
  | k + 1, i, first =>
    if !reach s (some h) (a + 64 * i) 64 then .error 4
    else
      let (sg, zero) := segAt s a i
      if sg.first ≠ first ∨ n < sg.first + sg.count then .error qMAP
      else match segBad s h g sg zero with
        | some c => .error c
        | none =>
          if sg.first + sg.count = n then .ok [sg]
          else match mapFrom s h g a n k (i + 1) (sg.first + sg.count) with
            | .ok l => .ok (sg :: l)
            | .error c => .error c

/-- A group's entry with its bias corrections, and the corrections forced to 1.0. -/
def coefOf (s : State) (h g i : Nat) (t : BitVec 64) : Coef × Nat :=
  let c := coefAt s h g i
  let x := biasOf (Cf.bc1 c) (Cf.a1 c) t
  let y := biasOf (Cf.bc2 c) (Cf.b1 c) t
  ({ c with c1 := x.1, c2 := y.1 }, b2n x.2 + b2n y.2)

/-- Committed generation (14, Table 14-7). -/
def genOf (s : State) (h : Nat) : Nat := fld (hearthAt s h).net.qchGen 0 0

/-- Check of a quench job (14, R334): its segments, or the code of the fault. -/
def qchCheck (s : State) (h : Nat) (d : List Byte) (n : Nat) : Except Nat (List Seg) :=
  if !bit (hearthAt s h).net.qchCfg 0 then .error qOFF
  else mapFrom s h (genOf s h) (Col.dst d) (Col.nelem d / n) 4096 0 0

/-- The job that an RS descriptor starts (14, R341, R343, R344). -/
def qchStart (s : State) (p h : Nat) (d : List Byte) (n dseq : Nat) (segs : List Seg) : State :=
  let g := genOf s h
  let t : BitVec 64 := BitVec.ofNat 64 (Col.step d)
  let gs := (segs.map (·.group)).foldl (fun l i => insSet i l) []
  let cs := gs.map (fun i => (i, coefOf s h g i t))
  let forced := cs.foldl (fun k e => k + e.2.2) 0
  let s := modNet s h (fun x => { x with qchStat1 := bumpSat x.qchStat1 31 0 forced })
  modPort s p (fun x => { x with jobs := vput x.jobs h (some
    { dseq := dseq, map := Col.dst d, epoch := if Col.prov d then Col.epoch d else epochE s h, prov := Col.prov d
      g := g, segs := segs
      coefs := cs.map (fun e => (e.1, e.2.1)), n := Col.nelem d / n }) })

/-! ### The recurrence (14, R337 to R340) -/

/-- New w, m, v and whether the divisor was substituted. -/
def quenchElem (c : Coef) (gr w m v : Nat) : Nat × Nat × Nat × Bool :=
  let W := f32 w
  let M := if Cf.men c then f32 m else .fin false 0 0
  let V := if Cf.ven c then f32 v else .fin false 0 0
  let g := f32 (r32 (nAdd (nMul (f32 (Cf.gamma c)) (f32 gr)) (nMul (f32 (Cf.lamc c)) W)))
  let m1 := r32 (nAdd (nMul (f32 (Cf.a1 c)) M) (nMul (f32 (Cf.a2 c)) g))
  let hg := match Cf.h c with
    | 0 => nMul g g
    | 1 => if g.neg then g.negate else g
    | _ => .fin false 0 0
  let v1 := r32 (nAdd (nMul (f32 (Cf.b1 c)) V) (nMul (f32 (Cf.b2 c)) hg))
  let q := f32 (r32 (nMul (f32 v1) (f32 c.c2)))
  let ph := match Cf.phi c with
    | 0 => numSqrt q
    | 1 => q
    | _ => .fin false 1 0
  let d0 := r32 (nAdd ph (f32 (Cf.eps c)))
  let z := (f32 d0).isZero
  let d := if z then (if (f32 d0).neg then .fin true 1 (-126) else .fin false 1 (-126)) else f32 d0
  let mh := if Cf.mhat c = 1 then f32 m1 else M
  let n := f32 (r32 (nAdd (nMul (nMul (f32 (Cf.k1 c)) mh) (f32 c.c1)) (nMul (f32 (Cf.k2 c)) g)))
  let sg := if Cf.psi c = 1 then
      (if n.isNan || n.isZero then n else .fin n.neg 1 0)
    else n
  let u := f32 (r32 (numDiv sg d))
  let up := nMul (f32 (Cf.eta c)) (nAdd u (nMul (f32 (Cf.lam c)) W))
  let w1 := r32 (nAdd W up.negate)
  (w1, m1, v1, z)

/-- The value is NaN or infinite. -/
def nonFinite (c : Nat) : Bool := !(f32 c).isFin

/-! ### QUENCH_CHUNK -/

/-- Segment, coefficients and index of a shard element. -/
def elemAt (j : QJob) (e : Nat) : Option (Seg × Coef × Nat) :=
  (j.segs.find? (fun g => decide (g.first ≤ e) && decide (e < g.first + g.count))).bind (fun g =>
    (look? j.coefs g.group).map (fun c => (g, c, e - g.first)))

/-- State value k of an element (0 w, 1 m, 2 v): used, held in BF16, address in generation g. -/
def stateOf (g : Seg) (c : Coef) (gen i k : Nat) : Bool × Bool × Nat :=
  let o := gen * g.gstr
  match k with
  | 0 => (true, false, g.wadr + o + 4 * i)
  | 1 => (Cf.men c, Cf.mbf c, g.madr + o + (if Cf.mbf c then 2 else 4) * i)
  | _ => (Cf.ven c, Cf.vbf c, g.vadr + o + (if Cf.vbf c then 2 else 4) * i)

/-- A state value of the latched generation, widened to binary32, and its address when it is poisoned; one not used is 0 (R337,
R344). -/
def readState (s : State) (p h : Nat) (u bf : Bool) (a : Nat) : Option (State × Nat × Option Nat) :=
  if !u then some (s, 0, none)
  else (engRead s p h a (if bf then 2 else 4)).map (fun (s, bs, ps) =>
    (s, leNat bs * (if bf then 65536 else 1), ps.head?.map (fun k => (a / 32 + k) * 32)))
/-- A new state value (R337). -/
def writeState (s : State) (p h : Nat) (u bf : Bool) (a v : Nat) : State :=
  if !u then s
  else if bf then engWrite s p h .noalloc a (leBytes 2 (ffConvert fbf16 .rne false (f32 v)).1) []
  else engWrite s p h .noalloc a (leBytes 4 v) []

/-- w, m and v of the elements of a chunk, and the first poisoned address. -/
def readChunk (s : State) (p h : Nat) (j : QJob) (es : List Nat) : Option (State × List (List Nat) × Option Nat) :=
  es.foldl (fun o e => o.bind (fun (s, l, bad) => match elemAt j e with
    | none => some (s, l ++ [[0, 0, 0]], bad)
    | some (g, c, i) =>
      ([0, 1, 2].foldl (fun o k => o.bind (fun (s, vs, bad) =>
        let (u, bf, a) := stateOf g c j.g i k
        (readState s p h u bf a).map (fun (s, v, b) => (s, vs ++ [v], bad.orElse (fun _ => b))))) (some (s, [], bad))).map
          (fun (s, vs, bad) => (s, l ++ [vs], bad)))) (some (s, [], none))

/-- A full MX block of new weights is quantised and written (14, R337, R350; 02, R37). -/
def writeMx (s : State) (p h : Nat) (j : QJob) (g : Seg) (c : Coef) (i : Nat) : QJob × State :=
  let b := i / 32 * 32
  let vals := (List.range 32).map (fun k => look? j.mx (g.first + b + k))
  if vals.all Option.isSome then
    let f := Cf.wfmt c
    let (sc, es, _) := mxQuant f (List.replicate 32 .rne) (vals.map (fun v => f32 (v.getD 0)))
    let o := (1 - j.g) * g.gstr
    let s := engWrite s p h .alloc (g.oadr + o + eltBytes f b) (packElts (eltBits f) es) []
    let s := engWrite s p h .alloc (g.osadr + o + b / 32) (leBytes 1 sc) []
    ({ j with mx := j.mx.filter (fun e => decide (e.1 < g.first + b) || decide (g.first + b + 32 ≤ e.1)) }, s)
  else (j, s)

/-- What the elements of a chunk have come to so far: job, state, divisors substituted, results that are not finite, and the
first element with such a result. -/
structure QRun where
  job : QJob
  st : State
  dz : Nat := 0
  nf : Nat := 0
  first : Option Nat := none

/-- One element of a chunk, from its sum and its state (R337, R344). -/
def quenchOne (p h : Nat) (x96 : Bool) (px : Nat) (a : QRun) (e val : Nat) (old : List Nat) : QRun :=
  match elemAt a.job e with
  | none => a
  | some (g, c, i) =>
    let j := a.job
    let gr := if x96 then r32 (x96Num val (pOf px)) else val
    let (w1, m1, v1, z) := quenchElem c gr (old.getD 0 0) (old.getD 1 0) (old.getD 2 0)
    let s := ([w1, m1, v1].zipIdx).foldl (fun s v =>
      let (u, bf, adr) := stateOf g c (1 - j.g) i v.2
      writeState s p h u bf adr v.1) a.st
    let f := Cf.wfmt c
    let (j, s) := if isMx f then writeMx s p h { j with mx := put j.mx e w1 } g c i
      else match ffmtOf f with
        | some ff => (j, engWrite s p h .alloc (g.oadr + (1 - j.g) * g.gstr + eltBytes f i) (leBytes (eltBytes f 1) (ffConvert ff .rne true (f32 w1)).1) [])
        | none => (j, s)
    let bad := b2n (nonFinite w1) + b2n (Cf.men c && nonFinite m1) + b2n (Cf.ven c && nonFinite v1)
    { job := j, st := s, dz := a.dz + b2n z, nf := a.nf + bad, first := if 0 < bad then some (a.first.getD e) else a.first }

/-- A buffer is free again (14, R349). -/
def freeBuf (s : State) (p retired : Nat) : State :=
  modPort s p (fun x => { x with qbuf := bumpMod (setFld (setFld x.qbuf 7 0 (fld x.qbuf 7 0 + 1)) 15 8 (fld x.qbuf 15 8 - 1)) 63 32 retired })

def setJob (s : State) (p h : Nat) (j : QJob) : State := modPort s p (fun x => { x with jobs := vput x.jobs h (some j) })

/-- The unit holds on poison (09, R215; 15, R367): no refetch covers it, and the epoch is retracted. -/
def quenchHold (s : State) (p h a : Nat) : State :=
  let s := modPort s p (fun x => { x with qheld := some h })
  poisonLost s h none (portAgent p) a

/-- A chunk whose header says MIS is withheld (14, R348). -/
def quenchWithhold (s : State) (p h : Nat) (j : QJob) (c : QChunk) : State :=
  let n := c.vals.length
  let s := modNet s h (fun y => { y with qchStat1 := bumpSat y.qchStat1 63 32 n })
  let s := setJob s p h { j with withheld := j.withheld ++ [(c.first, n)], incomplete := true, lastFc := fc s
                                 why := if j.withheld.isEmpty then c.why else j.why }
  let s := modActive s p h (fun a => { a with incomplete := true })
  retractEpoch (raise s spCOL qWITHHELD 0 (some h) (portAgent p) c.first n) h 2

/-- The elements of a chunk have been computed and written (14, R339, R340, R347). -/
def quenchWritten (s : State) (p h : Nat) (j : QJob) (c : QChunk) (r : QRun) : State :=
  let stop := decide (0 < r.nf) && bit (hearthAt s h).net.qchCfg 1
  let s := modNet r.st h (fun y => { y with qchStat0 := bumpSat (bumpSat y.qchStat0 31 0 r.dz) 63 32 r.nf })
  let s := setJob s p h { r.job with written := r.job.written ++ [(c.first, c.vals.length)], div0 := r.job.div0 || decide (0 < r.dz)
                                     nonfin := r.job.nonfin || stop, incomplete := r.job.incomplete || stop, lastFc := fc s }
  let s := if 0 < r.dz ∧ !j.div0 then raise s spCOL qDIV0 0 (some h) (portAgent p) else s
  if stop then
    let s := modActive s p h (fun a => { a with incomplete := true })
    let e := r.first.getD c.first
    let g := (elemAt j e).elim 0 (fun x => x.1.group)
    let s := if j.nonfin then s else raise s spCOL qNONFIN g (some h) (portAgent p) e g
    retractEpoch s h 5
  else s

/-- QUENCH_CHUNK (14, R337, R348): the oldest chunk of a hearth in the unit's buffers. It stays there while a read of its
state waits. -/
def quenchChunk (s : State) (p h : Nat) : State :=
  let x := portAt s p
  match x.qchunks.find? (fun c => c.1 == h), vget x.jobs h none with
  | some (_, c), some j =>
    if x.qheld.isSome then s
    else
      let drop := fun (s : State) (r : Nat) => freeBuf (modPort s p (fun y => { y with qchunks := y.qchunks.erase (h, c) })) p r
      if c.mis then quenchWithhold (drop s 0) p h j c
      else if c.poison then
        let (k, s) := draw s
        quenchHold s p h (Config.noAddr k).toNat
      else
        let es := (List.range c.vals.length).map (· + c.first)
        match readChunk s p h j es with
        | none => s
        | some (s, _, some bad) => quenchHold s p h bad
        | some (s, olds, none) =>
          let s := drop s c.vals.length
          let r := ((es.zip c.vals).zip olds).foldl (fun a e => quenchOne p h c.x96 c.px a e.1.1 e.1.2 e.2) { job := j, st := s }
          quenchWritten s p h j c r
  | _, _ => s

/-! ### Generations (14, R345, R346) -/

/-- A quench job of the hearth is active. -/
def quenchActive (s : State) (h : Nat) : Bool :=
  (List.range 12).any (fun p => (portAt s p).qchunks.any (fun c => c.1 == h) || (match activeAt s p h with
    | some a => Col.opc a.desc == oRS && Col.qch a.desc
    | none => false))

/-- A write of `QCH_GEN` with `FLIP` = 1. -/
def flipGen (s : State) (h agent : Nat) : State :=
  if quenchActive s h then raise s spCOL qGENBUSY 0 (some h) agent
  else modNet s h (fun n => { n with qchGen := bumpMod (setFld n.qchGen 0 0 (1 - fld n.qchGen 0 0)) 63 32 1 })

/-- QUENCH_RETRACT (14, R346): the epoch of the port's job has been retracted. -/
def quenchRetract (s : State) (p h : Nat) : State :=
  match vget (portAt s p).jobs h none with
  | some j =>
    if (hearthAt s h).run.retracted.contains j.epoch then
      let s := quenchStop s p h
      match activeAt s p h with
      | some a => if Col.opc a.desc = oRS ∧ Col.qch a.desc ∧ a.dseq = j.dseq then dropActive s p h else s
      | none => s
    else s
  | none => s

/-! ### Commands -/

/-- QUENCH_CHUNK. -/
def execQuenchChunk (p : PortId) (h : HearthId) (s : State) : Out := .next (quenchChunk s p.val h.val)
/-- FLIP (14, R345). -/
def execFlip (a : Agent) (h : HearthId) (s : State) : Out :=
  .next (if mayHearth s a h.val then flipGen s h.val a.code else misuse s SYS_UNMAPPED a (hearthReg h.val 0x1008))
/-- QUENCH_RETRACT. -/
def execQuenchRetract (p : PortId) (h : HearthId) (s : State) : Out := .next (quenchRetract s p.val h.val)

end Sys2Proof.Machine
end

