-- ==== Sys2Proof/Machine/Anvil.lean ====
section
/-! DEFINITION. The anvil: MMT, LDP, BLD, BKT, the load and row pipes, the row checker and replay
(03; 15, R353 to R359). -/

namespace Sys2Proof.Machine

/-- Formats that may be anvil operands (03, R59), and their rate classes: 8 for Q8, 16 for H. -/
def opFmt (f : Nat) : Bool := decide (1 ≤ f) && decide (f ≤ 11)
def rateH (f : Nat) : Bool := f = BF16 || f = FP16
/-- Plane and row formats meet in one rate class (03, Table 03-1). -/
def classOk (p : PlaneInfo) (fa : Nat) : Bool :=
  if rateH p.fmt then rateH fa
  else if 512 < p.kp then fa = MXE2M1
  else !rateH fa

def bufAt (x : Tile) (b : Nat) : PlaneBuf := vget x.anv.buf b {}
def modBuf (s : State) (t b : Nat) (f : PlaneBuf → PlaneBuf) : State :=
  modTile s t (fun x => { x with anv := { x.anv with buf := vmod x.anv.buf b f } })
def boundAt (x : Tile) (r : Nat) : Nat := fld (vget x.anv.bound r 0) 19 0
def dynMode (x : Tile) : Nat := fld x.anv.cfg 3 2

/-- Tile of the local chain-out target, when it is local (04, Table 04-12). -/
def chainOutKind (x : Tile) : Nat := fld x.acc.chain 13 12
def chainInKind (x : Tile) : Nat := fld x.acc.chain 11 10
def chainOutTile (x : Tile) : Nat := fld x.acc.chain 23 19

/-- Free rows of a tile's chain-in buffer (04, R106), rows that the checker still holds counted as
occupied (15, R354). -/
def chainFree (s : State) (t : Nat) : Nat :=
  let x := tileAt s t
  let level := match tileHearth s t with | some h => chkLevel s h | none => 0
  let held := if level = 0 then 0 else (x.anv.array.filter (fun r => !r.init.isEmpty)).length
  64 - x.acc.fifo.length - x.acc.reserved - held

/-- M of an MMT, or the fault of its bound register (03, R86). -/
def mmtM (x : Tile) (w : Word128) : Nat := if Mmt.mb w = 1 then boundAt x (Mmt.mreg w) else Mmt.mm1 w + 1

/-- First failing check of an MMT at issue (03, R29, R44, R68, R77 to R86; 04, R90, R105, R107; 05, R123):
space, code, detail. A row format that is an operand format and cannot meet the plane's class is ANV_PLANE (log 54). -/
def mmtFault (s : State) (t : Nat) (w : Word128) : Option (Nat × Nat × Nat) :=
  let x := tileAt s t
  let m := mmtM x w
  let usesSlot := Mmt.init w = 1 || Mmt.dest w = 0
  if fmtRsvd (Mmt.fa w) then some (spANV, 0x0B, 0)
  else if Mmt.init w = 3 then some (spANV, 0x0E, 112)
  else if 2 ≤ Mmt.dest w then some (spANV, 0x0E, 110)
  else if Mmt.af w = 1 ∧ 96 < Mmt.px w then some (spANV, 0x0C, 0)
  else if Mmt.mb w = 1 ∧ dynMode x ≠ 1 then some (spANV, 5, dynMode x)
  else if Mmt.mb w = 1 ∧ (m = 0 ∨ 512 < m) then some (spANV, 3, Mmt.mreg w)
  else if !opFmt (Mmt.fa w) then some (spANV, 1, 0)
  else match (bufAt x (Mmt.pb w)).issued with
    | none => some (spANV, 6, Mmt.pb w)
    | some p =>
      if !classOk p (Mmt.fa w) then some (spANV, 6, Mmt.pb w)
      else if usesSlot ∧ (geomN x ≤ Mmt.slot w ∨ geomSR x < m ∨ geomSC x < p.np ∨ Mmt.af w ≠ geomFmt x) then
        some (spANV, 0x0A, Mmt.slot w)
      else if Mmt.af w = 1 ∧ Mmt.init w = 1 ∧ vget x.acc.trackPX (Mmt.slot w) 64 ≠ Mmt.px w then
        some (spANV, 0x0D, 1)
      else if Mmt.src w = 0 ∧ !inScratch s t (32 * (Mmt.aadr w + (m - 1) * Mmt.astr w)) (eltBytes (Mmt.fa w) p.kp) then
        some (spANV, 7, 0)
      else if Mmt.src w = 0 ∧ isMx (Mmt.fa w) ∧
          !inScratch s t (32 * Mmt.sadr w + (m - 1) * Mmt.sstr w) (p.kp / 32) then some (spANV, 7, 1)
      else if Mmt.dest w = 1 ∧ chainOutKind x ≠ 1 then some (spACC, 4, 1)
      else if Mmt.init w = 2 ∧ chainInKind x = 0 then some (spACC, 4, 0)
      else if Mmt.src w = 1 then (winMmtFault x w m p).map (fun f => (spWIN, f.1, f.2))
      else none

/-- The sequence number of a segment is one above that of the previous one from its source; the first after an ACHN
may also be 1, with which a sender that has made its own ACHN begins (04, R105, Table 04-4; log 18). -/
def seqFits (x : Tile) (c : ChainRow) : Bool := c.seq == x.acc.seqIn + 1 || (x.acc.seqNew && c.seq == 1)

/-- Checks against the header of the segment at the head of the chain-in buffer (04, R105). -/
def segFault (x : Tile) (w : Word128) (np : Nat) (c : ChainRow) : Option (Nat × Nat × Nat) :=
  if c.fmt ≠ (if Mmt.af w = 1 then X96 else FP32) then some (spACC, 4, 4)
  else if c.m ≠ mmtM x w ∨ c.np ≠ np then some (spACC, 4, 5)
  else if !seqFits x c then some (spACC, 4, 6)
  else if Mmt.af w = 1 ∧ c.px ≠ Mmt.px w then some (spANV, 0x0D, 2)
  else none

/-- Queue an MMT that has passed its checks. -/
def acceptMmt (s : State) (t : Nat) (w : Word128) (p : PlaneInfo) : State :=
  let x := tileAt s t
  let m := mmtM x w
  let out := Mmt.dest w = 1
  let s := pushAnv s t (.mmt { w := w, m := m, plane := p, win := (x.win.oy, x.win.ox, x.win.ch), seqOut := x.acc.seqOut + 1 })
  modTile s t (fun x =>
    let x := if Mmt.src w = 1 then winAdvance x m else x
    { x with acc := { x.acc with
        seqOut := if out then x.acc.seqOut + 1 else x.acc.seqOut
        seqIn := if Mmt.init w = 2 then (x.acc.fifo.head?.map (·.seq)).getD x.acc.seqIn else x.acc.seqIn
        seqNew := x.acc.seqNew && decide (Mmt.init w ≠ 2)
        headFc := none
        trackPX := if Mmt.af w = 1 ∧ Mmt.init w = 0 ∧ Mmt.dest w = 0 then vput x.acc.trackPX (Mmt.slot w) (Mmt.px w)
          else x.acc.trackPX } })

/-- A queued or running MMT still consumes the segment at the head of the chain-in buffer. -/
def headTaken (x : Tile) : Bool :=
  (anvJobs x).any (fun j => match j.op with
    | .mmt k => decide (Mmt.init k.w = 2) && decide (k.entered < k.m)
    | _ => false)

/-- The chain-in buffer holds the header of the segment that the next chain-in MMT consumes. -/
def headReady (x : Tile) : Bool := !headTaken x && !x.acc.fifo.isEmpty

/-- The stream holds at a chain-in MMT; the wait for the header is bounded (04, R105, R108). -/
def holdHead (s : State) (t : Nat) : State :=
  modTile s t (fun x => { x with acc := { x.acc with
    headFc := if x.acc.fifo.isEmpty && !headTaken x then some (x.acc.headFc.getD (fc s)) else none } })

/-- MMT at issue (03, R75, R76, R78; 04, R105). A chain-in MMT of a tile with a chain-in source completes its issue, its
checks included, once the header of its segment is at the head. Another word is checked before it waits for an entry of
the queue (log 54). -/
def issueMmt (t : Nat) (w : Word128) (s : State) : Issue :=
  let x := tileAt s t
  if Mmt.init w = 2 ∧ chainInKind x ≠ 0 ∧ (anvFull x ∨ !headReady x) then .hold (holdHead s t)
  else match mmtFault s t w, (bufAt x (Mmt.pb w)).issued with
  | some (sp, c, d), _ => .fault sp c d
  | none, none => .fault spANV 6 (Mmt.pb w)
  | none, some p =>
    if anvFull x then .hold s
    else if Mmt.init w = 2 then
      match x.acc.fifo with
      | c :: _ => match segFault x w p.np c with
        | some (sp, cd, d) => .fault sp cd d
        | none => .done (acceptMmt s t w p)
      | [] => .hold s
    else .done (acceptMmt s t w p)

/-- KP and NP of an LDP. -/
def ldpK (x : Tile) (w : Word128) : Nat := if Ldp.kb w = 1 then boundAt x (Ldp.kreg w) else 32 * (Ldp.kbm1 w + 1)
def ldpN (x : Tile) (w : Word128) : Nat := if Ldp.nb w = 1 then boundAt x (Ldp.nreg w) else Ldp.nm1 w + 1
def kMax (f : Nat) : Nat := if f = MXE2M1 then 1024 else 512

/-- First failing check of an LDP at issue (03, R59, R63, R69, R70, R81, R82, R85, R86), in the order of log 54. -/
def ldpFault (s : State) (t : Nat) (w : Word128) : Option (Nat × Nat × Nat) :=
  let x := tileAt s t
  let f := Ldp.fb w
  let kp := ldpK x w
  let np := ldpN x w
  let rows := if Ldp.t w = 1 then np else kp
  let len := eltBytes f (if Ldp.t w = 1 then kp else np)
  if fmtRsvd f then some (spANV, 0x0B, 1)
  else if (Ldp.kb w = 1 ∨ Ldp.nb w = 1) ∧ dynMode x ≠ 1 then some (spANV, 5, dynMode x)
  else if bit x.anv.cfg 1 ∧ Ldp.ck w = 0 then some (spANV, 8, 0)
  else if !opFmt f ∨ (isMx f ∧ Ldp.t w = 0) then some (spANV, 1, 1)
  else if Ldp.kb w = 1 ∧ (kp = 0 ∨ kp % 32 ≠ 0 ∨ kMax f < kp) then some (spANV, 3, Ldp.kreg w)
  else if Ldp.nb w = 1 ∧ (np = 0 ∨ 512 - Ldp.ck w < np) then some (spANV, 3, Ldp.nreg w)
  else if kMax f < kp then some (spANV, 2, 0)
  else if Ldp.ck w = 1 ∧ np = 512 then some (spANV, 2, 1)
  else if !inScratch s t (32 * (Ldp.badr w + (rows - 1) * Ldp.bstr w)) len then some (spANV, 7, 2)
  else if isMx f ∧ !inScratch s t (32 * Ldp.bsadr w + (np - 1) * Ldp.bsstr w) (kp / 32) then some (spANV, 7, 1)
  else none

/-- LDP at issue (03, R68, R75, R76). -/
def issueLdp (t : Nat) (w : Word128) (s : State) : Issue :=
  let x := tileAt s t
  match ldpFault s t w with
  | some (sp, c, d) => .fault sp c d
  | none =>
    if anvFull x then .hold s
    else
      let info : PlaneInfo := { fmt := Ldp.fb w, kp := ldpK x w, np := ldpN x w, ck := decide (Ldp.ck w = 1) }
      let s := pushAnv s t (.ldp { w := w, info := info })
      .done (modBuf s t (Ldp.pb w) (fun b => { b with issued := some info }))

/-- BLD (03, R83). `DETAIL` of a range beyond register 15 is FIRST, and words in a poisoned sector are loaded as they
stand, since no pipe reads them (log 54). -/
def issueBld (t : Nat) (w : Word128) (s : State) : Issue :=
  let n := Bld.cntm1 w + 1
  let off := 32 * Bld.addr w
  if 15 < Bld.first w + Bld.cntm1 w then .fault spANV 3 (Bld.first w)
  else if !inScratch s t off (4 * n) then .fault spANV 7 3
  else .done (modTile (scrSee s t off (4 * n)) t (fun x => { x with anv := { x.anv with
    bound := forEach (List.range n) x.anv.bound (fun i v =>
      vput v (Bld.first w + i) (BitVec.ofNat 64 (leNat (scrRead s t (off + 4 * i) 4) % 2 ^ 20))) } }))

/-- BKT (03, R84 to R86). -/
def issueBkt (t : Nat) (w : Word128) (s : State) : Issue :=
  let x := tileAt s t
  let v := boundAt x (Bkt.breg w)
  if dynMode x ≠ 2 then .fault spANV 5 (dynMode x)
  else if v = 0 then .fault spANV 3 (Bkt.breg w)
  else if 63 < Bkt.tbase w + Bkt.tcntm1 w then .fault spANV 4 (Bkt.breg w)
  else match ((List.range (Bkt.tcntm1 w + 1)).map (fun i => vget x.anv.bkt (Bkt.tbase w + i) 0)).find?
      (fun e => decide (v ≤ fld e 19 0)) with
    | none => .fault spANV 4 (Bkt.breg w)
    | some e => .goto s (twos 32 ((csWord s t : Int) + sgn 32 (fld e 63 32)))

/-! ### The load pipe -/

/-- An MMT on buffer b, issued before seq, that has rows to enter; at check levels 1 and 2, rows to be
compared (03, R65; 15, R355). -/
def bufReads (x : Tile) (b seq level : Nat) : Bool :=
  (anvJobs x).any (fun j => match j.op with
    | .mmt k => decide (Mmt.pb k.w = b) && decide (j.seq < seq) &&
        (if level = 0 then decide (k.entered < k.m) else decide (k.written < k.m))
    | _ => false)

def tileLevel (s : State) (t : Nat) : Nat :=
  match tileHearth s t with
  | some h => chkLevel s h
  | none => 0

/-- LDP_LOAD_START (03, R65). -/
def loadStart (s : State) (t : Nat) : State :=
  let x := tileAt s t
  match x.anv.loadPipe, x.anv.queue.find? isLdp with
  | none, some j => match j.op with
    | .ldp k =>
      if tileRuns s t && tileRole s t ≠ 2 && !bufReads x (Ldp.pb k.w) j.seq (tileLevel s t) then
        let s := modTile s t (fun x => { x with anv := { x.anv with
          queue := x.anv.queue.filter (fun q => q.seq != j.seq), loadPipe := some j } })
        modBuf s t (Ldp.pb k.w) (fun b => { b with loading := true, ready := false })
      else s
    | _ => s
  | _, _ => s

/-- Source rows of an LDP: byte offset and length of each, and of each scale row. -/
def ldpRows (k : LdpJob) : List (Nat × Nat) :=
  let i := k.info
  let n := if Ldp.t k.w = 1 then i.np else i.kp
  let len := eltBytes i.fmt (if Ldp.t k.w = 1 then i.kp else i.np)
  (List.range n).map (fun r => (32 * (Ldp.badr k.w + r * Ldp.bstr k.w), len))
def ldpScales (k : LdpJob) : List (Nat × Nat) :=
  if isMx k.info.fmt then (List.range k.info.np).map (fun r => (32 * Ldp.bsadr k.w + r * Ldp.bsstr k.w, k.info.kp / 32))
  else []

/-- First poisoned sector of a list of scratch ranges. -/
def rangesPoison (s : State) (t : Nat) (l : List (Nat × Nat)) : Option Nat :=
  l.findSome? (fun r => scrPoison s t r.1 r.2)

/-- Ranges of scratch are read (09, R197). -/
def seeRanges (s : State) (t : Nat) (l : List (Nat × Nat)) : State := l.foldl (fun s r => scrSee s t r.1 r.2) s

/-- BUFFER_READY (03, R63, R64, R66): the load has written its last row or column. -/
def bufferReady (s : State) (t : Nat) : State :=
  let x := tileAt s t
  match x.anv.loadPipe with
  | some j => match j.op with
    | .ldp k =>
      if tileRuns s t && !pipeHeld x 1 then
        let s := seeRanges s t (ldpRows k ++ ldpScales k)
        match rangesPoison s t (ldpRows k ++ ldpScales k) with
        | some a => poisonHold s t 1 a
        | none =>
          let bits := eltBits k.info.fmt
          let n := if Ldp.t k.w = 1 then k.info.kp else k.info.np
          let rows := (ldpRows k).map (fun r => unpack bits n (scrRead s t r.1 r.2))
          let cols := if Ldp.t k.w = 1 then rows
            else (List.range k.info.np).map (fun c => rows.map (fun r => r.getD c 0))
          let scales := if isMx k.info.fmt then
              (ldpScales k).map (fun r => (scrRead s t r.1 r.2).map (·.toNat))
            else (List.range k.info.np).map (fun _ => List.replicate (k.info.kp / 32) 127)
          let s := modTile s t (fun x => { x with anv := { x.anv with loadPipe := none } })
          modBuf s t (Ldp.pb k.w) (fun b => { b with loading := false, ready := true, cols := cols, scales := scales })
      else s
    | _ => s
  | none => s

/-! ### Rows -/

/-- Elements of list l in blocks of 32. -/
def blocks32 (l : List Nat) (nb : Nat) : List (List Nat) := (List.range nb).map (fun b => (l.drop (32 * b)).take 32)

/-- Terms of every block of every column for an input row, and the flags they set (03, R60, R62). -/
def rowTerms (fa : Nat) (p : PlaneInfo) (b : PlaneBuf) (es sa : List Nat) : List (List Num) × Nat :=
  let nb := p.kp / 32
  let ab := blocks32 es nb
  let r := (List.range p.np).map (fun n =>
    let wb := blocks32 (b.cols.getD n []) nb
    let sb := b.scales.getD n []
    (List.range nb).map (fun i => blockTerm fa p.fmt (ab.getD i []) (wb.getD i []) (sa.getD i 127) (sb.getD i 127)))
  (r.map (fun c => c.map (·.1)), r.foldl (fun f c => c.foldl (fun f t => f ||| t.2) f) 0)

/-- One output: its code, every running sum, ANV_FLAG bits and X96 status (03, R61, R62; 02, R39). -/
def colSum (af : Nat) (p : Int) (init : Nat) (ts : List Num) : Nat × List Nat × Nat × Nat :=
  if af = 1 then
    let r := ts.foldl (fun (a : Nat × Nat) t => let q := x96Term p t; (x96Add a.1 q.1, a.2 ||| q.2)) (init, 0)
    (r.1, [], 0, r.2)
  else
    let r := ts.foldl (fun (a : Nat × List Nat × Nat) t => let q := sumStep a.1 t; (q.1, a.2.1 ++ [q.1], a.2.2 ||| q.2))
      (init, [], 0)
    (r.1, r.2.1, r.2.2, 0)

/-- The result of a row: outputs, running sums, flags, status. -/
structure RowOut where
  outs : List Nat
  sums : List (List Nat)
  flags : Nat
  status : Nat
deriving DecidableEq, Repr

/-- Initial values of a row: zero, slot content or chain-in (03, R61). -/
def rowInit (s : State) (t : Nat) (k : MmtJob) (r : ArrayRow) : List Nat :=
  match Mmt.init k.w with
  | 1 => slotRow s t (Mmt.slot k.w) r.row k.plane.np
  | 2 => r.init
  | _ => List.replicate k.plane.np 0

def rowResult (s : State) (t : Nat) (k : MmtJob) (r : ArrayRow) : RowOut :=
  let cs := ((rowInit s t k r).zip r.terms).map (fun c => colSum (Mmt.af k.w) (pOf (Mmt.px k.w)) c.1 c.2)
  { outs := cs.map (·.1), sums := cs.map (·.2.1)
    flags := cs.foldl (fun f c => f ||| c.2.2.1) r.flags
    status := cs.foldl (fun f c => f ||| c.2.2.2) 0 }

/-- Outputs with the bits that a hardware fault inverts (15, R353; the empty list inverts none). -/
def corrupt (outs : List Nat) (err : RowError) : List Nat :=
  err.foldl (fun o e => lmod o e.1 (fun v => v ^^^ e.2)) outs

/-- Any term, running sum or output is NaN or infinite: the row is not compared (15, R353). -/
def rowSkipped (k : MmtJob) (r : ArrayRow) (o : RowOut) (outs : List Nat) : Bool :=
  r.terms.any (fun c => c.any (fun x => !x.isFin)) ||
  (Mmt.af k.w = 0 && (o.sums.any (fun c => c.any (fun v => !(ffDecode ffp32 v).isFin)) ||
    outs.any (fun v => !(ffDecode ffp32 v).isFin)))

/-- floor(log2 |v|), at least -126, of the largest of a column's values; none when all are zero. -/
def colExp (vs : List Nat) : Option Int :=
  let m := maxMag (vs.map (ffDecode ffp32))
  if m.1 = 0 then none else some (max (-126) ((flog2 m.1 : Int) + m.2))

/-- The comparison of the checksum column (15, R353). -/
def rowPasses (k : MmtJob) (r : ArrayRow) (init : List Nat) (o : RowOut) (outs : List Nat) (err : RowError) : Bool :=
  if err.any (fun e => decide (e.1 = 511) && decide (e.2 ≠ 0)) then false
  else if Mmt.af k.w = 1 then
    decide (((o.outs.zip outs).foldl (fun (a : Int) p => a + (sgn 96 p.2 - sgn 96 p.1)) 0) = 0)
  else
    let sum := fun (l : List Nat) => l.foldl (fun (a : Dy) v => a.add (ffDecode ffp32 v).dy) Dy.zero
    let c := r.terms.foldl (fun (a : Dy) ts => ts.foldl (fun a t => a.add t.dy) a) (sum init)
    let d := ((sum outs).add c.neg).abs
    let cols := (init.zip (o.sums.zip outs)).map (fun p => p.1 :: (p.2.1.dropLast ++ [p.2.2]))
    let bound := cols.foldl (fun (a : Dy) vs => match colExp vs with
      | some e => a.add ⟨1, e - 24⟩
      | none => a) Dy.zero
    d.le (bound.mul ⟨(k.plane.kp / 32 : Nat), 0⟩)

/-- Update the MMT of a row. -/
def modMmt (s : State) (t seq : Nat) (f : MmtJob → MmtJob) : State :=
  let g := fun (j : AnvJob) => if j.seq = seq then
      match j.op with
      | .mmt k => { j with op := .mmt (f k) }
      | _ => j
    else j
  modTile s t (fun x => { x with anv := { x.anv with rowPipe := x.anv.rowPipe.map g, queue := x.anv.queue.map g } })

/-- MMTs whose every row is written leave the row pipe. -/
def retireMmt (s : State) (t : Nat) : State :=
  modTile s t (fun x => { x with anv := { x.anv with rowPipe := x.anv.rowPipe.filter (fun j => match j.op with
    | .mmt k => decide (k.written < k.m)
    | _ => true) } })

/-- An output row is written to its slot or leaves the chain-out port (03, R71, R80; 04, R91, R104). -/
def commitRow (s : State) (t seq : Nat) (k : MmtJob) (r : ArrayRow) (outs : List Nat) (flags status : Nat) : State :=
  let s := raiseFlags s t flags
  let st := k.status ||| status
  let last := decide (k.written + 1 = k.m)
  let s := if Mmt.dest k.w = 0 then
      let s := putSlotRow s t (Mmt.slot k.w) r.row outs
      orStatus s t (Mmt.slot k.w) (if last then st else status)
    else
      let x := tileAt s t
      let tr := if Mmt.init k.w = 1 then st ||| fld (sstAt x (Mmt.slot k.w)) 4 0 else st
      let row : ChainRow := { fmt := if Mmt.af k.w = 1 then X96 else FP32, px := Mmt.px k.w, m := k.m, np := k.plane.np,
                              seq := k.seqOut, row := r.row, vals := outs, status := if last then tr else 0, remote := false }
      modTile s (chainOutTile x) (fun y => { y with acc := { y.acc with arriving := y.acc.arriving ++ [row] } })
  retireMmt (modMmt s t seq (fun k => { k with written := k.written + 1, status := st })) t

/-- The MMT of an array row. -/
def mmtOf (x : Tile) (seq : Nat) : Option MmtJob :=
  x.anv.rowPipe.findSome? (fun j => if j.seq = seq then (match j.op with | .mmt k => some k | _ => none) else none)

/-- Index of the instruction word of a job. -/
def idxOf (x : Tile) (seq : Nat) : Nat := ((anvJobs x).find? (fun j => j.seq == seq)).elim 0 (·.idx)

/-- Count in CHK_TSTAT: high bit and low bit of the field. -/
def tstat (s : State) (t hi lo : Nat) : State :=
  modTile s t (fun x => { x with misc := { x.misc with chkTstat := bumpSat x.misc.chkTstat hi lo 1 } })

/-- MMT_ROW_WRITE (03, R71; 15, R353, R354, R358): the oldest row in the array leaves it. `err` and
`shadowErr` are the bits that hardware faults invert in the tile's and its shadow's outputs. -/
def rowWrite (s : State) (t : Nat) (err shadowErr : RowError) : State :=
  let x := tileAt s t
  match x.anv.array, x.anv.replay with
  | r :: rest, none => match mmtOf x r.seq with
    | none => s
    | some k =>
      let h := tileHearth s t
      let level := tileLevel s t
      let o := rowResult s t k r
      let init := rowInit s t k r
      let outs := corrupt o.outs err
      let outsS := corrupt o.outs shadowErr
      let pair := decide (tileRole s t = 1)
      let skip := k.plane.ck && rowSkipped k r o outs
      let s := if skip then tstat s t 31 16 else s
      let badSum := k.plane.ck && !skip && !rowPasses k r init o outs err
      let badSumS := pair && k.plane.ck && !rowSkipped k r o outsS && !rowPasses k r init o outsS shadowErr
      let badPair := pair && decide (outs ≠ outsS)
      let code := if pair then 2 else 1
      let det := if pair then 0 else Mmt.slot k.w
      let word := idxOf x r.seq
      let s := if badSum || badSumS then tstat s t 63 48 else s
      let s := if badPair then tstat s t 15 0 else s
      if (badSum || badSumS || badPair) && decide (1 ≤ level) then
        let s := raise s spCHK code det h (0x100000 + t) 0 word
        let s := modTile s t (fun x => { x with anv := { x.anv with
          array := [], replay := some { row := r, first := outs, firstShadow := outsS, entered := false, later := rest } } })
        match h with
        | some h => breach s h cREPLAY (some t) (0x100000 + t)
        | none => s
      else
        let s := if badSum then raiseWith s 4 0 spCHK 1 (Mmt.slot k.w) h (0x100000 + t) 0 word 0 else s
        let s := modTile s t (fun x => { x with anv := { x.anv with array := rest } })
        commitRow s t r.seq k r outs o.flags o.status
  | _, _ => s

/-- REPLAY_ROW (15, R358): in the first cc after the hearth is HELD the failed row re-enters. -/
def replayRow (s : State) (t : Nat) : State :=
  match (tileAt s t).anv.replay, tileHearth s t with
  | some p, some h =>
    if holdState s h = 2 && !p.entered then
      modTile s t (fun x => { x with anv := { x.anv with replay := some { p with entered := true } } })
    else s
  | _, _ => s

/-- REPLAY_END (15, R359, Table 15-2). -/
def replayEnd (s : State) (t : Nat) (err shadowErr : RowError) : State :=
  let x := tileAt s t
  match x.anv.replay, tileHearth s t with
  | some p, some h => match mmtOf x p.row.seq with
    | none => s
    | some k =>
      if !p.entered then s
      else
        let o := rowResult s t k p.row
        let init := rowInit s t k p.row
        let outs := corrupt o.outs err
        let outsS := corrupt o.outs shadowErr
        let applies := fun (v : List Nat) => k.plane.ck && !rowSkipped k p.row o v
        let pass := !applies outs || rowPasses k p.row init o outs err
        let passS := !applies outsS || rowPasses k p.row init o outsS shadowErr
        let word := idxOf x p.row.seq
        let pair := decide (tileRole s t = 1)
        let same := decide (outs = p.first)
        let sameS := decide (outsS = p.firstShadow)
        let resolved := if pair then decide (outs = outsS) && pass && passS && (same || sameS) else pass
        let code := if pair then 3 else if same then 5 else 3
        let s := modTile s t (fun x => { x with anv := { x.anv with replay := none } })
        let s := endCause s h cREPLAY
        if resolved then
          let who := if pair && same then partner s t else t
          let s := raise s spCHK code 0 (some h) (0x100000 + who) 0 word
          let s := tstat s t 47 32
          let s := modTile s t (fun x => { x with anv := { x.anv with reenter := p.later } })
          commitRow s t p.row.seq k p.row outs o.flags o.status
        else
          let d := if same then 0 else 1
          let s := raise s spCHK 4 d (some h) (0x100000 + t) 0 word
          let s := if pair then raise s spCHK 4 (if sameS then 0 else 1) (some h) (0x100000 + partner s t) 0 word else s
          let s := setFault s t spCHK (faultWord word 0 4 d)
          let s := stopStream s t
          let s := modTile s t (fun x => { x with anv := { x.anv with
            rowPipe := x.anv.rowPipe.filter (fun j => j.seq != p.row.seq)
            reenter := p.later.filter (fun r => r.seq != p.row.seq) } })
          retractEpoch s h 1
  | _, _ => s

/-- The MMT that enters its next row: one partway through, or the first in the queue (03, R73, R75). -/
def nextMmt (x : Tile) : Option (AnvJob × MmtJob) :=
  (x.anv.rowPipe ++ x.anv.queue).findSome? (fun j => match j.op with
    | .mmt k => if k.entered < k.m then some (j, k) else none
    | _ => none)

/-- An LDP into buffer b issued before seq has not finished (03, R66). -/
def loadPending (x : Tile) (b seq : Nat) : Bool :=
  (anvJobs x).any (fun j => match j.op with
    | .ldp k => decide (Ldp.pb k.w = b) && decide (j.seq < seq)
    | _ => false)

/-- An MMT ends with the rows it has entered. -/
def truncateMmt (s : State) (t seq : Nat) : State :=
  let s := modMmt s t seq (fun k => { k with m := k.entered })
  retireMmt (modTile s t (fun x => { x with anv := { x.anv with queue := x.anv.queue.filter (fun j => match j.op with
    | .mmt k => decide (k.entered < k.m)
    | _ => true) } })) t

/-- The chain wait of an MMT begins. -/
def startWait (s : State) (t seq : Nat) : State :=
  modMmt s t seq (fun k => { k with waitFc := some (k.waitFc.getD (fc s)) })

/-- The first row that needs a line whose ZRC row overruns its stride is due: the stream stops, the rows that have
entered complete (05, R122). -/
def zrcStop (s : State) (t seq : Nat) (k : MmtJob) (c n : Word128) (l : WinLine) : State :=
  truncateMmt (tileFault s t spWIN 9 ((winIy c n l.oy l.ty).getD 0 % 256) (idxOf (tileAt s t) seq) k.entered) t seq

/-- What keeps a row from entering beyond the buffers and slots: nothing, or the state after the hold. -/
inductive RowGate where
  | go (elems scales : List Nat)
  | stay (s : State)

/-- Scratch that the next row of an MMT from scratch reads: its elements and scales (03, R78). -/
def rowRanges (k : MmtJob) : List (Nat × Nat) :=
  let f := Mmt.fa k.w
  let kp := k.plane.kp
  (32 * (Mmt.aadr k.w + k.entered * Mmt.astr k.w), eltBytes f kp) ::
    (if isMx f then [(32 * Mmt.sadr k.w + k.entered * Mmt.sstr k.w, kp / 32)] else [])

/-- Operands of a row from scratch or the window unit, with the holds of R121 and R215 (03, R78; 05). -/
def rowOperands (s : State) (t seq : Nat) (k : MmtJob) : RowGate :=
  let x := tileAt s t
  let kp := k.plane.kp
  if Mmt.src k.w = 1 then
    match x.win.wcf, x.win.win with
    | some c, some n =>
      let wd := winWidth c n
      let p := k.win.1 * wd + k.win.2.1 + k.entered
      let oy := p / max 1 wd
      let need := (winNeeds c n oy).map (fun ty => winLine x oy ty)
      if need.any (fun l => l.isNone) then
        if x.win.late then .stay s
        else
          let s := modTile s t (fun x => { x with win := { x.win with late := true } })
          match tileHearth s t with
          | some h => .stay (breach s h cLINE (some t) (0x100000 + t))
          | none => .stay s
      else match need.findSome? (fun l => l.bind (fun l => if l.overrun then some l else none)) with
      | some l => .stay (zrcStop s t seq k c n l)
      | none =>
        match need.findSome? (fun l => l.bind (·.poison)) with
        | some a => .stay (poisonHold s t 0 a)
        | none => .go (winRow x c n oy (p % max 1 wd) k.win.2.2 kp) (List.replicate (kp / 32) 127)
    | _, _ => .stay s
  else
    let f := Mmt.fa k.w
    let off := 32 * (Mmt.aadr k.w + k.entered * Mmt.astr k.w)
    let so := 32 * Mmt.sadr k.w + k.entered * Mmt.sstr k.w
    match rangesPoison s t (rowRanges k) with
    | some a => .stay (poisonHold s t 0 a)
    | none =>
      .go (unpack (eltBits f) kp (scrRead s t off (eltBytes f kp)))
        (if isMx f then (scrRead s t so (kp / 32)).map (·.toNat) else List.replicate (kp / 32) 127)

/-- Reservation of a row at the local chain-out target (04, R106), or the breach of its absence. -/
def reserveOut (s : State) (t seq : Nat) (k : MmtJob) : Option State × State :=
  if Mmt.dest k.w ≠ 1 then (some s, s)
  else
    let o := chainOutTile (tileAt s t)
    if 0 < chainFree s o then
      (some (modTile s o (fun y => { y with acc := { y.acc with reserved := y.acc.reserved + 1 } })), s)
    else
      let s := startWait s t seq
      if (tileAt s t).acc.late then (none, s)
      else
        let s := modTile s t (fun x => { x with acc := { x.acc with late := true } })
        match tileHearth s t with
        | some h => (none, breach s h cCHAIN (some t) (0x100000 + t))
        | none => (none, s)

/-- A row enters the array (03, R57, R73): the job moves to the row pipe, its chain row is consumed, and
with the first row of a zero-initialised slot the slot takes its P and a clear status (04, R93). -/
def enterRow (s : State) (t : Nat) (j : AnvJob) (k : MmtJob) (es sa : List Nat) : State :=
  let x := tileAt s t
  let chain := if Mmt.init k.w = 2 then x.acc.fifo.head? else none
  let (ts, fl) := rowTerms (Mmt.fa k.w) k.plane (bufAt x (Mmt.pb k.w)) es sa
  let row : ArrayRow := { seq := j.seq, row := k.entered, terms := ts, flags := fl, init := (chain.map (·.vals)).getD [] }
  let first := decide (k.entered = 0)
  let lastIn := decide (k.entered + 1 = k.m)
  let k' := { k with entered := k.entered + 1, waitFc := none, status := k.status ||| (chain.map (·.status)).getD 0 }
  let j' : AnvJob := { j with op := .mmt k' }
  let s := modTile s t (fun x => { x with
    anv := { x.anv with
      rowPipe := if first then x.anv.rowPipe ++ [j'] else x.anv.rowPipe.map (fun q => if q.seq = j.seq then j' else q)
      queue := if first then x.anv.queue.filter (fun q => q.seq != j.seq) else x.anv.queue
      array := x.anv.array ++ [row] }
    acc := if chain.isSome then { x.acc with
        fifo := x.acc.fifo.tail, segIn := if lastIn then (x.acc.segIn + 1) % 2 ^ 32 else x.acc.segIn } else x.acc })
  if first ∧ Mmt.init k.w = 0 ∧ Mmt.dest k.w = 0 then
    modSst s t (Mmt.slot k.w) (fun r => setFld (if Mmt.af k.w = 1 then setFld r 14 8 (Mmt.px k.w) else r) 4 0 0)
  else s

/-- MMT_ROW_ENTER (03, R73). -/
def rowEnter (s : State) (t : Nat) : State :=
  let x := tileAt s t
  if !tileRuns s t || tileRole s t = 2 || x.anv.replay.isSome || pipeHeld x 0 then s
  else match x.anv.reenter with
    | r :: rest => modTile s t (fun x => { x with anv := { x.anv with array := x.anv.array ++ [r], reenter := rest } })
    | [] => match nextMmt x with
      | none => s
      | some (j, k) =>
        let b := bufAt x (Mmt.pb k.w)
        if !b.ready || loadPending x (Mmt.pb k.w) j.seq then s
        else if (jobSlots j).any (fun sl => slotBusyForMmt x j.seq sl) then s
        else if Mmt.init k.w = 2 ∧ x.acc.fifo.isEmpty then startWait s t j.seq
        else if Mmt.init k.w = 2 ∧ (x.acc.fifo.head?.map (·.poison)).getD false then poisonHold (draw s).2 t 0 (Config.noAddr (draw s).1).toNat
        else match (if Mmt.init k.w = 1 then slotPoison s t (Mmt.slot k.w) k.entered k.plane.np else none) with
          | some a => poisonHold s t 0 a
          | none =>
            let s := if Mmt.src k.w = 1 then s else seeRanges s t (rowRanges k)
            match rowOperands s t j.seq k with
            | .stay s => s
            | .go es sa => match reserveOut s t j.seq k with
              | (none, s) => s
              | (some s, _) => enterRow s t j k es sa

/-! ### Commands -/

/-- MMT. -/
def execMmt (t : TileId) (w : Word128) (s : State) : Out := issueCmd 0x10 t.val w (issueMmt t.val w) s
/-- LDP. -/
def execLdp (t : TileId) (w : Word128) (s : State) : Out := issueCmd 0x11 t.val w (issueLdp t.val w) s
/-- BLD. -/
def execBld (t : TileId) (w : Word128) (s : State) : Out := issueCmd 0x12 t.val w (issueBld t.val w) s
/-- BKT. -/
def execBkt (t : TileId) (w : Word128) (s : State) : Out := issueCmd 0x13 t.val w (issueBkt t.val w) s
/-- LDP_LOAD_START. -/
def execLdpLoadStart (t : TileId) (s : State) : Out := .next (loadStart s t.val)
/-- BUFFER_READY. -/
def execBufferReady (t : TileId) (s : State) : Out := .next (bufferReady s t.val)
/-- MMT_ROW_ENTER. -/
def execMmtRowEnter (t : TileId) (s : State) : Out := .next (rowEnter s t.val)
/-- MMT_ROW_WRITE. -/
def execMmtRowWrite (t : TileId) (err shadowErr : RowError) (s : State) : Out := .next (rowWrite s t.val err shadowErr)
/-- CHAIN_SEGMENT_HEAD (04, R105): the MMT that waits for its segment's header issues. -/
def execChainSegmentHead (t : TileId) (s : State) : Out :=
  .next (match (tileAt s t.val).blw.pend with
    | some w => if opOf w = 0x10 ∧ Mmt.init w = 2 then issue t.val w (issueMmt t.val w) s else s
    | none => s)
/-- REPLAY_ROW. -/
def execReplayRow (t : TileId) (s : State) : Out := .next (replayRow s t.val)
/-- REPLAY_END. -/
def execReplayEnd (t : TileId) (err shadowErr : RowError) (s : State) : Out := .next (replayEnd s t.val err shadowErr)

end Sys2Proof.Machine
end

