-- ==== Sys2Proof/Machine/Accum.lean ====
section
/-! DEFINITION. Accumulator instructions, the accumulator pipe and chains (04, R97 to R108). -/

namespace Sys2Proof.Machine

/-! ### Issue -/

/-- AGEO (04, R98): it holds the stream until AGEO_APPLY. -/
def issueAgeo (t : Nat) (_w : Word128) (s : State) : Issue :=
  if bit (tileAt s t).acc.cfg 8 then .hold s else .fault spACC 6 0

/-- Every status word clear and every P zero (04, R96, R98). -/
def clearSst (a : Accum) : Accum :=
  { a with sst := a.sst.map (fun r => setFld (setFld r 4 0 0) 14 8 64), trackPX := Vector.replicate 64 64 }

/-- The AGEO or ACHN that holds the stream, when it is this opcode and the stream runs. -/
def heldOp (s : State) (t op : Nat) : Option Word128 :=
  match (tileAt s t).blw.pend with
  | some w => if opOf w = op ∧ csState s t = csRunning ∧ tileRuns s t then some w else none
  | none => none

/-- AGEO_APPLY (04, R98). -/
def ageoApply (s : State) (t : Nat) : State :=
  let x := tileAt s t
  match heldOp s t 0x20 with
  | some w =>
    if x.anv.queue.isEmpty && x.anv.rowPipe.isEmpty && x.anv.accPipe.isNone && x.anv.array.isEmpty &&
        x.anv.replay.isNone && x.anv.reenter.isEmpty then
      advance (modTile s t (fun x => { x with acc := clearSst { x.acc with
        geom := mkGeom (Acc.srl w) (Acc.scl w) (Acc.sfmt w) } })) t (csWord s t + 1)
    else s
  | none => s

/-- AINI (04, R99). -/
def issueAini (t : Nat) (w : Word128) (s : State) : Issue :=
  let x := tileAt s t
  let sl := Acc.slot w
  if geomN x ≤ sl then .fault spACC 1 sl
  else if geomSR x ≤ Acc.row0 w + Acc.rcm1 w then .fault spACC 2 sl
  else if geomFmt x = 1 ∧ 96 < Acc.px w then .fault spACC 8 sl
  else if anvFull x then .hold s
  else
    let s := pushAnv s t (.acc { w := w, rows := Acc.rcm1 w + 1 })
    .done (if geomFmt x = 1 then modTile s t (fun x => { x with acc := { x.acc with trackPX := vput x.acc.trackPX sl (Acc.px w) } })
      else s)

/-- AADD (04, R100, R101; 02, R38). -/
def issueAadd (t : Nat) (w : Word128) (s : State) : Issue :=
  let x := tileAt s t
  let sl := Acc.slot w
  let src := Acc.sslot w
  let p := if Acc.ssl w = 1 then vget x.acc.trackPX src 64 else Acc.spx w
  if geomN x ≤ sl then .fault spACC 1 sl
  else if Acc.ssl w = 1 ∧ geomN x ≤ src then .fault spACC 1 src
  else if geomSR x ≤ Acc.rm1 w then .fault spACC 2 sl
  else if Acc.ssl w = 0 ∧ !((List.range (Acc.rm1 w + 1)).all (fun m =>
      inWindow s t (32 * (Acc.sadr w + m * Acc.str w)) (geomSC x * geomE x))) then .fault spACC 3 sl
  else if geomFmt x = 1 ∧ 96 < p then .fault spACC 8 sl
  else if geomFmt x = 1 ∧ p ≠ vget x.acc.trackPX sl 64 then .fault spACC 9 sl
  else if anvFull x then .hold s
  else .done (pushAnv s t (.acc { w := w, rows := Acc.rm1 w + 1 }))

/-- Check of one chain target or source (04, R103): the detail of the fault. -/
def chainEnd (s : State) (t kind tile dev : Nat) : Option Nat :=
  match kind with
  | 0 => none
  | 1 => if tile = t ∨ tileHearth s tile ≠ tileHearth s t then some 1 else none
  | 2 => if dev = 0xFFFFF ∨ dev = devNo s then some 1 else if admitted s dev then none else some 2
  | _ => some 1

/-- ACHN (04, R103): its checks, then it holds the stream until ACHN_APPLY. -/
def issueAchn (t : Nat) (w : Word128) (s : State) : Issue :=
  match chainEnd s t (Acc.okind w) (Acc.otile w) (Acc.odev w) with
  | some d => .fault spACC 4 d
  | none => match chainEnd s t (Acc.ikind w) (Acc.itile w) (Acc.idev w) with
    | some d => .fault spACC 4 d
    | none => .hold s

/-- A job of the anvil pipes that sends or consumes a chain segment. -/
def chainJob (j : AnvJob) : Bool :=
  match j.op with
  | .mmt k => decide (Mmt.init k.w = 2) || decide (Mmt.dest k.w = 1)
  | .acc k => decide (opOf k.w = 0x24)
  | .ldp _ => false

/-- A frame of a segment that this tile sends still waits for a credit or a place (04, R103, R108). -/
def asndWaits (s : State) (t : Nat) : Bool :=
  let mine := fun (e : SendEntry) => match e.use with
    | .chain k => decide (k.val = t)
    | _ => false
  s.lnk.waiting.any mine || s.lnk.send.any (fun e => mine e &&
    (List.range 12).any (fun p => (portAt s p).outq.any (fun f =>
      decide (f.2.sdev = devNo s) && decide (f.2.ddev = e.dev.toNat) && decide (f.2.fnum = e.frame.fnum))))

/-- The chain-in source that ACC_CHAIN names: device, tile and kind. -/
def chainSrc (x : Tile) : Nat := (fld x.acc.chain 43 24 * 32 + fld x.acc.chain 18 14) * 4 + chainInKind x

/-- A tile whose chain-in source has just been named: the sequence numbers go on from that source's last. -/
def chainFrom (old : List (Nat × Nat)) (x : Tile) : Tile :=
  { x with acc := { x.acc with seqOld := old, seqIn := look old (chainSrc x) 0, seqNew := true } }

/-- ACHN_APPLY (04, R103): every chain-out segment has left, every chain-in segment has been consumed. -/
def achnApply (s : State) (t : Nat) : State :=
  let x := tileAt s t
  match heldOp s t 0x23 with
  | some w =>
    if !(anvJobs x).any chainJob && x.acc.fifo.isEmpty && x.acc.arriving.isEmpty && x.acc.reserved = 0 &&
        x.acc.rx.isEmpty && x.acc.rxHdr.isNone && !asndWaits s t then
      let old := put x.acc.seqOld (chainSrc x) x.acc.seqIn
      advance (modTile s t (fun x => chainFrom old { x with acc := { x.acc with
        chain := BitVec.ofNat 64 (Acc.odev w * 2 ^ 44 + Acc.idev w * 2 ^ 24 + Acc.otile w * 2 ^ 19 + Acc.itile w * 2 ^ 14 +
          Acc.okind w * 2 ^ 12 + Acc.ikind w * 2 ^ 10)
        seqOut := 0 } })) t (csWord s t + 1)
    else s
  | none => s

/-- ASND (04, R107). -/
def issueAsnd (t : Nat) (w : Word128) (s : State) : Issue :=
  let x := tileAt s t
  let sl := Acc.slot w
  if geomN x ≤ sl then .fault spACC 1 sl
  else if geomSR x ≤ Acc.sndRm1 w then .fault spACC 2 sl
  else if geomFmt x = 0 ∨ chainOutKind x ≠ 2 then .fault spACC 4 3
  else if anvFull x then .hold s
  else
    let s := pushAnv s t (.acc { w := w, rows := Acc.sndRm1 w + 1, seqOut := x.acc.seqOut + 1 })
    .done (modTile s t (fun x => { x with acc := { x.acc with seqOut := x.acc.seqOut + 1 } }))

/-! ### The accumulator pipe -/

/-- The job in the accumulator pipe, or the one that starts: the first accumulator instruction of the
queue whose slots no earlier instruction uses (04, R97, R102). -/
def accNext (x : Tile) : Option AnvJob :=
  match x.anv.accPipe with
  | some j => some j
  | none => match x.anv.queue.find? isAcc with
    | some j => if (jobSlots j).any (fun sl => slotBusyForAcc x j.seq sl) then none else some j
    | none => none

/-- The job goes on in the pipe with one row more, or leaves it. -/
def accStep (s : State) (t : Nat) (j : AnvJob) (k : AccJob) : State :=
  let k' := { k with done := k.done + 1, waitFc := none }
  modTile s t (fun x => { x with anv := { x.anv with
    queue := x.anv.queue.filter (fun q => q.seq != j.seq)
    accPipe := if k'.done < k'.rows then some { j with op := .acc k' } else none } })

/-- A row of ASND has been given to the link: the instruction stays in the pipe until its last frame has left, its
waits for credit bounded (04, R103, R108). -/
def asndStep (s : State) (t : Nat) (j : AnvJob) (k : AccJob) : State :=
  let k' := { k with done := k.done + 1, waitFc := if asndWaits s t then some (fc s) else none }
  modTile s t (fun x => { x with anv := { x.anv with
    queue := x.anv.queue.filter (fun q => q.seq != j.seq)
    accPipe := if k'.done < k'.rows ∨ asndWaits s t then some { j with op := .acc k' } else none } })

/-- One row of AINI. -/
def ainiRow (s : State) (t : Nat) (k : AccJob) : State :=
  let x := tileAt s t
  let sl := Acc.slot k.w
  let s := putSlotRow s t sl (Acc.row0 k.w + k.done) (List.replicate (geomSC x) 0)
  if k.done = 0 then
    modSst s t sl (fun r => setFld (if geomFmt x = 1 then setFld r 14 8 (Acc.px k.w) else r) 4 0 0)
  else s

/-- Source of AADD's row m: address in the tile's window. -/
def aaddSrc (x : Tile) (t : Nat) (k : AccJob) : Nat :=
  if Acc.ssl k.w = 1 then slotAddr x t (Acc.sslot k.w) k.done 0
  else winBase t + 32 * (Acc.sadr k.w + k.done * Acc.str k.w)

/-- One row of AADD (04, R41, R100); a signalling FP32 operand raises the tile's invalid flag (02, R33; log 54). -/
def aaddRow (s : State) (t : Nat) (k : AccJob) : State :=
  let x := tileAt s t
  let sl := Acc.slot k.w
  let n := geomSC x
  let src := unpack (8 * geomE x) n (readMem s.mem (aaddSrc x t k) (n * geomE x))
  let dst := slotRow s t sl k.done n
  let r := (dst.zip src).map (fun p => if geomFmt x = 1 then x96Add p.1 (sgn 96 p.2) else add32 p.1 p.2)
  let s := putSlotRow s t sl k.done r
  let s := if geomFmt x = 0 ∧ (dst.zip src).any (fun p => sig32 p.1 p.2) then raiseFlags s t 2 else s
  if Acc.ssl k.w = 1 ∧ k.done + 1 = k.rows then orStatus s t sl (fld (sstAt x (Acc.sslot k.w)) 4 0) else s

/-- A poisoned sector that AADD would read (09, R215). -/
def aaddPoison (s : State) (t : Nat) (k : AccJob) : Option Nat :=
  let x := tileAt s t
  let n := geomSC x * geomE x
  ((poisoned s (aaddSrc x t k) n ++ poisoned s (slotAddr x t (Acc.slot k.w) k.done 0) n).head?).map (· * 32)

/-- Header and trailer of a segment (04, Table 04-4). -/
def segHeader (px m np tile seq dev : Nat) : List Byte :=
  leBytes 1 X96 ++ leBytes 1 px ++ leBytes 2 (m - 1) ++ leBytes 2 (np - 1) ++ leBytes 1 tile ++ leBytes 1 0 ++
  leBytes 8 seq ++ leBytes 4 dev ++ List.replicate 12 0

/-- Payloads of at most n bytes. -/
def chop : Nat → Nat → List Byte → List (List Byte)
  | 0, _, _ => []
  | g + 1, n, bs => if bs.length ≤ n then [bs] else bs.take n :: chop g n (bs.drop n)

/-- Source bytes of a chain row, with its header and trailer, as frames (04, R107; 12, Table 12-4). -/
def asndRow (s : State) (t : Nat) (k : AccJob) : State :=
  let x := tileAt s t
  let sl := Acc.slot k.w
  let n := geomSC x
  let dev := fld x.acc.chain 63 44
  let a := slotAddr x t sl k.done 0
  let first := decide (k.done = 0)
  let last := decide (k.done + 1 = k.rows)
  let st := sstAt x sl
  let head := if first then segHeader (fld st 14 8) k.rows n t k.seqOut (devNo s) else []
  let tail := if last then leBytes 8 (fld st 4 0) ++ List.replicate 24 0 else []
  let body := head ++ readMem s.mem a (n * geomE x) ++ tail
  let ps := (poisonOf s a (n * geomE x)).map (· + head.length / 32)
  let parts := chop 3 4064 body
  let ep := (tileHearth s t).bind (epochOf s)
  let ag := 0x100000 + t
  (parts.foldl (fun (q : State × Nat) b =>
    let off := q.2
    let p := (ps.filter (fun i => decide (off ≤ 32 * i) && decide (32 * i < off + b.length))).map (fun i => i - off / 32)
    let e : SendEntry := { dev := BitVec.ofNat 20 dev, sent := fc s, use := .chain ⟨t % 32, Nat.mod_lt _ (by decide)⟩
                           frame := { ftype := fCHAIN, ch := chanOf ag, ddev := dev, sdev := devNo s
                                      prov := ep.isSome, epoch := ep.getD 0, psn := !p.isEmpty
                                      last := last && decide (off + b.length = body.length)
                                      plen := dataUnits b.length p
                                      opx := BitVec.ofNat 128 (chainOutTile x), payload := b, poison := p } }
    (sendFrame q.1 e, off + b.length)) (s, 0)).1

/-- ACCUMULATOR_PIPE_ROW (04, R97 to R102, R107). -/
def accRow (s : State) (t : Nat) : State :=
  let x := tileAt s t
  if !tileRuns s t || tileRole s t = 2 || pipeHeld x 2 then s
  else match accNext x with
    | some j => match j.op with
      | .acc k =>
        if opOf k.w = 0x21 then accStep (ainiRow s t k) t j k
        else if opOf k.w = 0x22 then
          match aaddPoison s t k with
          | some a => poisonHold s t 2 a
          | none => accStep (aaddRow s t k) t j k
        else if k.done = k.rows ∧ !asndWaits s t then
          modTile s t (fun x => { x with anv := { x.anv with accPipe := none } })
        else if asndWaits s t then
          modTile s t (fun x => { x with anv := { x.anv with
            queue := x.anv.queue.filter (fun q => q.seq != j.seq)
            accPipe := some { j with op := .acc { k with waitFc := some (k.waitFc.getD (fc s)) } } } })
        else asndStep (asndRow s t k) t j k
      | _ => s
    | none => s

/-! ### Chain rows -/

/-- The next complete row of a remote segment in the receive buffer enters the chain-in buffer. -/
def rxRowIn (s : State) (t : Nat) : State :=
  let x := tileAt s t
  match x.acc.rxHdr with
  | none =>
    if x.acc.rx.length < 32 then s
    else modTile s t (fun x => { x with acc := { x.acc with
      rxHdr := some (x.acc.rx.take 32), rx := x.acc.rx.drop 32, rxRow := 0
      rxPsn := (x.acc.rxPsn.filter (fun i => decide (1 ≤ i))).map (· - 1) } })
  | some hd =>
    let m := leAt hd 2 2 + 1
    let np := leAt hd 4 2 + 1
    let last := decide (x.acc.rxRow + 1 = m)
    let len := 12 * np
    let need := len + (if last then 32 else 0)
    if x.acc.rx.length < need ∨ chainFree s t = 0 then s
    else
      let row : ChainRow := { fmt := leAt hd 0 1, px := leAt hd 1 1, m := m, np := np, seq := leAt hd 8 8, row := x.acc.rxRow
                              vals := unpack 96 np (x.acc.rx.take len)
                              status := if last then leAt x.acc.rx len 1 % 32 else 0, remote := true
                              poison := x.acc.rxPsn.any (fun i => decide (32 * i < len)) }
      modTile s t (fun x => { x with acc := { x.acc with
        fifo := x.acc.fifo ++ [row], rx := x.acc.rx.drop need, rxRow := if last then 0 else x.acc.rxRow + 1
        rxHdr := if last then none else some hd
        rxPsn := (x.acc.rxPsn.filter (fun i => decide (need / 32 ≤ i))).map (· - need / 32) } })

/-- CHAIN_ROW_ARRIVE (04, R106, R107): a local row that has left its port, or the next row of a remote
segment. -/
def chainArrive (s : State) (t : Nat) : State :=
  let x := tileAt s t
  match x.acc.arriving with
  | r :: rest => modTile s t (fun x => { x with acc := { x.acc with
      fifo := x.acc.fifo ++ [r], arriving := rest, reserved := x.acc.reserved - 1 } })
  | [] => match x.acc.rxHdr with
    | none => rxRowIn (rxRowIn s t) t
    | some _ => rxRowIn s t

/-- CHAIN_ROW_RESERVED (04, R106; 10, Table 10-8): the held upstream tile finds a free row at its target. -/
def chainReserved (s : State) (t : Nat) : State :=
  let x := tileAt s t
  if x.acc.late && decide (0 < chainFree s (chainOutTile x)) then
    let s := modTile s t (fun x => { x with acc := { x.acc with late := false } })
    let s := match nextMmt x with
      | some (j, _) => modMmt s t j.seq (fun k => { k with waitFc := none })
      | none => s
    let s := match tileHearth s t with
      | some h => refreshLate s h
      | none => s
    rowEnter s t
  else s

/-- A wait that began at f has lasted 2^CTMO fc. -/
def chainExpired (s : State) (t : Nat) (f : Option Nat) : Bool :=
  match f with
  | some f => decide (f + 2 ^ fld (tileAt s t).acc.cfg 14 9 ≤ fc s)
  | none => false

/-- The chain wait of a tile that has expired ends its instruction: a row's, an ASND's, or that of the MMT that the stream
holds at (04, R108; 15, Table 15-5). -/
def chainTmo (s : State) (t : Nat) : State :=
  let x := tileAt s t
  let expire := fun (s : State) (idx rows detail : Nat) =>
    let s := modTile s t (fun x => { x with acc := { x.acc with late := false } })
    let s := match tileHearth s t with
      | some h => refreshLate s h
      | none => s
    let running := csState s t = csRunning
    let s := tileFault s t spACC 5 detail idx rows
    let s := if running then setCsWord s t idx else s
    match tileHearth s t with
    | some h => retractEpoch s h 3
    | none => s
  let headTmo := if x.blw.pend.isSome && chainExpired s t x.acc.headFc then
      expire (modTile s t (fun x => { x with acc := { x.acc with headFc := none } })) (csWord s t) 0 0
    else s
  match (x.anv.rowPipe ++ x.anv.queue).find? (fun j => match j.op with
      | .mmt k => chainExpired s t k.waitFc
      | _ => false) with
  | some j => match j.op with
    | .mmt k =>
      let detail := if x.acc.late then 1 else 0
      let s := if Mmt.dest k.w = 0 ∧ 0 < k.entered then
          setSst s t (Mmt.slot k.w) 32 else s
      expire (truncateMmt s t j.seq) j.idx k.entered detail
    | _ => s
  | none => match x.anv.accPipe with
    | some j => match j.op with
      | .acc k =>
        if chainExpired s t k.waitFc then
          expire (modTile s t (fun x => { x with anv := { x.anv with accPipe := none } })) j.idx k.done 1
        else headTmo
      | _ => s
    | none => headTmo

/-! ### Commands -/

/-- AGEO. -/
def execAgeo (t : TileId) (w : Word128) (s : State) : Out := issueCmd 0x20 t.val w (issueAgeo t.val w) s
/-- AGEO_APPLY. -/
def execAgeoApply (t : TileId) (s : State) : Out := .next (ageoApply s t.val)
/-- AINI. -/
def execAini (t : TileId) (w : Word128) (s : State) : Out := issueCmd 0x21 t.val w (issueAini t.val w) s
/-- AADD. -/
def execAadd (t : TileId) (w : Word128) (s : State) : Out := issueCmd 0x22 t.val w (issueAadd t.val w) s
/-- ACHN. -/
def execAchn (t : TileId) (w : Word128) (s : State) : Out := issueCmd 0x23 t.val w (issueAchn t.val w) s
/-- ACHN_APPLY. -/
def execAchnApply (t : TileId) (s : State) : Out := .next (achnApply s t.val)
/-- ASND. -/
def execAsnd (t : TileId) (w : Word128) (s : State) : Out := issueCmd 0x24 t.val w (issueAsnd t.val w) s
/-- CHAIN_ROW_ARRIVE. -/
def execChainRowArrive (t : TileId) (s : State) : Out := .next (chainArrive s t.val)
/-- CHAIN_ROW_RESERVED. -/
def execChainRowReserved (t : TileId) (s : State) : Out := .next (chainReserved s t.val)
/-- ACC_CHAINTMO. -/
def execAccChaintmo (t : TileId) (s : State) : Out := .next (chainTmo s t.val)
/-- ACCUMULATOR_PIPE_ROW. -/
def execAccumulatorPipeRow (t : TileId) (s : State) : Out := .next (accRow s t.val)

end Sys2Proof.Machine
end

