-- ==== Sys2Proof/Machine/Counters.lean ====
section
/-! DEFINITION. Synchronisation counters: the counter instructions, waits, owners and register
operations (11). -/

namespace Sys2Proof.Machine

/-- Fault of a counter instruction: code, detail and the counter concerned (11, Table 11-14). -/
def synFault (code detail ctr : Nat) : Issue := .fault spSYN code (detail + ctr * 256)

/-- The tile's hearth holds the counter in its range (11, R250, R274). -/
def tileCtr (s : State) (t c : Nat) : Bool :=
  match tileHearth s t with
  | some h => ctrIn s h c
  | none => false

/-- SINC at issue (11, R275). -/
def issueSinc (t : Nat) (w : Word128) (s : State) : Issue :=
  let c := Sinc.ctr w
  let dev := Sinc.dev w
  if Sinc.rem w = 0 ∧ !tileCtr s t c then synFault 2 0 c
  else if Sinc.rem w = 1 ∧ (dev = 0xFFFFF ∨ dev = devNo s ∨ !admitted s dev) then synFault 3 94 c
  else .done (modTile s t (fun x => { x with blw := { x.blw with marks := x.blw.marks ++
    [{ seq := x.misc.seq, pipes := Sinc.pipes w
       sinc := some { remote := decide (Sinc.rem w = 1), dev := dev, ctr := c, amt := Sinc.amt w } }] } }))

/-- Timeout exponent of a wait (11, R257). -/
def waitK (s : State) (h k : Nat) : Nat := if k = 0 then fld (hearthAt s h).net.synCfg 29 24 else k

/-- Counter and target of a SWAT (11, R260). -/
def swatAim (x : Tile) (w : Word128) : Nat × Nat :=
  if Swat.rel w = 1 then
    let b := vget x.misc.synTb (Swat.breg w) 0
    (fld b 63 48, min (fld b 47 0 + Swat.tgt w) (2 ^ 48 - 1))
  else (Swat.ctr w, Swat.tgt w)

/-- SWAT at issue (11, R256, R257, R260): it posts the wait and holds the stream until the wait ends. -/
def issueSwat (t : Nat) (w : Word128) (s : State) : Issue :=
  let x := tileAt s t
  if x.misc.wait.isSome then .hold s
  else
    let (c, tgt) := swatAim x w
    if Swat.rel w = 1 ∧ !vget x.misc.synTbW (Swat.breg w) false then synFault 3 116 0
    else if 40 < Swat.k w then synFault 3 110 c
    else match tileHearth s t with
      | none => synFault 2 0 c
      | some h =>
        if !ctrIn s h c then synFault 2 0 c
        else
          let tw : TileWait := { ctr := c, tgt := tgt, k := waitK s h (Swat.k w), fc := fc s
                                 held := (hearthAt s h).mem.held.toNat, ended := postOutcome s c tgt
                                 endFc := fc s, owner := (ctrAt s c).owner.toNat }
          .hold (modTile s t (fun x => { x with misc := { x.misc with wait := some tw } }))

/-- SBAS (11, R260, R276). -/
def issueSbas (t : Nat) (w : Word128) (s : State) : Issue :=
  let c := Sbas.ctr w
  if !tileCtr s t c then synFault 2 0 c
  else .done (modTile s t (fun x => { x with misc := { x.misc with
    synTb := vput x.misc.synTb (Sbas.breg w) (BitVec.ofNat 64 (c * 2 ^ 48 + (ctrAt s c).value.toNat))
    synTbW := vput x.misc.synTbW (Sbas.breg w) true } }))

/-- SCLM (11, R263). -/
def issueSclm (t : Nat) (w : Word128) (s : State) : Issue :=
  let c := Sclm.ctr w
  let code := 0x100000 + t
  if !tileCtr s t c then synFault 2 0 c
  else match (if Sclm.rls w = 1 then releaseCtr s c code else claimCtr s c code) with
    | some n => if Sclm.rls w = 0 ∧ (ctrAt s c).owner = 0 then .hold n else .done n
    | none => synFault 6 0 c

/-! ### Waits end -/

/-- fc for which a tile wait has lasted with its hearth in RUN (11, R257). -/
def waited (s : State) (t : Nat) (w : TileWait) : Nat :=
  let held := match tileHearth s t with
    | some h => (hearthAt s h).mem.held.toNat
    | none => 0
  (fc s - w.fc) - (held - w.held)

/-- The SWAT word that holds the stream completes. -/
def swatDone (s : State) (t : Nat) : State :=
  let s := modTile s t (fun x => { x with misc := { x.misc with wait := none } })
  advance s t (csWord s t + 1)

/-- A tile stops at its SWAT (11, R259, R265): the fault register and the stream; the record is the
wait's or the counter's. -/
def swatStop (s : State) (t code detail ctr : Nat) (esq : Option Nat) : State :=
  let s := setFault s t spSYN (faultWord (csWord s t) ctr code detail)
  modTile (stopStream s t) t (fun x => { x with misc := { x.misc with wait := none, faultSeq := esq } })

/-- A wait slot ends with a state, and its waiter is notified (11, R261). -/
def slotEnd (s : State) (h i st : Nat) (tell : Bool) : State :=
  let x := hearthAt s h
  let w1 := vget x.net.ws1 i 0
  let s := modNet s h (fun n => { n with ws1 := vmod n.ws1 i (fun r => setFld r 11 8 st) })
  let s := modRun s h (fun r => { r with wsEnd := vput r.wsEnd i none })
  if tell then notify s (fld w1 63 40) (fld w1 26 16) 17 else s

/-- WAIT_SATISFIED (11, R256, R261, R262). -/
def waitSatisfied (s : State) (r : WaitRef) : State :=
  match r with
  | .tile t => match (tileAt s t.val).misc.wait with
    | some w =>
      if w.ended = some .satisfied && !w.lent && csState s t.val = csRunning && tileRuns s t.val then swatDone s t.val else s
    | none => s
  | .slot h i =>
    if wsSt (hearthAt s h.val) i.val = 1 ∧ vget (hearthAt s h.val).run.wsEnd i.val none = some .satisfied then
      slotEnd s h.val i.val 2 true
    else s

/-- SYN_TMO (11, R257, R258): the wait times out in this fc, unless it is satisfied or loses its owner in it. -/
def synTmo (s : State) (r : WaitRef) : State :=
  match r with
  | .tile t => match (tileAt s t.val).misc.wait with
    | some w =>
      if w.ended.isNone ∧ 2 ^ w.k ≤ waited s t.val w then
        modTile s t.val (fun x => { x with misc := { x.misc with wait := some (endWait s .timeout w) } })
      else s
    | none => s
  | .slot h i =>
    let x := hearthAt s h.val
    let k := waitK s h.val (fld (vget x.net.ws1 i.val 0) 7 2)
    if wsSt x i.val = 1 ∧ (vget x.run.wsEnd i.val none).isNone ∧ vget x.run.wsFc i.val 0 + 2 ^ k ≤ fc s then
      modRun s h.val (fun r => { r with wsEnd := vput r.wsEnd i.val (some .timeout), wsEndFc := vput r.wsEndFc i.val (fc s) })
    else s

/-- A tile's wait that has timed out (11, R259; 15, Table 15-5): its record, the fault and the retraction. -/
def tileTmo (s : State) (t : Nat) : State :=
  match (tileAt s t).misc.wait with
  | some w =>
    if w.ended = some .timeout then
      let h := tileHearth s t
      let s := tmoRecord s h w.ctr w.tgt (0x100000 + t)
      let s := swatStop s t 4 (ownDetail (ctrAt s w.ctr).owner.toNat) w.ctr (some (s.recs.seq - 1))
      match h with
      | some h => retractEpoch s h 4
      | none => s
    else s
  | none => s
/-- A wait slot that has timed out. -/
def slotTmo (s : State) (h i : Nat) : State :=
  let x := hearthAt s h
  if wsSt x i = 1 ∧ vget x.run.wsEnd i none = some .timeout then
    let s := tmoRecord s (some h) (wsCtr x i) (wsTgt x i) (fld (vget x.net.ws1 i 0) 63 40)
    retractEpoch (slotEnd s h i 3 true) h 4
  else s
/-- The time-outs of this fc reach their waiters at its end. -/
def tmoDue (s : State) : State :=
  let s := forEach (List.range 32) s (fun t s => tileTmo s t)
  forEach (List.range 16) s (fun h s => forEach (List.range 32) s (fun i s => slotTmo s h i))

/-- A SWAT stops with SYN_OWNER (11, R265, R277): the record is that of the owner's loss, or its own when it was posted while
`LOST` was 1. -/
def swatOwner (s : State) (t : Nat) (w : TileWait) : State :=
  let d := ownDetail w.owner
  match w.esq with
  | some k => swatStop s t 5 d w.ctr (some k)
  | none =>
    let n := raise s spSYN 5 d (tileHearth s t) (0x100000 + t) (w.ctr * 2 ^ 48 + (ctrAt s w.ctr).epoch.toNat) 0 (ownArg2 w.owner)
    swatStop n t 5 d w.ctr (some s.recs.seq)

/-- OWNER_LOST (11, R258, R265): every wait of the counter that has ended OWNER_LOST, in an earlier fc, reaches its waiter. -/
def ownerLost (s : State) (c : Nat) : State :=
  let s := forEach (List.range 32) s (fun t s => match (tileAt s t).misc.wait with
    | some w => if w.ctr = c ∧ w.ended = some .ownerLost ∧ w.endFc < fc s then swatOwner s t w else s
    | none => s)
  forEach (List.range 16) s (fun h s => forEach (List.range 32) s (fun i s =>
    let x := hearthAt s h
    if wsSt x i = 1 ∧ wsCtr x i = c ∧ vget x.run.wsEnd i none = some .ownerLost ∧ vget x.run.wsEndFc i 0 < fc s then
      slotEnd s h i 4 true
    else s))

/-! ### Register operations -/

/-- The agent reaches counter c (09, R201). -/
def mayCtr (s : State) (a : Agent) (c : Nat) : Bool :=
  match a with
  | .stoker => true
  | .host f => decide (f.val = 0) || (match fnHearth s f.val with | some h => ctrIn s h c | none => false)
  | _ => match agentHearth s a with
    | some h => ctrIn s h c
    | none => false

/-- SYN_INC (11, R252, R254). -/
def synInc (s : State) (a : Agent) (c : Nat) (v : BitVec 64) : State :=
  if !mayCtr s a c then misuse s SYS_UNMAPPED a (ctrReg c 8)
  else match amtBad v with
    | some code => synRefuse s code (agentHearth s a) a.code c
    | none => issueWith s (agentHearth s a) c v.toNat none (waitingWrites s a)

/-- SYN_OWN (11, R263). -/
def synOwn (s : State) (a : Agent) (c : Nat) (claim release : Bool) : State :=
  if !mayCtr s a c then misuse s SYS_UNMAPPED a (ctrReg c 0x18)
  else if claim && release then synRefuse s 6 (agentHearth s a) a.code c
  else if claim then (claimCtr s c a.code).getD (synRefuse s 6 (agentHearth s a) a.code c)
  else if release then (releaseCtr s c a.code).getD (synRefuse s 6 (agentHearth s a) a.code c)
  else s

/-- A write of word 1 of a wait slot with `ARM` = 1 (11, R257, R261). -/
def armSlot (s : State) (a : Agent) (h i : Nat) (value : Nat) : State :=
  let v := BitVec.ofNat 64 value
  if !mayHearth s a h then misuse s SYS_UNMAPPED a (hearthReg h (0x608 + 16 * i))
  else if wsSt (hearthAt s h) i = 1 then misuse s SYS_BUSY a (hearthReg h (0x608 + 16 * i))
  else
    let w1 : Reg := BitVec.ofNat 64 (a.code * 2 ^ 40 + fld v 26 16 * 2 ^ 16 + fld v 7 2 * 4)
    let s := modNet s h (fun n => { n with ws1 := vput n.ws1 i w1 })
    let st := fun (s : State) n => modNet s h (fun m => { m with ws1 := vmod m.ws1 i (fun r => setFld r 11 8 n) })
    let c := wsCtr (hearthAt s h) i
    let no := fun (s : State) (code detail : Nat) => notify (synRefuse (st s 6) code (some h) a.code c detail) a.code (fld v 26 16) 17
    if !ctrIn s h c then no s 2 0
    else if 40 < fld v 7 2 then no s 3 2
    else
      let o := postOutcome s c (wsTgt (hearthAt s h) i)
      modRun (st s 1) h (fun r => { r with
        wsFc := vput r.wsFc i (fc s), wsEnd := vput r.wsEnd i o, wsEndFc := vput r.wsEndFc i (fc s) })

/-- A write of word 1 of a wait slot with `CANCEL` = 1 (11, R261). -/
def cancelSlot (s : State) (a : Agent) (h i : Nat) : State :=
  if !mayHearth s a h then misuse s SYS_UNMAPPED a (hearthReg h (0x608 + 16 * i))
  else if wsSt (hearthAt s h) i = 1 then slotEnd s h i 5 false
  else s

/-- The writes that an increment follows have committed (11, R254). -/
def flightReady (s : State) (f : Flight) : Bool :=
  f.after.all (fun m => s.msys.pool.toList.all (fun x => !x.waiting.contains m))

/-- Every increment on its way to a counter whose order is met is applied, their amounts summed first (11, R255). The
window that one ends gets its entry (13, R331). -/
def applyFlights (s : State) (c : Nat) : State :=
  let now := fun (f : Flight) => f.ctr == c && flightReady s f
  let fs := s.flights.filter now
  if fs.isEmpty then s
  else
    let s := { s with flights := s.flights.filter (fun f => !now f) }
    let s := forEach fs s (fun f s => match f.hearth with
      | some h => bookDone s h.val f.amt false
      | none => s)
    let s := applyInc s c (fs.foldl (fun a f => a + f.amt) 0)
    forEach fs s (fun f s => match f.hearth, f.phase with
      | some h, some (start, tag, agent) => phaseEntry s h.val start tag agent 1
      | _, _ => s)

/-! ### Commands -/

/-- SINC. -/
def execSinc (t : TileId) (w : Word128) (s : State) : Out := issueCmd 0x90 t.val w (issueSinc t.val w) s
/-- SWAT. -/
def execSwat (t : TileId) (w : Word128) (s : State) : Out := issueCmd 0x91 t.val w (issueSwat t.val w) s
/-- SBAS. -/
def execSbas (t : TileId) (w : Word128) (s : State) : Out := issueCmd 0x92 t.val w (issueSbas t.val w) s
/-- SCLM. -/
def execSclm (t : TileId) (w : Word128) (s : State) : Out := issueCmd 0x93 t.val w (issueSclm t.val w) s
/-- INCREMENT_APPLY (11, R251, R255). -/
def execIncrementApply (c : CtrId) (s : State) : Out := .next (applyFlights s c.val)
/-- SYN_INC. -/
def execSynInc (a : Agent) (c : CtrId) (amt : BitVec 64) (s : State) : Out := .next (synInc s a c.val amt)
/-- CLAIM. -/
def execClaim (a : Agent) (c : CtrId) (alsoRelease : Bool) (s : State) : Out := .next (synOwn s a c.val true alsoRelease)
/-- RELEASE_OWNER. -/
def execReleaseOwner (a : Agent) (c : CtrId) (alsoClaim : Bool) (s : State) : Out := .next (synOwn s a c.val alsoClaim true)
/-- ARM. -/
def execArm (a : Agent) (h : HearthId) (i : Fin 32) (value : Nat) (s : State) : Out := .next (armSlot s a h.val i.val value)
/-- CANCEL. -/
def execCancel (a : Agent) (h : HearthId) (i : Fin 32) (s : State) : Out := .next (cancelSlot s a h.val i.val)
/-- WAIT_SATISFIED. -/
def execWaitSatisfied (r : WaitRef) (s : State) : Out := .next (waitSatisfied s r)
/-- SYN_TMO. -/
def execSynTmo (r : WaitRef) (s : State) : Out := .next (synTmo s r)
/-- OWNER_LOST. -/
def execOwnerLost (c : CtrId) (s : State) : Out := .next (ownerLost s c.val)

end Sys2Proof.Machine
end

