-- ==== Sys2Proof/Machine/ItemOps.lean ====
section
/-! DEFINITION. Work descriptors, the extents of checkpoints, and the frames that services send (16, R378,
R397, R398). -/

namespace Sys2Proof.Machine

/-! ### Work descriptor (16, Tables 16-1 and 16-2) -/
namespace Wd
def seq (d : List Byte) := leAt d 0 8
def kind (d : List Byte) := leAt d 8 1
def flag (d : List Byte) (i : Nat) : Bool := (leAt d 9 1).testBit i
def rst (d : List Byte) : Bool := flag d 0
def rstc (d : List Byte) : Bool := flag d 1
def fence (d : List Byte) : Bool := flag d 2
def cen (d : List Byte) : Bool := flag d 3
def nirq (d : List Byte) : Bool := flag d 4
def tmo (d : List Byte) := leAt d 10 1
def phase (d : List Byte) := leAt d 12 2
def ctr (d : List Byte) := leAt d 14 2
def amt (d : List Byte) := leAt d 16 4
def epoch (d : List Byte) := leAt d 24 8
/-- Words of `ARG`: bytes [35:32], [39:36], [47:40], [55:48] and [63:56]. -/
def a0 (d : List Byte) := leAt d 32 4
def a1 (d : List Byte) := leAt d 36 4
def a2 (d : List Byte) := leAt d 40 8
def a3 (d : List Byte) := leAt d 48 8
def a4 (d : List Byte) := leAt d 56 8
end Wd

/-- Item kinds of Table 16-2. -/
def kSTREAM : Nat := 1
def kDATA : Nat := 2
def kCOLL : Nat := 3
def kCKPT : Nat := 4
def kRESTORE : Nat := 5
def kOPEN : Nat := 6
def kCOMMIT : Nat := 7
def kFENCE : Nat := 8

def itemAt (s : State) (q seq : Nat) : Option Item := (queueAt s q).items.find? (fun i => i.seq == seq)
def modItem (s : State) (q seq : Nat) (f : Item → Item) : State :=
  modQueue s q (fun w => { w with items := w.items.map (fun i => if i.seq = seq then f i else i) })
def isRunning (i : Item) : Bool := match i.st with | .running _ => true | _ => false
def isPending (i : Item) : Bool := match i.st with | .pending => true | _ => false

/-- A running item ends with an outcome. -/
def itemEnd (s : State) (q seq outcome detail : Nat) : State :=
  modItem s q seq (fun i => match i.st with
    | .running _ => { i with st := .ended outcome (detail % 256) }
    | _ => i)

/-- Extents of a CKPT or RESTORE item: (local address of generation g, length) (16, R398). -/
def extents (s : State) (d : List Byte) (g : Nat) : List (Nat × Nat) :=
  (List.range (Wd.a1 d)).map (fun k =>
    let b := readMem s.mem (Wd.a2 d + 32 * k) 32
    (leAt b (8 * (g % 2)) 8, leAt b 16 8))

/-- Extent that holds target byte `off`, and its local address. -/
def extentOf : List (Nat × Nat) → Nat → Nat → Nat × Nat
  | [], k, _ => (k, 0)
  | (a, n) :: r, k, off => if off < n then (k, a + off) else extentOf r (k + 1) (off - n)

/-- Extent and local address that the remote address of an item's frame stands for. -/
def itemPlace (s : State) (i : Item) (remote : Nat) : Nat × Nat :=
  if Wd.kind i.desc = kDATA then (0, Wd.a3 i.desc + (remote - Wd.a2 i.desc))
  else extentOf (extents s i.desc i.gen) 0 (remote - Wd.a3 i.desc)

/-- Data of a READ of an item arrives; none when its write waits. -/
def itemData (s : State) (q : QueueId) (seq remote : Nat) (bs : List Byte) (ps : List Nat) : Option State :=
  match itemAt s q.val seq with
  | some i =>
    let h := fld (queueAt s q.val).cfg 16 13
    let a := (itemPlace s i remote).2
    if isRunning i then devWrite s (some h) .noalloc a bs (ps.map (· + a / 32)) else some s
  | none => some s

/-- A frame of an item is acknowledged, or its data is complete. -/
def itemFrameDone (s : State) (q : QueueId) (seq : Nat) : State :=
  modItem s q.val seq (fun i => { i with left := i.left - 1 })

/-- A frame of an item is refused or lost: the item has FAILED (16, Table 16-7). -/
def itemFrameFail (s : State) (q : QueueId) (seq remote : Nat) : State :=
  match itemAt s q.val seq with
  | some i => itemEnd s q.val seq 1 (itemPlace s i remote).1
  | none => s

end Sys2Proof.Machine
end

