-- ==== Sys2Proof/Machine/Receive.lean ====
section
/-! DEFINITION. Frames between devices: reception, windows, acknowledgements, sessions, remote increments and
forwarding (11, R266 to R270; 12, R285 to R305). -/

namespace Sys2Proof.Machine

/-! ### Counts and credits of a port -/

/-- A frame leaves the receive buffer: its credits wait to be returned (12, R286, Table 12-16). -/
def freeCr (s : State) (p ch n : Nat) : State :=
  modPort s p (fun x =>
    { x with crd := setFld (setFld x.crd 47 32 (fld x.crd 47 32 - n)) 31 16 (fld x.crd 31 16 + n)
             ll := { x.ll with retq := vmod x.ll.retq ch (· + n) } })
def freeRx (s : State) (p : Nat) (f : Frame) : State := freeCr s p f.ch (frameCredits f)

/-! ### Ends of collectives that lose a member (13, R320) -/

/-- The ring of a hearth stops at its active descriptor with a code; the step does not commit. -/
def colStop (s : State) (p h code dseq group arg0 arg1 : Nat) : State :=
  let s := collFailed s p h (activeIdx s p h)
  let s := modPort s p (fun x => { x with
    ring2 := vmod x.ring2 h (fun r => setFld (setFld (setFld r 63 32 dseq) 15 8 code) 7 0 group)
    active := vmod x.active h (fun a => a.map (fun d => { d with incomplete := true, sendq := [], todo := [] })) })
  raise s spCOL code group (some h) (0x300000 + p) arg0 arg1

def descGroup (d : List Byte) : Nat := leAt d 5 1 % 64

/-- Active descriptors whose group holds the device end with COL_PEER (13, R320; 15, Table 15-5). -/
def colPeerLost (s : State) (dev : Nat) : State :=
  forEach (List.range 12) s (fun p s => forEach (List.range 16) s (fun h s =>
    match vget (portAt s p).active h none with
    | some a =>
      let g := descGroup a.desc
      match (List.range a.n).find? (fun r => decide (grpDev s h g r = dev) && decide (r ≠ a.rank)) with
      | some r =>
        if a.incomplete then s
        else
          let s := colStop s p h 7 a.dseq g a.dseq r
          retractEpoch (cyclesLost s p h 7 g a r) h 3
      | none => s
    | none => s))

/-! ### Sessions -/

/-- A counter's pending increments of a session are withdrawn, and the credits that they held return (11, R268). -/
def dropPend (s : State) (x : Session) : State :=
  forEach x.rx.toList s (fun c s => forEach c.pend s (fun i s => let s := freeCr s i.port i.ch i.cred; match i.book with
    | some h => modNet s h (fun n => { n with
        pend := n.pend - BitVec.ofNat 64 i.amt, rxacc := n.rxacc - BitVec.ofNat 64 i.amt, rxcnt := bumpSat n.rxcnt 31 0 1 })
    | none => s))

/-- Record of a request that ends without its data (12, R291): destination, address and status. -/
def lostRecord (s : State) (code status : Nat) (e : SendEntry) : State :=
  let ag := frameAgent e.frame
  let h : Option Nat := match ag / 2 ^ 20 with
    | 1 => tileHearth s (ag % 2 ^ 20)
    | 2 => hobHearth s (ag % 2 ^ 20)
    | _ => none
  raise s 0x0A code status h ag (frameAddr e.frame) e.dev.toNat

/-- What an entry that ends without its bytes leaves behind. -/
def entryLost (s : State) (code status : Nat) (e : SendEntry) : State :=
  let s := entryFail s e
  let s := if e.frame.ftype = fWRITE ∨ e.frame.ftype = fREAD then lostRecord s code status e else s
  match e.use with
  | .refetch h a => refetchFail s h.val a
  | .item q k => itemFrameFail s q k (frameAddr e.frame)
  | _ => s

/-- A session ends (12, R302; 11, R264, R268). Frames of the peer that the receive buffers still hold are dropped. -/
def endSession (s : State) (dev : Nat) : State :=
  let s := match sessOf s dev with
    | some x => dropPend s x
    | none => s
  let s := forEach (List.range 12) s (fun p s =>
    forEach ((portAt s p).held.filter (fun f => f.sdev == dev)) s (fun f s =>
      freeRx (modPort s p (fun x => { x with held := x.held.erase f })) p f))
  let mine := s.lnk.send.filter (fun e => e.dev.toNat == dev) ++ s.lnk.waiting.filter (fun e => e.dev.toNat == dev)
  let s := { s with lnk := { s.lnk with
    sessions := s.lnk.sessions.filter (fun x => x.dev.toNat != dev)
    send := s.lnk.send.filter (fun e => e.dev.toNat != dev)
    waiting := s.lnk.waiting.filter (fun e => e.dev.toNat != dev) } }
  let s := forEach mine s (fun e s => entryLost s 0x0D 0 e)
  let s := ownerGone s (0x500000 + dev)
  colPeerLost s dev

/-- The session is idle (12, R302). -/
def sessIdle (s : State) (x : Session) : Bool :=
  !(s.lnk.send.any (fun e => e.dev == x.dev)) && x.rx.toList.all (fun c => c.pend.isEmpty) &&
  !(s.counters.any (fun e => e.2.owner.toNat == 0x500000 + x.dev.toNat))

/-- The idle session used longest ago. -/
def idleOldest (s : State) : Option Session :=
  (s.lnk.sessions.filter (sessIdle s)).foldl (fun b x => match b with
    | none => some x
    | some y => if x.used < y.used then some x else some y) none

/-- Waiting frames of a device enter the table, as far as they can. -/
def admitDev (s : State) (dev : Nat) : State :=
  pumpAll (forEach (s.lnk.waiting.filter (fun e => e.dev.toNat == dev)) s (fun e s =>
    if mayEnter s e && (s.lnk.waiting.find? (fun w => w.dev == e.dev)) == some e then
      enterSend { s with lnk := { s.lnk with waiting := s.lnk.waiting.erase e } } e
    else s))

/-- Code of the check of R300 or R301 that a session's handshake fails. -/
def hsFault (s : State) (dev : Nat) (x : SessHs) : Option Nat :=
  let c := x.cert
  let sec := calNow s / 2 ^ 30
  if 1 < x.loMaj ∨ x.hiMaj < 1 then some 5
  else if !c.sigOk ∨ !x.signOk ∨ !calValid s ∨ sec < c.firstSec ∨ c.lastSec < sec then some 6
  else if c.topoid ≠ s.tmp.cur.dev.topoid ∨ c.dev ≠ dev ∨ s.tmp.cur.dev.revs.contains c.idHash then some 7
  else if !x.confirmOk then some 9
  else none

/-- Keys and salts, sent and received with (12, R301): the lower device number takes the first key and salt to send. -/
def hsKeys (s : State) (dev : Nat) (x : SessHs) : List Byte × List Byte :=
  let k := shake256 ([0x59#8, 0x4C#8, 0x4B#8, 0x31#8] ++ x.ss ++ x.th) 72
  let up := k.take 32 ++ (k.drop 64).take 4
  let down := (k.drop 32).take 32 ++ k.drop 68
  if devNo s < dev then (up, down) else (down, up)

/-- This device's own steps of a session's handshake, from the certificates on (12, Table 12-7). -/
def ownSteps (s : State) (dev from' : Nat) : State :=
  let steps := [2, if devNo s < dev then 3 else 4, 5, 6].filter (fun k => decide (from' ≤ k))
  forEach steps s (fun k s => emit s (.handshake dev k))

/-- The handshake with a device fails: its session ends, and what waits for one ends without its bytes (12, R302). -/
def failHs (s : State) (dev code : Nat) : State := endSession (raise s 0x0A code 0 none 0 dev) dev

/-- A session is closed for a new one: the peer is told (12, R302). -/
def closeFor (s : State) (x : Session) : State :=
  let d := x.dev.toNat
  let s := launch (modSess s d (fun x => { x with fnumTx := x.fnumTx + 1 }))
    { ftype := fCLOSE, ch := 7, ddev := d, sdev := devNo s, fnum := x.fnumTx, keyid := x.keyid }
  endSession s d

/-- SESSION_OPEN (12, R300 to R302): the handshake with an admitted device, whichever of the two sends first. The revocation
of the identity that it proves is part of its checks. -/
def openSession (s : State) (dev : Nat) (x : SessHs) : State :=
  if (sessOf s dev).isSome || !(s.tmp.cur.dev.ranges.any (fun r => decide (r.1 ≤ dev) && decide (dev ≤ r.2))) then s
  else
    let s := ownSteps s dev 2
    match hsFault s dev x with
    | some code => failHs s dev code
    | none =>
      let (tx, rx) := hsKeys s dev x
      let add := fun (s : State) => admitDev { s with lnk := { s.lnk with
        ids := put s.lnk.ids dev x.cert.idHash
        sessions := s.lnk.sessions ++ [{ dev := BitVec.ofNat 20 dev, idHash := x.cert.idHash, keyTx := tx, keyRx := rx, used := fc s }] } } dev
      if s.lnk.sessions.length < 4096 then add s
      else match idleOldest s with
        | some y => add (closeFor s y)
        | none => s

/-- SESSION_REKEY (12, R301): steps 3 to 6 once more, after 2^32 frames in a direction. -/
def rekey (s : State) (dev : Nat) (x : SessHs) : State :=
  match sessOf s dev with
  | some y =>
    if 2 ^ 32 ≤ y.txFrames ∨ 2 ^ 32 ≤ y.rxFrames then
      let s := ownSteps s dev 3
      if !x.signOk then failHs s dev 6
      else if !x.confirmOk then failHs s dev 9
      else
        let (tx, rx) := hsKeys s dev x
        modSess s dev (fun y => { y with keyid := (y.keyid + 1) % 256, oldKey := true, oldRx := y.keyRx, keyTx := tx, keyRx := rx
                                         txFrames := 0, rxFrames := 0 })
    else s
  | none => s

/-! ### Checks of a received frame -/

/-- Length and channel that a type allows (12, Table 12-4, R305). -/
def shapeOk (f : Frame) : Bool :=
  let data := decide (1 ≤ f.plen) && decide (f.payload.length = 32 * (f.plen - b2n f.psn)) && (f.psn || f.poison.isEmpty)
  let none := decide (f.plen = 0) && f.payload.isEmpty
  match f.ftype with
  | 0x10 => data && decide (f.ch = chanOf (frameAgent f)) && decide (fld f.opx 47 44 = 0)
  | 0x11 => none && decide (f.ch = chanOf (frameAgent f)) && decide (1 ≤ fld f.opx 79 72) && decide (fld f.opx 79 72 ≤ 128)
  | 0x12 => data && decide (f.ch = 6)
  | 0x18 => none && decide (f.ch = 7)
  | 0x20 => decide (f.plen = 1) && decide (f.payload.length = 32) && decide (f.ch ≤ 5) && decide (leAt f.payload 3 1 = f.ch) &&
      decide (leAt f.payload 0 3 = f.sdev)
  | 0x21 => data && decide (f.ch ≤ 3)
  | 0x22 => data && decide (f.ch = 5)
  | 0x23 => (data || (none && decide (fld f.opx 55 48 = 4))) && decide (f.ch = 5) && decide (fld f.opx 127 112 = 0)
  | 0x2F => none && decide (f.ch = 7)
  | _ => false

/-- The frame number has been accepted before (12, R291). -/
def fnumDup (x : Session) (n : Nat) : Bool := x.accepted.contains n || decide (n + 16384 ≤ x.fnumHigh)
/-- Record a frame number as accepted. -/
def acceptNum (s : State) (dev n : Nat) : State :=
  modSess s dev (fun x =>
    let hi := max x.fnumHigh n
    { x with fnumHigh := hi, accepted := (n :: x.accepted).filter (fun k => decide (hi < k + 16384)), used := fc s })

/-- The port takes frames from its receive buffer: in UP, and in DRAINING what is in the buffer (12, R306). -/
def receives (s : State) (p : Nat) : Bool := portUp s p || decide (portState s p = 6)
/-- A malformed frame is dropped and counted (12, R305). -/
def malformed (s : State) (p : Nat) (f : Frame) : State := rxRaise (rxCount s p 1 0 0 0) 8 f.sdev f.sdev 0 none

/-- Checks of R305 on a frame of this type that arrives on a port: the state when it is dropped, or the
state in which its handling goes on. -/
def rxFront (s : State) (p : Nat) (f : Frame) (ty : Nat) : Except State State :=
  if !receives s p || f.ftype ≠ ty || f.ddev ≠ devNo s then .error s
  else if !f.rsvdOk || decide (128 < f.plen) || !shapeOk f then .error (malformed (freeRx s p f) p f)
  else match sessOf s f.sdev with
    | none => .error (malformed (freeRx s p f) p f)
    | some x =>
      let cur := f.keyid = x.keyid
      if !f.tagOk || !(cur || (x.oldKey && (f.keyid + 1) % 256 = x.keyid)) then
        .error (rxRaise (rxCount (freeRx s p f) p 0 1 0 0) 9 f.sdev f.sdev 0 none)
      else .ok (modSess s f.sdev (fun x => { x with
        oldKey := x.oldKey && !cur, oldRx := if cur then [] else x.oldRx, rxFrames := x.rxFrames + 1, used := fc s }))

/-- A frame arrives: past its checks it takes effect and its credits return, or it stays in the receive buffer while its body
answers none. -/
def arrive (s : State) (p : Nat) (f : Frame) (ty : Nat) (body : State → Option State) : State :=
  match rxFront s p f ty with
  | .error s => s
  | .ok s => match body s with
    | some s => freeRx s p f
    | none => modPort s p (fun x => { x with held := x.held ++ [f] })

/-- Hearth that owns a local memory address. -/
def addrHearth (s : State) (a : Nat) : Option Nat :=
  match place a with
  | .deep x => regionHearth s (regionOf x)
  | .win t _ => tileHearth s t
  | _ => none

/-- A window of hearth h grants right bit `right` (0 WR, 1 RD, 2 INC) to the device; `inside` reads words 1
to 3 of the window (12, R303, Table 12-19). -/
def winGrants (s : State) (h dev right : Nat) (inside : Vector Reg 4 → Bool) : Bool :=
  (hearthAt s h).net.lnkWin.toList.any (fun w =>
    let w0 := vget w 0 0
    bit w0 3 && bit w0 right && decide (fld w0 63 44 ≤ dev) && decide (dev ≤ fld w0 43 24) && inside w)
def memInside (a n : Nat) (w : Vector Reg 4) : Bool :=
  let b := fld (vget w 1 0) 43 0
  decide (b ≤ a) && decide (a + n ≤ b + fld (vget w 2 0) 43 0)
def ctrInside (c : Nat) (w : Vector Reg 4) : Bool :=
  decide (fld (vget w 3 0) 63 48 ≤ c) && decide (c ≤ fld (vget w 3 0) 47 32)

/-- The hearth whose window takes the bytes from this device (12, R303). -/
def memWindow (s : State) (dev right a n : Nat) : Option Nat :=
  match addrHearth s a with
  | some h => if winGrants s h dev right (memInside a n) && reach s (some h) a n then some h else none
  | none => none

/-- Refused for want of a window (12, R303). -/
def refuse (s : State) (p : Nat) (f : Frame) (arg0 : Nat) (h : Option Nat) : State :=
  let s := rxRaise (rxCount s p 0 0 0 1) 0x0A f.sdev arg0 0 h
  sendAck (acceptNum s f.sdev f.fnum) f.sdev f.fnum aREFUSED

/-- Payload bytes and increments within the source's limits in this window of 2^16 fc (12, R304): the state
with them counted, or none. -/
def rateTake (s : State) (h dev bytes incs : Nat) : Option State :=
  let w := fc s / 2 ^ 16
  let r := (hearthAt s h).run
  let tab := if r.rateWin = w then r.rate else []
  let u := look tab dev (0, 0)
  let lim := (hearthAt s h).net.lnkRate
  let bm := fld lim 31 0
  let im := fld lim 47 32
  if (bm ≠ 0 ∧ bm < u.1 + bytes) ∨ (im ≠ 0 ∧ im < u.2 + incs) then none
  else some (modRun s h (fun r => { r with rateWin := w, rate := put tab dev (u.1 + bytes, u.2 + incs) }))

/-- Over the limit: nothing is applied (12, R304). -/
def rateRefuse (s : State) (h : Nat) (f : Frame) : State :=
  let s := modNet s h (fun n => { n with lnkRateCnt := bumpSat n.lnkRateCnt 63 32 1 })
  sendAck (rxRaise s 0x0B f.sdev f.sdev 0 (some h)) f.sdev f.fnum aRATE

/-- A frame number already accepted (12, R291, Table 12-20). -/
def ackDup (s : State) (h : Option Nat) (f : Frame) : State :=
  let s := match h with
    | some k => modNet s k (fun n => { n with lnkRateCnt := bumpSat n.lnkRateCnt 31 0 1 })
    | none => s
  sendAck s f.sdev f.fnum aDUP

def isDup (s : State) (f : Frame) : Bool := (sessOf s f.sdev).elim false (fun x => fnumDup x f.fnum)

/-- A provisional frame of a retracted epoch is acknowledged and dropped (15, R364). -/
def discard (s : State) (h : Nat) (f : Frame) : Option State :=
  if f.prov && (hearthAt s h).run.retracted.contains f.epoch then
    let s := modChk s h (fun c => { c with hstat := bumpSat c.hstat 15 0 1 })
    some (sendAck (acceptNum s f.sdev f.fnum) f.sdev f.fnum aOK)
  else none

/-- Committed data bytes of a source and channel (11, R267). -/
def comAdd (s : State) (f : Frame) (n : Nat) : State :=
  modSess s f.sdev (fun x => { x with rx := vmod x.rx f.ch (fun c => { c with com := c.com + n }) })

/-! ### WRITE, READ, CHAIN -/

/-- WRITE (12, R291, R303, R304). -/
def writeBody (p : Nat) (f : Frame) (s : State) : Option State :=
  let a := frameAddr f
  let n := f.payload.length
  if isDup s f then some (ackDup s (addrHearth s a) f)
  else match memWindow s f.sdev 0 a n with
    | none => some (refuse s p f a (addrHearth s a))
    | some h => match discard s h f with
      | some s => some s
      | none => match rateTake s h f.sdev n 0 with
        | none => some (rateRefuse s h f)
        | some s => (devWrite s (some h) .noalloc a f.payload (f.poison.map (· + a / 32))).map (fun s =>
            sendAck (comAdd (acceptNum s f.sdev f.fnum) f n) f.sdev f.fnum aOK)
def rxWrite (s : State) (p : Nat) (f : Frame) : State := arrive s p f fWRITE (writeBody p f)

/-- One RDATA frame of a response (12, Table 12-4). -/
def rdataFrame (s : State) (dev fnum off : Nat) (bs : List Byte) (ps : List Nat) (last : Bool) : State :=
  match sessOf s dev with
  | none => s
  | some x =>
    launch (modSess s dev (fun x => { x with fnumTx := x.fnumTx + 1, txFrames := x.txFrames + 1, used := fc s }))
      { ftype := fRDATA, ch := 6, ddev := dev, sdev := devNo s, fnum := x.fnumTx, keyid := x.keyid, last := last
        psn := !ps.isEmpty, plen := dataUnits bs.length ps
        opx := BitVec.ofNat 128 (fnum % 2 ^ 64 + off * 2 ^ 64), payload := bs, poison := ps }

/-- READ (12, R285, R290, R291): one whose number is recorded is read again; one below every recorded number is a
duplicate. -/
def readBody (p : Nat) (f : Frame) (s : State) : Option State :=
  let a := frameAddr f
  let n := 32 * fld f.opx 79 72
  if (sessOf s f.sdev).elim false (fun x => decide (f.fnum + 16384 ≤ x.fnumHigh)) then some (ackDup s (addrHearth s a) f)
  else match memWindow s f.sdev 1 a n with
    | none => some (refuse s p f a (addrHearth s a))
    | some h => (devRead s (some h) .noalloc a n []).map (fun (s, bs, ps) =>
        let s := acceptNum s f.sdev f.fnum
        let rel := ps.map (fun k => k - a / 32)
        if n / 32 ≤ 127 ∨ rel.isEmpty then rdataFrame s f.sdev f.fnum 0 bs rel true
        else
          let s := rdataFrame s f.sdev f.fnum 0 (bs.take 2048) (rel.filter (fun k => decide (k < 64))) false
          rdataFrame s f.sdev f.fnum 64 (bs.drop 2048) ((rel.filter (fun k => decide (64 ≤ k))).map (· - 64)) true)
def rxRead (s : State) (p : Nat) (f : Frame) : State := arrive s p f fREAD (readBody p f)

/-- The tile's received bytes hold a whole header or row that has not entered the 64-row buffer (04, R107). -/
def chainFull (x : Tile) : Bool :=
  match x.acc.rxHdr with
  | none => decide (32 ≤ x.acc.rx.length)
  | some hd => decide (12 * (leAt hd 4 2 + 1) ≤ x.acc.rx.length)
/-- An earlier CHAIN frame for tile t stays in a receive buffer. -/
def chainHeld (s : State) (t : Nat) (f : Frame) : Bool :=
  (List.range 12).any (fun p => ((portAt s p).held.takeWhile (fun g => decide (g ≠ f))).any (fun g =>
    g.ftype == fCHAIN && fld g.opx 4 0 == t))

/-- CHAIN (04, R107; 12, R303): the bytes join the target tile's remote segment; while a row finds no room the frame keeps
its credits. The window is matched on the first bytes of the tile's accumulator mapping (log 24). -/
def chainBody (p : Nat) (f : Frame) (s : State) : Option State :=
  let t := fld f.opx 4 0
  let n := f.payload.length
  if isDup s f then some (ackDup s (tileHearth s t) f)
  else match memWindow s f.sdev 0 (accBase t) 32 with
    | none => some (refuse s p f (accBase t) (tileHearth s t))
    | some h => match discard s h f with
      | some s => some s
      | none => match rateTake s h f.sdev n 0 with
        | none => some (rateRefuse s h f)
        | some s =>
          if chainFull (tileAt s t) || chainHeld s t f then none
          else
            let s := modTile s t (fun x => { x with acc := { x.acc with
              rxPsn := x.acc.rxPsn ++ f.poison.map (· + x.acc.rx.length / 32), rx := x.acc.rx ++ f.payload } })
            some (sendAck (comAdd (acceptNum s f.sdev f.fnum) f n) f.sdev f.fnum aOK)
def rxChain (s : State) (p : Nat) (f : Frame) : State := arrive s p f fCHAIN (chainBody p f)

/-! ### Ends of send-table entries -/

def findEntry (s : State) (dev fnum : Nat) : Option SendEntry :=
  s.lnk.send.find? (fun e => decide (e.dev.toNat = dev) && decide (e.frame.fnum = fnum))
def dropEntry (s : State) (e : SendEntry) : State := { s with lnk := { s.lnk with send := s.lnk.send.erase e } }
def modEntry (s : State) (dev fnum : Nat) (f : SendEntry → SendEntry) : State :=
  { s with lnk := { s.lnk with send := s.lnk.send.map (fun e => if e.dev.toNat = dev ∧ e.frame.fnum = fnum then f e else e) } }

/-- A request of a bellows core commits and its token returns (10, R225). -/
def reqDone (s : State) (t core grp fnum : Nat) (dev : BitVec 20) : State :=
  match reqIdx s t core grp fnum dev with
  | some i => removeReq s t i
  | none => s

/-- The next frames that waited for this entry's place or increment. -/
def afterEntry (s : State) (dev : Nat) : State := admitDev s dev

/-- An acknowledgement ends an entry (11, R270; 12, R290, R291; 15, R363). -/
def entryAcked (s : State) (e : SendEntry) (status : Nat) : State :=
  let s := dropEntry s e
  let ok := decide (status = aOK) || decide (status = aDUP)
  let s := match e.use with
    | .req t core grp => if ok then reqDone s t.val core grp e.frame.fnum e.dev else reqFail s t.val core grp e.frame.fnum e.dev
    | .inc h amt => bookDone s h.val amt true
    | .notice h r =>
      let s := if e.frame.ftype = fINC then bookDone s h.val 1 true else s
      if ok then
        if e.frame.ftype = fINC then
          modRun s h.val (fun x => { x with notices := x.notices.filter (fun n => !(n.rank == r && n.sent)) })
        else s
      else
        let s := raise s spCHK 0x16 0 (some h.val) 0 0 r
        modRun s h.val (fun x => { x with notices := x.notices.filter (fun n => !(n.rank == r)) })
    | .coll p h => if ok then collAcked s p.val h.val e.frame else s
    | .refetch h a => refetchFail s h.val a
    | .item q k => if ok then itemFrameDone s q k else itemFrameFail s q k (frameAddr e.frame)
    | _ => s
  let s := if !ok && decide (e.frame.ftype = fWRITE ∨ e.frame.ftype = fREAD) then lostRecord s 0x0A status e else s
  afterEntry s e.dev.toNat

/-- An acknowledgement arrives (12, R290). -/
def gotAck (s : State) (dev fnum status : Nat) : State :=
  match findEntry s dev fnum with
  | none => s
  | some e =>
    if status = aRATE ∨ status = aBUSY then
      modEntry s dev fnum (fun e => { e with resends := 0, deferred := some (fc s) })
    else entryAcked s e status

/-- ACK (12, R290, Table 12-5). -/
def rxAck (s : State) (p : Nat) (f : Frame) : State :=
  arrive s p f fACK (fun s => some (
    if isDup s f then s
    else gotAck (acceptNum s f.sdev f.fnum) f.sdev (fld f.opx 63 0) (fld f.opx 71 64)))

/-- Data of a READ reaches its requester, from unit off on (12, R290; 10, R225); none when that write waits. -/
def readData (s : State) (e : SendEntry) (off : Nat) (bs : List Byte) (ps : List Nat) : Option State :=
  match e.use with
  | .req t core grp =>
    match (reqIdx s t.val core grp e.frame.fnum e.dev).bind (fun i => (tileAt s t.val).blw.reqs[i]?), reqHearth s t.val with
    | some r, some h => deliver s h t.val { r with hint := .noalloc } (32 * off) bs ps
    | _, _ => some s
  | .refetch h a => if ps.isEmpty then refetchDone s h.val a bs else some (refetchFail s h.val a)
  | .item q k => itemData s q k (frameAddr e.frame + 32 * off) bs ps
  | _ => some s

/-- RDATA (12, R290): it delivers its units; the entry ends once every unit of the response has arrived. -/
def rdataBody (f : Frame) (s : State) : Option State :=
  if isDup s f then some s
  else
    let rf := fld f.opx 63 0
    let off := fld f.opx 70 64
    match findEntry s f.sdev rf with
    | none => some (acceptNum s f.sdev f.fnum)
    | some e => (readData s e off f.payload f.poison).map (fun s =>
        let s := acceptNum s f.sdev f.fnum
        let n := fld e.frame.opx 79 72
        let units := e.units ++ ((List.range (f.payload.length / 32)).map (· + off)).filter (fun u => decide (u < n) && !e.units.contains u)
        if n ≤ units.length then
          let s := match findEntry s f.sdev rf with
            | some e => dropEntry s e
            | none => s
          let s := match e.use with
            | .req t core grp => reqDone s t.val core grp rf e.dev
            | .item q k => itemFrameDone s q k
            | _ => s
          afterEntry s f.sdev
        else modEntry s f.sdev rf (fun e => { e with units := units }))
def rxRdata (s : State) (p : Nat) (f : Frame) : State := arrive s p f fRDATA (rdataBody f)

/-- SEND_RESEND (12, R290): the copy is due at the end of this fc; an acknowledgement of the same fc comes before it. -/
def resend (s : State) (dev fnum : Nat) : State :=
  match findEntry s dev fnum with
  | none => s
  | some e =>
    let again := fun (s : State) (n : Nat) =>
      modEntry s dev fnum (fun e => { e with sent := fc s, resends := n, deferred := none, due := true })
    if e.due then s
    else match e.deferred with
    | some d => if d + 2 ^ 16 ≤ fc s then again s e.resends else s
    | none =>
      if e.sent + 2 ^ fld s.lnk.topo 57 52 ≤ fc s then
        if e.resends < 4 then again s (e.resends + 1)
        else
          let s := { s with lnk := { s.lnk with ended := min (2 ^ 32 - 1) (s.lnk.ended + 1) } }
          endSession (raise s 0x0A 0x0D 0 none 0 dev) dev
      else s

/-- A WRITE of a bellows request with its bytes read again from their source (12, R290); none when that read waits. -/
def reread (s : State) (e : SendEntry) : Option (State × Frame) :=
  match e.use with
  | .req t core grp =>
    if e.frame.ftype ≠ fWRITE then some (s, e.frame)
    else match (reqIdx s t.val core grp e.frame.fnum e.dev).bind (fun i => (tileAt s t.val).blw.reqs[i]?), reqHearth s t.val with
      | some r, some h =>
        if r.zero || !r.data.isEmpty then some (s, e.frame)
        else (devRead s (some h) .noalloc r.src r.len []).map (fun q =>
          let ps := q.2.2.map (fun k => k - r.src / 32)
          (q.1, { e.frame with payload := q.2.1, poison := ps, psn := !ps.isEmpty, plen := dataUnits r.len ps }))
      | _, _ => some (s, e.frame)
  | _ => some (s, e.frame)

/-- The copies that are due leave, on their present routes. -/
def sendDue (s : State) : State :=
  forEach (s.lnk.send.filter (·.due)) s (fun e s => match reread s e with
    | none => s
    | some (s, f) => launch (modEntry s e.dev.toNat e.frame.fnum (fun e => { e with due := false, frame := f })) f)

/-! ### Remote increments (11, R266 to R270) -/

/-- A remote increment is dropped (11, R266, R269). -/
def incDrop (s : State) (f : Frame) (c : Nat) : State :=
  let h := ctrHearth s c
  let s := match h with
    | some k => modNet s k (fun n => { n with rxcnt := bumpSat n.rxcnt 31 0 1 })
    | none => s
  let s := rxRaise s 0x0A f.sdev c f.ch h spSYN
  sendAck (acceptNum s f.sdev f.fnum) f.sdev f.fnum aREFUSED

def pendTotal (s : State) : Nat :=
  s.lnk.sessions.foldl (fun n x => x.rx.toList.foldl (fun n c => n + c.pend.length) n) 0
def rxChan (s : State) (dev ch : Nat) : RxChan := (sessOf s dev).elim {} (fun x => vget x.rx ch {})
def modRx (s : State) (dev ch : Nat) (f : RxChan → RxChan) : State := modSess s dev (fun x => { x with rx := vmod x.rx ch f })

/-- An increment whose announced bytes have committed is applied (11, R267, R270). -/
def incApply (s : State) (dev ch : Nat) (i : PendInc) : State :=
  let s := modRx s dev ch (fun c => { c with ann := c.ann + i.bytes })
  let s := match i.book with
    | some h => modNet s h (fun n => { n with rxapp := n.rxapp + BitVec.ofNat 64 i.amt })
    | none => s
  freeCr (sendAck (applyInc s i.ctr i.amt) dev i.fnum aOK) i.port i.ch i.cred

/-- INC (11, R266 to R269; 12, R292, R304). One that stays pending keeps its credits. -/
def rxInc (s : State) (p : Nat) (f : Frame) : State :=
  match rxFront s p f fINC with
  | .error s => s
  | .ok s =>
    let c := leAt f.payload 4 2
    let seq := leAt f.payload 8 8
    let i : PendInc := { fnum := f.fnum, ctr := c, bytes := leAt f.payload 16 6, amt := leAt f.payload 24 4
                         port := p, ch := f.ch, cred := frameCredits f, book := ctrHearth s c }
    let h := ctrHearth s c
    let ch := rxChan s f.sdev f.ch
    let free := fun (s : State) => freeRx s p f
    if isDup s f ∧ ch.hwm < seq then free (ackDup s h f)
    else if seq ≤ ch.hwm then free <|
      let s := match h with
        | some k => modNet s k (fun n => { n with rxcnt := bumpSat n.rxcnt 63 32 1 })
        | none => s
      sendAck (acceptNum s f.sdev f.fnum) f.sdev f.fnum aDUP
    else if ch.hwm + 1 < seq then free (incDrop s f c)
    else match h with
      | none => free (incDrop (modRx s f.sdev f.ch (fun x => { x with hwm := seq })) f c)
      | some k =>
        if !winGrants s k f.sdev 2 (ctrInside c) then
          free (incDrop (rxCount (modRx s f.sdev f.ch (fun x => { x with hwm := seq })) p 0 0 0 1) f c)
        else if !(ctrAt s c).rem then free (incDrop (modRx s f.sdev f.ch (fun x => { x with hwm := seq })) f c)
        else if 4096 ≤ pendTotal s then free (sendAck s f.sdev f.fnum aBUSY)
        else match rateTake s k f.sdev 32 1 with
          | none => free (rateRefuse s k f)
          | some s =>
            let s := acceptNum (modRx s f.sdev f.ch (fun x => { x with hwm := seq })) f.sdev f.fnum
            let s := modNet s k (fun n => { n with rxacc := n.rxacc + BitVec.ofNat 64 i.amt })
            if ch.pend.isEmpty ∧ ch.ann + i.bytes ≤ ch.com then incApply s f.sdev f.ch i
            else
              let s := modNet s k (fun n => { n with pend := n.pend + BitVec.ofNat 64 i.amt })
              modRx s f.sdev f.ch (fun x => { x with pend := x.pend ++ [i] })

/-- PENDING_INCREMENT_APPLY (11, R267): increments of one channel apply in sequence order. -/
def pendApply (s : State) (dev ch : Nat) : State :=
  let c := rxChan s dev ch
  match c.pend with
  | i :: rest =>
    if c.ann + i.bytes ≤ c.com then
      let s := modRx s dev ch (fun x => { x with pend := rest })
      let s := match i.book with
        | some h => modNet s h (fun n => { n with pend := n.pend - BitVec.ofNat 64 i.amt })
        | none => s
      incApply s dev ch i
    else s
  | [] => s

/-- INCREMENT_ACK (11, R270): the acknowledgement of an increment. -/
def incAck (s : State) (dev fnum status : Nat) : State :=
  match findEntry s dev fnum with
  | some e => if e.frame.ftype = fINC then gotAck s dev fnum status else s
  | none => s

/-! ### Forwarding (12, R294 to R298, R305) -/

def typeKnown (ty : Nat) : Bool :=
  [fHELLO, fHSK, fWRITE, fREAD, fRDATA, fACK, fINC, fCHAIN, fFLUE, fCOLL, fCLOSE].contains ty

/-- FRAME_FORWARD (12, R295, R296, R305): a frame for another device goes on; one for this device that has a reserved type is
malformed. -/
def forward (s : State) (p : Nat) (f : Frame) : State :=
  if !receives s p then s
  else if f.ddev = devNo s then (if typeKnown f.ftype then s else malformed (freeRx s p f) p f)
  else
    let s := freeRx s p f
    if !typeKnown f.ftype ∨ 128 < f.plen then malformed s p f
    else if f.hops = 0 then noRoute s p f
    else match route s f.ddev f.ch with
      | .port q => putOut s q p { f with hops := f.hops - 1, clsB := classAfter s q f (p % 6 == q % 6) false }
      | .detour q =>
        if 2 ≤ f.dtr then noRoute s p f
        else putOut s q p { f with hops := f.hops - 1, dtr := f.dtr + 1, clsB := true }
      | _ => noRoute s p f

/-! ### Commands -/

/-- WRITE. -/
def execWrite (p : PortId) (f : Frame) (s : State) : Out := .next (rxWrite s p.val f)
/-- READ. -/
def execRead (p : PortId) (f : Frame) (s : State) : Out := .next (rxRead s p.val f)
/-- RDATA. -/
def execRdata (p : PortId) (f : Frame) (s : State) : Out := .next (rxRdata s p.val f)
/-- ACK. -/
def execAck (p : PortId) (f : Frame) (s : State) : Out := .next (rxAck s p.val f)
/-- CHAIN. -/
def execChain (p : PortId) (f : Frame) (s : State) : Out := .next (rxChain s p.val f)
/-- INC. -/
def execInc (p : PortId) (f : Frame) (s : State) : Out := .next (rxInc s p.val f)
/-- CLOSE (12, R302). -/
def execClose (p : PortId) (f : Frame) (s : State) : Out :=
  .next (arrive s p.val f fCLOSE (fun s => some (if isDup s f then s else endSession s f.sdev)))
/-- PENDING_INCREMENT_APPLY. -/
def execPendingIncrementApply (dev : BitVec 20) (ch : Fin 8) (s : State) : Out := .next (pendApply s dev.toNat ch.val)
/-- INCREMENT_ACK. -/
def execIncrementAck (dev : BitVec 20) (fnum status : Nat) (s : State) : Out := .next (incAck s dev.toNat fnum status)
/-- FRAME_FORWARD. -/
def execFrameForward (p : PortId) (f : Frame) (s : State) : Out := .next (forward s p.val f)
/-- SEND_RESEND. -/
def execSendResend (dev : BitVec 20) (fnum : Nat) (s : State) : Out := .next (resend s dev.toNat fnum)
/-- SEND_TABLE_SLOT_FREE (12, R290). -/
def execSendTableSlotFree (s : State) : Out := .next (pumpAll (admitWaiting s))
/-- SESSION_OPEN. -/
def execSessionOpen (p : SessPeer) (s : State) : Out := .next (openSession s p.dev.toNat p.hs)
/-- SESSION_REKEY. -/
def execSessionRekey (p : SessPeer) (s : State) : Out := .next (rekey s p.dev.toNat p.hs)
/-- SESSION_END (12, R302). -/
def execSessionEnd (dev : BitVec 20) (s : State) : Out := .next (endSession s dev.toNat)

end Sys2Proof.Machine
end

