-- ==== Sys2Proof/Machine/Collective.lean ====
section
/-! DEFINITION. The collective engines: rings of descriptors, groups, reduce-scatter, all-gather, PERM and the
flue (08, R190 to R192; 13, R308 to R328). -/

namespace Sys2Proof.Machine

/-! ### Codes of Table 13-12 -/

def lRSVD : Nat := 1
def lFMT : Nat := 2
def lSHAPE : Nat := 3
def lRANGE : Nat := 4
def lGROUP : Nat := 5
def lTMO : Nat := 6
def lSTEP : Nat := 8
def lPERM : Nat := 9
def lPOISON : Nat := 11

/-! ### Phases and rings (13, R312, R313) -/

/-- A phase of an algorithm: reduce or gather, over the whole group, the rows or the columns of TWOD. -/
inductive PhaseKind where
  | whole
  | row
  | col
deriving DecidableEq

structure PhaseOf where
  reduce : Bool
  kind : PhaseKind

/-- Phases of a descriptor, in order. -/
def phasesOf (d : List Byte) : List PhaseOf :=
  let two := Col.alg d == 1
  let rs : List PhaseOf := if two then [⟨true, .row⟩, ⟨true, .col⟩] else [⟨true, .whole⟩]
  let ag : List PhaseOf := if two then [⟨false, .col⟩, ⟨false, .row⟩] else [⟨false, .whole⟩]
  if Col.opc d = oRS then rs else if Col.opc d = oAG then ag else rs ++ ag

/-- A ring as rank r sees it: its length, r's place, the ranks after and before it. -/
structure Ring where
  n : Nat
  pos : Nat
  nextR : Nat
  prevR : Nat

def ringOf (a : ActiveCol) (k : PhaseKind) : Ring :=
  let R := max 1 (Col.param a.desc)
  let C := max 1 (a.n / R)
  let i := a.rank / C
  let j := a.rank % C
  match k with
  | .whole => ⟨a.n, a.rank, (a.rank + 1) % a.n, (a.rank + a.n - 1) % a.n⟩
  | .row => ⟨C, j, i * C + (j + 1) % C, i * C + (j + C - 1) % C⟩
  | .col => ⟨R, i, (i + 1) % R * C + j, (i + R - 1) % R * C + j⟩

/-- Place of chunk c in a ring, and whether the ring carries it. -/
def chunkPos (a : ActiveCol) (k : PhaseKind) (c : Nat) : Nat :=
  let C := max 1 (a.n / max 1 (Col.param a.desc))
  match k with
  | .whole => c
  | .row => c % C
  | .col => c / C
def chunkIn (a : ActiveCol) (ph : PhaseOf) (c : Nat) : Bool :=
  let C := max 1 (a.n / max 1 (Col.param a.desc))
  match ph.kind with
  | .col => c % C == a.rank % C
  | _ => true

/-- Elements of a chunk. -/
def chunkLen (a : ActiveCol) : Nat := Col.nelem a.desc / a.n

/-- Step at which a chunk is received in a phase: none when it never is. -/
def recvStep (a : ActiveCol) (ph : PhaseOf) (c : Nat) : Option Nat :=
  let g := ringOf a ph.kind
  let q := chunkPos a ph.kind c
  let st := if ph.reduce then (2 * g.n + g.pos - q - 2) % g.n else (2 * g.n + g.pos - q - 1) % g.n
  if g.n ≤ 1 ∨ !chunkIn a ph c ∨ g.n ≤ st + 1 then none else some st

/-- `HOP` of a step of phase k (13, Table 13-4; log 32). -/
def hopOf (a : ActiveCol) (k st : Nat) : Nat :=
  if Col.alg a.desc = 1 then k % 4 * 64 + st % 64
  else if Col.opc a.desc = oAR ∧ k = 1 then (a.n - 1 + st) % 256
  else st % 256

/-! ### Chunk headers (13, Table 13-5, R318) -/

def hdrBytes (x : ChunkHdr) : List Byte :=
  leBytes 8 x.step ++ leBytes 4 x.refRank ++ leBytes 4 x.badRank ++ leBytes 1 (b2n x.mis) ++ leBytes 1 x.xst ++
  leBytes 1 x.px ++ leBytes 1 0 ++ leBytes 4 x.ncon ++ leBytes 8 x.badStep
def hdrOf (key : Nat) (b : List Byte) : ChunkHdr :=
  { chunk := key, step := leAt b 0 8, refRank := leAt b 8 4, badRank := leAt b 12 4, mis := leAt b 16 1 % 2 == 1
    xst := leAt b 17 1 % 32, px := leAt b 18 1, ncon := leAt b 20 4, badStep := leAt b 24 8 }
/-- Header of a first contribution. -/
def hdrNew (a : ActiveCol) (key xst : Nat) : ChunkHdr :=
  { chunk := key, step := Col.step a.desc, refRank := a.rank, badRank := 0xFFFFFFFF, mis := false, xst := xst
    px := Col.px a.desc, ncon := 1, badStep := 0 }
/-- This rank adds its contribution to a chunk; `own` is the header of a contribution that is itself a sum. -/
def hdrAdd (a : ActiveCol) (x : ChunkHdr) (own : Option ChunkHdr) : ChunkHdr :=
  let n := own.elim 1 (·.ncon)
  let st := own.elim 0 (·.xst)
  let x := { x with ncon := x.ncon + n, xst := x.xst ||| st }
  if x.mis then x
  else if x.step ≠ Col.step a.desc then { x with mis := true, badRank := a.rank, badStep := Col.step a.desc }
  else match own with
    | some o => if o.mis then { x with mis := true, badRank := o.badRank, badStep := o.badStep } else x
    | none => x

def hdrAt (a : ActiveCol) (key : Nat) : Option ChunkHdr := a.hdr.find? (fun x => x.chunk == key)
def setHdr (s : State) (p h : Nat) (x : ChunkHdr) : State :=
  modActive s p h (fun a => { a with hdr := (a.hdr.filter (fun y => y.chunk != x.chunk)) ++ [x] })
def keyOf (k c : Nat) : Nat := k * 2 ^ 24 + c

/-! ### Elements (13, R315, R316) -/

/-- The sum runs in X96. -/
def inX96 (d : List Byte) : Bool := Col.wfmt d == X96 || Col.cmp d != 0

/-- Element i of packed elements lies in a poisoned sector. -/
def eltBad (bits : Nat) (ps : List Nat) (i : Nat) : Bool :=
  ps.contains (bits * i / 256) || ps.contains ((bits * i + bits - 1) / 256)
/-- Poisoned sectors of packed elements. -/
def badSectors (bits : Nat) (bad : List Bool) : List Nat :=
  (bad.zipIdx.filter (·.1)).foldl (fun l e => insSet (bits * e.2 / 256) (insSet ((bits * e.2 + bits - 1) / 256) l)) []

/-- FP32 or BF16 code widened to binary32. -/
def widen (f c : Nat) : Nat := if f = BF16 then c * 65536 else c
/-- binary32 or X96 in a format, under RNE. -/
def narrow (f : Nat) (x : Num) : Nat :=
  match ffmtOf f with
  | some ff => (ffConvert ff .rne false x).1
  | none => 0

/-- COL_POISON (13, R316): an address of the own contribution, or the sending rank. -/
def colPoison (s : State) (p h : Nat) (a : ActiveCol) (arg : Nat) : State :=
  raise s spCOL lPOISON (Col.group a.desc) (some h) (portAgent p) arg

/-- This rank's own elements [f, f + n) as accumulator codes, with their poison, the status that they raise as
terms; a poisoned one is recorded by its address (R316). None while the read waits. -/
def ownElems (s : State) (p h : Nat) (a : ActiveCol) (f n : Nat) : Option (State × List (Nat × Bool) × Nat) :=
  let d := a.desc
  let lf := Col.lfmt d
  let bits := eltBits lf
  let adr := Col.src d + f * bits / 8
  (engRead s p h adr (n * bits / 8)).map (fun (s, bs, ps) =>
    let s := match ps.head? with
      | some k => colPoison s p h a ((adr / 32 + k) * 32)
      | none => s
    let cs := (unpack bits n bs).map (widen lf)
    let bad := (List.range n).map (eltBad bits ps)
    if inX96 d then
      let ts := cs.map (fun c => x96Term (pOf (Col.px d)) (f32 c))
      (s, (ts.map (fun t => twos 96 t.1)).zip bad, ts.foldl (fun m t => m ||| t.2) 0)
    else (s, cs.zip bad, 0))

/-- Wire codes of accumulator codes. -/
def wireOf (d : List Byte) (c : Nat) : Nat :=
  if Col.wfmt d = X96 then c else narrow (Col.wfmt d) (f32 c)
/-- Accumulator code of a wire code. -/
def fromWire (d : List Byte) (c : Nat) : Nat := if Col.wfmt d = X96 then c else widen (Col.wfmt d) c
/-- Addition of two accumulator codes (13, R315). -/
def accAdd (d : List Byte) (x y : Nat) : Nat := if inX96 d then (x + y) % 2 ^ 96 else add32 x y
/-- A received value and an own one; a poisoned one is not added, and the sum is marked (13, R316). -/
def addPair (d : List Byte) (r o : Nat × Bool) : Nat × Bool :=
  if r.2 || o.2 then (r.1, true) else (accAdd d r.1 o.1, false)

/-- Partial sums kept for a later hop or phase. -/
def keepPart (s : State) (p h f : Nat) (vs : List (Nat × Bool)) : State :=
  modActive s p h (fun a => { a with part := (vs.zipIdx).foldl (fun l e => put l (f + e.2) e.1) a.part })
def dropPart (s : State) (p h f n : Nat) : State :=
  modActive s p h (fun a => { a with part := a.part.filter (fun e => decide (e.1 < f) || decide (f + n ≤ e.1)) })
/-- Kept sums of a range: none when one is missing. -/
def partOf (a : ActiveCol) (f n : Nat) : Option (List (Nat × Bool)) :=
  ((List.range n).map (fun i => look? a.part (f + i))).mapM id

/-- Elements of a range that have been received under a key. -/
def gotCount (a : ActiveCol) (key f n : Nat) : Nat :=
  (a.got.filter (fun g => g.1 == key)).foldl (fun k g => k + (min (f + n) (g.2.1 + g.2.2) - max f g.2.1)) 0
def gotAll (a : ActiveCol) (key f n : Nat) : Bool := decide (n ≤ gotCount a key f n)
def addGot (s : State) (p h key f n : Nat) : State :=
  modActive s p h (fun a => { a with got := a.got ++ [(key, f, n)], lastFc := fc s })

/-- Device of a rank of the descriptor's group. -/
def rankDev (s : State) (h : Nat) (a : ActiveCol) (r : Nat) : Nat := grpDev s h (Col.group a.desc % 64) r

/-- Sums sent as a partial or a contribution, with their header. -/
def sendSums (s : State) (p h : Nat) (a : ActiveCol) (dev hop f : Nat) (vs : List (Nat × Bool)) (x : ChunkHdr) : State :=
  let bits := eltBits (Col.wfmt a.desc)
  sendElems p h a dev hop bits (vs.length / 256 + 1) s f (packElts bits (vs.map (fun v => wireOf a.desc v.1)))
    (badSectors bits (vs.map (·.2))) (some (hdrBytes x))

/-- The shard is reported as not complete. -/
def notComplete (s : State) (p h : Nat) : State :=
  modActive (collFailed s p h (activeIdx s p h)) p h (fun a => { a with incomplete := true })

/-! ### All-gather (13, R313) -/

/-- Elements [f, f + n) of the result, with their bytes and poisoned sectors, go on in phase k, and become this rank's own in
the phase after it. `at'` is the step at which they came, none when they are this rank's own. -/
def gatherOn (p h : Nat) (hdr : Option (List Byte)) (bs : List Byte) (ps : List Nat) :
    List PhaseOf → State → Nat → Option Nat → Nat → Nat → State
  | [], s, _, _, _, _ => s
  | ph :: rest, s, k, at', f, n =>
    match activeAt s p h with
    | none => s
    | some a =>
      let g := ringOf a ph.kind
      let bits := eltBits (Col.lfmt a.desc)
      let sendAt := match at' with
        | none => if 1 < g.n then some 0 else none
        | some i => if i + 2 < g.n then some (i + 1) else none
      let s := match sendAt with
        | some st => sendElems p h a (rankDev s h a g.nextR) (hopOf a k st) bits (n / 256 + 1) s f bs ps hdr
        | none => s
      gatherOn p h hdr bs ps rest s (k + 1) none f n

/-- The gather phases of a descriptor and the number of the first. -/
def gatherPhases (d : List Byte) : List PhaseOf × Nat :=
  let ps := phasesOf d
  (ps.filter (fun q => !q.reduce), (ps.filter (·.reduce)).length)

/-- Own elements [f, f + n) enter the gather. -/
def gatherOwn (s : State) (p h : Nat) (a : ActiveCol) (f n : Nat) (bs : List Byte) (ps : List Nat) : State :=
  let (q, k) := gatherPhases a.desc
  let hdr := if f % chunkLen a = 0 then some (hdrBytes (hdrNew a 0 0)) else none
  gatherOn p h hdr bs ps q s k none f n

/-! ### Final sums (13, R315, R316, R318) -/

/-- COL_STEP (13, R318): REFRANK, BADRANK and both steps. Table 13-12 gives no layout: `ARG0` holds the low 32 bits of each
step, `ARG1` REFRANK and the low 12 bits of BADRANK, `ARG2` the rest of BADRANK. DESIGN CHOICE (log 32). -/
def stepRecord (s : State) (p h group refRank badRank step badStep : Nat) : State :=
  raise s spCOL lSTEP group (some h) (portAgent p) (step % 2 ^ 32 + badStep % 2 ^ 32 * 2 ^ 32)
    (refRank % 2 ^ 20 + badRank % 2 ^ 12 * 2 ^ 20) (badRank / 2 ^ 12 % 2 ^ 8)

/-- Final sums of elements [f, f + n) of the owner's chunk: handed to the quench unit, or written and gathered. A step
mismatch or poison then leaves the shard not complete and retracts the epoch (R316, R318). -/
def finalSums (s : State) (p h : Nat) (a : ActiveCol) (f : Nat) (vs : List (Nat × Bool)) (x : ChunkHdr) (first : Bool) : State :=
  let d := a.desc
  let bad := vs.any (·.2)
  let rel := f - a.rank * chunkLen a
  let s := if (x.mis && first) || bad then notComplete s p h else s
  let s := if Col.qch d then
      modPort s p (fun y => { y with
        qchunks := y.qchunks ++ [(h, { first := rel, vals := vs.map (·.1), x96 := inX96 d, px := Col.px d, mis := x.mis
                                       why := (x.refRank, x.badRank, x.step, x.badStep), poison := bad })]
        qbuf := setFld (setFld y.qbuf 7 0 (fld y.qbuf 7 0 - 1)) 15 8 (fld y.qbuf 15 8 + 1) })
    else
      let lf := Col.lfmt d
      let bits := eltBits lf
      let bs := packElts bits (vs.map (fun v => narrow lf (if inX96 d then x96Num v.1 (pOf (Col.px d)) else f32 v.1)))
      let ps := badSectors bits (vs.map (·.2))
      let off := if Col.opc d = oAR then f else rel
      let s := engWrite s p h .noalloc (Col.dst d + off * bits / 8) bs ps
      if Col.opc d = oAR then gatherOwn s p h a f vs.length bs ps else s
  let s := if x.mis && first then retractEpoch (stepRecord s p h (Col.group d) x.refRank x.badRank x.step x.badStep) h 2 else s
  if bad then retractEpoch s h 7 else s

/-! ### Ring reduce-scatter (13, R312) -/

/-- Chunk c of a reduce phase k is this rank's own contribution `vs`: it is final, it is sent at step 0, or it
waits for the partial that it is added to. -/
def reduceOwn (p h : Nat) : List PhaseOf → State → Nat → Nat → List (Nat × Bool) → ChunkHdr → State
  | [], s, _, c, vs, x => match activeAt s p h with
    | some a => finalSums (dropPart s p h (c * chunkLen a) vs.length) p h a (c * chunkLen a) vs x true
    | none => s
  | ph :: rest, s, k, c, vs, x =>
    match activeAt s p h with
    | none => s
    | some a =>
      let g := ringOf a ph.kind
      let f := c * chunkLen a
      if g.n ≤ 1 then reduceOwn p h rest s (k + 1) c vs { x with chunk := keyOf k c }
      else if chunkPos a ph.kind c = (g.pos + g.n - 1) % g.n then
        dropPart (sendSums s p h a (rankDev s h a g.nextR) (hopOf a k 0) f vs x) p h f vs.length
      else setHdr (keepPart s p h f vs) p h { x with chunk := keyOf (16 + k) c }

/-- The reduce phases that follow phase k. -/
def reduceAfter (d : List Byte) (k : Nat) : List PhaseOf := ((phasesOf d).filter (·.reduce)).drop (k + 1)

/-- The first phase at activation: own chunks that are sent at once, or final at once. -/
def reduceStart (s : State) (p h : Nat) (a : ActiveCol) : Option State :=
  match (phasesOf a.desc).filter (·.reduce) with
  | [] => some s
  | ph :: rest =>
    let g := ringOf a ph.kind
    optEach (List.range a.n) s (fun c s =>
      if g.n ≤ 1 ∧ rest.any (fun q => !chunkIn a q c) then some s
      else if g.n ≤ 1 ∨ chunkPos a ph.kind c = (g.pos + g.n - 1) % g.n then
        (ownElems s p h a (c * chunkLen a) (chunkLen a)).map (fun (s, vs, st) =>
          reduceOwn p h (ph :: rest) s 0 c vs (hdrNew a (keyOf 0 c) st))
      else some s)

/-! ### Compression (13, R322, R323) -/

/-- x of R322 for one element, from contribution and error feedback. -/
def efSum (g e : Nat) : Nat := add32 g e

/-- Order of TOPK: larger magnitude first, NaN above any, ties to the lower index. -/
def topBefore (x y : Nat × Nat) : Bool :=
  let a := f32 x.2
  let b := f32 y.2
  if a.isNan || b.isNan then (a.isNan && !b.isNan) || (a.isNan && b.isNan && decide (x.1 < y.1))
  else
    let m := x.2 % 2 ^ 31
    let n := y.2 % 2 ^ 31
    decide (n < m) || (m == n && decide (x.1 < y.1))

/-- Indexes of the k elements of a block that TOPK keeps, rising. -/
def topkIdx (k : Nat) (xs : List Nat) : List Nat :=
  let ix := (List.range xs.length).zip xs
  (ix.filter (fun x => decide ((ix.filter (fun y => topBefore y x)).length < k))).map (·.1)

/-- Record of a TOPK block. -/
def topkBytes (k : Nat) (xs : List Nat) : List Byte :=
  let is := topkIdx k xs
  let b := is.map (fun i => BitVec.ofNat 8 i) ++ is.flatMap (fun i => leBytes 2 (narrow BF16 (f32 (xs.getD i 0))))
  b ++ List.replicate (cdiv b.length 32 * 32 - b.length) 0
/-- Values that a TOPK record gives, as binary32. -/
def topkVals (k : Nat) (b : List Byte) : List Nat :=
  (List.range 256).map (fun i =>
    match (List.range k).find? (fun j => leAt b j 1 == i) with
    | some j => widen BF16 (leAt b (k + 2 * j) 2)
    | none => 0)

/-- Scale of a SIGN block: the exact mean of |x|, rounded once; NaN or infinity as IEEE 754 adds them. -/
def signScale (xs : List Nat) : Nat :=
  let vs := xs.map (fun x => f32 (x % 2 ^ 31))
  let sum := vs.foldl nAdd (.fin false 0 0)
  match sum with
  | .fin n m e => r32 (.fin n m (e - 8))
  | y => r32 y
/-- Sign bit of R322: negative, -0 or NaN. -/
def signBit (x : Nat) : Bool := decide (2 ^ 31 ≤ x) || (f32 x).isNan
/-- Record of eight SIGN blocks. -/
def signBytes (xs : List Nat) : List Byte :=
  let bits := (xs.zipIdx).foldl (fun v e => if signBit e.1 then v + 2 ^ e.2 else v) 0
  leBytes 256 bits ++ (List.range 8).flatMap (fun j => leBytes 4 (signScale ((xs.drop (256 * j)).take 256)))
def signVals (b : List Byte) : List Nat :=
  (List.range 2048).map (fun i =>
    let neg := leAt b (i / 8) 1 / 2 ^ (i % 8) % 2 == 1
    let sc := leAt b (256 + 4 * (i / 256)) 4
    if neg then (sc + 2 ^ 31) % 2 ^ 32 else sc)

/-- Elements and bytes of one record of a descriptor's compression. -/
def recElems (d : List Byte) : Nat := if Col.cmp d = 2 then 2048 else 256
def recSize (d : List Byte) : Nat := if Col.cmp d = 2 then 288 else cdiv (3 * 2 ^ Col.param d) 32 * 32
def recVals (d : List Byte) (b : List Byte) : List Nat :=
  if Col.cmp d = 2 then signVals b else topkVals (2 ^ Col.param d) b

/-- Compress and send elements [f, f + n) to a rank, record by record, and write their error feedback. -/
def sendPacked (p h : Nat) (a : ActiveCol) (dev : Nat) : Nat → State → Nat → Nat → Bool → Option State
  | 0, s, _, _, _ => some s
  | k + 1, s, f, n, first =>
    if n = 0 then some s
    else
      let d := a.desc
      let m := recElems d
      let lf := Col.lfmt d
      let bits := eltBits lf
      let half := 4 * Col.nelem d
      let adr := Col.src d + f * bits / 8
      let ef := Col.aux d + Col.gen d * half + 4 * f
      (engRead s p h adr (m * bits / 8)).bind (fun (s, gb, gp) => (engRead s p h ef (4 * m)).bind (fun (s, eb, ep) =>
        let xs := ((unpack bits m gb).map (widen lf)).zipWith efSum (unpack 32 m eb)
        let b := if Col.cmp d = 2 then signBytes xs else topkBytes (2 ^ Col.param d) xs
        let e1 := xs.zipWith (fun x v => r32 (nAdd (f32 x) (f32 v).negate)) (recVals d b)
        let bad := !(gp.isEmpty && ep.isEmpty)
        let s := if bad then colPoison s p h a (if gp.isEmpty then (ef / 32 + ep.headD 0) * 32 else (adr / 32 + gp.headD 0) * 32) else s
        let s := engWrite s p h .noalloc (Col.aux d + (1 - Col.gen d) * half + 4 * f) (packElts 32 e1)
          (if bad then List.range (4 * m / 32) else [])
        let ps := if bad then List.range (b.length / 32) else []
        let hd := hdrBytes (hdrNew a 0 0)
        let s := if first then sendColl s p h a dev 0 f true (hd ++ b) (ps.map (· + 1)) else sendColl s p h a dev 0 f false b ps
        sendPacked p h a dev k s (f + m) (n - m) false))

/-! ### DIRECT reduce-scatter (13, R314) -/

def directStart (s : State) (p h : Nat) (a : ActiveCol) : Option State :=
  let len := chunkLen a
  if a.n = 1 then (ownElems s p h a 0 len).map (fun (s, vs, st) => finalSums s p h a 0 vs (hdrNew a 0 st) true)
  else optEach ((List.range a.n).filter (· != a.rank)) s (fun c s =>
    let dev := rankDev s h a c
    if Col.cmp a.desc ≠ 0 then sendPacked p h a dev (len / 256 + 1) s (c * len) len true
    else (ownElems s p h a (c * len) len).map (fun (s, vs, st) =>
      sendSums s p h a dev 0 (c * len) vs (hdrNew a 0 st)))

/-! ### What a received frame comes to -/

inductive FRes where
  /-- it belongs to no active descriptor -/
  | drop
  /-- it is kept in the receive buffer -/
  | hold
  /-- it is accepted: the bytes that a window must grant, and its effect, none while that must wait -/
  | take (addr len : Nat) (f : State → Option State)

/-- Header unit, data and poison of a frame. -/
def frameParts (f : Frame) : Option (List Byte) × List Byte × List Nat :=
  if CollF.first f then (some (f.payload.take 32), f.payload.drop 32, (f.poison.filter (0 < ·)).map (· - 1))
  else (none, f.payload, f.poison)

/-- The port's unit has no free buffer for final sums (14, R349). -/
def noBuffer (s : State) (p : Nat) (d : List Byte) : Bool := Col.qch d && fld (portAt s p).qbuf 7 0 == 0

/-- A received partial has another P than the descriptor (02, R41; log 23): nothing is added, and the ring stops with COL_FMT.
The record is that of the accumulator's X96_PMISMATCH. -/
def pxMismatch (s : State) (p h : Nat) (a : ActiveCol) (px : Nat) : State :=
  let g := Col.group a.desc
  let s := modPort (notComplete s p h) p (fun x => { x with
    ring2 := vmod x.ring2 h (fun r => setFld (setFld (setFld r 63 32 a.dseq) 15 8 lFMT) 7 0 g) })
  retractEpoch (raise s spACC 9 g (some h) (portAgent p) a.dseq px) h 3

/-- Sums of elements from e on, of chunk c in phase k, received at step st of a ring of n: they are final, or the whole chunk
goes on once all of it has come. -/
def reducePass (p h : Nat) (a : ActiveCol) (ph : PhaseOf) (k c e st n : Nat) (x : ChunkHdr) (first : Bool)
    (sum : List (Nat × Bool)) (s : State) : State :=
  let key := keyOf k c
  let lastStep := decide (st + 2 = n)
  let s := addGot (setHdr s p h x) p h key e sum.length
  if lastStep && (reduceAfter a.desc k).isEmpty then finalSums (dropPart s p h e sum.length) p h a e sum x first
  else
    let s := keepPart s p h e sum
    match activeAt s p h with
    | none => s
    | some a =>
      let f := c * chunkLen a
      if !gotAll a key f (chunkLen a) then s
      else match partOf a f (chunkLen a), hdrAt a key with
        | some vs, some x =>
          if lastStep then reduceOwn p h (reduceAfter a.desc k) s (k + 1) c vs x
          else dropPart (sendSums s p h a (rankDev s h a (ringOf a ph.kind).nextR) (hopOf a k (st + 1)) f vs x) p h f (chunkLen a)
        | _, _ => s

/-- A frame of a reduce phase k at its receiver. -/
def reduceFrame (s : State) (p h : Nat) (a : ActiveCol) (ph : PhaseOf) (k : Nat) (f : Frame) : FRes :=
  let d := a.desc
  let bits := eltBits (Col.wfmt d)
  let (hb, data, ps) := frameParts f
  let n := data.length * 8 / bits
  let e := CollF.offset f
  let c := e / chunkLen a
  let key := keyOf k c
  let g := ringOf a ph.kind
  match recvStep a ph c with
  | none => .drop
  | some st =>
    let hdr := match hb with
      | some b => some (hdrOf key b)
      | none => hdrAt a key
    if CollF.hop f ≠ hopOf a k st ∨ f.sdev ≠ rankDev s h a g.prevR ∨ (c + 1) * chunkLen a < e + n ∨ gotCount a key e n ≠ 0 then .drop
    else
      let lastStep := decide (st + 2 = g.n)
      let lastPhase := (reduceAfter d k).isEmpty
      let ownKept := partOf a e n
      match hdr with
      | none => .hold
      | some x =>
        let own := if k = 0 then none else hdrAt a (keyOf (16 + k) c)
        if (k ≠ 0 ∧ (own.isNone ∨ ownKept.isNone)) ∨ (lastStep ∧ lastPhase ∧ noBuffer s p d) then .hold
        else .take (Col.src d + e * eltBits (Col.lfmt d) / 8) (n * eltBits (Col.lfmt d) / 8) (fun s =>
          if x.px ≠ Col.px d ∧ inX96 d then some (pxMismatch s p h a x.px)
          else (match (if k = 0 then none else ownKept) with
            | some vs => some (s, vs, 0)
            | none => ownElems s p h a e n).map (fun (s, vs, st1) =>
              let s := if ps.isEmpty then s else colPoison s p h a g.prevR
              let recv := ((unpack bits n data).map (fromWire d)).zip ((List.range n).map (eltBad bits ps))
              let sum := recv.zipWith (addPair d) vs
              let x1 := if hb.isSome then hdrAdd a x own else x
              reducePass p h a ph k c e st g.n { x1 with chunk := key, xst := x1.xst ||| st1 } hb.isSome sum s))

/-- A frame of a gather phase k. -/
def gatherFrame (s : State) (p h : Nat) (a : ActiveCol) (ph : PhaseOf) (k : Nat) (rest : List PhaseOf) (f : Frame) : FRes :=
  let d := a.desc
  let bits := eltBits (Col.lfmt d)
  let (hb, data, ps) := frameParts f
  let n := data.length * 8 / bits
  let e := CollF.offset f
  let c := e / chunkLen a
  let key := keyOf k c
  let g := ringOf a ph.kind
  match (if ph.kind = .row then recvStep a ph c else if chunkIn a ph c then recvStep a ph c else none) with
  | none => .drop
  | some st =>
    if CollF.hop f ≠ hopOf a k st ∨ f.sdev ≠ rankDev s h a g.prevR ∨ (c + 1) * chunkLen a < e + n ∨ gotCount a key e n ≠ 0 then .drop
    else .take (Col.dst d + e * bits / 8) data.length (fun s =>
      let s := addGot (engWrite s p h .noalloc (Col.dst d + e * bits / 8) data ps) p h key e n
      some (gatherOn p h hb data ps (ph :: rest) s k (some st) e n))

/-- A frame of a DIRECT reduce-scatter at the owner. -/
def directFrame (s : State) (p h : Nat) (a : ActiveCol) (f : Frame) : FRes :=
  let d := a.desc
  let (hb, data, ps) := frameParts f
  let bits := eltBits (Col.wfmt d)
  let packed := Col.cmp d ≠ 0
  let n := if packed then data.length / recSize d * recElems d else data.length * 8 / bits
  let e := CollF.offset f
  let len := chunkLen a
  match (List.range a.n).find? (fun r => r != a.rank && rankDev s h a r == f.sdev) with
  | none => .drop
  | some r =>
    let hdr := match hb with
      | some b => some (hdrOf r b)
      | none => hdrAt a r
    if e / len ≠ a.rank ∨ (a.rank + 1) * len < e + n ∨ CollF.hop f ≠ 0 ∨ gotCount a r e n ≠ 0 then .drop
    else match hdr with
      | none => .hold
      | some x =>
        let others := (List.range a.n).filter (fun q => q != a.rank && q != r)
        let groups := (List.range (n / 256)).map (fun i => e + 256 * i)
        let ready := groups.filter (fun b => others.all (fun q => gotAll a q b 256))
        if !ready.isEmpty ∧ noBuffer s p d then .hold
        else .take (Col.src d + e * eltBits (Col.lfmt d) / 8) (n * eltBits (Col.lfmt d) / 8) (fun s =>
          if x.px ≠ Col.px d ∧ inX96 d then some (pxMismatch s p h a x.px)
          else (match partOf a e n with
            | some vs => some (s, vs, 0)
            | none => ownElems s p h a e n).map (fun (s, own, st1) =>
              let s := if ps.isEmpty then s else colPoison s p h a r
              let recv : List (Nat × Bool) := if packed then
                  let per := recSize d
                  ((List.range (data.length / per)).map (fun i =>
                    let b := (data.drop (i * per)).take per
                    let pz := ps.any (fun q => decide (i * per / 32 ≤ q) && decide (q < (i + 1) * per / 32))
                    (recVals d b).map (fun v => (twos 96 (x96Term (pOf (Col.px d)) (f32 v)).1, pz)))).flatten
                else ((unpack bits n data).map (fromWire d)).zip ((List.range n).map (eltBad bits ps))
              let sum := recv.zipWith (addPair d) own
              let x1 := { (if hb.isSome then hdrAdd a x none else x) with chunk := r }
              let x1 := { x1 with xst := x1.xst ||| st1 }
              let s := keepPart (addGot (setHdr s p h x1) p h r e n) p h e sum
              match activeAt s p h with
              | none => s
              | some a1 =>
                let badHdr := (a1.hdr.find? (fun (y : ChunkHdr) => y.mis)).getD x1
                let first := fun (b : Nat) => b % len == 0
                if ready.length = groups.length then
                  finalSums (dropPart s p h e n) p h a1 e sum badHdr (first e)
                else forEach ready s (fun b s => match partOf a1 b 256 with
                  | some vs => finalSums (dropPart s p h b 256) p h a1 b vs badHdr (first b)
                  | none => s)))

/-- A frame of a PERM: content for one of this device's positions. -/
def permFrame (p h : Nat) (a : ActiveCol) (f : Frame) : FRes :=
  let d := a.desc
  let bits := eltBits (Col.lfmt d)
  let n := f.payload.length * 8 / bits
  let e := CollF.offset f
  let y := e / Col.nelem d
  let i := e % Col.nelem d
  let base := if Col.alg d = 0 then Col.dst d else Col.src d
  let slot := y % permM d
  let adr := permAddr a base y + i * bits / 8
  if permRank a y ≠ a.rank ∨ Col.nelem d < i + n ∨ CollF.first f ∨ gotCount a slot i n ≠ 0 then .drop
  else .take adr f.payload.length (fun s =>
    some (addGot (engWrite s p h .noalloc adr f.payload f.poison) p h slot i n))

/-- A FREE for a position whose new content this device holds (13, R327). -/
def freeFrame (s : State) (p h : Nat) (a : ActiveCol) (f : Frame) : FRes :=
  let d := a.desc
  let y := CollF.offset f / Col.nelem d
  let z := permInv s a y
  if Col.opc d ≠ oPERM ∨ Col.alg d ≠ 1 ∨ a.n * permM d ≤ y ∨ permRank a z ≠ a.rank ∨ a.moves.contains y then .drop
  else .take (permAddr a (Col.src d) z) (slotBytes d) (fun s =>
    some (permRun (modActive s p h (fun b => { b with lastFc := fc s, todo := b.todo ++ [some y] })) p h))

/-- The first phase that takes a frame. -/
def phaseFrame (s : State) (p h : Nat) (a : ActiveCol) (f : Frame) : Nat → List PhaseOf → FRes
  | _, [] => .drop
  | k, ph :: rest =>
    let r := if ph.reduce then reduceFrame s p h a ph k f else gatherFrame s p h a ph k rest f
    match r with
    | .drop => phaseFrame s p h a f (k + 1) rest
    | r => r

/-- What a COLL frame comes to at an active descriptor. -/
def collFits (s : State) (p h : Nat) (a : ActiveCol) (f : Frame) : FRes :=
  let d := a.desc
  if CollF.opc f ≠ Col.opc d ∨ CollF.wfmt f % 256 ≠ Col.wfmt d ∨ CollF.dseq f ≠ a.dseq % 2 ^ 32 then .drop
  else if f.payload.isEmpty then freeFrame s p h a f
  else if Col.opc d = oPERM then permFrame p h a f
  else if Col.alg d = 2 then directFrame s p h a f
  else phaseFrame s p h a f 0 (phasesOf d)

/-! ### Reception of COLL frames (13, R317) -/

/-- The engine and hearth whose active descriptor a frame names, by group and sequence. -/
def collTarget (s : State) (f : Frame) : Option (Nat × Nat × ActiveCol) :=
  ((List.range 12).flatMap (fun p => (List.range 16).map (fun h => (p, h)))).findSome? (fun e =>
    match activeAt s e.1 e.2 with
    | some a =>
      if Col.group a.desc % 64 = CollF.group f ∧ a.dseq % 2 ^ 32 = CollF.dseq f ∧ Col.opc a.desc ≠ oFLUE ∧
          (List.range a.n).any (fun r => rankDev s e.2 a r == f.sdev) then some (e.1, e.2, a)
      else none
    | none => none)

/-- A hearth whose next descriptor of the group the frame names, with the sender as a member. -/
def collNext (s : State) (f : Frame) : Option Nat :=
  (List.range 16).find? (fun h =>
    let g := CollF.group f
    hOn s h && bit (vget (hearthAt s h).net.grp1 g 0) 0 &&
    decide ((vget (hearthAt s h).run.dseq g 0 + 1) % 2 ^ 32 = CollF.dseq f) &&
    (List.range (grpN s h g)).any (fun r => grpDev s h g r == f.sdev))

/-- A hearth that has retracted the epoch of this provisional frame, whose group the sender belongs to (15, R364). -/
def collRetracted (s : State) (f : Frame) : Option Nat :=
  (List.range 16).find? (fun h =>
    let g := CollF.group f
    f.prov && hOn s h && bit (vget (hearthAt s h).net.grp1 g 0) 0 && (hearthAt s h).run.retracted.contains f.epoch &&
    (List.range (grpN s h g)).any (fun r => grpDev s h g r == f.sdev))

/-- A frame that its descriptor takes passes windows, retraction and limits, and takes effect (12, R303, R304; 11, R267). -/
def collAccept (s : State) (p h : Nat) (f : Frame) (addr len : Nat) (g : State → Option State) : Option State :=
  match memWindow s f.sdev 0 addr len with
  | none => some (refuse s p f addr (some h))
  | some k => match discard s k f with
    | some s => some s
    | none => match rateTake s k f.sdev f.payload.length 0 with
      | none => some (rateRefuse s k f)
      | some s => (g (acceptNum s f.sdev f.fnum)).map (fun s => sendAck (comAdd s f f.payload.length) f.sdev f.fnum aOK)

/-- COLL, and FREE when the payload is empty (13, R317): none while the frame stays in the receive buffer. -/
def collBody (p : Nat) (f : Frame) (s : State) : Option State :=
  if isDup s f then some (ackDup s none f)
  else match collTarget s f with
    | none => match (collRetracted s f).bind (fun h => discard s h f) with
      | some s => some s
      | none => if (collNext s f).isSome then none else some (malformed s p f)
    | some (q, h, a) => match collFits s q h a f with
      | .drop => some (malformed s p f)
      | .hold => none
      | .take addr len g => collAccept s p h f addr len g

/-! ### The flue (08, R190 to R192; 13, R324) -/

/-- Receive buffer of a step. -/
def flueBuf (d : List Byte) (st : Nat) : Nat := Col.dst d + st % 2 * Col.nelem d
def descNum (d : List Byte) : Nat := leNat d

/-- The step's check epoch: the descriptor's with `PROV`, else the hearth's (08, R192). -/
def flueEpoch (s : State) (h : Nat) (d : List Byte) : Nat := if Col.prov d then Col.epoch d else epochE s h

/-- Header of the block that ring index i uses at step st (08, Table 08-10). -/
def flueHdr (s : State) (h : Nat) (a : ActiveCol) (i st : Nat) : List Byte :=
  let o := (i + a.n - st % a.n) % a.n
  leBytes 3 (rankDev s h a o) ++ leBytes 1 o ++ leBytes 2 (Config.flueLayer (descNum a.desc)).toNat ++ leBytes 1 st ++
  leBytes 1 (Config.fluePass (descNum a.desc)).toNat ++ leBytes 8 (flueEpoch s h a.desc) ++ leBytes 8 (Col.nelem a.desc) ++ leBytes 8 0

/-- One FLUE frame: it is provisional in every case (08, R192). -/
def sendFlue (s : State) (p h : Nat) (a : ActiveCol) (dev addr : Nat) (bs : List Byte) (ps : List Nat) : State :=
  queueFrame s p h dev { ftype := fFLUE, ch := 5, ddev := dev, sdev := devNo s, prov := true
                         epoch := flueEpoch s h a.desc, psn := !ps.isEmpty
                         plen := dataUnits bs.length ps, opx := opxOf addr (portAgent p), payload := bs, poison := ps }

/-- A block in frames of 126 units. -/
def sendBlock (p h : Nat) (a : ActiveCol) (dev : Nat) : Nat → State → Nat → List Byte → List Nat → List Byte → State
  | 0, s, _, _, _, _ => s
  | k + 1, s, addr, bs, ps, hdr =>
    let now := bs.take 4032
    let q := ps.filter (· < 126)
    let s := sendFlue s p h a dev addr (hdr ++ now) (q.map (· + hdr.length / 32))
    let rest := bs.drop 4032
    if rest.isEmpty then s else sendBlock p h a dev k s (addr + 4032) rest ((ps.filter (126 ≤ ·)).map (· - 126)) []

/-- Bytes of step st received. -/
def flueGot (a : ActiveCol) (st : Nat) : Nat := (a.got.filter (fun g => g.1 == st)).foldl (fun k g => k + g.2.2) 0
def flueFull (a : ActiveCol) (st : Nat) : Bool := decide (Col.nelem a.desc ≤ flueGot a st)

/-- The releases that a flue counter has told of since they were last taken free the buffers used longest ago; a counter
that stands below its last value has been reset (08, R191; 11, R250). -/
def flueSync (s : State) (p h c : Nat) : State :=
  modPort s p (fun x =>
    let v := (ctrAt s c).value.toNat
    let l := vget x.flueSeen h []
    let seen := look l c v
    let n := if seen ≤ v then v - seen else v
    let mine := (vget x.flueTx h []).filter (fun e => e.1 == c)
    let rest := (vget x.flueTx h []).filter (fun e => e.1 != c)
    { x with flueSeen := vput x.flueSeen h (put l c v), flueTx := vput x.flueTx h (mine.drop n ++ rest) })

/-- The block of step st may be sent: it is at hand, and has not been sent. -/
def flueDue (a : ActiveCol) : Bool :=
  let st := a.sent + 1
  Col.opc a.desc == oFLUE && !a.incomplete && decide (st < a.n) && (st == 1 || flueFull a (st - 1))
/-- The neighbour's buffer for the next block has not been released since its last use (08, R191). -/
def flueShut (s : State) (p h : Nat) (a : ActiveCol) : Bool :=
  (vget (portAt s p).flueTx h []).contains (Col.ctr a.desc, (a.sent + 1) % 2)

/-- The next block of a pass leaves when it is at hand and the neighbour's buffer has been released. -/
def flueSend (s : State) (p h : Nat) : State :=
  match activeAt s p h with
  | none => s
  | some a =>
    if !flueDue a then s
    else
      let c := Col.ctr a.desc
      let s := flueSync s p h c
      if flueShut s p h a then modActive s p h (fun b => { b with waitFc := some (b.waitFc.getD (fc s)) })
      else
        let st := a.sent + 1
        let len := Col.nelem a.desc
        let src := if st = 1 then Col.src a.desc else flueBuf a.desc (st - 1)
        let nxt := (a.rank + 1) % a.n
        match engRead s p h src len with
        | none => s
        | some (s, bs, ps) =>
          let s := sendBlock p h a (rankDev s h a nxt) (len / 4032 + 1) s (flueBuf a.desc st) bs ps (flueHdr s h a nxt st)
          let s := modPort s p (fun x => { x with flueTx := vmod x.flueTx h (· ++ [(c, st % 2)]) })
          pump (modActive s p h (fun b => { b with sent := b.sent + 1, waitFc := none })) p

/-- The engine whose active FLUE descriptor takes a frame for a hearth from a device. -/
def flueTarget (s : State) (h dev : Nat) : Option (Nat × ActiveCol) :=
  (List.range 12).findSome? (fun p => match activeAt s p h with
    | some a => if Col.opc a.desc = oFLUE ∧ 1 < a.n ∧ rankDev s h a ((a.rank + a.n - 1) % a.n) = dev then some (p, a) else none
    | none => none)

/-- A FLUE group of the hearth in which the device is this one's predecessor: its next descriptor may take the frame. -/
def flueNext (s : State) (h dev : Nat) : Bool :=
  (List.range 64).any (fun g =>
    let w := vget (hearthAt s h).net.grp1 g 0
    let n := grpN s h g
    bit w 0 && bit w 1 && decide (1 < n) && grpDev s h g ((grpRank s h g + n - 1) % n) == dev)

/-- A block that differs from what R190 expects is discarded (08, R192). -/
def flueBad (s : State) (q h : Nat) (f : Frame) : State :=
  let s := raise (notComplete s q h) 0x12 SYS_HEADER 0 (some h) (portAgent q) f.sdev
  retractEpoch s h 3

/-- Origin, layer and step of a block header, and its byte count (08, R192, Table 08-10). -/
def flueNamed (b : List Byte) : List Byte × List Byte := (b.take 7, (b.drop 16).take 8)

/-- A frame of the first block that is not yet whole reaches its receive buffer. -/
def fluePlace (s : State) (q h : Nat) (a : ActiveCol) (st : Nat) (f : Frame) : State :=
  let adr := frameAddr f
  let len := Col.nelem a.desc
  let base := flueBuf a.desc st
  let first := adr = base
  let data := if first then f.payload.drop 32 else f.payload
  let ps := if first then (f.poison.filter (0 < ·)).map (· - 1) else f.poison
  if first ∧ flueNamed f.payload ≠ flueNamed (flueHdr s h a a.rank st) then flueBad s q h f
  else if adr < base ∨ base + len < adr + data.length then flueBad s q h f
  else flueSend (addGot (engWrite s q h .noalloc adr data ps) q h st (adr - base) data.length) q h

/-- FLUE (08, R190 to R192; 13, R324): a frame that comes before its descriptor is taken stays in the receive buffer. -/
def flueBody (p : Nat) (f : Frame) (s : State) : Option State :=
  let adr := frameAddr f
  if isDup s f then some (ackDup s (addrHearth s adr) f)
  else match memWindow s f.sdev 0 adr f.payload.length with
    | none => some (refuse s p f adr (addrHearth s adr))
    | some h => match discard s h f with
      | some s => some s
      | none => match flueTarget s h f.sdev with
        | none => if flueNext s h f.sdev then none else some (malformed s p f)
        | some (q, a) => match (List.range a.n).find? (fun i => decide (0 < i) && !flueFull a i) with
          | none => none
          | some st => match rateTake s h f.sdev f.payload.length 0 with
            | none => some (rateRefuse s h f)
            | some s => some (fluePlace (sendAck (comAdd (acceptNum s f.sdev f.fnum) f f.payload.length) f.sdev f.fnum aOK) q h a st f)

/-- FLUE_BUFFER_RELEASE (08, R191): compute on the oldest full buffer has ended and its forward has left. -/
def flueRelease (s : State) (p h : Nat) : State :=
  let s := flueSend s p h
  match activeAt s p h with
  | some a =>
    let st := a.released + 1
    if Col.opc a.desc = oFLUE ∧ !a.incomplete ∧ st < a.n ∧ flueFull a st ∧ (st + 1 = a.n ∨ (st < a.sent ∧ a.sendq.isEmpty)) then
      let s := modActive s p h (fun b => { b with released := b.released + 1 })
      issueRemote s (hidOf h) (portAgent p) (rankDev s h a ((a.rank + a.n - 1) % a.n)) (Col.ctr a.desc) 1
    else s
  | none => s

/-! ### Frames in the receive buffer -/

/-- What a frame of a type that may be held comes to. -/
def heldBody (p : Nat) (f : Frame) (s : State) : Option State :=
  if f.ftype = fWRITE then writeBody p f s
  else if f.ftype = fREAD then readBody p f s
  else if f.ftype = fRDATA then rdataBody f s
  else if f.ftype = fCHAIN then chainBody p f s
  else if f.ftype = fFLUE then flueBody p f s
  else collBody p f s

/-- One held frame is tried again: past its checks it leaves the receive buffer. -/
def retryOne (s : State) (p : Nat) (f : Frame) : State :=
  if !(portAt s p).held.contains f then s
  else match heldBody p f s with
    | none => s
    | some s => freeRx (modPort s p (fun x => { x with held := x.held.erase f })) p f

/-- Every held frame is tried, as often as there are held frames: one may let another go on. -/
def retryHeld (s : State) : State :=
  let l := (List.range 12).flatMap (fun p => (portAt s p).held.map (fun f => (p, f)))
  pumpAll (forEach l s (fun _ s => forEach l s (fun e s => retryOne s e.1 e.2)))

/-- A final frame that finds no free quench buffer withholds its credits (14, R349). -/
def noteWithheld (s : State) (p : Nat) (f : Frame) : State :=
  match collTarget s f with
  | some (q, _, a) =>
    if (portAt s p).held.contains f ∧ noBuffer s q a.desc then modPort s q (fun x => { x with withhold := true }) else s
  | none => s

def rxColl (s : State) (p : Nat) (f : Frame) : State :=
  noteWithheld (retryHeld (arrive s p f fCOLL (collBody p f))) p f
def rxFlue (s : State) (p : Nat) (f : Frame) : State := retryHeld (arrive s p f fFLUE (flueBody p f))

/-! ### Checks of a descriptor (13, R309, R310) -/

def ringDesc (s : State) (p h i : Nat) : Nat :=
  let r := vget (portAt s p).ring0 h 0
  fld r 43 6 * 64 + 64 * (i % 2 ^ fld r 5 0)

/-- Group entry words. -/
def grpWord (s : State) (h g : Nat) : Reg := vget (hearthAt s h).net.grp1 g 0

/-- Descriptor fields that must be zero, and operation codes (COL_RSVD). -/
def descRsvd (d : List Byte) : Bool :=
  let o := Col.opc d
  let alg := Col.alg d
  decide (o = 0) || decide (5 < o) || Col.cmp d == 3 || decide (128 ≤ Col.mode d) || decide (32 ≤ Col.wfmt d) ||
  decide (32 ≤ Col.lfmt d) || decide (64 ≤ Col.group d) || leAt d 7 1 != 0 ||
  (decide (o ≤ 3) && (alg == 3 || (alg == 2 && o != oRS))) ||
  (o == oPERM && decide (2 ≤ alg)) || (o == oFLUE && alg != 0) ||
  (Col.qch d && o != oRS && o != oAG) ||
  (o == oAG && fmtRsvd (Col.lfmt d)) || (o == oPERM && fmtRsvd (Col.lfmt d)) ||
  (Col.param d != 0 && !(Col.cmp d == 1 || o == oPERM || (decide (o ≤ 3) && alg == 1)))

/-- COL_FMT. -/
def descFmt (d : List Byte) : Bool :=
  let o := Col.opc d
  let red := o == oRS || o == oAR
  (red && !(Col.lfmt d == FP32 || Col.lfmt d == BF16)) ||
  (red && !(Col.wfmt d == FP32 || Col.wfmt d == BF16 || Col.wfmt d == X96)) ||
  (o == oAG && (Col.wfmt d == X96 || Col.lfmt d == X96)) ||
  (Col.cmp d != 0 && !(o == oRS && Col.alg d == 2)) || decide (96 < Col.px d)

/-- COL_SHAPE of a group of n members. -/
def descShape (d : List Byte) (n : Nat) : Bool :=
  let o := Col.opc d
  let ne := Col.nelem d
  ne % (256 * n) != 0 || (Col.cmp d == 2 && ne % (2048 * n) != 0) ||
  (decide (o ≤ 3) && Col.alg d == 1 && (Col.param d == 0 || n % Col.param d != 0)) ||
  (Col.cmp d == 1 && (decide (Col.param d < 2) || decide (6 < Col.param d)))

/-- Address ranges of a descriptor. -/
def descRanges (d : List Byte) (n : Nat) : List (Nat × Nat) :=
  let b := fun k => eltBytes (Col.lfmt d) k
  let ne := Col.nelem d
  let o := Col.opc d
  if o = oRS then [(Col.src d, b ne)] ++ (if Col.qch d then [] else [(Col.dst d, b (ne / n))]) ++
    (if Col.cmp d = 0 then [] else [(Col.aux d, 8 * ne)])
  else if o = oAG then (if Col.qch d then [] else [(Col.src d, b (ne / n))]) ++ [(Col.dst d, b ne)]
  else if o = oAR then [(Col.src d, b ne), (Col.dst d, b ne)]
  else if o = oPERM then
    [(Col.src d, permM d * slotBytes d), (Col.dst d, if Col.alg d = 0 then permM d * slotBytes d else slotBytes d), (Col.aux d, 4 * n * permM d)]
  else [(Col.src d, ne), (Col.dst d, 2 * ne)]

/-- The group is enabled, of kind FLUE for a FLUE descriptor (R325), lists this device at its rank, and is not bound elsewhere. -/
def groupBad (s : State) (p h : Nat) (d : List Byte) : Bool :=
  let g := Col.group d % 64
  let w := grpWord s h g
  !bit w 0 || decide (grpN s h g ≤ grpRank s h g) || grpDev s h g (grpRank s h g) != devNo s ||
  (bit w 2 && fld w 43 40 != p) || (Col.opc d == oFLUE && !bit w 1)

/-- The table of a PERM is no permutation, or too large (13, R326). -/
def permBad (s : State) (d : List Byte) (n : Nat) : Bool :=
  let k := n * permM d
  decide (2 ^ 22 < k) || (List.range k).any (fun x => decide (k ≤ permAt s d x)) ||
  (List.range k).any (fun y => !(List.range k).any (fun x => permAt s d x == y))

/-- Working formats of an AG that follows a quench job (14, R336): the code of the fault. -/
def agQuenchBad (s : State) (p h : Nat) (d : List Byte) (n : Nat) : Option Nat :=
  if !bit (hearthAt s h).net.qchCfg 0 then some qOFF
  else match vget (portAt s p).jobs h none with
    | none => some qMAP
    | some j =>
      if j.n ≠ Col.nelem d / n ∨ j.map ≠ Col.src d then some qMAP
      else if j.coefs.any (fun c => isMx (Cf.wfmt c.2) || Cf.wfmt c.2 != Col.wfmt d || Cf.wfmt c.2 != Col.lfmt d) then some qFMT
      else none

/-- The first check that a descriptor fails, or the segments of its quench job. -/
def descCheck (s : State) (p h : Nat) (d : List Byte) : Except Nat (List Seg) :=
  if descRsvd d then .error lRSVD
  else if groupBad s p h d then .error lGROUP
  else
    let n := grpN s h (Col.group d)
    if descFmt d then .error lFMT
    else if descShape d n then .error lSHAPE
    else if (descRanges d n).any (fun r => !reach s (some h) r.1 r.2) then .error lRANGE
    else if Col.opc d = oPERM ∧ permBad s d n then .error lPERM
    else if !Col.qch d then .ok []
    else if Col.opc d = oAG then match agQuenchBad s p h d n with
      | some c => .error c
      | none => .ok []
    else qchCheck s h d n

/-! ### DESCRIPTOR_TAKE -/

/-- A descriptor faults (13, R308): the ring stops at it. -/
def descFault (s : State) (p h code dseq group : Nat) : State :=
  let s := collFailed s p h (fld (vget (portAt s p).ring1 h 0) 31 0)
  let s := modPort s p (fun x => { x with ring2 := vmod x.ring2 h (fun r => setFld (setFld (setFld r 63 32 dseq) 15 8 code) 7 0 group) })
  raise s spCOL code group (some h) (portAgent p) dseq

/-- The working values of a run of 256 elements of a quench job (14, R336), in the AG's format; none while a read waits. -/
def agRead (s : State) (p h : Nat) (j : QJob) (bits e : Nat) : Option (State × List Byte × List Nat) :=
  ((List.range 256).foldl (fun o i => o.bind (fun (s, bs, bad) => match elemAt j (e + i) with
    | none => some (s, bs ++ leBytes (bits / 8) 0, bad ++ [false])
    | some (g, c, k) => (engRead s p h (g.oadr + (1 - j.g) * g.gstr + eltBytes (Cf.wfmt c) k) (bits / 8)).map (fun (s, b, ps) =>
        (s, bs ++ b, bad ++ [!ps.isEmpty])))) (some (s, [], []))).map (fun (s, bs, bad) => (s, bs, badSectors bits bad))

/-- Elements [e, e + n) lie in a list of ranges, whole or in part. -/
def rangeCount (l : List (Nat × Nat)) (e n : Nat) : Nat :=
  l.foldl (fun k r => k + (min (e + n) (r.1 + r.2) - max e r.1)) 0

/-- The AG stops at the first withheld element (14, R348). -/
def agStop (s : State) (p h : Nat) (a : ActiveCol) (j : QJob) : State :=
  let g := Col.group a.desc
  let s := modPort (notComplete s p h) p (fun x => { x with
    ring2 := vmod x.ring2 h (fun r => setFld (setFld (setFld r 63 32 a.dseq) 15 8 lSTEP) 7 0 g) })
  retractEpoch (stepRecord s p h g j.why.1 j.why.2.1 j.why.2.2.1 j.why.2.2.2) h 2

/-- The shard of a quench job goes out run by run, each once every element of it has been written, up to the first withheld
element (14, R336, R347, R348). -/
def agGo (p h : Nat) : Nat → State → State
  | 0, s => s
  | k + 1, s => match activeAt s p h, vget (portAt s p).jobs h none with
    | some a, some j =>
      let d := a.desc
      let len := chunkLen a
      let bits := eltBits (Col.lfmt d)
      let e := 256 * a.sent
      if Col.opc d ≠ oAG ∨ !Col.qch d ∨ a.incomplete ∨ len ≤ e then s
      else if 0 < rangeCount j.withheld e 256 then agStop s p h a j
      else if rangeCount j.written e 256 < 256 then s
      else match agRead s p h j bits e with
        | none => s
        | some (s, bs, ps) =>
          let f := a.rank * len + e
          let s := engWrite s p h .noalloc (Col.dst d + f * bits / 8) bs ps
          agGo p h k (modActive (gatherOwn s p h a f 256 bs ps) p h (fun b => { b with sent := b.sent + 1 }))
    | _, _ => s
def agRun (s : State) (p h : Nat) : State := agGo p h ((activeAt s p h).elim 0 (fun a => chunkLen a / 256 + 1)) s

/-- The own shard of an AG stands at `DST` and is sent; the shard of a quench job comes from its working weights. -/
def agStart (s : State) (p h : Nat) (a : ActiveCol) : Option State :=
  let d := a.desc
  let len := chunkLen a
  let bits := eltBits (Col.lfmt d)
  if Col.qch d then some (agRun s p h)
  else (engRead s p h (Col.src d) (len * bits / 8)).map (fun (s, bs, ps) =>
    gatherOwn (engWrite s p h .noalloc (Col.dst d + a.rank * len * bits / 8) bs ps) p h a (a.rank * len) len bs ps)

/-- PERM at its start (13, R326, R327): GEN sends every position at once; INPLACE stages its first cycle. -/
def permStart (s : State) (p h : Nat) (a : ActiveCol) : Option State :=
  let m := permM a.desc
  if Col.alg a.desc = 0 then
    optEach (List.range m) s (fun i s =>
      (permMove s p h a (Col.src a.desc + i * slotBytes a.desc) (Col.dst a.desc) (permAt s a.desc (a.rank * m + i))).map (·.1))
  else some (permRun (modActive s p h (fun b => { b with cycles := ledCycles s a, todo := [none] })) p h)

/-- The work that a descriptor begins with; none while a read of it waits. One without elements has none (log 32). -/
def colStart (s : State) (p h : Nat) (a : ActiveCol) : Option State :=
  let o := Col.opc a.desc
  if Col.nelem a.desc = 0 then some s
  else if o = oFLUE then some (flueSend (flueSync s p h (Col.ctr a.desc)) p h)
  else if o = oPERM then permStart s p h a
  else if o = oAG then agStart s p h a
  else if Col.alg a.desc = 2 then directStart s p h a
  else reduceStart s p h a

/-- What an active descriptor can still do by itself. -/
def colGo (s : State) (p h : Nat) : State := agRun (permRun (flueSend s p h) p h) p h

/-- What the engine reads of a descriptor that passed its checks, beside its tensors: the member list, the permutation table,
the shard map and its coefficients. -/
def descTables (s : State) (h : Nat) (d : List Byte) (segs : List Seg) : List (Nat × Nat) :=
  let g := Col.group d % 64
  let n := grpN s h g
  let coef := fld (hearthAt s h).net.qchCfg 43 14 * 16384 + genOf s h * 16384
  ([(grpList s h g, 4 * n)] ++ (if Col.opc d = oPERM then [(Col.aux d, 4 * n * permM d)] else []) ++
    (if segs.isEmpty then [] else [(Col.dst d, 64 * segs.length)]) ++ segs.map (fun (x : Seg) => (coef + 64 * x.group, 64))).filter
      (fun r => reach s (some h) r.1 r.2)

/-- A descriptor of an enabled group that is not bound elsewhere is the group's next, and binds it (13, R311). -/
def groupTake (s : State) (p h g : Nat) : State :=
  let w := grpWord s h g
  if !bit w 0 || (bit w 2 && fld w 43 40 != p) then s
  else
    let s := modRun s h (fun y => { y with dseq := vmod y.dseq g (· + 1) })
    modNet s h (fun y => { y with grp1 := vmod y.grp1 g (fun w => setBit (setFld w 43 40 p) 2 true) })

/-- A descriptor that passed its checks becomes active; none while a read of its own work waits. -/
def descStart (s : State) (p h : Nat) (d : List Byte) (segs : List Seg) : Option State :=
  let g := Col.group d % 64
  let n := grpN s h g
  let s := groupTake s p h g
  let dseq := vget (hearthAt s h).run.dseq g 0
  let a : ActiveCol := { desc := d, dseq := dseq, n := n, rank := grpRank s h g, lastFc := fc s, cyc := s.cyc }
  let s := modPort s p (fun x => { x with ring1 := vmod x.ring1 h (fun r => bumpMod r 31 0 1) })
  let c := Col.ctr d
  let s := if ctrIn s h c then (claimCtr s c (portAgent p)).getD (synRefuse s 6 (some h) (portAgent p) c) else s
  let s := if Col.opc d = oRS ∧ Col.qch d then qchStart s p h d n dseq segs else s
  colStart (setActive s p h (some a)) p h a

/-- A descriptor at the head of a ring is read and checked (13, R308, R309, R311); none while a read waits. One that lies in a
poisoned sector, or a table of which does, faults with COL_POISON (log 32). -/
def descNext (s : State) (p h adr : Nat) : Option State :=
  (engRead s p h adr 64).bind (fun (s, d, ps) =>
    let g := Col.group d % 64
    let fault := fun (s : State) (c : Nat) =>
      let s := groupTake s p h g
      descFault s p h c (vget (hearthAt s h).run.dseq g 0) g
    if !ps.isEmpty then some (descFault s p h lPOISON 0 0)
    else match descCheck s p h d with
      | .error c => some (fault s c)
      | .ok segs => (engSee p h (descTables s h d segs) s).bind (fun (s, bad) =>
          if bad.isSome then some (fault s lPOISON) else descStart s p h d segs))

/-- DESCRIPTOR_TAKE (13, R308): the next descriptor of a ring; an engine whose descriptor is active serves it. -/
def descTake (s : State) (p h : Nat) : State :=
  let x := portAt s p
  let r1 := vget x.ring1 h 0
  let head := fld r1 31 0
  if (activeAt s p h).isSome then retryHeld (colGo s p h)
  else if portState s p = 0 ∨ !hOn s h ∨ fld (vget x.ring2 h 0) 15 8 ≠ 0 ∨ fld r1 63 32 = head then s
  else
    let adr := ringDesc s p h head
    if !reach s (some h) adr 64 then descFault s p h lRANGE 0 0
    else match descNext s p h adr with
      | none => s
      | some n => retryHeld n

/-! ### COLLECTIVE_COMPLETE (13, R319) -/

/-- Every chunk that the phases receive has been received. -/
def allReceived (a : ActiveCol) : Bool :=
  let len := chunkLen a
  if Col.alg a.desc = 2 then
    (List.range a.n).all (fun r => r == a.rank || gotAll a r (a.rank * len) len)
  else (phasesOf a.desc).zipIdx.all (fun q => (List.range a.n).all (fun c =>
    (recvStep a q.1 c).isNone || gotAll a (keyOf q.2 c) (c * len) len))

/-- Frames of the descriptor that are not acknowledged. -/
def unacked (s : State) (p h : Nat) (a : ActiveCol) : Bool :=
  !a.sendq.isEmpty || (s.lnk.send ++ s.lnk.waiting).any (fun e => decide (e.use = .coll (pidOf p) (hidOf h)) &&
    CollF.dseq e.frame == a.dseq % 2 ^ 32 && e.frame.ftype == fCOLL)

/-- Own positions whose content a PERM moves elsewhere (13, R326, R327). -/
def permOwn (s : State) (a : ActiveCol) : List Nat :=
  ((List.range (permM a.desc)).map (· + a.rank * permM a.desc)).filter (fun x =>
    Col.nelem a.desc != 0 && permAt s a.desc x != x)
/-- Every move of an INPLACE that this device makes has committed (R319). -/
def permMoved (s : State) (a : ActiveCol) : Bool :=
  Col.alg a.desc == 0 || (decide ((permOwn s a).length ≤ a.sent) && a.cycles.isEmpty && a.moves.isEmpty)
/-- The own shard of an AG has been sent on. -/
def agSent (a : ActiveCol) : Bool := !(Col.opc a.desc == oAG && Col.qch a.desc) || decide (chunkLen a ≤ 256 * a.sent)

/-- The engine's whole part of the collective is done, and its writes have committed. The last write of a quench job counts
once its fc has passed: a retraction of that fc wins (14, R346). -/
def colDone (s : State) (p h : Nat) (a : ActiveCol) : Bool :=
  let d := a.desc
  let o := Col.opc d
  !writesWait s (.port (pidOf p)) && a.sendq.isEmpty && a.todo.isEmpty &&
  (if o = oFLUE then decide (a.n ≤ a.sent + 1) && decide (a.n ≤ a.released + 1)
  else if o = oPERM then !unacked s p h a && permMoved s a
  else
    allReceived a && agSent a &&
    (!(o == oRS && Col.qch d) || (match vget (portAt s p).jobs h none with
      | some j => decide (j.n ≤ rangeCount (j.written ++ j.withheld) 0 j.n) && decide (j.lastFc < fc s)
      | none => false)))

/-- COLLECTIVE_COMPLETE: the descriptor ends, with its increment when the shard is complete; its window ends when that is
applied (R331). -/
def colComplete (s : State) (p h : Nat) : State :=
  match activeAt s p h with
  | none => s
  | some a =>
    if fld (vget (portAt s p).ring2 h 0) 15 8 ≠ 0 ∨ !colDone s p h a then s
    else
      let d := a.desc
      let s := setActive s p h none
      if !a.incomplete ∧ Col.opc d ≠ oFLUE ∧ ctrIn s h (Col.ctr d) then
        issueWith s (some h) (Col.ctr d) (Col.amt d) (some (a.cyc, Col.phase d, portAgent p)) []
      else
        let s := if a.incomplete ∨ Col.opc d = oFLUE then s else synRefuse s 2 (some h) (portAgent p) (Col.ctr d)
        phaseEntry s h a.cyc (Col.phase d) (portAgent p) 1

/-! ### COL_TMO (13, R320, R328; 08, R191) -/

/-- Rank whose frames a PERM waits for: the holder of content that it lacks, or the one that frees a position it moves into. -/
def permWaits (s : State) (a : ActiveCol) : Option Nat :=
  let own := (List.range (permM a.desc)).map (· + a.rank * permM a.desc)
  let lacks := own.filter (fun y => !gotAll a (y % permM a.desc) 0 (Col.nelem a.desc) &&
    (Col.alg a.desc == 0 || permAt s a.desc y != y))
  let to' := if Col.alg a.desc = 0 then [] else permOwn s a
  (lacks.map (fun y => permRank a (permInv s a y)) ++ to'.map (fun z => permRank a (permAt s a.desc z))).find? (· != a.rank)

/-- Rank whose frames the engine waits for. -/
def waitsFor (s : State) (a : ActiveCol) : Nat :=
  let len := chunkLen a
  let o := Col.opc a.desc
  let prev := (a.rank + a.n - 1) % a.n
  if o = oFLUE then prev
  else if o = oPERM then (permWaits s a).getD prev
  else if Col.alg a.desc = 2 then ((List.range a.n).find? (fun r => r != a.rank && !gotAll a r (a.rank * len) len)).getD 0
  else match (phasesOf a.desc).zipIdx.find? (fun q => (List.range a.n).any (fun c =>
      (recvStep a q.1 c).isSome && !gotAll a (keyOf q.2 c) (c * len) len)) with
    | some q => (ringOf a q.1.kind).prevR
    | none => prev

/-- The engine waits for a frame. -/
def colWaits (s : State) (a : ActiveCol) : Bool :=
  let o := Col.opc a.desc
  if o = oFLUE then (List.range a.n).any (fun i => decide (0 < i) && !flueFull a i)
  else if o = oPERM then
    !permMoved s a || (List.range (permM a.desc)).any (fun i => !gotAll a i 0 (Col.nelem a.desc) &&
      (Col.alg a.desc == 0 || permAt s a.desc (a.rank * permM a.desc + i) != a.rank * permM a.desc + i))
  else !allReceived a

/-- COL_TMO (13, R320; 08, R191). The flue's wait for a release ends with the record of a counter's time-out, and one of
COL_TMO that names the neighbour (log 32). -/
def colTmo (s : State) (p h : Nat) : State :=
  match activeAt s p h with
  | none => s
  | some a =>
    let g := Col.group a.desc % 64
    if a.incomplete ∨ fld (vget (portAt s p).ring2 h 0) 15 8 ≠ 0 then s
    else
      let n := flueSend s p h
      match (activeAt n p h).bind (·.waitFc) with
      | some w =>
        if w + 2 ^ fld (hearthAt s h).net.synCfg 29 24 ≤ fc s then
          let c := Col.ctr a.desc
          let x := ctrAt n c
          let nxt := rankDev n h a ((a.rank + 1) % a.n)
          let s := tmoRecord (notComplete n p h) (some h) c (min (2 ^ 48 - 1) (x.value.toNat + 1)) (portAgent p)
          retractEpoch (raise s spCOL lTMO g (some h) (portAgent p) a.dseq nxt) h 3
        else n
      | none =>
        if colWaits n a ∧ a.lastFc + 2 ^ fld (hearthAt n h).net.colCfg 5 0 ≤ fc n then
          let w := waitsFor n a
          let s := colStop n p h lTMO a.dseq g a.dseq w
          retractEpoch (cyclesLost s p h lTMO g a w) h 3
        else n

/-! ### Registers with behaviour -/

/-- COL_RING_POST: a write of `TAIL`. -/
def ringPost (s : State) (a : Agent) (p h tail : Nat) : State :=
  if !mayHearth s a h then misuse s SYS_UNMAPPED a (portReg p (0x1000 + 0x20 * h + 8))
  else modPort s p (fun x => { x with ring1 := vmod x.ring1 h (fun r => setFld r 63 32 tail) })

/-- RESTART (13, R308): the faulting descriptor is skipped. -/
def ringRestart (s : State) (a : Agent) (p h : Nat) : State :=
  if !mayHearth s a h then misuse s SYS_UNMAPPED a (portReg p (0x1000 + 0x20 * h + 16))
  else if fld (vget (portAt s p).ring2 h 0) 15 8 = 0 then s
  else
    let act := (activeAt s p h).isSome
    modPort (dropActive s p h) p (fun x => { x with
      ring1 := if act then x.ring1 else vmod x.ring1 h (fun r => bumpMod r 31 0 1)
      ring2 := vput x.ring2 h 0 })

/-- A descriptor of the group is active or queued at an engine (13, R311). -/
def groupInUse (s : State) (h g : Nat) : Bool :=
  (List.range 12).any (fun p =>
    let r1 := vget (portAt s p).ring1 h 0
    let n := (fld r1 63 32 + 2 ^ 32 - fld r1 31 0) % 2 ^ 32
    (match activeAt s p h with
      | some a => Col.group a.desc % 64 == g
      | none => false) ||
    (List.range n).any (fun i => Col.group (readMem s.mem (ringDesc s p h (fld r1 31 0 + i)) 64) % 64 == g))

/-- COL_GRP_WRITE (13, R311, Table 13-14). -/
def grpWrite (s : State) (a : Agent) (h g word value : Nat) : State :=
  let adr := hearthReg h (0xC00 + 16 * g + 8 * word)
  if !mayHearth s a h then misuse s SYS_UNMAPPED a adr
  else if groupInUse s h g then misuse s SYS_BUSY a adr
  else
    let v : Reg := BitVec.ofNat 64 value
    if word = 0 then modNet s h (fun n => { n with grp0 := vput n.grp0 g v })
    else
      let en := bit v 0
      let s := modNet s h (fun n => { n with grp1 := vmod n.grp1 g (fun r =>
        let r := setFld (setFld r 63 44 (fld v 63 44)) 1 0 (fld v 1 0)
        if en then r else setFld r 43 40 0 &&& ~~~(4#64)) })
      if en then s else modRun s h (fun y => { y with dseq := vput y.dseq g 0 })

/-- QUENCH_BUFFER_FREE (14, R349): final frames that were held back go on. -/
def bufferFree (s : State) (p : Nat) : State :=
  if (portAt s p).withhold ∧ fld (portAt s p).qbuf 7 0 ≠ 0 then
    retryHeld (modPort s p (fun x => { x with withhold := false }))
  else s

/-! ### Commands -/

/-- COLL. -/
def execColl (p : PortId) (f : Frame) (s : State) : Out := .next (if f.payload.isEmpty then s else rxColl s p.val f)
/-- FREE. -/
def execFree (p : PortId) (f : Frame) (s : State) : Out := .next (if f.payload.isEmpty then rxColl s p.val f else s)
/-- FLUE. -/
def execFlue (p : PortId) (f : Frame) (s : State) : Out := .next (rxFlue s p.val f)
/-- COL_RING_POST. -/
def execColRingPost (a : Agent) (p : PortId) (h : HearthId) (tail : Nat) (s : State) : Out := .next (ringPost s a p.val h.val tail)
/-- DESCRIPTOR_TAKE. -/
def execDescriptorTake (p : PortId) (h : HearthId) (s : State) : Out := .next (descTake s p.val h.val)
/-- RESTART. -/
def execRestart (a : Agent) (p : PortId) (h : HearthId) (s : State) : Out := .next (ringRestart s a p.val h.val)
/-- COL_GRP_WRITE. -/
def execColGrpWrite (a : Agent) (h : HearthId) (g : Fin 64) (word : Fin 2) (value : Nat) (s : State) : Out :=
  .next (grpWrite s a h.val g.val word.val value)
/-- COLLECTIVE_COMPLETE. -/
def execCollectiveComplete (p : PortId) (h : HearthId) (s : State) : Out := .next (colComplete s p.val h.val)
/-- COL_TMO. -/
def execColTmo (p : PortId) (h : HearthId) (s : State) : Out := .next (colTmo s p.val h.val)
/-- FLUE_BUFFER_RELEASE. -/
def execFlueBufferRelease (p : PortId) (h : HearthId) (s : State) : Out := .next (flueRelease s p.val h.val)
/-- QUENCH_BUFFER_FREE. -/
def execQuenchBufferFree (p : PortId) (s : State) : Out := .next (bufferFree s p.val)

end Sys2Proof.Machine
end

