-- ==== Sys2Proof/Machine/Ports.lean ====
section
/-! DEFINITION. Flits, link-level retry, port states and partner admission (12, R281 to R286, R300, R301,
R306, R307). -/

namespace Sys2Proof.Machine

/-- Port states of Table 12-9. -/
def pOFF : Nat := 0
def pTRAINING : Nat := 1
def pADMITTING : Nat := 2
def pUP : Nat := 3
def pDOWN : Nat := 4
def pREJECTED : Nat := 5
def pDRAINING : Nat := 6

def setPort (s : State) (p st : Nat) : State :=
  modPort s p (fun x => { x with state := setFld x.state 2 0 st, since := fc s })
def setLcode (s : State) (p code : Nat) : State := modPort s p (fun x => { x with state := setFld x.state 15 8 code })
def elapsed (s : State) (p k : Nat) : Bool := decide ((portAt s p).since + 2 ^ k ≤ fc s)
def modLl (s : State) (p : Nat) (f : LinkLayer → LinkLayer) : State := modPort s p (fun x => { x with ll := f x.ll })

/-- Frames waiting to leave on a port are routed again (12, R296, R297, R306). -/
def reroute (s : State) (p : Nat) : State :=
  let fs := (portAt s p).outq
  let s := modPort s p (fun x => { x with outq := [], waitFc := none })
  forEach fs s (fun (g, f) s => match route s f.ddev f.ch with
    | .port q => putOut s q g { f with clsB := classAfter s q f false false }
    | .detour q => if 2 ≤ f.dtr then noRoute s p f else putOut s q g { f with dtr := f.dtr + 1, clsB := true }
    | _ => noRoute s p f)

/-- A port leaves UP: its counters lose their owner and its traffic takes other routes (11, R264; 12, R306). -/
def outOfService (s : State) (p st : Nat) : State :=
  let s := setPort s p st
  let s := ownerGone s (0x300000 + p)
  reroute s p

/-- An UP port goes DOWN with a cause (12, R306, R307). -/
def portDown (s : State) (p code : Nat) : State :=
  if portUp s p then outOfService (raise (setLcode s p code) 0x0A code 0 none (0x300000 + p) p) p pDOWN else s

/-- The port sends and receives flits (12, R306). -/
def linked (s : State) (p : Nat) : Bool := portUp s p || decide (portState s p = pADMITTING)

/-- The sender replays from a flit that it has sent, in order (12, R283, R284). -/
def replayFrom (s : State) (p fseq : Nat) : State :=
  let back := ((portAt s p).ll.txNext + 32768 - fseq) % 32768
  if linked s p && decide (0 < back) && decide (back ≤ 16384) then
    let s := modPort s p (fun x => { x with retry := bumpMod x.retry 31 0 1 })
    let s := modLl s p (fun l => { l with repFrom := fseq, repCount := if l.repFrom = fseq then l.repCount + 1 else 1, ackFc := fc s })
    let s := emit s (.link p 1 fseq)
    if 8 ≤ (portAt s p).ll.repCount then portDown s p 3 else s
  else s

/-- The acknowledgement of flit a covers flit k: it is a or one of the flits before it (12, Table 12-2). -/
def covers (a k : Nat) : Bool := decide ((a + 32768 - k) % 32768 < 16384)
/-- The flits up to a number are acknowledged (12, Table 12-2). -/
def ackFlits (s : State) (p a : Nat) : State :=
  modLl s p (fun l =>
    if l.kept.any (covers a) then { l with kept := l.kept.filter (fun k => !covers a k), ackFc := fc s, repCount := 0 } else l)

/-- A lane whose flits disagree with their stream position 16 times in a row has lost lock (12, R282). -/
def laneCount (s : State) (p : Nat) (f : Flit) : State :=
  modLl s p (fun l => { l with lane := vmod l.lane (f.phys % 8) (fun n => if f.lane = f.fseq % 8 then 0 else n + 1) })

/-- FEC and FCRC counts of a flit (12, Table 12-14). -/
def flitCounts (s : State) (p : Nat) (f : Flit) : State :=
  modPort s p (fun x => { x with
    fec := let y := if f.corrected then bumpMod x.fec 63 32 1 else x.fec
           if f.uncorrectable then bumpMod y 31 0 1 else y
    retry := if !f.uncorrectable && !f.fcrcOk then bumpMod x.retry 63 32 1 else x.retry })

/-- The credits that a flit returns, per channel (12, R286, Table 12-2). -/
def takeCredits (s : State) (p : Nat) (cret : List Nat) : State :=
  if cret.all (· == 0) then s
  else
    let s := modPort s p (fun x => crSet x (cret.zipIdx.foldl (fun l e => crBack e.2 e.1 l) x.ll.crOut))
    serveOut (modLl s p (fun l => { l with credFc := fc s })) p

/-- A good flit in order: its frame bytes, its acknowledgement, its credits and its replay request (12, R283, R284). -/
def flitTake (s : State) (p : Nat) (f : Flit) : State :=
  let s := modLl s p (fun l => { l with rxNext := (l.rxNext + 1) % 32768, discarding := false })
  let s := if f.ft = 0 then modPort s p (fun x => { x with crd := setFld x.crd 47 32 (fld x.crd 47 32 + f.takes) }) else s
  let s := if f.ackValid then ackFlits s p f.ack else s
  let s := takeCredits s p f.cret
  if f.ackValid && f.replay then replayFrom s p ((f.ack + 1) % 32768) else s

/-- FLIT_RECEIVE (12, R282, R283, R286). After a discard the next flit sent asks for the one expected. -/
def flitIn (s : State) (p : Nat) (f : Flit) : State :=
  if !linked s p then s
  else
    let s := flitCounts s p f
    let good := !f.uncorrectable && f.fcrcOk
    let s := if good then laneCount s p f else s
    if 16 ≤ vget (portAt s p).ll.lane (f.phys % 8) 0 then portDown s p 2
    else
      let l := (portAt s p).ll
      if !good ∨ 2 ≤ f.ft ∨ f.fseq ≠ l.rxNext then
        modLl s p (fun l => { l with discarding := true, ask := l.ask || !l.discarding })
      else flitTake s p f

/-- REPLAY_TIMEOUT (12, R283). -/
def replayTimeout (s : State) (p : Nat) : State :=
  let l := (portAt s p).ll
  match l.kept with
  | k :: _ => if linked s p && decide (l.ackFc + 2 ^ fld (portAt s p).cfg 5 0 ≤ fc s) then replayFrom s p k else s
  | [] => s

/-- LNK_CREDIT (12, R286, Table 12-9). -/
def creditTimeout (s : State) (p : Nat) : State :=
  let x := portAt s p
  match x.waitFc with
  | some w => if max w x.ll.credFc + 2 ^ fld x.cfg 11 6 ≤ fc s then portDown s p 4 else s
  | none => s

/-- PORT_ENABLE (12, R293, Table 12-9): the port has the role of the device's mode and is not excluded (15, R372). -/
def portEnable (s : State) (p : Nat) : State :=
  if portState s p = pOFF ∧ portRole s p = (if switched s then 2 else 1) ∧ !bit s.recs.excl1 p then setPort s p pTRAINING else s

/-- PORT_DISABLE (12, Table 12-9). -/
def portDisable (s : State) (p : Nat) : State :=
  let st := portState s p
  if st = pUP then outOfService s p pDRAINING
  else if st = pADMITTING ∨ st = pTRAINING then setPort s p pDRAINING
  else s

/-- A message of the port's own handshake leaves, in one data flit (log 58). -/
def sendHs (s : State) (p kind step : Nat) : State := sendFlit (emit s (.link p kind step)) p 0

/-- LANES_LOCKED (12, R281, Table 12-9): the link layer starts anew, and HELLO is sent. The frames that the receive buffer
still holds keep their place. -/
def lanesLocked (s : State) (p : Nat) : State :=
  if portState s p = pTRAINING then
    let l : LinkLayer := { ackFc := fc s, credFc := fc s }
    let s := modPort s p (fun x => { x with
      ll := l, crd := BitVec.ofNat 64 (2048 * 2 ^ 48 + x.held.foldl (fun n f => n + frameCredits f) 0 % 2 ^ 16 * 2 ^ 32 + 2048)
      hello := none, certOk := false, sigWant := false, sigSeen := false, sigMade := false })
    let s := { s with lnk := { s.lnk with sessions := s.lnk.sessions.map (fun x => { x with
      rx := x.rx.map (fun c => { c with pend := c.pend.map (fun i => if i.port = p then { i with cred := 0 } else i) }) }) } }
    sendHs (setPort s p pADMITTING) p 2 0
  else s

/-- LNK_TRAIN (12, R307): one record in each aligned window of 2^30 fc. -/
def trainFail (s : State) (p : Nat) : State :=
  if portState s p = pTRAINING ∧ elapsed s p 27 then
    let w := fc s / 2 ^ 30
    let s := setPort s p pDOWN
    if (portAt s p).trainSeen = some w then s
    else raise (modPort s p (fun x => { x with trainSeen := some w })) 0x0A 1 0 none (0x300000 + p) p
  else s

/-- A timed move from one state to another (12, Table 12-9). -/
def timedMove (s : State) (p st k st' : Nat) : State :=
  if portState s p = st ∧ elapsed s p k then setPort s p st' else s

/-- DRAIN_END (12, R306). -/
def drainEnd (s : State) (p : Nat) : State :=
  let x := portAt s p
  if portState s p = pDRAINING ∧ ((x.outq.isEmpty ∧ fld x.crd 47 32 = 0) ∨ elapsed s p 20) then
    setPort (modPort s p (fun x => { x with outq := [], held := [], waitFc := none, crd := setFld x.crd 47 32 0 })) p pOFF
  else s

/-- The partner fails a check (12, Table 12-9). -/
def reject (s : State) (p code : Nat) : State :=
  setPort (raise (setLcode s p code) 0x0A code 0 none (0x300000 + p) p) p pREJECTED

/-- HELLO (12, R301): a level-1 device offers 1.0 only. This device's certificates follow (12, Table 12-7). -/
def helloIn (s : State) (p : Nat) (f : Hello) : State :=
  if portState s p ≠ pADMITTING then s
  else if f.loMaj ≤ 1 ∧ 1 ≤ f.hiMaj then
    sendHs (emit (modPort s p (fun x => { x with hello := some (1, 0, f.dev) })) (.certificate p s.stk.identity s.stk.serial)) p 3 2
  else reject s p 5

/-- The handshake of the port has passed (12, R306). -/
def portUpNow (s : State) (p : Nat) : State :=
  match (portAt s p).hello with
  | some (maj, min, dev) =>
    let s := setPort s p pUP
    serveOut (modPort s p (fun x => { x with state := setFld (setFld (setFld x.state 63 44 dev) 43 40 maj) 39 36 min })) p
  | none => s

/-- Code of the check of R300 that the partner's certificates fail. -/
def certFault (s : State) (p dev : Nat) (f : Handshake) : Option Nat :=
  let sec := calNow s / 2 ^ 30
  if !f.sigOk then some 6
  else if !calValid s ∨ sec < f.firstSec ∨ f.lastSec < sec then some 6
  else if f.topoid ≠ s.tmp.cur.dev.topoid ∨ !admitted s f.dev ∨ s.tmp.cur.dev.revs.contains f.idHash ∨ f.dev ≠ dev then some 7
  else if portRole s p = 1 ∧ f.dev ≠ neighbour s p then some 7
  else none

/-- HSK on a port (12, R300, Table 12-7): steps 2 and 5. -/
def hskIn (s : State) (p : Nat) (f : Handshake) : State :=
  match (portAt s p).hello with
  | none => s
  | some (_, _, dev) =>
    if portState s p ≠ pADMITTING then s
    else if f.hstep = 2 then
      match certFault s p dev f with
      | some c => reject s p c
      | none => modPort { s with lnk := { s.lnk with ids := put s.lnk.ids dev f.idHash } } p (fun x => { x with
          certOk := true, sigWant := true })
    else if f.hstep = 5 ∧ (portAt s p).certOk then
      if !f.sigOk then reject s p 6
      else
        let s := modPort s p (fun x => { x with sigSeen := true })
        if (portAt s p).sigMade then portUpNow s p else s
    else s

/-- HANDSHAKE_SIGNATURE (18, R435): the Stoker in service makes the step-5 signature. -/
def signHandshake (s : State) (p : Nat) : State :=
  let x := portAt s p
  if s.stk.up && x.sigWant && !x.sigMade && decide (portState s p = pADMITTING) then
    let s := sendHs (modPort s p (fun x => { x with sigMade := true })) p 3 5
    if x.sigSeen then portUpNow s p else s
  else s

/-! ### Commands -/

/-- FLIT_RECEIVE. -/
def execFlitReceive (p : PortId) (f : Flit) (s : State) : Out := .next (flitIn s p.val f)
/-- FLIT_REPLAY. -/
def execFlitReplay (p : PortId) (fseq : Nat) (s : State) : Out := .next (replayFrom s p.val fseq)
/-- REPLAY_TIMEOUT. -/
def execReplayTimeout (p : PortId) (s : State) : Out := .next (replayTimeout s p.val)
/-- LNK_LANE. -/
def execLnkLane (p : PortId) (s : State) : Out := .next (portDown s p.val 2)
/-- LNK_CREDIT. -/
def execLnkCredit (p : PortId) (s : State) : Out := .next (creditTimeout s p.val)
/-- PORT_ENABLE. -/
def execPortEnable (p : PortId) (s : State) : Out := .next (portEnable s p.val)
/-- PORT_DISABLE. -/
def execPortDisable (p : PortId) (s : State) : Out := .next (portDisable s p.val)
/-- LANES_LOCKED. -/
def execLanesLocked (p : PortId) (s : State) : Out := .next (lanesLocked s p.val)
/-- LNK_TRAIN. -/
def execLnkTrain (p : PortId) (s : State) : Out := .next (trainFail s p.val)
/-- DOWN_RETRY. -/
def execDownRetry (p : PortId) (s : State) : Out := .next (timedMove s p.val pDOWN 27 pTRAINING)
/-- ADMIT_TIMEOUT. -/
def execAdmitTimeout (p : PortId) (s : State) : Out := .next (timedMove s p.val pADMITTING 24 pDOWN)
/-- REJECT_RETRY. -/
def execRejectRetry (p : PortId) (s : State) : Out := .next (timedMove s p.val pREJECTED 30 pTRAINING)
/-- DRAIN_END. -/
def execDrainEnd (p : PortId) (s : State) : Out := .next (drainEnd s p.val)
/-- HELLO. -/
def execHello (p : PortId) (f : Hello) (s : State) : Out := .next (helloIn s p.val f)
/-- HSK. -/
def execHsk (p : PortId) (f : Handshake) (s : State) : Out := .next (hskIn s p.val f)
/-- HANDSHAKE_SIGNATURE. -/
def execHandshakeSignature (p : PortId) (s : State) : Out := .next (signHandshake s p.val)

end Sys2Proof.Machine
end

