-- ==== Sys2Proof/Machine/Clock.lean ====
section
/-! DEFINITION. The passing of one fabric-clock cycle (00, R5; 13, R330; log 1). -/

namespace Sys2Proof.Machine

/-- A port that has sent nothing for 4 fc sends an idle flit (12, R281, Table 12-2). -/
def idleFlits (s : State) : State :=
  forEach (List.range 12) s (fun p s => if linked s p ∧ (portAt s p).ll.sentFc + 4 ≤ fc s then sendFlit s p 1 else s)

/-- The active descriptors of every port go on as far as they can (13, R308). -/
def enginesGo (s : State) : State :=
  forEach (List.range 12) s (fun p s => forEach (List.range 16) s (fun h s =>
    if (activeAt s p h).isSome then colGo s p h else s))

/-- What the device does by itself at the end of an fc: claims are decided (11, R263), time-outs reach their waiters (11,
R259), confirmed epochs commit (15, R365), repeated frames leave (12, R290), frames held in receive buffers are tried
again (12, R291), engines and ports send (13, R308; 12, R281). -/
def endFc (s : State) : State :=
  let s := claimsDue s
  let s := tmoDue s
  let s := commitDue s
  let s := sendDue s
  let s := retryHeld s
  idleFlits (pumpAll (enginesGo s))

/-- The counters of the clock: SYS_CYC counts 2.5 GHz, twice the fabric clock (13, R330; 19, Table 19-1), and BLW_HELD counts
the fc that a hearth spends outside RUN (10, Table 10-21). -/
def count (s : State) : State :=
  { s with
    cyc := (s.cyc + 2) % 2 ^ 64
    hearths := s.hearths.map (fun x =>
      if fld x.mem.sched 34 32 = 0 then x
      else { x with mem := { x.mem with held := x.mem.held + 1 } }) }

/-- One fc passes. A device that is powered down has no clock. -/
def tick (s : State) : State := if s.pwr.off then s else count (endFc s)

end Sys2Proof.Machine
end

