-- ==== Sys2Proof/Machine/Stream.lean ====
section
/-! DEFINITION. Marks, landings, thread launches, command-stream control and hold states (10, R226 to R233,
R245 to R247, R490). -/

namespace Sys2Proof.Machine

/-- A hearth number as an identifier. -/
def toHid (h : Nat) : Option HearthId := if p : h < 16 then some ⟨h, p⟩ else none

/-- Fault codes of Table 10-12. -/
def bOPC : Nat := 1
def bRSVD : Nat := 2
def bRANGE : Nat := 3
def bALIGN : Nat := 4
def bLOOP : Nat := 5
def bGIDX : Nat := 6
def bMCG : Nat := 7
def bZLEN : Nat := 8
def bACTFULL : Nat := 9
def bARS : Nat := 10
def bTHREAD : Nat := 11
def bPC : Nat := 12
def bPOISON : Nat := 13
def bTILE : Nat := 14
def bLV : Nat := 15

/-- A count reaches a value (10). -/
def reached (c v : Nat) : Bool := decide ((c + 2 ^ 32 - v % 2 ^ 32) % 2 ^ 32 < 2 ^ 31)

/-! ### Marks -/

/-- Every instruction of a pipe before seq has finished its reads and writes (10, R229). -/
def pipeDone (x : Tile) (pipe seq : Nat) : Bool :=
  let anv := fun (p : AnvJob → Bool) => !(anvJobs x).any (fun j => p j && decide (j.seq < seq))
  match pipe with
  | 0 => anv isMmt
  | 1 => anv isLdp
  | 2 => anv isAcc
  | 3 => !(vecJobs x).any (fun j => decide (j.seq < seq) && decide (opOf j.w < 0x60))
  | _ => !(vecJobs x).any (fun j => decide (j.seq < seq) && decide (0x60 ≤ opOf j.w))

/-- DMK (10, R229). -/
def issueDmk (t : Nat) (w : Word128) (s : State) : Issue :=
  let pipes := wf w 119 115
  if pipes = 0 then .fault spBLW bRSVD 115
  else .done (modBlw s t (fun b => { b with marks := b.marks ++ [{ seq := (tileAt s t).misc.seq, pipes := pipes, sinc := none }] }))

/-- The oldest DMK or SINC that may take effect: a DMK waits for the pipes it names and for earlier DMKs, a SINC for its
pipes and for every earlier one of both (10, R229; 11, Table 11-3). -/
def markReady (x : Tile) : Option MarkOp :=
  let ready := fun (m : MarkOp) => (List.range 5).all (fun p => !m.pipes.testBit p || pipeDone x p m.seq)
  match x.blw.marks.head?, x.blw.marks.find? (fun m => m.sinc.isNone) with
  | some m, d => if ready m then some m else d.filter ready
  | none, _ => none

/-- DMK_TAKE_EFFECT (10, R229; 11, R254, R275): the oldest DMK or SINC of the tile that may. -/
def markEffect (s : State) (t : Nat) : State :=
  match markReady (tileAt s t) with
  | none => s
  | some m =>
    let s := modBlw s t (fun b => { b with marks := b.marks.erase m })
    match m.sinc with
    | none => modBlw s t (fun b => { b with mark := bumpMod b.mark 31 0 1 })
    | some c =>
      let h := tileHearth s t
      if c.remote then
        match h.bind toHid with
        | some k => issueRemote s k (0x100000 + t) c.dev c.ctr c.amt
        | none => s
      else issueLocal s h c.ctr c.amt

/-! ### Landings -/

/-- Landing count k of a tile. -/
def landAt (x : Tile) (k : Nat) : Nat := fld (vget x.blw.land k 0) 31 0

/-- A landing increment (10, R230); a consumer that was late for it is late no more (Table 10-8). -/
def landInc (s : State) (t k : Nat) : State :=
  let s := modBlw s t (fun b => { b with land := vmod b.land k (fun r => bumpMod r 31 0 1) })
  match (tileAt s t).blw.late with
  | some (j, v) =>
    if j = k ∧ reached (landAt (tileAt s t) k) v then
      let s := modBlw s t (fun b => { b with late := none })
      match tileHearth s t with
      | some h => refreshLate s h
      | none => s
    else s
  | none => s

/-- DWT (10, R231). -/
def issueDwt (t : Nat) (w : Word128) (s : State) : Issue :=
  if reached (landAt (tileAt s t) (wf w 119 115)) (wf w 114 83) then .done s else .hold s

/-- LAND_LATE (10, R231): a waiting DWT finds every pipe and queue empty. -/
def landLate (s : State) (t : Nat) : State :=
  let x := tileAt s t
  match x.blw.pend, tileHearth s t with
  | some w, some h =>
    let k := wf w 119 115
    let v := wf w 114 83
    if opOf w = 0x81 ∧ csState s t = csRunning ∧ x.blw.late = none ∧ !reached (landAt x k) v ∧ tileIdle x then
      breach (modBlw s t (fun b => { b with late := some (k, v) })) h cLAND (some t) (0x100000 + t)
    else s
  | _, _ => s

/-! ### Threads -/

/-- Threads per core (10, R223, Table 10-13). -/
def thrCount (x : Tile) : Nat := 4 * 2 ^ fld x.blw.cfg 2 1

def thKey (core thr : Nat) : Nat := 16 * core + thr
def threadAt (x : Tile) (core thr : Nat) : Option Thread := look? x.blw.threads (thKey core thr)
def setThread (s : State) (t core thr : Nat) (th : Option Thread) : State :=
  modBlw s t (fun b => { b with threads := match th with
    | some x => put b.threads (thKey core thr) x
    | none => drop1 b.threads (thKey core thr) })

/-- A thread at its start: arguments in b1 on, rank in b15 (10, R228). -/
def newThread (pc : Nat) (args : List Nat) (rank : Nat) : Thread :=
  { pc := pc, b := Vector.ofFn (fun i => if i.val = 15 then BitVec.ofNat 64 rank
      else if i.val = 0 then 0 else BitVec.ofNat 64 (args.getD (i.val - 1) 0)) }

/-- BLN (10, R228). -/
def issueBln (t : Nat) (w : Word128) (s : State) : Issue :=
  let x := tileAt s t
  let core := wf w 119 113
  let nc := wf w 112 106 + 1
  let thr := wf w 105 102
  let n := wf w 69 66
  let off := 32 * wf w 89 70
  let named := (List.range nc).map (fun i => threadAt x (core + i) thr)
  if thrCount x ≤ thr ∨ 128 < core + nc then .fault spBLW bTHREAD 0
  else if named.any (fun o => o.any (fun th => th.st == .fault)) then .fault spBLW bTHREAD 1
  else if n = 15 then .fault spBLW bRSVD 66
  else if n ≠ 0 ∧ !inScratch s t off (8 * n) then .fault spBLW bRANGE 2
  else if named.any Option.isSome then .hold s
  else
    let args := (List.range n).map (fun i => leNat (scrRead s t (off + 8 * i) 8))
    .done (forEach (List.range nc) (scrSee s t off (8 * n)) (fun i s => setThread s t (core + i) thr (some (newThread (wf w 101 90) args i))))

/-- Who may write a tile's registers: units and functions of its hearth, the physical function and the Stoker
(09, R201; 20, R466). -/
def mayTile (s : State) (a : Agent) (t : Nat) : Bool :=
  match a with
  | .stoker => true
  | .host f => decide (f.val = 0) || (fnHearth s f.val).isSome && fnHearth s f.val == tileHearth s t
  | _ => (agentHearth s a).isSome && agentHearth s a == tileHearth s t

/-- A register write to tile t by an agent: beyond its reach it is unmapped, and to a shadow it breaks an
obligation that no chapter gives an outcome (00, R2; 10, R233; 15, R376). -/
def tileWrite (s : State) (a : Agent) (t addr : Nat) (f : State → State) : State :=
  if !mayTile s a t then misuse s SYS_UNMAPPED a addr
  else if tileRole s t = 2 then misuse s SYS_OBLIG a addr
  else f s

/-- A start of work on tile t by an agent: a tile of no hearth issues nothing (01, R19; log 57), and one whose reset is not
yet complete accepts none (09, R198; 10, R226). -/
def tileStart (s : State) (a : Agent) (t addr : Nat) (f : State → State) : State :=
  tileWrite s a t addr (fun s =>
    if (tileHearth s t).isNone then misuse s SYS_OBLIG a addr
    else if (tileAt s t).blw.draining.isSome then misuse s SYS_BUSY a addr
    else f s)

/-- BLW_LAUNCH (10, R228). -/
def blwLaunch (s : State) (a : Agent) (t value : Nat) : State :=
  let addr := blwReg t 0x18
  tileStart s a t addr (fun s =>
    let v := BitVec.ofNat 32 value
    let core := fld v 31 25
    let thr := fld v 24 21
    if thrCount (tileAt s t) ≤ thr then misuse s SYS_OBLIG a addr
    else match threadAt (tileAt s t) core thr with
      | some th => if th.st = .fault then setThread s t core thr (some (newThread (fld v 11 0) [] 0)) else misuse s SYS_BUSY a addr
      | none => setThread s t core thr (some (newThread (fld v 11 0) [] 0)))

/-! ### The command stream -/

/-- Clear the fault registers of a tile (10, R233). -/
def clearFaults (x : Tile) : Tile :=
  { x with
    anv := { x.anv with fault := 0 }
    acc := { x.acc with fault := 0 }
    win := { x.win with fault := 0 }
    vec := { x.vec with fault := 0, sfuFault := 0 }
    blw := { x.blw with fault := 0 }
    misc := { x.misc with synFault := 0, chkFault := 0 } }

/-- A `START` has taken effect on a tile of hearth h: STALLED returns to RUN, or at once to HOLDING when a
cause other than the late ones is in force (10, R233, Table 10-9). -/
def unstall (s : State) (h : Nat) : State :=
  if holdState s h = 4 then
    let s := endCause (endCause (endCause s h cLAND) h cCHAIN) h cLINE
    let s := forEach (hTiles s h) s (fun t s => modTile s t (fun x =>
      { x with acc := { x.acc with late := false }, win := { x.win with late := false }, blw := { x.blw with late := none } }))
    setHold s h (if holdCauses s h = 0 then 0 else 1)
  else s

/-- The stream starts at a word. -/
def startStream (s : State) (t word : Nat) : State :=
  let s := modTile s t (fun x => { clearFaults x with
    acc := { (clearFaults x).acc with headFc := none }
    blw := { x.blw with fault := 0, pend := none, csCtl := setFld (setFld x.blw.csCtl 63 32 word) 5 4 csRunning }
    misc := { x.misc with synFault := 0, chkFault := 0, wait := none } })
  match tileHearth s t with
  | some h => unstall s h
  | none => s

/-- A fresh start (10, R232, R233): none when it is refused as busy. A phase window of the stream before it ends
(13, R331; log 51). -/
def freshStart (s : State) (t word : Nat) : Option State :=
  if csState s t = csRunning ∨ !(tileAt s t).blw.threads.isEmpty then none
  else
    let s := modBlw (endTilePhase s t) t (fun b => { b with mark := 0, land := Vector.replicate 32 0, late := none })
    some (startStream s t word)

/-- CS_FRESH_START. -/
def csFresh (s : State) (a : Agent) (t word : Nat) : State :=
  let addr := blwReg t 0x38
  tileStart s a t addr (fun s => match freshStart s t word with
    | some s => s
    | none => misuse s SYS_BUSY a addr)

/-- CS_RESUME (10, R233). -/
def csResume (s : State) (a : Agent) (t word : Nat) : State :=
  let addr := blwReg t 0x38
  tileStart s a t addr (fun s =>
    if csState s t = csRunning then misuse s SYS_BUSY a addr
    else if csState s t = csDoneSt then misuse s SYS_OBLIG a addr
    else startStream s t word)

/-- CS_STOP (10, R233): the next word does not issue. -/
def csStop (s : State) (a : Agent) (t : Nat) : State :=
  tileWrite s a t (blwReg t 0x38) (fun s =>
    if csState s t = csRunning then
      modTile (setCs s t csStopped) t (fun x => { x with acc := { x.acc with headFc := none }, blw := { x.blw with pend := none }, misc := { x.misc with wait := none } })
    else s)

/-- CS_DONE (10, R233): the stream's phase window ends with it (13, R331; log 51). -/
def csDone (s : State) (t : Nat) : State :=
  if csState s t = csRunning ∧ fld (tileAt s t).blw.csLim 31 0 ≤ csWord s t ∧ tileIdle (tileAt s t) then endTilePhase (setCs s t csDoneSt) t
  else s

/-! ### Hold states -/

/-- HEARTH_CAUSES_CLEAR (10, Table 10-9). -/
def causesClear (s : State) (h : Nat) : State :=
  if holdState s h = 2 ∧ holdCauses s h = 0 then setHold s h 3 else s

/-- HEARTH_RESUME (10, Table 10-9). -/
def hearthResume (s : State) (h : Nat) : State :=
  if holdState s h = 3 ∧ (hearthAt s h).run.since + 32 ≤ fc s then setHold s h 0 else s

/-- SCHED_STALL (10, R247; 15, Table 15-5). -/
def schedStall (s : State) (h : Nat) : State :=
  if holdState s h = 2 ∧ (hearthAt s h).run.since + 2 ^ fld (hearthAt s h).mem.sched 13 8 ≤ fc s then
    let s := setHold s h 4
    let s := stopHearth s h none
    let s := raise s 0x08 0x10 0 (some h) 0
    retractEpoch s h 6
  else s

/-- A write of `BLW_SCHED` with `HREQ` or `HREL` (10, R490). -/
def softWrite (s : State) (a : Agent) (h : Nat) (req rel : Bool) : State :=
  let addr := hearthReg h 0x400
  if !mayHearth s a h then misuse s SYS_UNMAPPED a addr
  else if req && rel then misuse s SYS_OBLIG a addr
  else
    let on := bit (hearthAt s h).mem.sched (39 + cSOFT)
    if req && !on then breach s h cSOFT (match a with
      | .tile t => some t.val
      | _ => none) a.code
    else if rel && on then endCause s h cSOFT
    else s

/-! ### Commands -/

/-- DMK. -/
def execDmk (t : TileId) (w : Word128) (s : State) : Out := issueCmd 0x80 t.val w (issueDmk t.val w) s
/-- DMK_TAKE_EFFECT. -/
def execDmkTakeEffect (t : TileId) (s : State) : Out := .next (markEffect s t.val)
/-- DWT. -/
def execDwt (t : TileId) (w : Word128) (s : State) : Out := issueCmd 0x81 t.val w (issueDwt t.val w) s
/-- BLN. -/
def execBln (t : TileId) (w : Word128) (s : State) : Out := issueCmd 0x82 t.val w (issueBln t.val w) s
/-- BLW_LAUNCH. -/
def execBlwLaunch (a : Agent) (t : TileId) (value : Nat) (s : State) : Out := .next (blwLaunch s a t.val value)
/-- LAND_LATE. -/
def execLandLate (t : TileId) (s : State) : Out := .next (landLate s t.val)
/-- CS_FRESH_START. -/
def execCsFreshStart (a : Agent) (t : TileId) (word : Nat) (s : State) : Out := .next (csFresh s a t.val word)
/-- CS_RESUME. -/
def execCsResume (a : Agent) (t : TileId) (word : Nat) (s : State) : Out := .next (csResume s a t.val word)
/-- CS_STOP. -/
def execCsStop (a : Agent) (t : TileId) (s : State) : Out := .next (csStop s a t.val)
/-- CS_DONE. -/
def execCsDone (t : TileId) (s : State) : Out := .next (csDone s t.val)
/-- HEARTH_CAUSES_CLEAR. -/
def execHearthCausesClear (h : HearthId) (s : State) : Out := .next (causesClear s h.val)
/-- HEARTH_RESUME. -/
def execHearthResume (h : HearthId) (s : State) : Out := .next (hearthResume s h.val)
/-- SCHED_STALL. -/
def execSchedStall (h : HearthId) (s : State) : Out := .next (schedStall s h.val)
/-- HREQ. -/
def execHreq (a : Agent) (h : HearthId) (alsoRel : Bool) (s : State) : Out := .next (softWrite s a h.val true alsoRel)
/-- HREL. -/
def execHrel (a : Agent) (h : HearthId) (alsoReq : Bool) (s : State) : Out := .next (softWrite s a h.val alsoReq true)

end Sys2Proof.Machine
end

