-- ==== Sys2Proof/Machine/BwlOps.lean ====
section
/-! DEFINITION. How a bellows thread executes a word, and how moves turn into requests (10, R223 to R234). -/

namespace Sys2Proof.Machine

/-! ### The word and its fields (10, formats A and M) -/

abbrev BWord := BitVec 64
namespace Bw
def op (w : BWord) := fld w 63 58
def rd (w : BWord) := fld w 57 54
def ra (w : BWord) := fld w 53 50
def rb (w : BWord) := fld w 49 46
/-- IMM, sign-extended to 64 bits -/
def imm (w : BWord) : BitVec 64 := (w.extractLsb' 0 32).signExtend 64
def immU (w : BWord) := fld w 31 0
def rs (w : BWord) := fld w 57 54
def rt (w : BWord) := fld w 53 50
def rss (w : BWord) := fld w 49 46
def rts (w : BWord) := fld w 45 42
def rows (w : BWord) := fld w 41 33 + 1
def len (w : BWord) := (fld w 32 25 + 1) * 32
def hnt (w : BWord) := fld w 24 23
def land (w : BWord) := fld w 22 18
def lv (w : BWord) := fld w 17 17
def scl (w : BWord) := fld w 16 12
end Bw

/-- Opcodes of Table 10-3. -/
def bwDefined (op : Nat) : Bool :=
  (1 ≤ op && op ≤ 0x0A) || (0x10 ≤ op && op ≤ 0x13) || (0x18 ≤ op && op ≤ 0x1B) || (0x20 ≤ op && op ≤ 0x27)

/-- LOOP, ENDL, BNZ and END choose the next word; every other instruction continues at the word after it. -/
def branches (op : Nat) : Bool := 0x10 ≤ op && op ≤ 0x13

/-- Register of a thread; b0 reads as zero (10, R224). -/
def breg (x : Thread) (i : Nat) : BitVec 64 := if i = 0 then 0 else vget x.b i 0
def setBreg (x : Thread) (i : Nat) (v : BitVec 64) : Thread := if i = 0 then x else { x with b := vput x.b i v }

/-! ### Execution of one word -/

/-- What a word comes to. -/
inductive TRes where
  /-- done; the thread goes to the next word -/
  | next (s : State) (x : Thread)
  /-- done; the thread goes to this word -/
  | jump (s : State) (x : Thread) (pc : Nat)
  /-- cannot complete: WAIT at this word -/
  | wait (s : State) (x : Thread)
  /-- stalled at this word on a ring of the page walker -/
  | stay (s : State) (x : Thread)
  | fault (s : State) (code detail arg0 : Nat)
  /-- END -/
  | idle (s : State)

def reqCount (x : Tile) (core : Nat) : Nat := (x.blw.reqs.filter (fun r => r.core == core)).length
/-- The thread has requests in flight. -/
def reqsOf (x : Tile) (core thr : Nat) : Bool := x.blw.reqs.any (fun r => r.core == core && r.thr == thr)

/-- A bellows fault (10, R248, Table 10-15): the thread stops at its word, the tile's first fault is recorded,
the command stream stops at its next word. -/
def thFault (s : State) (th : ThreadId) (code detail arg0 : Nat) : State :=
  let t := th.tile.val
  match threadAt (tileAt s t) th.core th.thr with
  | none => s
  | some x =>
    let s := setThread s t th.core th.thr (some { x with st := .fault, going := false, step := 0, aux := 0, todo := [], stall := none, begun := false, tabs := [] })
    let word : Reg := BitVec.ofNat 64 (x.pc * 2 ^ 32 + 2 ^ 31 + th.core.val * 2 ^ 24 + th.thr.val * 2 ^ 20 + code * 2 ^ 8 + detail % 256)
    let s := if fld (tileAt s t).blw.fault 15 8 = 0 then setFault s t spBLW word else s
    let s := stopStream s t
    raise s spBLW code detail (tileHearth s t) (0x100000 + t) arg0 x.pc

/-- The thread goes on at a word, which must lie in program memory (10, R235). -/
def thGo (s : State) (th : ThreadId) (x : Thread) (pc : Nat) (s0 : State) : State :=
  if 4095 < pc then thFault s0 th bPC 0 0
  else setThread s th.tile.val th.core th.thr (some { x with
    pc := pc, going := false, begun := false, step := 0, aux := 0, todo := [], tabs := [] })

/-- A thread of a core that may issue. -/
def thIssues (x : Tile) (core thr : Nat) : Bool :=
  match threadAt x core thr with
  | some th => decide (th.st = .run) && th.stall.isNone
  | none => false
/-- It is the thread's turn: a core takes its threads in state RUN in round-robin order (10, R223). -/
def threadTurn (x : Tile) (core thr : Nat) : Bool :=
  let last := look x.blw.turns core 15
  (List.range 16).find? (fun i => thIssues x core ((last + 1 + i) % 16)) == some ((thr + 31 - last) % 16)

/-- A thread in RUN executes the word at its program counter, when that word is one that the command names (10,
R235): `sel` gives the words of the command, `f` their meaning for the thread of a hearth. -/
def thRun (th : ThreadId) (sel : BWord → Bool) (f : State → Nat → Thread → BWord → TRes) (s : State) : State :=
  let t := th.tile.val
  match threadAt (tileAt s t) th.core th.thr, tileHearth s t with
  | some x, some h =>
    if !threadTurn (tileAt s t) th.core th.thr ∨ tileRole s t = 2 ∨ (tileAt s t).blw.draining.isSome then s
    else
      let w := look (tileAt s t).blw.prog x.pc 0
      let named := sel w || !bwDefined (Bw.op w)
      let s := if named then modBlw s t (fun b => { b with turns := put b.turns th.core th.thr }) else s
      if !bwDefined (Bw.op w) then thFault s th bOPC 0 0
      else if !sel w then s
      else if 4095 ≤ x.pc ∧ !branches (Bw.op w) then thFault s th bPC 0 0
      else match f s h x w with
        | .next s' x' => thGo s' th x' (x'.pc + 1) s
        | .jump s' x' pc => thGo s' th x' pc s
        | .wait s' x' => setThread s' t th.core th.thr (some { x' with st := .wait })
        | .stay s' x' => setThread s' t th.core th.thr (some x')
        | .fault s' c d a => thFault s' th c d a
        | .idle s' => setThread s' t th.core th.thr none
  | _, _ => s

/-- Words of one opcode. -/
def isOp (op : Nat) (w : BWord) : Bool := Bw.op w == op

/-! ### Global addresses (00, R8; 10, R236) -/

def gDev (a : Nat) : Nat := a / 2 ^ 44 % 2 ^ 20
def gLoc (a : Nat) : Nat := a % 2 ^ 44
def isLocal (s : State) (a : Nat) : Bool := gDev a == 0xFFFFF || gDev a == devNo s
/-- A hearth's move may read or write n bytes at a global address (10, R236). -/
def gOk (s : State) (h a n : Nat) : Bool :=
  if isLocal s a then reach s (some h) (gLoc a) n else admitted s (gDev a)
/-- Local bytes within the hearth's reach. -/
def lOk (s : State) (h a n : Nat) : Bool := isLocal s a && reach s (some h) (gLoc a) n

def hintOf (c : Nat) : Hint := match c with | 0 => .alloc | 1 => .noalloc | _ => .last

/-- Pieces of a row: at most one granule of the source and one of the destination each (10, R225). -/
def cutRow : Nat → Nat → Nat → Nat → Nat → List (Nat × Nat)
  | 0, _, _, _, _ => []
  | g + 1, src, dst, len, off =>
    if len ≤ off then []
    else
      let n := min (len - off) (min (256 - (src + off) % 256) (256 - (dst + off) % 256))
      (off, n) :: cutRow g src dst len (off + n)

/-- Requests of a row from a global source to a global destination. -/
def rowReqs (s : State) (th : ThreadId) (grp : Nat) (hint : Hint) (src dst len : Nat) : List Req :=
  (cutRow (len / 4 + 1) src dst len 0).map (fun p =>
    let a := gLoc (src + p.1)
    let b := gLoc (dst + p.1)
    { core := th.core.val, thr := th.thr.val, src := a
      srcDev := if isLocal s src then none else some (BitVec.ofNat 20 (gDev src))
      len := p.2, dst := if isLocal s dst then .loc b else .dev (BitVec.ofNat 20 (gDev dst)) b
      hint := hint, grp := grp })

/-- Requests that write to a window offset of every tile of a mask (10, R238). -/
def mcstReqs (s : State) (th : ThreadId) (grp : Nat) (hint : Hint) (src off : Nat) (mask : BitVec 32) (len : Nat) : List Req :=
  (cutRow (len / 32 + 1) src off len 0).map (fun p =>
    { core := th.core.val, thr := th.thr.val, src := gLoc (src + p.1)
      srcDev := if isLocal s src then none else some (BitVec.ofNat 20 (gDev src))
      len := p.2, dst := .tiles mask (off + p.1), hint := hint, grp := grp })

/-- Requests that write bytes of the device's own making to a global address; a WRITE to another device fills its last
sector with zeros (log 57). -/
def dataReqs (s : State) (th : ThreadId) (grp dst : Nat) (bs : List Byte) : List Req :=
  let bs := if isLocal s dst then bs else bs ++ List.replicate (cdiv bs.length 32 * 32 - bs.length) 0
  (rowReqs s th grp .noalloc dst dst bs.length).zip ((cutRow (bs.length / 4 + 1) dst dst bs.length 0)) |>.map (fun p =>
    { p.1 with srcDev := none, data := (bs.drop p.2.1).take p.2.2 })

/-- Issue requests while tokens last (10, R225): the rest wait. -/
def pushReqs (s : State) (th : ThreadId) : List Req → State × List Req
  | [] => (s, [])
  | r :: rest =>
    let t := th.tile.val
    if 48 ≤ reqCount (tileAt s t) th.core then (s, r :: rest)
    else match r.srcDev with
      | none => pushReqs (modBlw s t (fun b => { b with reqs := b.reqs ++ [r] })) th rest
      | some d =>
        let s := modBlw s t (fun b => { b with reqs := b.reqs ++ [{ r with sent := true }] })
        pushReqs (sendRead s (0x100000 + t) d.toNat r.src r.len (.req th.tile th.core.val r.grp)) th rest

/-! ### Tables of an instruction -/

/-- A table that an instruction reads whole before its checks: global address and length in bytes. -/
abbrev Tab := Nat × Nat

/-- Sectors that hold bytes [a, a + n). -/
def sectorBase (a : Nat) : Nat := a / 32 * 32
def sectorLen (a n : Nat) : Nat := if n = 0 then 0 else (a % 32 + n + 31) / 32 * 32

/-- The READs of a table on another device (10, R237, R242): whole sectors, granule by granule. -/
def tabReqs (s : State) (th : ThreadId) (grp slot : Nat) (t : Tab) : List Req :=
  if isLocal s t.1 then []
  else
    let a := sectorBase t.1
    (cutRow (sectorLen t.1 t.2 / 32 + 1) a 0 (sectorLen t.1 t.2) 0).map (fun p =>
      { core := th.core.val, thr := th.thr.val, src := gLoc (a + p.1), srcDev := some (BitVec.ofNat 20 (gDev t.1)), len := p.2
        dst := .tab slot p.1, hint := .noalloc, grp := grp })

/-- Bytes that have arrived of table slot k, and whether one of its sectors is poisoned; none while some are missing. -/
def tabBytes (x : Thread) (k : Nat) (t : Tab) : Option (List Byte × Bool) :=
  let l := x.tabs.filter (fun e => e.1 == k)
  let n := sectorLen t.1 t.2
  if l.foldl (fun u e => u + e.2.2.1.length) 0 < n then none
  else
    let at' := fun (i : Nat) => (l.findSome? (fun e =>
      if e.2.1 ≤ i then e.2.2.1[i - e.2.1]? else none)).getD 0
    some ((List.range t.2).map (fun i => at' (t.1 % 32 + i)), l.any (·.2.2.2))

/-- Read the tables of an instruction: the state, and each one's bytes and poison. None while one is awaited. -/
def readTabs (x : Thread) (h : Nat) : State → Nat → List Tab → Option (State × List (List Byte × Bool))
  | s, _, [] => some (s, [])
  | s, k, t :: r =>
    let here := if isLocal s t.1 then (devRead s (some h) .alloc (gLoc t.1) t.2 []).map (fun q => (q.1, q.2.1, !q.2.2.isEmpty))
      else (tabBytes x k t).map (fun q => (s, q.1, q.2))
    here.bind (fun (s, bs, p) => (readTabs x h s (k + 1) r).map (fun q => (q.1, (bs, p) :: q.2)))

/-! ### Instructions of many rows -/

/-- What a row comes to before its requests issue. -/
inductive RowPlan where
  | ok (s : State) (rs : List Req) (aux : Nat)
  | fault (code detail arg0 : Nat)
  /-- the free ring is empty, or the release ring full -/
  | stall (rel : Bool)
  /-- a mantel tile, a stack, a table or an entry is awaited -/
  | wait (s : State)

/-- Rows n of an instruction from row r on. -/
def rowsFrom (th : ThreadId) (x : Thread) (plan : Thread → State → Nat → Nat → RowPlan) : Nat → State → Nat → Nat → TRes
  | 0, s, _, aux => .next s { x with going := true, aux := aux }
  | n + 1, s, r, aux =>
    let at' := fun (r aux : Nat) (todo : List Req) => { x with going := true, step := r, aux := aux, todo := todo }
    match plan x s r aux with
    | .ok s rs aux' => match pushReqs s th rs with
      | (s, []) => rowsFrom th x plan n s (r + 1) aux'
      | (s, todo) => .wait s (at' (r + 1) aux' todo)
    | .fault c d a => .fault s c d a
    | .stall rel => .stay s { at' r aux [] with stall := some (rel, fc s) }
    | .wait s => .wait s (at' r aux [])

/-- The parts of an instruction of many rows: the checks at issue, the tables it reads whole, its checks and first effects
once it has them, its rows, the tiles of its landing, and what it does at its end. -/
structure Move where
  rows : Nat
  chk : State → List (Bool × Nat × Nat) := fun _ => []
  tabs : List Tab := []
  begin' : State → Nat → List (List Byte × Bool) → Except (Nat × Nat × Nat) (State × Nat × List Req) := fun s _ _ => .ok (s, 0, [])
  plan : Nat → Thread → State → Nat → Nat → RowPlan := fun _ _ s _ aux => .ok s [] aux
  mask : Option (BitVec 32) := none
  finish : Thread → Thread := id

/-- First failing check. -/
def firstChk (l : List (Bool × Nat × Nat)) : Option (Nat × Nat × Nat) := (l.find? (·.1)).map (fun e => (e.2.1, e.2.2, 0))

/-- The rows of an instruction, then its landing (10, R225, R230). -/
def moveRows (th : ThreadId) (w : BWord) (m : Move) (s : State) (x : Thread) : TRes :=
  match rowsFrom th x (m.plan x.grp) (m.rows - x.step) s x.step x.aux with
  | .next s x =>
    let t := th.tile.val
    let s := match m.mask with
      | some k => if Bw.lv w = 1 then modBlw s t (fun b => { b with landings := b.landings ++ [⟨x.grp, Bw.land w, k⟩] }) else s
      | none => s
    .next s (m.finish x)
  | r => r

/-- An instruction that has passed its checks at issue: its waiting requests, its tables, its rows. -/
def moveRun (th : ThreadId) (w : BWord) (m : Move) (s : State) (h : Nat) (x : Thread) : TRes :=
  match pushReqs s th x.todo with
  | (s, a :: r) => .wait s { x with todo := a :: r }
  | (s, []) =>
    let x := { x with todo := [] }
    if x.begun then moveRows th w m s x
    else match readTabs x h s 0 m.tabs with
      | none => .wait (m.tabs.foldl (fun s t => if isLocal s t.1 then waitOp s (.tile th.tile) h (gLoc t.1) t.2 .alloc else s) s) x
      | some (s1, bs) => match m.begin' s1 x.grp bs with
        | .error (c, d, a) => .fault s c d a
        | .ok (s, aux, todo) =>
          let x := { x with begun := true, aux := aux }
          match pushReqs s th todo with
          | (s, []) => moveRows th w m s x
          | (s, todo) => .wait s { x with todo := todo }

/-- An instruction of many rows (10, R225, R230). -/
def moveExec (th : ThreadId) (w : BWord) (m : Move) (s : State) (h : Nat) (x : Thread) : TRes :=
  let t := th.tile.val
  if x.going then moveRun th w m s h x
  else match firstChk (m.chk s) with
    | some (c, d, a) => .fault s c d a
    | none =>
      let g := (tileAt s t).blw.nextGrp
      moveRun th w m (modBlw s t (fun b => { b with nextGrp := g + 1 })) h { x with
        going := true, begun := false, step := 0, aux := 0, grp := g
        todo := (m.tabs.zipIdx.map (fun e => tabReqs s th g e.2 e.1)).flatten }

/-- A value that is no multiple of 32. -/
def odd32 (v : BitVec 64) : Bool := v.toNat % 32 != 0

/-- Tile on which a move into a destination lands (10, R230): none on another device. -/
def landMask (s : State) (t dst : Nat) : Option (BitVec 32) :=
  if !isLocal s dst then none
  else match place (gLoc dst) with
    | .win k _ => some (1#32 <<< k)
    | _ => some (1#32 <<< t)

end Sys2Proof.Machine
end

