-- ==== Sys2Proof/Machine/Bellows.lean ====
section
/-! DEFINITION. The bellows program instructions, request commits, landing increments and resumes (10, R225,
R230, R234 to R243, Table 10-1). -/

namespace Sys2Proof.Machine

/-! ### Registers and arithmetic (10, Table 10-3) -/

/-- An instruction that only writes b[RD]. -/
def thWrite (f : Thread → BWord → BitVec 64) (s : State) (_h : Nat) (x : Thread) (w : BWord) : TRes :=
  .next s (setBreg x (Bw.rd w) (f x w))

def valLi (_x : Thread) (w : BWord) : BitVec 64 := Bw.imm w
def valLih (x : Thread) (w : BWord) : BitVec 64 := setFld (breg x (Bw.rd w)) 63 32 (Bw.immU w)
def valAdd (x : Thread) (w : BWord) : BitVec 64 := breg x (Bw.ra w) + breg x (Bw.rb w)
def valAddi (x : Thread) (w : BWord) : BitVec 64 := breg x (Bw.ra w) + Bw.imm w
def valSub (x : Thread) (w : BWord) : BitVec 64 := breg x (Bw.ra w) - breg x (Bw.rb w)
def valMuli (x : Thread) (w : BWord) : BitVec 64 := breg x (Bw.ra w) * Bw.imm w
def valShli (x : Thread) (w : BWord) : BitVec 64 := breg x (Bw.ra w) <<< fld w 5 0
def valShri (x : Thread) (w : BWord) : BitVec 64 := breg x (Bw.ra w) >>> fld w 5 0
def valAndi (x : Thread) (w : BWord) : BitVec 64 := breg x (Bw.ra w) &&& Bw.imm w

/-- LDW (10, R235). -/
def thLdw (th : ThreadId) (s : State) (h : Nat) (x : Thread) (w : BWord) : TRes :=
  let a := (breg x (Bw.ra w) + Bw.imm w).toNat
  if a % 8 ≠ 0 then .fault s bALIGN 0 0
  else if !lOk s h a 8 then .fault s bRANGE 0 0
  else match devRead s (some h) .alloc (gLoc a) 8 [] with
    | none => .wait (waitOp s (.tile th.tile) h (gLoc a) 8 .alloc) x
    | some (s, bs, p) =>
      if p.isEmpty then .next s (setBreg x (Bw.rd w) (BitVec.ofNat 64 (leNat bs))) else .fault s bPOISON 0 0

/-! ### Control (10, Table 10-3) -/

/-- Word IMM of a branch, or the one after it. -/
def target (w : BWord) (d : Nat) : Nat := (Bw.imm w + BitVec.ofNat 64 d).toNat

/-- LOOP: levels nest from 0, at most 6. -/
def thLoop (s : State) (_h : Nat) (x : Thread) (w : BWord) : TRes :=
  let n := fld (breg x (Bw.ra w)) 31 0
  if Bw.rd w ≠ x.loops.length ∨ 5 < Bw.rd w then .fault s bLOOP 0 0
  else if n = 0 then .jump s x (target w 1)
  else .jump s { x with loops := x.loops ++ [(x.pc + 1, n)] } (x.pc + 1)

/-- ENDL. -/
def thEndl (s : State) (_h : Nat) (x : Thread) (w : BWord) : TRes :=
  match x.loops.getLast? with
  | none => .fault s bLOOP 0 0
  | some (first, n) =>
    if Bw.rd w + 1 ≠ x.loops.length then .fault s bLOOP 0 0
    else if 1 < n then .jump s { x with loops := x.loops.dropLast ++ [(first, n - 1)] } first
    else .jump s { x with loops := x.loops.dropLast } (x.pc + 1)

/-- BNZ. -/
def thBnz (s : State) (_h : Nat) (x : Thread) (w : BWord) : TRes :=
  .jump s x (if breg x (Bw.ra w) = 0 then x.pc + 1 else target w 0)

/-- END: the thread stays in RUN until its requests have committed (10, Table 10-1, R234). -/
def thEnd (th : ThreadId) (s : State) (_h : Nat) (x : Thread) (_w : BWord) : TRes :=
  if reqsOf (tileAt s th.tile) th.core th.thr then .stay s x else .idle s

/-- Tile that MWT names: its own, or one of the hearth. -/
def tileNamed (s : State) (h own : Nat) (w : BWord) (n : Nat) : Option Nat :=
  if fld w 5 5 = 1 then some own else if tileHearth s n = some h then some n else none

/-- The mark count of a tile reaches b[RA][31:0]. -/
def markMet (s : State) (t : Nat) (x : Thread) (w : BWord) : Bool :=
  reached (fld (tileAt s t).blw.mark 31 0) (fld (breg x (Bw.ra w)) 31 0)

/-- MWT (10, R229). -/
def thMwt (th : ThreadId) (s : State) (h : Nat) (x : Thread) (w : BWord) : TRes :=
  match tileNamed s h th.tile w (fld w 4 0) with
  | none => .fault s bTILE 0 0
  | some t => if markMet s t x w then .next s x else .wait s x

/-- FEN (10, R234). -/
def thFen (th : ThreadId) (s : State) (_h : Nat) (x : Thread) (_w : BWord) : TRes :=
  if reqsOf (tileAt s th.tile) th.core th.thr then .wait s x else .next s x

/-- LND. -/
def thLnd (th : ThreadId) (s : State) (h : Nat) (x : Thread) (w : BWord) : TRes :=
  match tileNamed s h th.tile w (fld w 12 8) with
  | none => .fault s bTILE 0 0
  | some t =>
    if reqsOf (tileAt s th.tile) th.core th.thr then .wait s x else .next (landInc s t (fld w 4 0)) x

/-- CINC (10; 11, R252, R254): an increment that is refused does not fault the thread. -/
def thCinc (th : ThreadId) (s : State) (h : Nat) (x : Thread) (w : BWord) : TRes :=
  if reqsOf (tileAt s th.tile) th.core th.thr then .wait s x
  else
    let r := breg x (Bw.ra w)
    let v := breg x (Bw.rb w)
    let dev := fld r 63 44
    let c := fld r 15 0
    let loc := dev = 0xFFFFF ∨ dev = devNo s
    let ag := 0x100000 + th.tile.val
    let no := fun (code detail : Nat) => TRes.next (synRefuse s code (some h) ag r.toNat detail) x
    if fld r 43 16 ≠ 0 then no 3 16
    else if loc ∧ !ctrIn s h c then no 2 0
    else if ¬ loc ∧ !admitted s dev then no 3 44
    else match amtBad v with
      | some code => no code 0
      | none =>
        if loc then .next (issueLocal s (some h) c v.toNat) x
        else match toHid h with
          | some k => .next (issueRemote s k ag dev c v.toNat) x
          | none => .next s x

/-- ARS (10, R243). -/
def thArs (s : State) (h : Nat) (x : Thread) (w : BWord) : TRes :=
  let v := breg x (Bw.ra w)
  if (hearthAt s h).mem.actUsed.toNat < v.toNat ∨ odd32 v then .fault s bARS 0 0
  else .next (modHearth s h (fun y => { y with mem := { y.mem with actUsed := v } })) x

/-! ### Moves (10, R236 to R239) -/

/-- Global address of a local one. -/
def ofLoc (a : Nat) : Nat := 0xFFFFF * 2 ^ 44 + a

/-- Address of row r: b[base] + r * b[stride], modulo 2^64. -/
def rowAt (x : Thread) (base stride r : Nat) : Nat := (breg x base + BitVec.ofNat 64 r * breg x stride).toNat

/-- Some row of n fails a check. -/
def anyRow (n : Nat) (p : Nat → Bool) : Bool := (List.range n).any p

/-- MOVE (10, R236). -/
def thMove (th : ThreadId) (s : State) (h : Nat) (x : Thread) (w : BWord) : TRes :=
  let n := Bw.rows w
  let len := Bw.len w
  let src := rowAt x (Bw.rs w) (Bw.rss w)
  let dst := rowAt x (Bw.rt w) (Bw.rts w)
  let b := fun i => breg x i
  moveExec th w {
    rows := n
    chk := fun s => [
      (Bw.hnt w == 3, bRSVD, 23),
      (odd32 (b (Bw.rs w)) || odd32 (b (Bw.rss w)) || odd32 (b (Bw.rt w)) || odd32 (b (Bw.rts w)), bALIGN, 0),
      (anyRow n (fun r => !gOk s h (src r) len), bRANGE, 0),
      (anyRow n (fun r => !gOk s h (dst r) len || (!isLocal s (src r) && !isLocal s (dst r))), bRANGE, 1),
      (Bw.lv w == 1 && anyRow n (fun r => !isLocal s (dst r)), bLV, 0)]
    plan := fun g _ s r _ => .ok s (rowReqs s th g (hintOf (Bw.hnt w)) (src r) (dst r) len) 0
    mask := landMask s th.tile (dst 0) } s h x

/-- A pair differs in the requests of a MOVE (15, R357). -/
def movePair (th : ThreadId) (mismatch : Bool) (s0 s : State) : State :=
  let t := th.tile.val
  let ran := match threadAt (tileAt s0 t) th.core th.thr with
    | some x => decide (x.st = .run) && x.stall.isNone && isOp 0x20 (look (tileAt s0 t).blw.prog x.pc 0)
    | none => false
  match tileHearth s t with
  | some h =>
    if mismatch && ran && tileRole s t == 1 then
      retractEpoch (tstat (raise s spCHK 2 3 (some h) (0x100000 + t) 0 0 0 true) t 15 0) h 1
    else s
  | none => s

/-- Index r of a GATH table. -/
def gathIdx (x : Thread) (w : BWord) (r : Nat) : Nat := (breg x (Bw.rs w) + BitVec.ofNat 64 (4 * r)).toNat

/-- GATH (10, R237): the index of a row is read when the row issues; a table on another device is read whole first. -/
def thGath (th : ThreadId) (s : State) (h : Nat) (x : Thread) (w : BWord) : TRes :=
  let n := Bw.rows w
  let len := Bw.len w
  let hint := hintOf (Bw.hnt w)
  let dst := rowAt x (Bw.rt w) (Bw.rts w)
  let b := fun i => breg x i
  let tab : Tab := (gathIdx x w 0, 4 * n)
  let far := !isLocal s tab.1
  moveExec th w {
    rows := n
    chk := fun s => [
      (Bw.hnt w == 3, bRSVD, 23),
      (decide (Bw.scl w < 5) || decide (20 < Bw.scl w), bRSVD, 12),
      ((b (Bw.rs w)).toNat % 4 != 0 || odd32 (b (Bw.rss w)) || odd32 (b (Bw.rt w)) || odd32 (b (Bw.rts w)), bALIGN, 0),
      (!gOk s h tab.1 tab.2, bRANGE, 2),
      (anyRow n (fun r => !gOk s h (dst r) len), bRANGE, 1),
      (Bw.lv w == 1 && anyRow n (fun r => !isLocal s (dst r)), bLV, 0)]
    tabs := if far then [tab] else []
    plan := fun g x s r _ =>
      let a := gLoc (gathIdx x w r)
      let read := if far then
          let bad := x.tabs.any (fun e => e.2.2.2 && decide (e.2.1 ≤ tab.1 % 32 + 4 * r) && decide (tab.1 % 32 + 4 * r < e.2.1 + e.2.2.1.length))
          some (s, leAt ((tabBytes x 0 tab).elim [] (·.1)) (4 * r) 4, bad)
        else (devRead s (some h) hint a 4 []).map (fun q => (q.1, leNat q.2.1, !q.2.2.isEmpty))
      match read with
      | none => .wait (waitOp s (.tile th.tile) h a 4 hint)
      | some (s, i, bad) =>
        if bad then .fault bPOISON (r % 256) 0
        else
          let src := (b (Bw.rss w) + BitVec.ofNat 64 (i * 2 ^ Bw.scl w)).toNat
          if !gOk s h src len ∨ (!isLocal s src ∧ !isLocal s (dst r)) then .fault bGIDX (r % 256) 0
          else .ok s (rowReqs s th g hint src (dst r) len) 0
    mask := landMask s th.tile (dst 0) } s h x

/-- MCST (10, R238). -/
def thMcst (th : ThreadId) (s : State) (h : Nat) (x : Thread) (w : BWord) : TRes :=
  let n := Bw.rows w
  let len := Bw.len w
  let grp := Bw.scl w % 16
  let mask : BitVec 32 := BitVec.ofNat 32 (fld (vget (hearthAt s h).mem.mcg grp 0) 31 0)
  let src := rowAt x (Bw.rs w) (Bw.rss w)
  let off := rowAt x (Bw.rt w) (Bw.rts w)
  let b := fun i => breg x i
  let ts := setBits mask
  moveExec th w {
    rows := n
    chk := fun s => [
      (Bw.hnt w == 3, bRSVD, 23),
      (odd32 (b (Bw.rs w)) || odd32 (b (Bw.rss w)) || odd32 (b (Bw.rt w)) || odd32 (b (Bw.rts w)), bALIGN, 0),
      (ts.isEmpty || ts.any (fun t => tileHearth s t != some h), bMCG, grp),
      (anyRow n (fun r => !gOk s h (src r) len), bRANGE, 0),
      (anyRow n (fun r => ts.any (fun t => !inScratch s t (off r) len || tileRole s t == 2)), bRANGE, 1)]
    plan := fun g _ s r _ => .ok s (mcstReqs s th g (hintOf (Bw.hnt w)) (src r) (off r) mask len) 0
    mask := some mask } s h x

/-- PFT (10, R239): rows that a MOVE would refuse are dropped and counted. -/
def thPft (th : ThreadId) (s : State) (h : Nat) (x : Thread) (w : BWord) : TRes :=
  let len := Bw.len w
  let src := rowAt x (Bw.rs w) (Bw.rss w)
  let bad := odd32 (breg x (Bw.rs w)) || odd32 (breg x (Bw.rss w)) || Bw.hnt w == 3
  moveExec th w {
    rows := Bw.rows w
    plan := fun g _ s r _ =>
      if bad ∨ !lOk s h (src r) len then
        .ok (modBlw s th.tile (fun b => { b with pfdrop := bumpSat b.pfdrop 31 0 1 })) [] 0
      else .ok s ((rowReqs s th g .alloc (src r) (src r) len).map (fun q => { q with dst := .none })) 0 } s h x

/-! ### ZRC packing and the arena (10, R242, R243) -/

/-- The 32-bit words of a table's bytes. -/
def words32 (bs : List Byte) : List Nat := (List.range (bs.length / 4)).map (fun i => leAt bs (4 * i) 4)

/-- Position of the first row with an illegal length (or offset). -/
def badLen (ls : List Nat) (top : Nat) : Option Nat := ls.findIdx? (fun l => decide (top < l) || l % 32 != 0)

/-- Offsets of rows placed back to back. -/
def offsetsOf : List Nat → Nat → List Nat
  | [], _ => []
  | l :: r, o => o :: offsetsOf r (o + l)

/-- Requests of rows of given lengths. -/
def packReqs (s : State) (th : ThreadId) (g : Nat) (hint : Hint) (rows : List (Nat × Nat × Nat)) : List Req :=
  rows.flatMap (fun r => rowReqs s th g hint r.1 r.2.1 r.2.2)

/-- The first check that fails, or else a beginning with its effect. -/
def beginWith (l : List (Bool × Nat × Nat)) (r : State × Nat × List Req) : Except (Nat × Nat × Nat) (State × Nat × List Req) :=
  match firstChk l with
  | some e => .error e
  | none => .ok r

/-- ZPK (10, R242, R243). The words of a poisoned table are never used (log 57). -/
def thZpk (th : ThreadId) (s : State) (h : Nat) (x : Thread) (w : BWord) : TRes :=
  let n := Bw.rows w
  let len := Bw.len w
  let arena := Bw.scl w % 2 == 1
  let b := fun i => breg x i
  let lt := (b (Bw.rss w)).toNat
  let ot := (b (Bw.rts w)).toNat
  moveExec th w {
    rows := 0
    chk := fun s => [
      (Bw.hnt w == 3, bRSVD, 23),
      (odd32 (b (Bw.rs w)) || (!arena && odd32 (b (Bw.rt w))) || odd32 (b (Bw.rss w)) || odd32 (b (Bw.rts w)), bALIGN, 0),
      (!gOk s h lt (4 * n) || !gOk s h ot (4 * n), bRANGE, 2)]
    tabs := [(lt, 4 * n)]
    begin' := fun s g ts =>
      let m := (hearthAt s h).mem
      let t := ts.headD ([], false)
      let ls := words32 t.1
      let sum := ls.foldl (· + ·) 0
      let dst := if arena then ofLoc (m.actBase.toNat + m.actUsed.toNat) else (b (Bw.rt w)).toNat
      let src := fun i => (b (Bw.rs w) + BitVec.ofNat 64 (i * len)).toNat
      let offs := offsetsOf ls 0
      let rows := ((List.range n).map (fun i => (src i, (dst + offs.getD i 0) % 2 ^ 64, ls.getD i 0))).filter (fun r => r.2.2 != 0)
      let used := if arena then modHearth s h (fun y => { y with mem := { y.mem with actUsed := y.mem.actUsed + BitVec.ofNat 64 sum } }) else s
      beginWith [
        (t.2, bPOISON, 0),
        ((badLen ls len).isSome, bZLEN, (badLen ls len).getD 0 % 256),
        (rows.any (fun r => !gOk s h r.1 r.2.2), bRANGE, 0),
        (arena && decide (m.actLim.toNat < m.actUsed.toNat + sum), bACTFULL, 0),
        (rows.any (fun r => !gOk s h r.2.1 r.2.2 || (!isLocal s r.1 && !isLocal s r.2.1)), bRANGE, 1),
        (Bw.lv w == 1 && !isLocal s dst, bLV, 0)]
        (used, sum, packReqs s th g (hintOf (Bw.hnt w)) rows ++ dataReqs s th g ot (offs.flatMap (leBytes 4)))
    mask := landMask s th.tile (if arena then ofLoc (hearthAt s h).mem.actBase.toNat else (b (Bw.rt w)).toNat)
    finish := fun x => if arena then x else setBreg x (Bw.rt w) (breg x (Bw.rt w) + BitVec.ofNat 64 x.aux) } s h x

/-- ZUP (10, R242). -/
def thZup (th : ThreadId) (s : State) (h : Nat) (x : Thread) (w : BWord) : TRes :=
  let n := Bw.rows w
  let len := Bw.len w
  let arena := Bw.scl w % 2 == 1
  let b := fun i => breg x i
  let lt := (b (Bw.rss w)).toNat
  let ot := (b (Bw.rts w)).toNat
  let dst := fun i => (b (Bw.rt w) + BitVec.ofNat 64 (i * len)).toNat
  moveExec th w {
    rows := 0
    chk := fun s => [
      (Bw.hnt w == 3, bRSVD, 23),
      ((!arena && odd32 (b (Bw.rs w))) || odd32 (b (Bw.rt w)) || odd32 (b (Bw.rss w)) || odd32 (b (Bw.rts w)), bALIGN, 0),
      (!gOk s h lt (4 * n) || !gOk s h ot (4 * n), bRANGE, 2)]
    tabs := [(lt, 4 * n), (ot, 4 * n)]
    begin' := fun s g ts =>
      let ls := words32 (ts.headD ([], false)).1
      let os := words32 ((ts.drop 1).headD ([], false)).1
      let base := if arena then ofLoc (hearthAt s h).mem.actBase.toNat else (b (Bw.rs w)).toNat
      let bad := match badLen ls len, os.findIdx? (fun o => o % 32 != 0) with
        | some i, some j => some (min i j)
        | some i, none => some i
        | none, j => j
      let rows := ((List.range n).map (fun i => ((base + os.getD i 0) % 2 ^ 64, dst i, ls.getD i 0))).filter (fun r => r.2.2 != 0)
      beginWith [
        (ts.any (·.2), bPOISON, 0),
        (bad.isSome, bZLEN, bad.getD 0 % 256),
        (rows.any (fun r => !gOk s h r.1 r.2.2), bRANGE, 0),
        (rows.any (fun r => !gOk s h r.2.1 r.2.2 || (!isLocal s r.1 && !isLocal s r.2.1)), bRANGE, 1),
        (Bw.lv w == 1 && anyRow n (fun i => !isLocal s (dst i)), bLV, 0)]
        (s, 0, packReqs s th g (hintOf (Bw.hnt w)) rows)
    mask := landMask s th.tile (dst 0) } s h x

/-! ### Commits (10, R225, R230) -/

/-- The request is the first of its instruction to its device that has not been sent. -/
def firstUnsent (l : List Req) (i : Nat) (r : Req) : Bool :=
  !(l.take i).any (fun q => q.core == r.core && q.grp == r.grp && q.peer == r.peer && !q.sent)

/-- The bytes of a request: its own, zeros, or what its source holds; none when that read waits. -/
def reqBytes (s : State) (h : Nat) (r : Req) (e : EccHits) : Option (State × List Byte × List Nat) :=
  if r.zero then some (s, List.replicate r.len 0, [])
  else if !r.data.isEmpty then some (s, r.data, [])
  else (devRead s (some h) r.hint r.src r.len e).map (fun q => (q.1, q.2.1, q.2.2.map (fun k => k - r.src / 32)))

/-- What a request's commit records for poison recovery (15, R366). -/
def noteMcst (s : State) (t : Nat) (r : Req) : State :=
  match r.dst, r.srcDev, place r.src with
  | .tiles mask off, none, .deep _ => modBlw s t (fun b => { b with mcst := b.mcst ++ [⟨r.src, r.len, mask, off⟩] })
  | _, _, _ => s

/-- REQUEST_COMMIT (10, R225; 09, R207, R214): request i of a tile moves its bytes; one to another device
sends its WRITE, which the acknowledgement commits (12, R290). -/
def requestCommit (s : State) (t : TileId) (i : Nat) (e : EccHits) : State :=
  match (tileAt s t).blw.reqs[i]?, reqHearth s t with
  | some r, some h =>
    if r.sent then s
    else match reqBytes s h r e with
      | none => waitOp s (.tile t) h r.src r.len r.hint
      | some (s1, bs, rel) =>
        match r.dst with
        | .dev d a =>
          if firstUnsent (tileAt s t).blw.reqs i r then
            let s1 := modBlw s1 t (fun b => { b with reqs := lmod b.reqs i (fun q => { q with sent := true }) })
            sendWrite s1 (0x100000 + t.val) (some h) d.toNat a bs rel (.req t r.core r.grp)
          else s
        | _ => match deliver s1 h t r 0 bs rel with
          | some s2 => removeReq (noteMcst s2 t r) t i
          | none => match r.dst with
            | .loc b => waitOp s (.tile t) h b r.len r.hint
            | _ => s
  | _, _ => s

/-- Every request of a tile that can commit now does, directory entries after their rows (10, R226). -/
def commitAll (s : State) (t : TileId) : State :=
  forEach (List.range 2) s (fun _ s =>
    forEach (List.range (tileAt s t).blw.reqs.length).reverse s (fun i s => requestCommit s t i []))

/-- A request that is still here commits at once, with nothing to wait for. -/
def forceReq (s : State) (t : TileId) (i : Nat) : State :=
  match (tileAt s t).blw.reqs[i]?, reqHearth s t with
  | some r, some h =>
    if r.sent then s
    else
      let (bs, ps) := if r.zero then (List.replicate r.len (0 : Byte), []) else if !r.data.isEmpty then (r.data, [])
        else (readMem s.mem r.src r.len, (poisoned s r.src r.len).map (fun k => k - r.src / 32))
      match r.dst with
      | .dev d a =>
        let s := modBlw s t (fun b => { b with reqs := lmod b.reqs i (fun q => { q with sent := true }) })
        sendWrite s (0x100000 + t.val) (some h) d.toNat a bs ps (.req t r.core r.grp)
      | .loc b => removeReq (store s b bs (ps.map (· + b / 32))) t i
      | _ => removeReq ((deliver s h t r 0 bs ps).getD s) t i
  | _, _ => s

/-- The requests in flight of a tile that is reset commit first: those that have to wait keep its program, threads and scratch
until then (10, R226). A cold reset, which zeroes what they wait for, takes them at once, and the bytes that a READ still
brings are not kept (log 57). -/
def quiesce (s : State) (t : TileId) (warm : Bool) : State :=
  let s := modBlw (commitAll s t) t (fun b => { b with reqs := b.reqs.filter (fun r => match r.dst with | .tab _ _ => false | _ => true) })
  let s := if warm then s
    else
      let s := forEach (List.range 2) s (fun _ s =>
        forEach (List.range (tileAt s t).blw.reqs.length).reverse s (fun i s => forceReq s t i))
      modBlw s t (fun b => { b with reqs := b.reqs.map (fun r => match r.dst with | .dev _ _ => r | _ => { r with dst := .none }) })
  if (tileAt s t).blw.reqs.isEmpty then s else modBlw s t (fun b => { b with draining := reqHearth s t })

/-- LANDING_INCREMENT (10, R230). -/
def landingIncrement (s : State) (t i : Nat) : State :=
  match (tileAt s t).blw.landings[i]? with
  | none => s
  | some l =>
    if (tileAt s t).blw.reqs.any (fun r => r.grp == l.grp) then s
    else
      let s := modBlw s t (fun b => { b with landings := b.landings.eraseIdx i })
      forEach (setBits l.mask) s (fun k s => landInc s k l.land)

/-- The condition that a waiting thread waits for is met (10, Table 10-1). -/
def thReady (s : State) (th : ThreadId) (h : Nat) (x : Thread) : Bool :=
  let y := tileAt s th.tile
  let w := look y.blw.prog x.pc 0
  match Bw.op w with
  | 0x18 => match tileNamed s h th.tile w (fld w 4 0) with
    | some t => markMet s t x w
    | none => true
  | 0x0A =>
    let a := (breg x (Bw.ra w) + Bw.imm w).toNat
    (devRead s (some h) .alloc (gLoc a) 8 []).isSome
  | 0x19 => !reqsOf y th.core th.thr
  | 0x1A => !reqsOf y th.core th.thr
  | 0x1B => !reqsOf y th.core th.thr
  | _ => decide (reqCount y th.core < 48)

/-- THREAD_RESUME (10, Table 10-1). -/
def threadResume (s : State) (th : ThreadId) : State :=
  match threadAt (tileAt s th.tile) th.core th.thr, tileHearth s th.tile with
  | some x, some h =>
    if x.st = .wait ∧ thReady s th h x then setThread s th.tile th.core th.thr (some { x with st := .run }) else s
  | _, _ => s

/-! ### Commands -/

/-- LI. -/
def execLi (th : ThreadId) (s : State) : Out := .next (thRun th (isOp 0x01) (thWrite valLi) s)
/-- LIH. -/
def execLih (th : ThreadId) (s : State) : Out := .next (thRun th (isOp 0x02) (thWrite valLih) s)
/-- ADD. -/
def execAdd (th : ThreadId) (s : State) : Out := .next (thRun th (isOp 0x03) (thWrite valAdd) s)
/-- ADDI. -/
def execAddi (th : ThreadId) (s : State) : Out := .next (thRun th (isOp 0x04) (thWrite valAddi) s)
/-- SUB. -/
def execSub (th : ThreadId) (s : State) : Out := .next (thRun th (isOp 0x05) (thWrite valSub) s)
/-- MULI. -/
def execMuli (th : ThreadId) (s : State) : Out := .next (thRun th (isOp 0x06) (thWrite valMuli) s)
/-- SHLI. -/
def execShli (th : ThreadId) (s : State) : Out := .next (thRun th (isOp 0x07) (thWrite valShli) s)
/-- SHRI. -/
def execShri (th : ThreadId) (s : State) : Out := .next (thRun th (isOp 0x08) (thWrite valShri) s)
/-- ANDI. -/
def execAndi (th : ThreadId) (s : State) : Out := .next (thRun th (isOp 0x09) (thWrite valAndi) s)
/-- LDW. -/
def execLdw (th : ThreadId) (s : State) : Out := .next (thRun th (isOp 0x0A) (thLdw th) s)
/-- LOOP. -/
def execLoop (th : ThreadId) (s : State) : Out := .next (thRun th (isOp 0x10) thLoop s)
/-- ENDL. -/
def execEndl (th : ThreadId) (s : State) : Out := .next (thRun th (isOp 0x11) thEndl s)
/-- BNZ. -/
def execBnz (th : ThreadId) (s : State) : Out := .next (thRun th (isOp 0x12) thBnz s)
/-- END. -/
def execEndT (th : ThreadId) (s : State) : Out := .next (thRun th (isOp 0x13) (thEnd th) s)
/-- MWT. -/
def execMwt (th : ThreadId) (s : State) : Out := .next (thRun th (isOp 0x18) (thMwt th) s)
/-- FEN. -/
def execFen (th : ThreadId) (s : State) : Out := .next (thRun th (isOp 0x19) (thFen th) s)
/-- LND. -/
def execLnd (th : ThreadId) (s : State) : Out := .next (thRun th (isOp 0x1A) (thLnd th) s)
/-- CINC. -/
def execCinc (th : ThreadId) (s : State) : Out := .next (thRun th (isOp 0x1B) (thCinc th) s)
/-- MOVE. -/
def execMove (th : ThreadId) (pairMismatch : Bool) (s : State) : Out :=
  .next (movePair th pairMismatch s (thRun th (isOp 0x20) (thMove th) s))
/-- GATH. -/
def execGath (th : ThreadId) (s : State) : Out := .next (thRun th (isOp 0x21) (thGath th) s)
/-- MCST. -/
def execMcst (th : ThreadId) (s : State) : Out := .next (thRun th (isOp 0x22) (thMcst th) s)
/-- PFT. -/
def execPft (th : ThreadId) (s : State) : Out := .next (thRun th (isOp 0x23) (thPft th) s)
/-- ZPK. -/
def execZpk (th : ThreadId) (s : State) : Out := .next (thRun th (isOp 0x25) (thZpk th) s)
/-- ZUP. -/
def execZup (th : ThreadId) (s : State) : Out := .next (thRun th (isOp 0x26) (thZup th) s)
/-- ARS. -/
def execArs (th : ThreadId) (s : State) : Out := .next (thRun th (isOp 0x27) thArs s)
/-- REQUEST_COMMIT. -/
def execRequestCommit (t : TileId) (i : Nat) (ecc : EccHits) (s : State) : Out := .next (requestCommit s t i ecc)
/-- LANDING_INCREMENT. -/
def execLandingIncrement (t : TileId) (i : Nat) (s : State) : Out := .next (landingIncrement s t.val i)
/-- THREAD_RESUME. -/
def execThreadResume (th : ThreadId) (s : State) : Out := .next (threadResume s th)

end Sys2Proof.Machine
end

