-- ==== Sys2Proof/Machine/FnOps.lean ====
section
/-! DEFINITION. The state machine of the functions (19, R457, Table 19-6). -/

namespace Sys2Proof.Machine

def fOFF : Nat := 0
def fSTARTING : Nat := 1
def fON : Nat := 2
def fSTOPPING : Nat := 3
def fSTOPSTART : Nat := 4
def fFAILED : Nat := 5

def fnSt (s : State) (f : Nat) : Nat := fld (vget s.pwr.fn f 0) 2 0
def setFn (s : State) (f st : Nat) : State := { s with pwr := { s.pwr with fn := vmod s.pwr.fn f (fun r => setFld r 2 0 st) } }

/-- State after an enable, a disable and a completed shutdown. -/
def afterEnable (st : Nat) : Nat := if st = fOFF ∨ st = fFAILED then fSTARTING else if st = fSTOPPING then fSTOPSTART else st
def afterDisable (st : Nat) : Nat :=
  if st = fSTARTING ∨ st = fON ∨ st = fSTOPSTART then fSTOPPING else if st = fFAILED then fOFF else st
def afterShutdown (st : Nat) : Nat := if st = fSTOPPING then fOFF else if st = fSTOPSTART then fSTARTING else st

def enableFn (s : State) (f : Nat) : State := setFn s f (afterEnable (fnSt s f))
/-- State of a function but for an enable that reached it in this fc (19, R457). -/
def fnBefore (s : State) (f : Nat) : Nat :=
  match look? s.pwr.enAt f with
  | some e => if e.1 = fc s then e.2 else fnSt s f
  | none => fnSt s f
/-- A disable drops an enable of the same fc (19, R457). -/
def disableFn (s : State) (f : Nat) : State :=
  setFn { s with pwr := { s.pwr with enAt := drop1 s.pwr.enAt f, disAt := put s.pwr.disAt f (fc s) } } f (afterDisable (fnBefore s f))
/-- An enable from outside is dropped in the fc of a disable (19, R457); else its fc and the state before it are kept. -/
def enableDropped (s : State) (f : Nat) : Bool := look? s.pwr.disAt f == some (fc s)
def noteEnable (s : State) (f : Nat) : State := { s with pwr := { s.pwr with enAt := put s.pwr.enAt f (fc s, fnBefore s f) } }

end Sys2Proof.Machine
end

