-- ==== Sys2Proof/Machine/Checking.lean ====
section
/-! DEFINITION. Check epochs and notices, recoveries, spark tests, unit classes and record delivery (15; 16,
R395; 18, R425). -/

namespace Sys2Proof.Machine

/-! ### Epochs (15, R360, R361, R365, Table 15-4) -/

/-- An OPEN of epoch e: whether it was accepted. -/
def openEpoch (s : State) (h e agent : Nat) : Bool × State :=
  let st := ecState s h
  if st = eCONFIRMED ∨ e ≤ (hearthAt s h).run.epochHigh then (false, raise s spCHK 0x13 0 (some h) agent e)
  else
    let s := retractEpoch s h 8
    let s := modChk s h (fun c => { c with epoch := BitVec.ofNat 64 e })
    (true, modRun (setEc s h eOPEN) h (fun r => { r with epochHigh := e }))

/-- CHK_OPEN. -/
def chkOpen (s : State) (a : Agent) (h : Nat) : State :=
  if mayHearth s a h then (openEpoch s h (hearthAt s h).chk.epochReq.toNat a.code).2
  else misuse s SYS_UNMAPPED a (hearthReg h 0x1110)

def closeEpoch (s : State) (h : Nat) : State := if ecState s h = eOPEN then setEc s h eCLOSED else s

/-- CHK_CLOSE. -/
def chkClose (s : State) (a : Agent) (h : Nat) : State :=
  if mayHearth s a h then closeEpoch s h else misuse s SYS_UNMAPPED a (hearthReg h 0x1110)

/-- A checked row of the tile has not been compared. -/
def rowsUnchecked (x : Tile) : Bool :=
  (x.anv.queue ++ x.anv.rowPipe).any (fun j => match j.op with | .mmt k => k.plane.ck | _ => false)

/-- EPOCH_CONFIRM (15, R361). -/
def epochConfirm (s : State) (h : Nat) : State :=
  let ts := (hTiles s h).map (tileAt s)
  let done := chkLevel s h == 0 ||
    (ts.all (fun x => !rowsUnchecked x && x.anv.replay.isNone) && (hearthAt s h).run.recovery.isEmpty)
  if ecState s h = eCLOSED ∧ done then confirmEpoch s h else s

/-- CHK_UNRESOLVED (15, R365). -/
def unresolved (s : State) (h : Nat) : State :=
  if ecState s h = eCONFIRMED ∧ (hearthAt s h).run.confirmedFc + 2 ^ fld (hearthAt s h).chk.chkCfg 47 42 ≤ fc s then
    raise (stopHearth (setEc s h eUNRESOLVED) h (some 9)) spCHK 9 0 (some h) 0
  else s

/-! ### Notices (15, R363, R364, Tables 15-4 and 15-6) -/

/-- A notice of kind 1 CONFIRM, 2 RETRACT or 3 COMMIT for epoch e, from a rank. The last CONFIRM commits at the end of its fc
(`commitDue`): a RETRACT of that fc wins (01, R24). -/
def notice (s : State) (h rank kind e trig : Nat) : State :=
  let st := ecState s h
  if e ≠ epochE s h then
    raise (modChk s h (fun c => { c with hstat := bumpSat c.hstat 31 16 1 })) spCHK 0x0A 0 (some h) 0 e rank
  else if kind = 1 then s
  else if kind = 2 then
    (if st = eOPEN ∨ st = eCLOSED ∨ st = eCONFIRMED then raise (becomeRetracted s h trig) spCHK 7 trig (some h) 0 0 rank else s)
  else if st = eCONFIRMED ∨ st = eUNRESOLVED then commitEpoch s h
  else s

/-- NOTICE_RECEIVE: the new entries of a rank on the board. -/
def noticeReceive (s : State) (h rank : Nat) : State :=
  let n := (ctrAt s (chkNctr s h)).value.toNat
  if !chkEn s h || decide (n ≤ (hearthAt s h).run.nctrRead) || !(otherRanks s h).contains rank then s
  else
    match devRead s (some h) .noalloc (chkBoard s h + 96 * rank) 96 [] with
    | none => s
    | some (s, bs, _) =>
      let s := modRun s h (fun r => { r with nctrRead := r.nctrRead + 1 })
      forEach [1, 2, 3] s (fun k s =>
        let b := bs.drop (32 * (k - 1))
        let e := leAt b 0 8
        if leAt b 8 1 = k ∧ look? (hearthAt s h).run.board (4 * rank + k) ≠ some e then
          notice (modRun s h (fun r => { r with board := put r.board (4 * rank + k) e })) h rank k e (leAt b 9 1)
        else s)

/-! ### Recoveries (15, R366, R367) -/

/-- CHK_REFETCH: the granule of the oldest recovery arrives unpoisoned; it stays to come while an access of it waits. -/
def chkRefetch (s : State) (h : Nat) (bs : List Byte) : State :=
  match (hearthAt s h).run.recovery with
  | r :: _ => if bs.length = 256 then (refetchDone s h r.addr bs).getD s else s
  | [] => s

/-- CHK_REFAIL: no answer in 2^RTMO fc. -/
def chkRefail (s : State) (h : Nat) : State :=
  match (hearthAt s h).run.recovery.find? (fun r => decide (r.since + 2 ^ fld (hearthAt s h).chk.chkCfg 41 36 ≤ fc s)) with
  | some r => refetchFail s h r.addr
  | none => s

/-! ### Hearth boundaries (16, R402) -/

/-- Items of a hearth. -/
def hItems (s : State) (h : Nat) : List Item :=
  if hOn s h then (setBits (hsec s h).h.queues).flatMap (fun q => (queueAt s q).items) else []
/-- The hearth is at a boundary. -/
def atBoundary (s : State) (h : Nat) : Bool := (hearthAt s h).run.boundary || !(hItems s h).any isRunning

/-! ### Spark tests (15, R368 to R370) -/

def modMisc (s : State) (t : Nat) (f : TileMisc → TileMisc) : State := modTile s t (fun x => { x with misc := f x.misc })
/-- `CHK_SPK.ST`: 0 CURRENT, 1 DUE, 2 OVERDUE. -/
def spkSt (s : State) (t : Nat) : Nat := fld (tileAt s t).misc.chkSpk0 3 2
def spkRunning (s : State) (t : Nat) : Bool := bit (tileAt s t).misc.chkSpk0 0
def setSpkRun (s : State) (t : Nat) (b : Bool) : State := modMisc s t (fun m => { m with chkSpk0 := setBit m.chkSpk0 0 b })

/-- The tiles of a pair, the working one first; a single tile alone. -/
def pairOf (s : State) (t : Nat) : List Nat := if tileRole s t = 1 then [t, partner s t] else [t]

/-- A TSL at a tile whose pipes are empty begins its round when one is due and the slot is long enough. -/
def tslBegins (s : State) (t : Nat) (w : Word128) : Bool :=
  tileIdle (tileAt s t) && decide (1 ≤ spkSt s t) && decide (131072 ≤ wf w 119 104 * 1024)
def tslBegin (s : State) (t : Nat) : State := forEach (pairOf s t) s (fun u s => setSpkRun s u true)

/-- TSL (15, R368). -/
def issueTsl (t : Nat) (w : Word128) (s : State) : Issue :=
  if !inScratch s t (32 * wf w 103 84) 0x400000 then .fault spCHK 0x14 0
  else if !tileIdle (tileAt s t) || (pairOf s t).any (spkRunning s) then .hold s
  else if tslBegins s t w then .hold (tslBegin s t)
  else .done s

/-- One round on tile t: its registers are as before, its plane buffers empty, the test area zero (15, R368,
R369). -/
def sparkEnd (s : State) (t : Nat) (kaOk : Bool) (digest : BitVec 64) (round : Nat) (area : Option Nat) : State :=
  let s := modTile s t (fun x => { x with anv := { x.anv with buf := Vector.replicate 2 {} } })
  let s := match area with
    | some a => zeroRange s (winBase t + a) 0x400000
    | none => s
  let s := modMisc s t (fun m => { m with
    chkSpk0 := BitVec.ofNat 64 (round % 2 ^ 32 * 2 ^ 32 + (if kaOk then 0 else 2))
    chkSpk1 := digest, spkLast := fc s, spkOver := false })
  let s := { s with recs := { s.recs with digests := (round, t, digest) :: s.recs.digests.filter (fun d => !(d.1 == round && d.2.1 == t)) } }
  let s := raise s spCHK 0x18 0 (tileHearth s t) (0x100000 + t) digest.toNat round
  if kaOk then s else raise s spCHK 0x0E 0 (tileHearth s t) (0x100000 + t)

def sroundNow (s : State) : Nat := fld s.recs.sround 31 0

/-- SPARK_ROUND: in a TSL, at a boundary for an OVERDUE tile, or on a third tile for a dispute (15, R368 to R370). -/
def sparkRound (s : State) (t : Nat) (kaOk : Bool) (digest : BitVec 64) : State :=
  let w := execTile s t
  let idle := tileIdle (tileAt s w) && decide (csState s w ≠ csRunning)
  let bound := match tileHearth s t with
    | some h => atBoundary s h
    | none => false
  let tsl := if csState s w = csRunning ∧ tileRuns s w then ((tileAt s w).blw.pend).filter (fun v => opOf v == 0xB0) else none
  match tsl with
  | some v =>
    let s := if !(pairOf s w).any (spkRunning s) && tslBegins s w v then tslBegin s w else s
    if spkRunning s t then
      let s := sparkEnd s t kaOk digest (sroundNow s) (some (32 * wf v 103 84))
      if (pairOf s w).any (spkRunning s) then s else advance s w (csWord s w + 1)
    else s
  | none =>
    if spkRunning s t then sparkEnd s t kaOk digest (sroundNow s) none
    else if !(idle && bound) then s
    else match s.recs.dispute with
      | some (r, a, b) =>
        if t = a ∨ t = b then (if spkSt s t = 2 then sparkEnd s t kaOk digest (sroundNow s) none else s)
        else
          let old := s.recs.digests
          let s := sparkEnd s t kaOk digest r none
          let s := { s with recs := { s.recs with dispute := none } }
          forEach [a, b] s (fun u s =>
            if old.any (fun d => d.1 == r && d.2.1 == u && d.2.2 != digest) then
              raise s spCHK 0x0F 0 (tileHearth s u) (0x100000 + u) r
            else s)
      | none => if spkSt s t = 2 then sparkEnd s t kaOk digest (sroundNow s) none else s

/-- SPARK_COMPARE (15, R369): the Stoker advances the round and compares digests. -/
def sparkCompare (s : State) (round : Nat) : State :=
  if !s.stk.up then s
  else
    let s := if sroundNow s = round then { s with recs := { s.recs with sround := setFld s.recs.sround 31 0 (round + 1) } } else s
    let ds := s.recs.digests.filter (fun d => d.1 == round)
    match ds with
    | [] => s
    | d :: rest => match rest.find? (fun e => e.2.2 != d.2.2), s.recs.dispute with
      | some e, none => { s with recs := { s.recs with dispute := some (round, d.2.1, e.2.1) } }
      | _, _ => s

/-- SPARK_DUE (15, R370): a quarter of the interval while the tile is in WATCH. -/
def sparkDue (s : State) (t : Nat) : State :=
  match tileHearth s t with
  | some h =>
    let k := 2 ^ fld (hearthAt s h).chk.chkCfg 35 30
    let k := if (vget s.recs.tiles t {}).cls = .watch then k / 4 else k
    if spkSt s t = 0 ∧ (tileAt s t).misc.spkLast + k ≤ fc s then
      modMisc s t (fun m => { m with chkSpk0 := setFld m.chkSpk0 3 2 1, spkDue := fc s })
    else s
  | none => s

/-- CHK_OVERDUE (15, R370). -/
def sparkOverdue (s : State) (t : Nat) : State :=
  match tileHearth s t with
  | some h =>
    if spkSt s t = 1 ∧ (tileAt s t).misc.spkDue + 2 ^ fld (hearthAt s h).chk.chkCfg 29 24 ≤ fc s then
      let s := modMisc s t (fun m => { m with chkSpk0 := setFld m.chkSpk0 3 2 2, spkOver := true })
      raise s spCHK 0x10 0 (some h) (0x100000 + t)
    else s
  | none => s

/-- A test of the hearth is owed at its boundary: no item starts before it (16, R402). -/
def testsOwed (s : State) (h : Nat) : Bool := (hTiles s h).any (fun t => decide (spkSt s t = 2))

/-- QUENCH_TEST (15, R370). -/
def quenchTest (s : State) (p : Nat) (pass : Bool) : State :=
  if s.stk.up && (portAt s p).jobs.toList.all Option.isNone then
    modPort s p (fun x => { x with tested := x.tested + 1, testFails := x.testFails + (if pass then 0 else 1) })
  else s

/-! ### Unit classes (15, R371, R372, Table 15-7) -/

def histOf (s : State) (u : UnitRef) : UnitHist :=
  match u with
  | .tile t => vget s.recs.tiles t.val {}
  | .port p => vget s.recs.ports p.val {}
  | .stack k => vget s.recs.stks k.val {}
  | .hob c => vget s.recs.hobs c.val {}
def setHist (s : State) (u : UnitRef) (x : UnitHist) : State :=
  match u with
  | .tile t => { s with recs := { s.recs with tiles := vput s.recs.tiles t.val x } }
  | .port p => { s with recs := { s.recs with ports := vput s.recs.ports p.val x } }
  | .stack k => { s with recs := { s.recs with stks := vput s.recs.stks k.val x } }
  | .hob c => { s with recs := { s.recs with hobs := vput s.recs.hobs c.val x } }

/-- Agent code and `ARG0` that name a unit in a record; a stack has no agent code. -/
def unitAgent (u : UnitRef) : Nat :=
  match u with
  | .tile t => 0x100000 + t.val
  | .hob c => 0x200000 + c.val
  | .port p => 0x300000 + p.val
  | .stack _ => 0
def unitNo (u : UnitRef) : Nat := match u with | .tile t => t.val | .hob c => c.val | .port p => p.val | .stack k => k.val
/-- Function number of a unit (19, Table 19-7). -/
def unitFn (u : UnitRef) : Nat := match u with | .tile t => t.val | .hob c => 32 + c.val | .port p => 48 + p.val | .stack k => 60 + k.val

/-- The unit's bit of `CHK_EXCL` (15, Table 15-23). -/
def setExcl (s : State) (u : UnitRef) (b : Bool) : State :=
  match u with
  | .tile t => { s with recs := { s.recs with excl0 := setBit s.recs.excl0 t.val b } }
  | .hob c => { s with recs := { s.recs with excl0 := setBit s.recs.excl0 (48 + c.val) b } }
  | .port p => { s with recs := { s.recs with excl1 := setBit s.recs.excl1 p.val b } }
  | .stack k => { s with recs := { s.recs with excl1 := setBit s.recs.excl1 (12 + k.val) b } }

/-- Hearths that hold a unit, or own a region on an excluded stack. -/
def unitHearths (s : State) (u : UnitRef) : List Nat :=
  match u with
  | .tile t => (tileHearth s t.val).toList
  | .hob c => (hobHearth s c.val).toList
  | .port _ => []
  | .stack k => stackHearths s k.val

/-- The hearth stops for a removed unit (15, R372; 16, Table 16-9). -/
def hearthRemoved (s : State) (h : Nat) : State :=
  let s := modRun s h (fun r => { r with removed := true })
  let s := endItems s h (fun _ => true) 4 0 (some (s.recs.seq - 1))
  let s := stopHearth s h (some 0x12)
  if ecState s h = eOPEN ∨ ecState s h = eCLOSED then
    let (n, s) := draw s
    retractEpoch s h (Config.removeTrig n).toNat
  else s

/-- An excluded port goes to OFF, its groups become unbound, its descriptors end (15, R372). -/
def portExcluded (s : State) (p : Nat) : State :=
  let s := forEach (List.range 16) s (fun h s => match activeAt s p h with
    | some a => if a.incomplete then s
      else retractEpoch (colStop s p h 7 a.dseq (Col.group a.desc % 64) a.dseq a.rank) h 3
    | none => s)
  let s := forEach (List.range 16) s (fun h s => modNet s h (fun n => { n with grp1 := n.grp1.map (fun w =>
    if bit w 2 && fld w 43 40 == p then setFld (setBit w 2 false) 43 40 0 else w) }))
  let s := if portUp s p then outOfService s p pOFF else setPort s p pOFF
  modPort s p (fun x => { x with outq := [], held := [], waitFc := none, crd := setFld x.crd 47 32 0 })

/-- A PERMANENT unit leaves service. -/
def unitRemoved (s : State) (u : UnitRef) : State :=
  let hs := unitHearths s u
  let s := disableFn (setExcl s u true) (unitFn u)
  let s := match u with
    | .port p => portExcluded s p.val
    | _ => s
  if hs.isEmpty then raise s spCHK 0x12 0 none (unitAgent u) (unitNo u)
  else forEach hs s (fun h s => hearthRemoved (raise s spCHK 0x12 0 (some h) (unitAgent u) (unitNo u) 0 0 true) h)

def classNo (c : UClass) : Nat := match c with | .good => 0 | .watch => 1 | .suspect => 2 | .permanent => 3

/-- The class after an event. -/
def classNext (s : State) (u : UnitRef) (e : UnitEvent) : UClass :=
  let x := histOf s u
  let recent := (x.events.filter (fun c => decide (s.cyc < c + 2 ^ 48))).length
  let timed := match u with | .stack _ | .hob _ => true | _ => false
  match x.cls, e with
  | .good, .transient => if s.stk.trw ≤ recent + 1 then .watch else .good
  | .watch, .quiet => if x.last + 2 ^ 48 ≤ s.cyc then .good else .watch
  | .good, .serious | .watch, .serious => .suspect
  | .suspect, .serious => .permanent
  | .suspect, .roundsFail => if timed then .suspect else .permanent
  | .suspect, .roundsPass => if timed then .suspect else .watch
  | .suspect, .quiet => if timed && decide (x.lastSer + 2 ^ 48 ≤ s.cyc) then .watch else .suspect
  | c, _ => c

/-- A change of class, with its record. -/
def setClass (s : State) (u : UnitRef) (c : UClass) : State :=
  let x := histOf s u
  if x.cls = c then s
  else
    let s := setHist s u { x with cls := c }
    let s := raise s spCHK 0x11 (classNo c) none (unitAgent u) (unitNo u) 0 0 (decide (c = .good))
    if c = .permanent then unitRemoved s u else s

/-- A stack's serious event is more than `UETH` uncorrectable sectors within 2^48 cc; the other events come from outside. -/
def eventMet (s : State) (u : UnitRef) (e : UnitEvent) : Bool :=
  match u, e with
  | .stack _, .serious =>
    decide (s.stk.ueth < ((histOf s u).ues.filter (fun c => decide (s.cyc < c + 2 ^ 48))).length)
  | _, _ => true

/-- CHK_CLASS (15, R371). -/
def chkClass (s : State) (u : UnitRef) (e : UnitEvent) : State :=
  if !s.stk.up || !eventMet s u e then s
  else
    let c := classNext s u e
    let x := histOf s u
    let x := match e with
      | .transient => { x with events := s.cyc :: x.events.filter (fun k => decide (s.cyc < k + 2 ^ 48)), last := s.cyc }
      | .serious => { x with last := s.cyc, lastSer := s.cyc }
      | _ => x
    setClass (setHist s u x) u c

/-! ### Records (15, R374; 16, R395; 18, R425, R443) -/

/-- A collector receives a record, or keeps it while it cannot be reached: the oldest is dropped when 65,536 wait. -/
def toCollector (s : State) (i : Nat) (r : Rec) : State :=
  let c := vget s.stk.collectors i {}
  if c.addr = 0 then s
  else
    let q := c.store ++ [r]
    let c := if 65536 < q.length then { c with store := q.drop 1, dropped := c.dropped + 1 } else { c with store := q }
    emit { s with stk := { s.stk with collectors := vput s.stk.collectors i c } } (.syslog i r)

/-- RECORD_FORWARD: the Stoker takes the oldest record of its ring. -/
def recordForward (s : State) : State :=
  match s.recs.ring with
  | [] => s
  | r :: rest =>
    if !s.stk.up then s
    else
      let q := s.recs
      let ring := rest ++ q.overflow.take 1
      let q := { q with ring := ring, overflow := q.overflow.drop 1, head := (q.head + 1) % 2 ^ 32, tail := (q.tail + (q.overflow.take 1).length) % 2 ^ 32, taken := fc s, silent := false }
      let s := { s with recs := q }
      let r := { r with cal := calOf s r.cyc }
      toCollector (toCollector s 0 r) 1 r

/-- STK_FWDLOST: a collector can be reached again after records were dropped. -/
def fwdLost (s : State) (i : Nat) : State :=
  let c := vget s.stk.collectors i {}
  if s.stk.up ∧ 0 < c.dropped then
    let s := { s with stk := { s.stk with collectors := vput s.stk.collectors i { c with dropped := 0, store := [] } } }
    raise s 0x0F 9 0 none 0 0 c.dropped
  else s

/-- CHK_LOST. -/
def chkLost (s : State) : State :=
  if 0 < s.recs.supp ∧ s.recs.ring.length < 4096 then
    raise { s with recs := { s.recs with supp := 0 } } spCHK 0x17 0 none 0 0 s.recs.supp
  else s

/-- STOKER_TAKES_NO_RECORD (16, Table 16-9). -/
def noRecord (s : State) : State :=
  if !s.recs.ring.isEmpty ∧ s.recs.taken + 2 ^ 30 ≤ fc s then { s with recs := { s.recs with silent := true } } else s

/-! ### Commands -/

/-- CHK_OPEN. -/
def execChkOpen (a : Agent) (h : HearthId) (s : State) : Out := .next (chkOpen s a h.val)
/-- CHK_CLOSE. -/
def execChkClose (a : Agent) (h : HearthId) (s : State) : Out := .next (chkClose s a h.val)
/-- EPOCH_CONFIRM. -/
def execEpochConfirm (h : HearthId) (s : State) : Out := .next (epochConfirm s h.val)
/-- CHK_RETRACT: an event of Table 15-5. -/
def execChkRetract (h : HearthId) (trig : Nat) (s : State) : Out :=
  .next (if 1 ≤ trig ∧ trig ≤ 8 then retractEpoch s h.val trig else s)
/-- NOTICE_RECEIVE. -/
def execNoticeReceive (h : HearthId) (rank : Nat) (s : State) : Out := .next (noticeReceive s h.val rank)
/-- NOTICE_SEND_NEXT. -/
def execNoticeSendNext (h : HearthId) (rank : Nat) (s : State) : Out := .next (noticeNext s h rank)
/-- CHK_UNRESOLVED. -/
def execChkUnresolved (h : HearthId) (s : State) : Out := .next (unresolved s h.val)
/-- CHK_REFETCH. -/
def execChkRefetch (h : HearthId) (granule : List Byte) (s : State) : Out := .next (chkRefetch s h.val granule)
/-- CHK_REFAIL. -/
def execChkRefail (h : HearthId) (s : State) : Out := .next (chkRefail s h.val)
/-- TSL. -/
def execTsl (t : TileId) (w : Word128) (s : State) : Out := issueCmd 0xB0 t.val w (issueTsl t.val w) s
/-- SPARK_ROUND. -/
def execSparkRound (t : TileId) (kaOk : Bool) (digest : BitVec 64) (s : State) : Out := .next (sparkRound s t.val kaOk digest)
/-- SPARK_DUE. -/
def execSparkDue (t : TileId) (s : State) : Out := .next (sparkDue s t.val)
/-- CHK_OVERDUE. -/
def execChkOverdue (t : TileId) (s : State) : Out := .next (sparkOverdue s t.val)
/-- SPARK_COMPARE. -/
def execSparkCompare (round : Nat) (s : State) : Out := .next (sparkCompare s round)
/-- CHK_CLASS. -/
def execChkClass (u : UnitRef) (e : UnitEvent) (s : State) : Out := .next (chkClass s u e)
/-- CHK_LOST. -/
def execChkLost (s : State) : Out := .next (chkLost s)
/-- RECORD_FORWARD. -/
def execRecordForward (s : State) : Out := .next (recordForward s)
/-- STK_FWDLOST. -/
def execStkFwdlost (collector : Fin 2) (s : State) : Out := .next (fwdLost s collector.val)
/-- QUENCH_TEST. -/
def execQuenchTest (p : PortId) (pass : Bool) (s : State) : Out := .next (quenchTest s p.val pass)
/-- STOKER_TAKES_NO_RECORD. -/
def execStokerTakesNoRecord (s : State) : Out := .next (noRecord s)

end Sys2Proof.Machine
end

