-- ==== Sys2Proof/Machine/Exp2.lean ====
section
/-! DEFINITION. exp2 and log2 with correct rounding (07, R159 to R162): lower bounds to 256 bits with a
sticky bit below, which no rounding boundary of the narrow formats separates from the exact value (log 10). -/

namespace Sys2Proof.Machine

/-- floor(ln 2 * 2^256). -/
def ln2Fix : Nat := 0xb17217f7d1cf79abc9e3b39803f2f6af40f343267298b62d8a0d175b8baafa2b

/-- Terms of the series of e^y from term k on, in units of 2^-256. -/
def expTerms : Nat → Nat → Nat → Nat → Nat
  | 0, _, _, _ => 0
  | g + 1, k, y, t => t + expTerms g (k + 1) y (t * y / (k * 2 ^ 256))

/-- Terms of the series of atanh z from z^(2 k + 1) on, in units of 2^-256. -/
def atanhTerms : Nat → Nat → Nat → Nat → Nat
  | 0, _, _, _ => 0
  | g + 1, k, z2, t => t / (2 * k + 1) + atanhTerms g (k + 1) z2 (t * z2 / 2 ^ 256)

/-- 2^x for a finite exact x of moderate size. -/
def exp2Num (x : Dy) : Num :=
  if 0 ≤ x.e then .fin false 1 (x.i * 2 ^ x.e.toNat)
  else
    let d : Nat := 2 ^ (-x.e).toNat
    let n := x.i / (d : Int)
    let r := (x.i % (d : Int)).toNat
    if r = 0 then .fin false 1 n
    else .fin false (2 * expTerms 70 1 (r * ln2Fix / d) (2 ^ 256) + 1) (n - 257)

/-- log2 (m * 2^e) for m > 0. -/
def log2Num (m : Nat) (e : Int) : Num :=
  let k := flog2 m
  let n : Int := k + e
  if m = 2 ^ k then (Dy.mk n 0).num
  else
    let z := (m - 2 ^ k) * 2 ^ 256 / (m + 2 ^ k)
    let g : Nat := 2 * atanhTerms 90 0 (z * z / 2 ^ 256) z * 2 ^ 256 / (ln2Fix + 1)
    (Dy.mk (2 * (n * 2 ^ 256 + (g : Int)) + 1) (-257)).num

/-- An argument whose exp2 no format tells from 0 or from an overflow. -/
def expClamp (x : Dy) : Dy :=
  if Dy.le ⟨4096, 0⟩ x then ⟨4096, 0⟩ else if Dy.le x ⟨-4096, 0⟩ then ⟨-4096, 0⟩ else x

/-- A threshold of Config. -/
def cutDy (c : Int × Int) : Dy := ⟨c.1, c.2⟩

/-- exp2 of an exact argument into format df (07, R160, R162, Tables 07-4 and 07-5): code and flags, but for
those of forming the argument. -/
def exp2Fmt (df : Nat) (rm : Rm) (arg : Num) : Nat × Nat :=
  let f := (ffmtOf df).getD ffp32
  let e4 := decide (f.special = 2)
  match arg with
  | .nan _ => (f.nanCode, 0)
  | .inf neg => if neg then (0, 0) else if e4 then (f.maxCode, fOF) else (f.infCode, 0)
  | .fin neg m e =>
    let x := (Num.fin neg m e).dy
    match exp2Num (expClamp x) with
    | .fin _ vm ve =>
      let (c, ov, nx, sub) := ffRound f rm vm ve
      if ov then (if e4 || decide (rm = .rtz) then f.maxCode else f.infCode, fOF + fNX)
      else if df = FP32 then
        let (lo, _, nx, _) := ffRound f .rtz vm ve
        let c := if !nx || lo = 0 || lo = f.maxCode then c
          else if Dy.le (cutDy (Config.exp2Cut (BitVec.ofNat 32 lo))) x then lo + 1 else lo
        (c, (if nx then fNX else 0) + (if nx && decide (c < 2 ^ 23) then fUF else 0))
      else (c, (if nx then fNX else 0) + (if nx && sub then fUF else 0))
    | _ => (0, 0)

/-- log2(a) * s into format df (07, R162, Table 07-4): code and flags. An infinite result stays infinite whatever SAT is. -/
def log2Fmt (df : Nat) (rm : Rm) (sat : Bool) (a s : Num) (scode : Nat) : Nat × Nat :=
  let (l, fl, dz) : Num × Nat × Bool := match a with
    | .nan sg => (.nan sg, 0, false)
    | .inf neg => if neg then (.nan false, fIV, false) else (.inf false, 0, false)
    | .fin neg m e => if m = 0 then (.inf true, 0, true) else if neg then (.nan false, fIV, false) else (log2Num m e, 0, false)
  let (r, fm) := numMul l s
  let fl := fl ||| fm ||| (if dz && !r.isNan then fDZ else 0)
  let f := (ffmtOf df).getD ffp32
  let (c, fc) := match r with
    | .inf neg => (f.sign neg f.infCode, 0)
    | r => ffConvert f rm sat r
  match r with
  | .fin neg m e =>
    let (lo, _, nx, _) := ffRound f .rtz m e
    if df ≠ FP32 || !nx || lo = f.maxCode then (c, fl ||| fc)
    else
      let up := Dy.le (cutDy (Config.log2Cut (BitVec.ofNat 32 scode) (BitVec.ofNat 32 (f.sign neg lo)))) r.dy
      let k := if up = neg then lo else lo + 1
      (f.sign neg k, fl ||| fNX ||| (if k < 2 ^ 23 then fUF else 0))
  | _ => (c, fl ||| fc)

end Sys2Proof.Machine
end

