-- ==== Sys2Proof/Machine/VecOps.lean ====
section
/-! DEFINITION. Lanes, masks, element conversions and memory operands of the vector engine (06). -/

namespace Sys2Proof.Machine

/-! ### Registers -/

/-- Mask register k; m0 reads as all ones (06, R127). -/
def maskOf (v : Vec) (k : Nat) : BitVec 512 := if k = 0 then BitVec.allOnes 512 else vget v.masks k 0
/-- Write mask register k; m0 cannot be written. -/
def setMask (v : Vec) (k : Nat) (m : BitVec 512) : Vec := if k = 0 then v else { v with masks := vput v.masks k m }

/-- Active lanes of an instruction: below VL, with their bit of mask k set (06, R128). -/
def actLanes (v : Vec) (vl k : Nat) : BitVec 512 := maskOf v k &&& BitVec.ofNat 512 (2 ^ vl - 1)

/-- The 512 lane values of vector register r. -/
def vrow (v : Vec) (r : Nat) : List Nat :=
  let w := v.lanes.filter (fun c => decide (512 * r ≤ c.1) && decide (c.1 < 512 * r + 512))
  (List.range 512).map (fun l => (look w (512 * r + l) 0).toNat)

/-- Lane l of vector register r. -/
def vlane (v : Vec) (r l : Nat) : Nat := (look v.lanes (512 * r + l) 0).toNat

/-- Entries of lanes from key k on; a lane of 0 has none. -/
def laneCells : Nat → List Nat → List (Nat × BitVec 32)
  | _, [] => []
  | k, c :: cs => if BitVec.ofNat 32 c = 0 then laneCells (k + 1) cs else (k, BitVec.ofNat 32 c) :: laneCells (k + 1) cs

/-- Write all 512 lanes of vector register r. -/
def setRow (v : Vec) (r : Nat) (cs : List Nat) : Vec :=
  { v with lanes := v.lanes.filter (fun c => decide (c.1 < 512 * r)) ++ laneCells (512 * r) (cs.take 512) ++
      v.lanes.filter (fun c => decide (512 * r + 512 ≤ c.1)) }

/-- Write one lane. -/
def setLane (v : Vec) (r l c : Nat) : Vec := setRow v r (lmod (vrow v r) l (fun _ => c))

/-- A row of results: an active lane takes its value and flags, another keeps its old value. -/
def mapLanes (act : BitVec 512) (old : List Nat) (f : Nat → Nat × Nat) : List Nat × List Nat :=
  ((List.range 512).map (fun l => if act.getLsbD l then f l else (old.getD l 0, 0))).unzip

/-- OR of a list of flags. -/
def orAll (fs : List Nat) : Nat := fs.foldl (· ||| ·) 0

/-- Flags of a row collected: for `VEC_FLAG`, and for the lanes that `FDST` captures (06, R147, R155). -/
def collect (j : VecJob) (fsel : Nat) (fs : List Nat) : VecJob :=
  { j with flags := j.flags ||| orAll fs
           fmask := fs.zipIdx.foldl (fun m p => if p.1 &&& fsel = 0 then m else m ||| (1#512 <<< p.2)) j.fmask }

/-- Flag bits of `VEC_FLAG` above those of Numeric (06, Table 06-10). -/
def fOOR : Nat := 32
def fZOVR : Nat := 64
def fROWE : Nat := 128

/-! ### Rounding -/

/-- Element index of row i, lane l (06, R145). -/
def srIndex (j : VecJob) (i l : Nat) : Nat := j.ibase + i * j.rstr + l
/-- Rounding mode of a lane with its SR value. -/
def rmAt (j : VecJob) (rm i l : Nat) : Rm :=
  if rm = 2 then .sr (srDraw j.seed j.tag (srIndex j i l)) else rmOf rm 0

/-- FP32 code of a value that FP32 holds exactly. -/
def exact32 (x : Num) : Nat := (f32Of .rne x).1
def num32 (c : Nat) : Num := ffDecode ffp32 c
/-- Invalid flag of a signalling operand (02, R33). -/
def sigIV (x : Num) : Nat := if x.sig then fIV else 0

/-- Conversion of a value to a non-MX format: its code and flags (02, Table 02-7). -/
def convElt (f : Nat) (rm : Rm) (sat : Bool) (x : Num) : Nat × Nat :=
  match ffmtOf f with
  | some ff => ffConvert ff rm sat x
  | none => int8Convert rm x

/-- The FP32 code that holds an element of a non-MX format; INT8 as an INT32 (06, R146). -/
def heldElt (f code : Nat) : Nat :=
  if f = INT8 then twos 32 (sgn 8 code) else exact32 (decodeElt f code)

/-! ### Memory operands -/

def adBase (j : VecJob) (a : Nat) : Nat := fld (j.addr.getD a 0) 19 0
def adStr (j : VecJob) (a : Nat) : Nat := fld (j.addr.getD a 0) 35 20
/-- Window offset of row i through address register a (06, R139). -/
def adRow (j : VecJob) (a i : Nat) : Nat := 32 * (adBase j a + i * adStr j a)

/-- The same from the registers in force at issue. -/
def nowRow (v : Vec) (a i : Nat) : Nat :=
  32 * (fld (vget v.addr a 0) 19 0 + i * fld (vget v.addr a 0) 35 20)

/-- Runs of active lanes below n: first lane and length. -/
def laneRuns (act : BitVec 512) (n : Nat) : List (Nat × Nat) :=
  ((List.range n).foldl (fun (rs : List (Nat × Nat)) l =>
    if act.getLsbD l then
      match rs with
      | (a, k) :: r => if a + k = l then (a, k + 1) :: r else (l, 1) :: rs
      | [] => [(l, 1)]
    else rs) []).reverse

/-- The lowest poisoned sector among those that active lanes of elements of b bits touch (06, R128; 09, R215). -/
def lanePoison (s : State) (t off b : Nat) (act : BitVec 512) (n : Nat) : Option Nat :=
  if s.poison.isEmpty then none
  else (laneRuns act n).findSome? (fun r =>
    scrPoison s t (off + b * r.1 / 8) (cdiv (b * (r.1 + r.2)) 8 - b * r.1 / 8))

/-- Write the elements of active lanes, each run of lanes as one write (06, R150). -/
def storeLanes (s : State) (t off b : Nat) (act : BitVec 512) (n : Nat) (codes : List Nat) : State :=
  forEach (laneRuns act n) s (fun r s =>
    scrWrite s t (off + b * r.1 / 8) (packElts b ((codes.drop r.1).take r.2)))

/-- An element is stored by ZRC (02, R53). -/
def zrcKeeps (f code : Nat) : Bool :=
  match ffmtOf f with
  | some ff => code % 2 ^ (ff.eb + ff.mb) != 0
  | none => code % 256 != 0

/-- One ZRC group (02, R51). -/
def zrcGroup (f : Nat) (es : List Nat) : List Byte :=
  let mask := es.zipIdx.foldl (fun m p => if zrcKeeps f p.1 then m + 2 ^ p.2 else m) 0
  let b := leBytes 8 mask ++ packElts (eltBits f) (es.filter (zrcKeeps f))
  b ++ List.replicate (32 * cdiv b.length 32 - b.length) 0

/-- A ZRC row of g groups. -/
def zrcRow (f : Nat) : Nat → List Nat → List Byte
  | 0, _ => []
  | g + 1, es => zrcGroup f (es.take 64) ++ zrcRow f g (es.drop 64)

/-- Largest size of a ZRC row of n elements (06, R148; 02, Table 02-8). -/
def zrcMost (f n : Nat) : Nat := n / 64 * (32 * cdiv (8 + 64 * (eltBits f / 8)) 32)

/-- Formats that ZRC and EPI accept (02, R52; 06, R153). -/
def plainFmt (f : Nat) : Bool := decide (f ≤ 5)

/-! ### Outcome of a row -/

/-- A row completes with a new state and job, or holds on the poisoned sector at an address. -/
abbrev VecOut := Except Nat (State × VecJob)

def modVec (s : State) (t : Nat) (f : Vec → Vec) : State := modTile s t (fun x => { x with vec := f x.vec })
def vecOf (s : State) (t : Nat) : Vec := (tileAt s t).vec

end Sys2Proof.Machine
end

