-- ==== Sys2Proof/Machine/Vector.lean ====
section
/-! DEFINITION. Issue of vector instructions (06, R127 to R153). -/

namespace Sys2Proof.Machine

/-! ### Address registers and the vector queue -/

/-- Address register whose advance is known only at the end of a packed VSTZ or EPI (06, R151, R152). -/
def packedAr (w : Word128) : Option Nat :=
  if opOf w = 0x45 ∧ Vm.zmd w = 0 ∧ Vm.adv w = 1 then some (Vm.ar w)
  else if opOf w = 0x46 ∧ Epi.z w = 1 ∧ Epi.adv w = 1 then some (Epi.da w)
  else none

/-- A word that names one of these address registers holds (06, R151). -/
def namesHeld (x : Tile) (names : List Nat) : Bool :=
  (vecJobs x).any (fun j => match packedAr j.w with
    | some a => names.contains a
    | none => false)

/-- Add n strides to the base of an address register (06, R139). -/
def advReg (n : Nat) (r : Reg) : Reg := setFld r 19 0 (fld r 19 0 + n * fld r 35 20)

/-- `ADV` (06, R139): every named register once, and the index base. -/
def advVec (v : Vec) (names : List Nat) (nr : Nat) : Vec :=
  { v with addr := names.dedup.foldl (fun a k => vmod a k (advReg nr)) v.addr
           idx := setFld v.idx 47 0 (fld v.idx 47 0 + nr * fld v.tag 55 32) }

/-- The job of a word with the values in force at its issue (06, R128, R139). -/
def vecJob (s : State) (t : Nat) (w : Word128) : VecJob :=
  let x := tileAt s t
  { seq := x.misc.seq, idx := csWord s t, w := w, vl := x.vec.vl, addr := x.vec.addr.toList
    ibase := fld x.vec.idx 47 0, rstr := fld x.vec.tag 55 32, tag := fld x.vec.tag 31 0 }

/-- Place a word in the vector queue, and do to the set-up state what it does at issue; a full queue holds the stream
(06, R130, R154). -/
def pushVec (s : State) (t : Nat) (w : Word128) (f : Vec → Vec) : Issue :=
  if 16 ≤ (vecOf s t).queue.length then .hold s
  else
    let j := vecJob s t w
    .done (modVec s t (fun v => f { v with queue := v.queue ++ [j] }))

/-- A word's advance, when it has one. -/
def advWhen (adv : Nat) (names : List Nat) (nr : Nat) (v : Vec) : Vec := if adv = 1 then advVec v names nr else v

/-! ### Checks -/

/-- Fault codes (06, Table 06-7). -/
def vRSVD : Nat := 2
def vREG : Nat := 3
def vVL : Nat := 4
def vSHAPE : Nat := 5
def vRANGE : Nat := 6
def vFMT : Nat := 7
def vOOR : Nat := 8
def vSLOT : Nat := 9
def vROWS : Nat := 10
def vFMTRSVD : Nat := 11
def vZRC : Nat := 12

/-- First failing check of a list of (condition, code, detail). -/
def firstFail : List (Bool × Nat × Nat) → Option (Nat × Nat)
  | [] => none
  | (true, c, d) :: _ => some (c, d)
  | (false, _, _) :: r => firstFail r

/-- A register group that leaves the 64 registers (06, R129). -/
def regOver (nr : Nat) (rs : List Nat) : Option (Nat × Nat) :=
  (rs.find? (fun r => decide (64 < r + nr))).map (fun r => (vREG, r))

/-- Checks of the register-operand form: highest function, registers read or written (06, R129, R135). -/
def vrFault (w : Word128) (fnMax : Nat) (regs : List Nat) : Option (Nat × Nat) :=
  (firstFail [(decide (fnMax < Vr.fn w), vRSVD, 84), (decide (Vr.fdst w = 0 ∧ Vr.fsel w ≠ 0), vRSVD, 73),
    (decide (Vr.rm w = 3), vFMTRSVD, 1)]).or (regOver (Vr.nr w) regs)

/-- Source VB, when it is a register. -/
def vbRegs (w : Word128) : List Nat := if Vr.imt w = 0 then [Vr.vb w] else []

/-- A register-form instruction: its fault, or the vector queue. -/
def issueVr (t : Nat) (w : Word128) (f : Option (Nat × Nat)) (s : State) : Issue :=
  match f with
  | some (c, d) => .fault spVEC c d
  | none => pushVec s t w (advWhen (Vr.adv w) [] (Vr.nr w))

/-! ### Set-up words -/

/-- VLEN (06, R128, Table 06-3). -/
def issueVlen (t : Nat) (w : Word128) (s : State) : Issue :=
  if Vset.vl w = 0 ∨ 512 < Vset.vl w then .fault spVEC vVL 0
  else pushVec s t w (fun v => { v with vl := Vset.vl w })

/-- VADR (06, R139, R151). -/
def issueVadr (t : Nat) (w : Word128) (s : State) : Issue :=
  if namesHeld (tileAt s t) [Vset.ar w] then .hold s
  else pushVec s t w (fun v => { v with addr := vput v.addr (Vset.ar w) (BitVec.ofNat 64 (Vset.str w * 2 ^ 20 + Vset.base w)) })

/-- VIDX (06, R145, Table 06-12). -/
def issueVidx (t : Nat) (w : Word128) (s : State) : Issue :=
  pushVec s t w (fun v => { v with
    idx := setFld v.idx 47 0 (Vset.ibase w)
    tag := setFld (setFld v.tag 31 0 (Vset.tag w)) 55 32 (Vset.rstr w) })

/-! ### Register operations -/

/-- VFA (06, R136). -/
def vfaFault (w : Word128) : Option (Nat × Nat) :=
  vrFault w 6 ([Vr.vd w, Vr.va w] ++ vbRegs w ++ (if Vr.fn w = 3 ∨ Vr.fn w = 4 then [Vr.vc w] else []))
def issueVfa (t : Nat) (w : Word128) (s : State) : Issue := issueVr t w (vfaFault w) s
/-- VIA (06, R138). -/
def viaFault (w : Word128) : Option (Nat × Nat) :=
  vrFault w 7 ([Vr.vd w, Vr.va w] ++ vbRegs w)
def issueVia (t : Nat) (w : Word128) (s : State) : Issue := issueVr t w (viaFault w) s
/-- A mask destination (06, Table 06-3). -/
def maskDstFault (w : Word128) : Option (Nat × Nat) :=
  firstFail [(decide (Vr.vd w = 0 ∨ 7 < Vr.vd w ∨ Vr.nr w ≠ 1), vREG, Vr.vd w)]
/-- VCMP (06, R137). -/
def vcmpFault (w : Word128) : Option (Nat × Nat) :=
  ((vrFault w 4 []).or (maskDstFault w)).or (regOver (Vr.nr w) ([Vr.va w] ++ vbRegs w))
def issueVcmp (t : Nat) (w : Word128) (s : State) : Issue := issueVr t w (vcmpFault w) s
/-- VSEL (06, R129, Table 06-4). -/
def vselFault (w : Word128) : Option (Nat × Nat) :=
  ((vrFault w 0 []).or (firstFail [(decide (7 < Vr.vc w), vREG, Vr.vc w)])).or
    (regOver (Vr.nr w) ([Vr.vd w, Vr.va w] ++ vbRegs w))
def issueVsel (t : Nat) (w : Word128) (s : State) : Issue := issueVr t w (vselFault w) s
/-- VCVT (06, R146). -/
def vcvtFault (s : State) (t : Nat) (w : Word128) : Option (Nat × Nat) :=
  (vrFault w 2 [Vr.vd w, Vr.va w]).or (firstFail
    [(fmtRsvd (Vr.df w), vFMTRSVD, 0), (decide (Vr.df w = X96), vFMT, X96),
     (isMx (Vr.df w) && decide ((vecOf s t).vl % 32 ≠ 0), vSHAPE, 0)])
def issueVcvt (t : Nat) (w : Word128) (s : State) : Issue := issueVr t w (vcvtFault s t w) s
/-- VMSK (06, R138, Table 06-4): FIRST reads no mask register. -/
def vmskFault (w : Word128) : Option (Nat × Nat) :=
  ((vrFault w 4 []).or (maskDstFault w)).or (firstFail
    [(decide (Vr.fn w ≠ 4 ∧ 7 < Vr.va w), vREG, Vr.va w), (decide (Vr.fn w ≠ 4 ∧ 7 < Vr.vb w), vREG, Vr.vb w)])
def issueVmsk (t : Nat) (w : Word128) (s : State) : Issue := issueVr t w (vmskFault w) s
/-- VPERM (06, R143). -/
def vpermFault (w : Word128) : Option (Nat × Nat) :=
  vrFault w 0 ([Vr.vd w, Vr.va w] ++ vbRegs w)
def issueVperm (t : Nat) (w : Word128) (s : State) : Issue := issueVr t w (vpermFault w) s
/-- VLSH (06, R142). -/
def vlshFault (w : Word128) : Option (Nat × Nat) :=
  vrFault w 2 [Vr.vd w, Vr.va w]
def issueVlsh (t : Nat) (w : Word128) (s : State) : Issue := issueVr t w (vlshFault w) s
/-- VCMPR (06, R141). -/
def vcmprFault (w : Word128) : Option (Nat × Nat) :=
  vrFault w 0 [Vr.vd w, Vr.va w]
def issueVcmpr (t : Nat) (w : Word128) (s : State) : Issue := issueVr t w (vcmprFault w) s
/-- VEXPD (06, R141). -/
def vexpdFault (w : Word128) : Option (Nat × Nat) :=
  vrFault w 0 [Vr.vd w, Vr.va w]
def issueVexpd (t : Nat) (w : Word128) (s : State) : Issue := issueVr t w (vexpdFault w) s
/-- VRED (06, R140). -/
def vredFault (w : Word128) : Option (Nat × Nat) :=
  vrFault w 2 [Vr.vd w, Vr.va w]
def issueVred (t : Nat) (w : Word128) (s : State) : Issue := issueVr t w (vredFault w) s

/-! ### Memory operations -/

/-- Slot checks of VLD and EPI (06, R149, R153). -/
def slotFault (x : Tile) (sl row0 nr : Nat) : Option (Nat × Nat) :=
  firstFail [(decide (geomN x ≤ sl), vSLOT, sl), (decide (geomSR x < row0 + nr), vROWS, sl),
    (decide (geomSC x < x.vec.vl), vSHAPE, 2)]

/-- Rows of n bytes through address register a lie in the window (06, R148). -/
def rowsFault (s : State) (t a nr n : Nat) : Option (Nat × Nat) :=
  if (List.range nr).all (fun i => inWindow s t (nowRow (vecOf s t) a i) n) then none else some (vRANGE, a)

/-- Ranges of the elements and scales of VLD and VST (06, R148 to R150). -/
def eltRanges (s : State) (t : Nat) (w : Word128) : Option (Nat × Nat) :=
  let vl := (vecOf s t).vl
  (rowsFault s t (Vm.ar w) (Vm.nr w) (eltBytes (Vm.fmt w) vl)).or
    (if isMx (Vm.fmt w) then rowsFault s t (Vm.sar w) (Vm.nr w) (vl / 32) else none)

/-- Address registers that VLD, VST or VSTZ names: the scales' or lengths' register when it is used. -/
def vmNames (w : Word128) : List Nat :=
  if opOf w = 0x43 ∧ Vm.sk w = 1 then []
  else if opOf w = 0x45 then Vm.ar w :: (if Vm.lw w = 1 then [Vm.sar w] else [])
  else Vm.ar w :: (if isMx (Vm.fmt w) then [Vm.sar w] else [])

/-- Checks that VLD, VST and VSTZ share: `SK`, format and rounding codes, registers. -/
def vmFault (w : Word128) (sk : Bool) : Option (Nat × Nat) :=
  (firstFail [(!sk && decide (Vm.sk w = 1), vRSVD, 104), (decide (Vm.sk w = 0) && fmtRsvd (Vm.fmt w), vFMTRSVD, 0),
    (decide (Vm.rm w = 3), vFMTRSVD, 1)]).or (regOver (Vm.nr w) [Vm.vr w])

/-- VLD (06, R149). -/
def vldFault (s : State) (t : Nat) (w : Word128) : Option (Nat × Nat) :=
  let x := tileAt s t
  (vmFault w true).or (if Vm.sk w = 1 then slotFault x (Vm.slot w) (Vm.row0 w) (Vm.nr w)
    else (firstFail [(decide (Vm.fmt w = X96), vFMT, X96), (isMx (Vm.fmt w) && decide (x.vec.vl % 32 ≠ 0), vSHAPE, 0)]).or
      (eltRanges s t w))
def issueVld (t : Nat) (w : Word128) (s : State) : Issue :=
  if namesHeld (tileAt s t) (vmNames w) then .hold s
  else
    match vldFault s t w with
    | some (c, d) => .fault spVEC c d
    | none => pushVec s t w (advWhen (Vm.adv w) (vmNames w) (Vm.nr w))

/-- A queued instruction writes mask register k. -/
def writesMask (w : Word128) (k : Nat) : Bool :=
  let op := opOf w
  ((decide (0x48 ≤ op) && decide (op ≤ 0x52)) || op == 0x60 || op == 0x63) && decide (Vr.fdst w = k) ||
  (op == 0x4A || op == 0x4D) && decide (Vr.vd w = k) ||
  op == 0x61 && decide (wf w 68 68 = 0) && decide (wf w 89 87 = k)

/-- VST (06, R150): an MX format holds until the mask register is as every earlier instruction leaves it. -/
def vstFault (s : State) (t : Nat) (w : Word128) : Option (Nat × Nat) :=
  (vmFault w false).or (firstFail [(decide (Vm.fmt w = X96), vFMT, X96),
    (isMx (Vm.fmt w) && decide ((vecOf s t).vl % 32 ≠ 0), vSHAPE, 0)])
def vstWaits (x : Tile) (w : Word128) : Bool :=
  isMx (Vm.fmt w) && decide (Vm.mk w ≠ 0) && (vecJobs x).any (fun j => writesMask j.w (Vm.mk w))
def vstLate (s : State) (t : Nat) (w : Word128) : Option (Nat × Nat) :=
  let v := vecOf s t
  (firstFail [(isMx (Vm.fmt w) && decide (actLanes v v.vl (Vm.mk w) ≠ BitVec.ofNat 512 (2 ^ v.vl - 1)), vSHAPE, 0)]).or (eltRanges s t w)
def issueVst (t : Nat) (w : Word128) (s : State) : Issue :=
  let x := tileAt s t
  if namesHeld x (vmNames w) then .hold s
  else
    match vstFault s t w with
    | some (c, d) => .fault spVEC c d
    | none =>
      if vstWaits x w then .hold s
      else match vstLate s t w with
        | some (c, d) => .fault spVEC c d
        | none => pushVec s t w (advWhen (Vm.adv w) (vmNames w) (Vm.nr w))

/-- Range of packed or strided ZRC rows (06, R148, R151). -/
def zrcRange (s : State) (t a nr fmt : Nat) (strided : Bool) : Option (Nat × Nat) :=
  let v := vecOf s t
  let most := zrcMost fmt v.vl
  if strided then rowsFault s t a nr (min most (32 * fld (vget v.addr a 0) 35 20))
  else if inWindow s t (nowRow v a 0) (nr * most) then none else some (vRANGE, a)

/-- VSTZ (06, R151). -/
def vstzFault (s : State) (t : Nat) (w : Word128) : Option (Nat × Nat) :=
  let x := tileAt s t
  let nr := Vm.nr w
  ((vmFault w false).or (firstFail [(decide (x.vec.vl % 64 ≠ 0), vSHAPE, 1),
    (!plainFmt (Vm.fmt w), vZRC, Vm.fmt w)])).or
    ((zrcRange s t (Vm.ar w) nr (Vm.fmt w) (Vm.zmd w = 1)).or
      (if Vm.lw w = 1 ∧ inWindow s t (nowRow x.vec (Vm.sar w) 0) (4 * nr) = false then some (vRANGE, Vm.sar w) else none))
def issueVstz (t : Nat) (w : Word128) (s : State) : Issue :=
  if namesHeld (tileAt s t) (vmNames w) then .hold s
  else
    match vstzFault s t w with
    | some (c, d) => .fault spVEC c d
    | none =>
      let names := (vmNames w).filter (fun a => packedAr w != some a)
      pushVec s t w (advWhen (Vm.adv w) names (Vm.nr w))

/-- Address registers that EPI names (06, R152). -/
def epiNames (w : Word128) : List Nat := Epi.da w :: (if Epi.ren w = 1 then [Epi.ra w] else [])

/-- EPI (06, R152, R153). -/
def epiFault (s : State) (t : Nat) (w : Word128) : Option (Nat × Nat) :=
  let x := tileAt s t
  let vl := x.vec.vl
  let nr := Epi.rc w
  ((firstFail [(decide (Epi.scm w = 3), vRSVD, 81), (decide (1 < Epi.act w), vRSVD, 78),
        (fmtRsvd (Epi.rfmt w) || fmtRsvd (Epi.dfmt w), vFMTRSVD, 0), (decide (Epi.rm w = 3), vFMTRSVD, 1),
        (!plainFmt (Epi.rfmt w), vFMT, Epi.rfmt w), (!plainFmt (Epi.dfmt w), vFMT, Epi.dfmt w)]).or
      (slotFault x (Epi.slot w) (Epi.row0 w) nr)).or
      ((firstFail [(decide (Epi.z w = 1 ∧ vl % 64 ≠ 0), vSHAPE, 1)]).or
        ((if Epi.ren w = 1 then rowsFault s t (Epi.ra w) nr (eltBytes (Epi.rfmt w) vl) else none).or
          (if Epi.z w = 1 then zrcRange s t (Epi.da w) nr (Epi.dfmt w) false
            else rowsFault s t (Epi.da w) nr (eltBytes (Epi.dfmt w) vl))))
def issueEpi (t : Nat) (w : Word128) (s : State) : Issue :=
  if namesHeld (tileAt s t) (epiNames w) then .hold s
  else
    match epiFault s t w with
    | some (c, d) => .fault spVEC c d
    | none =>
      let names := (epiNames w).filter (fun a => packedAr w != some a)
      pushVec s t w (advWhen (Epi.adv w) names (Epi.rc w))

/-! ### Commands -/

/-- VLEN. -/
def execVlen (t : TileId) (w : Word128) (s : State) : Out := issueCmd 0x40 t.val w (issueVlen t.val w) s
/-- VADR. -/
def execVadr (t : TileId) (w : Word128) (s : State) : Out := issueCmd 0x41 t.val w (issueVadr t.val w) s
/-- VIDX. -/
def execVidx (t : TileId) (w : Word128) (s : State) : Out := issueCmd 0x42 t.val w (issueVidx t.val w) s
/-- VLD. -/
def execVld (t : TileId) (w : Word128) (s : State) : Out := issueCmd 0x43 t.val w (issueVld t.val w) s
/-- VST. -/
def execVst (t : TileId) (w : Word128) (s : State) : Out := issueCmd 0x44 t.val w (issueVst t.val w) s
/-- VSTZ. -/
def execVstz (t : TileId) (w : Word128) (s : State) : Out := issueCmd 0x45 t.val w (issueVstz t.val w) s
/-- EPI. -/
def execEpi (t : TileId) (w : Word128) (s : State) : Out := issueCmd 0x46 t.val w (issueEpi t.val w) s
/-- VFA. -/
def execVfa (t : TileId) (w : Word128) (s : State) : Out := issueCmd 0x48 t.val w (issueVfa t.val w) s
/-- VIA. -/
def execVia (t : TileId) (w : Word128) (s : State) : Out := issueCmd 0x49 t.val w (issueVia t.val w) s
/-- VCMP. -/
def execVcmp (t : TileId) (w : Word128) (s : State) : Out := issueCmd 0x4A t.val w (issueVcmp t.val w) s
/-- VSEL. -/
def execVsel (t : TileId) (w : Word128) (s : State) : Out := issueCmd 0x4B t.val w (issueVsel t.val w) s
/-- VCVT. -/
def execVcvt (t : TileId) (w : Word128) (s : State) : Out := issueCmd 0x4C t.val w (issueVcvt t.val w) s
/-- VMSK. -/
def execVmsk (t : TileId) (w : Word128) (s : State) : Out := issueCmd 0x4D t.val w (issueVmsk t.val w) s
/-- VPERM. -/
def execVperm (t : TileId) (w : Word128) (s : State) : Out := issueCmd 0x4E t.val w (issueVperm t.val w) s
/-- VLSH. -/
def execVlsh (t : TileId) (w : Word128) (s : State) : Out := issueCmd 0x4F t.val w (issueVlsh t.val w) s
/-- VCMPR. -/
def execVcmpr (t : TileId) (w : Word128) (s : State) : Out := issueCmd 0x50 t.val w (issueVcmpr t.val w) s
/-- VEXPD. -/
def execVexpd (t : TileId) (w : Word128) (s : State) : Out := issueCmd 0x51 t.val w (issueVexpd t.val w) s
/-- VRED. -/
def execVred (t : TileId) (w : Word128) (s : State) : Out := issueCmd 0x52 t.val w (issueVred t.val w) s

end Sys2Proof.Machine
end

