-- ==== Sys2Proof/Machine/VecRow.lean ====
section
/-! DEFINITION. What one row of each vector instruction does (06, R136 to R152). -/

namespace Sys2Proof.Machine

/-- The b operand of row i (06, Table 06-2). -/
def bRow (v : Vec) (w : Word128) (i : Nat) : List Nat :=
  match Vr.imt w with
  | 0 => vrow v (Vr.vb w + i)
  | 2 => (List.range 512).map (fun l => (Vr.imm w / 2 ^ (16 * (l % 2))) % 2 ^ 16 * 2 ^ 16)
  | _ => List.replicate 512 (Vr.imm w)

/-- A row of a register operation whose lanes are independent. -/
def laneOp (v : Vec) (j : VecJob) (f : Nat → Nat × Nat) : Vec × VecJob :=
  let act := actLanes v j.vl (Vr.mk j.w)
  let d := Vr.vd j.w + j.done
  let (r, fs) := mapLanes act (vrow v d) f
  (setRow v d r, collect j (Vr.fsel j.w) fs)

/-- Every lane below VL of row vd takes a value; other lanes keep theirs. -/
def belowVl (v : Vec) (j : VecJob) (f : Nat → Nat) : Vec :=
  let d := Vr.vd j.w + j.done
  let old := vrow v d
  setRow v d ((List.range 512).map (fun l => if l < j.vl then f l else old.getD l 0))

/-! ### Arithmetic -/

/-- MIN and MAX of FP32 codes (06, R136): code and flags. -/
def minmax32 (mx : Bool) (a b : Nat) : Nat × Nat :=
  let x := num32 a
  let y := num32 b
  if x.isNan || y.isNan then (ffp32.nanCode, sigIV x ||| sigIV y)
  else
    let less := match x, y with
      | .inf n, _ => n && y != .inf true
      | _, .inf n => !n
      | _, _ => if x.isZero && y.isZero then x.neg && !y.neg
        else !(y.dy.le x.dy)
    (if less = mx then b else a, 0)

/-- One lane of VFA (06, R136). -/
def vfaLane (fn : Nat) (rm : Rm) (a b c : Nat) : Nat × Nat :=
  let x := num32 a
  let y := num32 b
  let z := num32 c
  if 5 ≤ fn then minmax32 (fn == 6) a b
  else
    let (r, fl) := match fn with
      | 0 => numAdd x y
      | 1 => numAdd x y.negate
      | 2 => numMul x y
      | _ =>
        let (p, f1) := numMul x y
        let p := if fn = 4 then p.negate else p
        let formed := p.isNan && !x.isNan && !y.isNan
        let (r, f2) := numAdd p z
        let f1 := if formed && z.isNan && !z.sig && !Config.fmaInvalid then 0 else f1
        (r, f1 ||| f2)
    let (code, cf) := f32Of rm r
    (code, fl ||| cf)

/-- One lane of VIA (06, Table 06-4, R138). -/
def viaLane (fn a b : Nat) : Nat :=
  let sh := b % 32
  (match fn with
  | 0 => a + b
  | 1 => a + 2 ^ 32 - b
  | 2 => a &&& b
  | 3 => a ||| b
  | 4 => a ^^^ b
  | 5 => a <<< sh
  | 6 => a >>> sh
  | _ => twos 32 (sgn 32 a >>> sh)) % 2 ^ 32

/-- VCMP of one lane (06, R137): predicate and flags. -/
def vcmpLane (fn a b : Nat) : Bool × Nat :=
  let x := num32 a
  let y := num32 b
  let sig := sigIV x ||| sigIV y
  if x.isNan || y.isNan then (fn == 3 || fn == 4, if fn = 1 ∨ fn = 2 then fIV else sig)
  else
    let eq := (x.isZero && y.isZero) || (match x, y with
      | .inf n, .inf k => n == k
      | .inf _, _ => false
      | _, .inf _ => false
      | _, _ => x.dy.le y.dy && y.dy.le x.dy)
    let lt := !eq && (match x, y with
      | .inf n, _ => n
      | _, .inf n => !n
      | _, _ => x.dy.le y.dy)
    ((match fn with
      | 0 => eq
      | 1 => lt
      | 2 => lt || eq
      | 3 => false
      | _ => !eq), 0)

/-- Rounding to INT32 (06, R146). -/
def f2i (rm : Rm) (x : Num) : Nat × Nat :=
  match x with
  | .nan _ => (0, fIV)
  | .inf neg => (if neg then 2 ^ 31 else 2 ^ 31 - 1, fIV)
  | .fin neg m e =>
    let (n, nx) := roundShift rm m e
    if neg then (if 2 ^ 31 < n then (2 ^ 31, fIV) else (twos 32 (-(n : Int)), if nx then fNX else 0))
    else if 2 ^ 31 - 1 < n then (2 ^ 31 - 1, fIV)
    else (n, if nx then fNX else 0)

/-- One lane of VCVT, not MX (06, R146). -/
def vcvtLane (fn df : Nat) (rm : Rm) (sat : Bool) (a : Nat) : Nat × Nat :=
  match fn with
  | 1 => f2i rm (num32 a)
  | 2 => f32Of rm (intNum 32 a 0)
  | _ =>
    let (c, fl) := convElt df rm sat (num32 a)
    (heldElt df c, fl)

/-- Quantisation of the 32-lane block b of a row (02, R37; 06, R146, R150): scale, codes, flags. Lanes that
do not take part count as zero. -/
def quantBlock (j : VecJob) (f rm : Nat) (act : BitVec 512) (row : List Nat) (b : Nat) : Nat × List Nat × List Nat :=
  let ls := (List.range 32).map (· + 32 * b)
  mxQuant f (ls.map (fun l => rmAt j rm j.done l))
    (ls.map (fun l => if act.getLsbD l then num32 (row.getD l 0) else .fin false 0 0))

/-- VCVT ROUND to an MX format (06, R146): the dequantised value, by the overflow rule of Table 02-7 (02, R48). -/
def vcvtMx (v : Vec) (j : VecJob) : Vec × VecJob :=
  let w := j.w
  let f := Vr.df w
  let act := actLanes v j.vl (Vr.mk w)
  let a := vrow v (Vr.va w + j.done)
  let qs := (List.range (j.vl / 32)).map (quantBlock j f (Vr.rm w) act a)
  laneOp v j (fun l =>
    let (sc, cs, fs) := qs.getD (l / 32) (0, [], [])
    let (c, fl) := ffConvert ffp32 (rmAt j (Vr.rm w) j.done l) (Vr.sat w = 1) (scaleBy (decodeElt f (cs.getD (l % 32) 0)) sc)
    (c, fs.getD (l % 32) 0 ||| fl))

/-- The reduction tree of VRED over 2^n values (06, R140): result and flags. -/
def redTree (fn : Nat) : Nat → List Nat → Nat × Nat
  | 0, l => (l.headD 0, 0)
  | n + 1, l =>
    let (a, fa) := redTree fn n (l.take (2 ^ n))
    let (b, fb) := redTree fn n (l.drop (2 ^ n))
    let (r, fr) := match fn with
      | 0 => minmax32 true a b
      | 1 => minmax32 false a b
      | _ =>
        let (x, f1) := numAdd (num32 a) (num32 b)
        let (c, f2) := f32Of .rne x
        (c, f1 ||| f2)
    (r, fa ||| fb ||| fr)

/-- Identity of a reduction: -inf, +inf, -0. -/
def redId (fn : Nat) : Nat := match fn with | 0 => 0xFF800000 | 1 => 0x7F800000 | _ => 0x80000000

/-! ### Register-form rows -/

/-- One row of a register-operand instruction (06, R136 to R147). -/
def regRow (v : Vec) (j : VecJob) : Vec × VecJob :=
  let w := j.w
  let i := j.done
  let fn := Vr.fn w
  let act := actLanes v j.vl (Vr.mk w)
  let a := vrow v (Vr.va w + i)
  match opOf w with
  | 0x48 =>
    let b := bRow v w i
    let c := if fn = 3 ∨ fn = 4 then vrow v (Vr.vc w + i) else []
    laneOp v j (fun l => vfaLane fn (rmAt j (Vr.rm w) i l) (a.getD l 0) (b.getD l 0) (c.getD l 0))
  | 0x49 =>
    let b := bRow v w i
    laneOp v j (fun l => (viaLane fn (a.getD l 0) (b.getD l 0), 0))
  | 0x4A =>
    let b := bRow v w i
    let old := maskOf v (Vr.vd w)
    let rs := (List.range 512).map (fun l => if act.getLsbD l then vcmpLane fn (a.getD l 0) (b.getD l 0) else (old.getLsbD l, 0))
    let m := rs.zipIdx.foldl (fun m p => if p.1.1 then m ||| (1#512 <<< p.2) else m) (0 : BitVec 512)
    (setMask v (Vr.vd w) m, collect j (Vr.fsel w) (rs.map (·.2)))
  | 0x4B =>
    let b := bRow v w i
    let m := maskOf v (Vr.vc w)
    laneOp v j (fun l => (if m.getLsbD l then a.getD l 0 else b.getD l 0, 0))
  | 0x4C =>
    if fn = 0 ∧ isMx (Vr.df w) then vcvtMx v j
    else laneOp v j (fun l => vcvtLane fn (Vr.df w) (rmAt j (Vr.rm w) i l) (Vr.sat w = 1) (a.getD l 0))
  | 0x4D =>
    let x := maskOf v (Vr.va w)
    let y := maskOf v (Vr.vb w)
    let r := match fn with
      | 0 => x &&& y
      | 1 => x ||| y
      | 2 => x ^^^ y
      | 3 => x &&& ~~~y
      | _ => BitVec.ofNat 512 (2 ^ min (Vr.imm w) 512 - 1)
    (setMask v (Vr.vd w) ((maskOf v (Vr.vd w) &&& ~~~act) ||| (r &&& act)), j)
  | 0x4E =>
    let b := bRow v w i
    let bad := (List.range 512).find? (fun l => act.getLsbD l && decide (j.vl ≤ b.getD l 0))
    let (v, j) := laneOp v j (fun l => let k := b.getD l 0
      if k < j.vl then (a.getD k 0, 0) else (0, fOOR))
    (v, { j with oor := j.oor.or (bad.map (fun l => (i, l))) })
  | 0x4F =>
    let n := Vr.imm w
    laneOp v j (fun l => (match fn with
      | 0 => if n ≤ l then a.getD (l - n) 0 else 0
      | 1 => if l + n < j.vl then a.getD (l + n) 0 else 0
      | _ => a.getD ((l + (j.vl - n % j.vl)) % j.vl) 0, 0))
  | 0x50 =>
    let ls := (List.range 512).filter (fun l => act.getLsbD l)
    let out := ls.map (fun l => a.getD l 0)
    (setLane (belowVl v j (fun l => out.getD l 0)) (Vr.vc w) i out.length, j)
  | 0x51 =>
    let m := actLanes v j.vl (Vr.mk w)
    let (out, _) := (List.range j.vl).foldl (fun (p : List Nat × List Nat) l =>
      if m.getLsbD l then (p.1 ++ [p.2.headD 0], p.2.tail) else (p.1 ++ [0], p.2)) ([], a)
    (belowVl v j (fun l => out.getD l 0), j)
  | _ =>
    let l0 := (List.range 512).map (fun l => if act.getLsbD l then a.getD l 0 else redId fn)
    let (r, fl) := redTree fn 9 l0
    (belowVl v j (fun _ => r), collect j (Vr.fsel w) ((List.range 512).map (fun l => if act.getLsbD l then fl else 0)))

/-! ### Memory rows -/

/-- VLD from scratch (06, R149). -/
def vldRow (s : State) (t : Nat) (j : VecJob) : VecOut :=
  let w := j.w
  let i := j.done
  let v := vecOf s t
  let f := Vm.fmt w
  let act := actLanes v j.vl (Vm.mk w)
  let off := adRow j (Vm.ar w) i
  let soff := adRow j (Vm.sar w) i
  let bad := (lanePoison s t off (eltBits f) act j.vl).or (if isMx f then
    (laneRuns act j.vl).findSome? (fun r => scrPoison s t (soff + r.1 / 32) ((r.1 + r.2 - 1) / 32 + 1 - r.1 / 32)) else none)
  match bad with
  | some a => .error a
  | none =>
    let es := unpack (eltBits f) j.vl (scrRead s t off (eltBytes f j.vl))
    let sc := if isMx f then unpack 8 (j.vl / 32) (scrRead s t soff (j.vl / 32)) else []
    let d := Vm.vr w + i
    let (r, fs) := mapLanes act (vrow v d) (fun l =>
      let x := decodeElt f (es.getD l 0)
      let y := if isMx f then scaleBy x (sc.getD (l / 32) 0) else x
      ffConvert ffp32 (rmAt j (Vm.rm w) i l) (Vm.sat w = 1 && y.isFin) y)
    .ok (modVec s t (fun v => setRow v d r), { j with flags := j.flags ||| orAll fs })

/-- Lane l of a slot row as FP32 under a rounding mode (06, R149, R152): code and flags. -/
def slotLane (x : Tile) (sl : Nat) (rm : Rm) (sat : Bool) (c : Nat) : Nat × Nat :=
  if geomFmt x = 1 then ffConvert ffp32 rm sat (x96Num c (pOf (fld (sstAt x sl) 14 8))) else (c, 0)

/-- X96 status that reading a slot adds to `VEC_FLAG` (02, R42; 06, R155). -/
def slotXst (x : Tile) (sl : Nat) : Nat := if geomFmt x = 1 then fld (sstAt x sl) 4 0 * 256 else 0

/-- A poisoned sector of active lanes of a slot row. -/
def slotLanePoison (s : State) (t sl r : Nat) (act : BitVec 512) (n : Nat) : Option Nat :=
  let x := tileAt s t
  lanePoison s t (slotAddr x t sl r 0 - winBase t) (8 * geomE x) act n

/-- VLD from a slot (06, R149). -/
def vldSlotRow (s : State) (t : Nat) (j : VecJob) : VecOut :=
  let w := j.w
  let i := j.done
  let x := tileAt s t
  let v := x.vec
  let act := actLanes v j.vl (Vm.mk w)
  match slotLanePoison s t (Vm.slot w) (Vm.row0 w + i) act j.vl with
  | some a => .error a
  | none =>
    let es := slotRow s t (Vm.slot w) (Vm.row0 w + i) j.vl
    let d := Vm.vr w + i
    let (r, fs) := mapLanes act (vrow v d) (fun l =>
      slotLane x (Vm.slot w) (rmAt j (Vm.rm w) i l) (Vm.sat w = 1) (es.getD l 0))
    .ok (modVec s t (fun v => setRow v d r), { j with flags := j.flags ||| orAll fs ||| slotXst x (Vm.slot w) })

/-- Codes of a row converted to a non-MX format, 0 in inactive lanes, and the flags. -/
def convRow (j : VecJob) (f rm : Nat) (sat : Bool) (act : BitVec 512) (row : List Nat) : List Nat × Nat :=
  let (r, fs) := mapLanes act [] (fun l => convElt f (rmAt j rm j.done l) sat (num32 (row.getD l 0)))
  (r.take j.vl, orAll fs)

/-- VST (06, R150). -/
def vstRow (s : State) (t : Nat) (j : VecJob) : VecOut :=
  let w := j.w
  let v := vecOf s t
  let f := Vm.fmt w
  let act := actLanes v j.vl (Vm.mk w)
  let row := vrow v (Vm.vr w + j.done)
  let off := adRow j (Vm.ar w) j.done
  if isMx f then
    let qs := (List.range (j.vl / 32)).map (quantBlock j f (Vm.rm w) act row)
    let s := scrWrite s t off (packElts (eltBits f) (qs.flatMap (·.2.1)))
    let s := scrWrite s t (adRow j (Vm.sar w) j.done) (packElts 8 (qs.map (·.1)))
    .ok (s, { j with flags := j.flags ||| orAll (qs.flatMap (·.2.2)) })
  else
    let (cs, fl) := convRow j f (Vm.rm w) (Vm.sat w = 1) act row
    .ok (storeLanes s t off (eltBits f) act j.vl cs, { j with flags := j.flags ||| fl })

/-- Store one ZRC row (06, R151): packed, or strided with truncation at the stride. -/
def zrcPut (s : State) (t : Nat) (j : VecJob) (a f : Nat) (strided : Bool) (cs : List Nat) : State × VecJob :=
  let b := zrcRow f (j.vl / 64) cs
  let cap := 32 * adStr j a
  let s := if strided then scrWrite s t (adRow j a j.done) (b.take cap)
    else scrWrite s t (adRow j a 0 + j.zpos) b
  (s, { j with zpos := j.zpos + b.length, zlen := j.zlen + b.length
               flags := j.flags ||| (if strided && decide (cap < b.length) then fZOVR else 0) })

/-- VSTZ (06, R151). -/
def vstzRow (s : State) (t : Nat) (j : VecJob) : VecOut :=
  let w := j.w
  let v := vecOf s t
  let act := actLanes v j.vl (Vm.mk w)
  let (cs, fl) := convRow j (Vm.fmt w) (Vm.rm w) (Vm.sat w = 1) act (vrow v (Vm.vr w + j.done))
  let (s, j') := zrcPut s t j (Vm.ar w) (Vm.fmt w) (Vm.zmd w = 1) cs
  let s := if Vm.lw w = 1 then scrWrite s t (adRow j (Vm.sar w) 0 + 4 * j.done) (leBytes 4 (j'.zlen - j.zlen)) else s
  .ok (s, { j' with flags := j'.flags ||| fl })

/-- One lane of EPI before conversion (06, R152): FP32 code and flags. -/
def epiLane (x s b : Num) (relu : Bool) (res : Option Num) : Nat × Nat :=
  let (p, f1) := numMul x s
  let formed := p.isNan && !x.isNan && !s.isNan
  let (y, f2) := numAdd p b
  let f1 := if formed && b.isNan && !b.sig && !Config.fmaInvalid then 0 else f1
  let (c, f3) := f32Of .rne y
  let n := num32 c
  let c := if relu && !n.isNan && (n.neg || n.isZero) then 0 else c
  match res with
  | none => (c, f1 ||| f2 ||| f3)
  | some r =>
    let (z, f4) := numAdd (num32 c) r
    let (d, f5) := f32Of .rne z
    (d, f1 ||| f2 ||| f3 ||| f4 ||| f5)

/-- EPI (06, R152). -/
def epiRow (s : State) (t : Nat) (j : VecJob) : VecOut :=
  let w := j.w
  let i := j.done
  let x := tileAt s t
  let v := x.vec
  let act := actLanes v j.vl (Epi.mk w)
  let rf := Epi.rfmt w
  let df := Epi.dfmt w
  let roff := adRow j (Epi.ra w) i
  let bad := (slotLanePoison s t (Epi.slot w) (Epi.row0 w + i) act j.vl).or
    (if Epi.ren w = 1 then lanePoison s t roff (eltBits rf) act j.vl else none)
  match bad with
  | some a => .error a
  | none =>
    let es := slotRow s t (Epi.slot w) (Epi.row0 w + i) j.vl
    let rs := if Epi.ren w = 1 then unpack (eltBits rf) j.vl (scrRead s t roff (eltBytes rf j.vl)) else []
    let vs := if Epi.scm w = 2 then vrow v (Epi.vs w) else []
    let vb := if Epi.ben w = 1 then vrow v (Epi.vb w) else []
    let (cs, fs) := mapLanes act [] (fun l =>
      let (a, fa) := slotLane x (Epi.slot w) .rne false (es.getD l 0)
      let sc := match Epi.scm w with
        | 0 => Num.fin false 1 0
        | 1 => num32 (Epi.imm w)
        | _ => num32 (vs.getD l 0)
      let b := if Epi.ben w = 1 then num32 (vb.getD l 0) else .fin false 0 0
      let res := if Epi.ren w = 1 then some (decodeElt rf (rs.getD l 0)) else none
      let (y, fy) := epiLane (num32 a) sc b (Epi.act w = 1) res
      let (c, fc) := convElt df (rmAt j (Epi.rm w) i l) (Epi.sat w = 1) (num32 y)
      (c, fa ||| fy ||| fc))
    let cs := cs.take j.vl
    let j := { j with flags := j.flags ||| orAll fs ||| slotXst x (Epi.slot w) }
    .ok (if Epi.z w = 1 then zrcPut s t j (Epi.da w) df false cs
      else (storeLanes s t (adRow j (Epi.da w) i) (eltBits df) act j.vl cs, j))

end Sys2Proof.Machine
end

