-- ==== Sys2Proof/Machine/Sfu.lean ====
section
/-! DEFINITION. The special-function unit and the mask generator: issue and rows (07, R157 to R172; 08, R176, R177). -/

namespace Sys2Proof.Machine

/-! ### Issue -/

/-- Fault codes (07, Table 07-9). -/
def fSRSVD : Nat := 2
def fSREG : Nat := 3
def fSFMT : Nat := 4
def fSRM : Nat := 5
def fSSHAPE : Nat := 6
def fSRANGE : Nat := 7
def fSSLOT : Nat := 8
def fSROWS : Nat := 9
def fSFMTRSVD : Nat := 10

/-- A special-function instruction: its fault, or the vector queue. -/
def issueSf (t : Nat) (w : Word128) (f : Option (Nat × Nat)) (adv : Vec → Vec) (s : State) : Issue :=
  match f with
  | some (c, d) => .fault spSFU c d
  | none => pushVec s t w adv

/-- Registers beyond 63 (07, Table 07-9). -/
def sfRegOver (nr : Nat) (rs : List Nat) : Option (Nat × Nat) :=
  (rs.find? (fun r => decide (64 < r + nr))).map (fun r => (fSREG, r))

/-- SFN (07, R159, R160). -/
def sfnFault (w : Word128) : Option (Nat × Nat) :=
  let df := Vr.df w
  let ok := if Vr.fn w = 2 then decide (df ≤ 2) else decide (df ≤ 4)
  (firstFail [(decide (2 < Vr.fn w), fSRSVD, 84), (decide (Vr.imt w = 3), fSRSVD, 82),
    (fmtRsvd df, fSFMTRSVD, 0), (decide (Vr.rm w = 3), fSFMTRSVD, 1), (!ok, fSFMT, df),
    (decide (df = FP32 ∧ Vr.rm w ≠ 0), fSRM, Vr.rm w)]).or
    (sfRegOver (Vr.nr w) ([Vr.vd w, Vr.va w] ++ (if Vr.fn w = 1 then [Vr.vc w] else [])))
def issueSfn (t : Nat) (w : Word128) (s : State) : Issue :=
  issueSf t w (sfnFault w) (advWhen (Vr.adv w) [] (Vr.nr w)) s

/-- Slot checks of SMX and SRS (07, R164, R168). -/
def sfSlotFault (x : Tile) (sl row0 nr : Nat) : Option (Nat × Nat) :=
  firstFail [(decide (geomFmt x = 1), fSFMT, X96), (decide (geomN x ≤ sl), fSSLOT, sl),
    (decide (geomSR x < row0 + nr), fSROWS, sl)]

/-- SMX (07, R164). -/
def smxFault (s : State) (t : Nat) (w : Word128) : Option (Nat × Nat) :=
  let x := tileAt s t
  let pf := Smx.pf w
  ((firstFail [(decide (Smx.msrc w = 3), fSRSVD, 85), (fmtRsvd pf, fSFMTRSVD, 0),
      (decide (Smx.rm w = 3), fSFMTRSVD, 1), (decide (pf = 0 ∨ 4 < pf), fSFMT, pf),
      (decide (61 < Smx.vs w), fSREG, Smx.vs w), (decide (Smx.mau w = 0), fSREG, 0)]).or
    (sfSlotFault x (Smx.slot w) (Smx.row0 w) (Smx.rc w))).or
    ((firstFail [(decide (geomSC x < x.vec.vl), fSSHAPE, 0)]).or
      ((rowsFault s t (Smx.ar w) (Smx.rc w) (eltBytes pf x.vec.vl)).map (fun p => (fSRANGE, p.2))))
def issueSmx (t : Nat) (w : Word128) (s : State) : Issue :=
  if namesHeld (tileAt s t) [Smx.ar w] then .hold s
  else issueSf t w (smxFault s t w) (advWhen (Smx.adv w) [Smx.ar w] (Smx.rc w)) s

/-- SRS (07, R168). -/
def srsFault (s : State) (t : Nat) (w : Word128) : Option (Nat × Nat) :=
  (firstFail [(decide (Smx.mau w = 0), fSREG, 0)]).or (sfSlotFault (tileAt s t) (Smx.slot w) (Smx.row0 w) (Smx.rc w))
def issueSrs (t : Nat) (w : Word128) (s : State) : Issue := issueSf t w (srsFault s t w) id s

/-- RST (07, R171). -/
def rstFault (w : Word128) : Option (Nat × Nat) :=
  let g := 2 ^ Rst.gl w
  let ns := Vr.nr w / g
  (firstFail [(decide (1 < Vr.fn w), fSRSVD, 84), (decide (Vr.imt w ≠ 0), fSRSVD, 82),
    (decide (Rst.rsvd w ≠ 0), fSRSVD, 71), (decide (Rst.gl w = 7), fSRSVD, 68),
    (decide (Vr.nr w % g ≠ 0), fSSHAPE, 1)]).or
    ((sfRegOver (Vr.nr w) [Vr.va w]).or (sfRegOver (if Vr.fn w = 0 then 2 * ns else ns) [Vr.vd w]))
def issueRst (t : Nat) (w : Word128) (s : State) : Issue := issueSf t w (rstFault w) id s

/-- A queued SMX reads the mask generator (08, R177). -/
def genUsed (x : Tile) : Bool := (vecJobs x).any (fun j => opOf j.w == 0x61 && Smx.msrc j.w == 2)

/-- MGN (08, R177). -/
def issueMgn (t : Nat) (w : Word128) (s : State) : Issue :=
  let doc := decide (4 ≤ Mgn.mode w)
  if 9 < Mgn.qsegl w then .fault spSFU fSRSVD 113
  else if doc && !(inWindow s t (32 * Mgn.qdadr w) (4 * 2 ^ Mgn.qsegl w) && inWindow s t (32 * Mgn.kdadr w) 2048) then
    .fault spSFU fSRANGE Config.mgnDetail.toNat
  else if genUsed (tileAt s t) then .hold s
  else .done (modVec s t (fun v => { v with
    mgen := BitVec.ofNat 64 (Mgn.mode w * 2 ^ 28 + Mgn.qsegl w * 2 ^ 24 + Mgn.wm1 w)
    mdoc := BitVec.ofNat 64 (Mgn.qdadr w * 2 ^ 20 + Mgn.kdadr w) }))

/-- MPS (08, R177). -/
def issueMps (t : Nat) (w : Word128) (s : State) : Issue :=
  if genUsed (tileAt s t) then .hold s
  else .done (modVec s t (fun v => { v with mpos := BitVec.ofNat 64 (Mps.qbase w * 2 ^ 32 + Mps.kbase w) }))

/-! ### SFN -/

/-- Scale operand of a lane (07, R159). -/
def sfScale (w : Word128) (l : Nat) : Nat :=
  match Vr.imt w with
  | 0 => 0x3F800000
  | 1 => Vr.imm w
  | _ => (Vr.imm w / 2 ^ (16 * (l % 2))) % 2 ^ 16 * 2 ^ 16

/-- One row of SFN (07, R159 to R162). -/
def sfnRow (v : Vec) (j : VecJob) : Vec × VecJob :=
  let w := j.w
  let i := j.done
  let df := Vr.df w
  let a := vrow v (Vr.va w + i)
  let c := if Vr.fn w = 1 then vrow v (Vr.vc w + i) else []
  laneOp v j (fun l =>
    let sc := sfScale w l
    let x := num32 (a.getD l 0)
    let rm := rmAt j (Vr.rm w) i l
    let (code, fl) :=
      if Vr.fn w = 2 then log2Fmt df rm (Vr.sat w = 1) x (num32 sc) sc
      else
        let (d, f1) := if Vr.fn w = 1 then numAdd x (num32 (c.getD l 0)).negate else (x, 0)
        let (z, f2) := numMul d (num32 sc)
        let (r, f3) := exp2Fmt df rm z
        (r, f1 ||| f2 ||| f3)
    (exact32 (ffDecode ((ffmtOf df).getD ffp32) code), fl))

/-! ### Soft maximum -/

/-- The mask generator masks lane l of slot row r (08, R176); the document arrays are in the tile's window. -/
def genMasked (s : State) (t r l : Nat) : Bool :=
  let v := vecOf s t
  let mode := fld v.mgen 30 28
  let qs := 2 ^ fld v.mgen 27 24
  let w : Int := fld v.mgen 23 0 + 1
  let qpos : Int := (fld v.mpos 63 32 + r % qs : Nat)
  let kpos : Int := (fld v.mpos 31 0 + l : Nat)
  let cau := decide (mode % 2 = 1)
  let win := decide (mode / 2 % 2 = 1)
  let doc := decide (mode / 4 = 1)
  (cau && decide (kpos > qpos)) || (win && decide (qpos - kpos ≥ w)) || (win && !cau && decide (kpos - qpos ≥ w)) ||
  (doc && decide (scrRead s t (32 * fld v.mdoc 39 20 + 4 * (r % qs)) 4 ≠ scrRead s t (32 * fld v.mdoc 19 0 + 4 * l) 4))

/-- Masked lanes of row i of an SMX (07, Table 07-7). -/
def smxMasked (s : State) (t : Nat) (j : VecJob) (l : Nat) : Bool :=
  match Smx.msrc j.w with
  | 0 => false
  | 1 => !(maskOf (vecOf s t) (Smx.mk j.w)).getLsbD l
  | _ => genMasked s t (Smx.row0 j.w + j.done) l

/-- A poisoned sector that row i of an SMX would read (08, R176; 09, R215). -/
def smxPoison (s : State) (t : Nat) (j : VecJob) : Option Nat :=
  let w := j.w
  let v := vecOf s t
  let r := Smx.row0 w + j.done
  (slotPoison s t (Smx.slot w) r j.vl).or
    (if Smx.msrc w = 2 ∧ bit v.mgen 30 then
      (scrPoison s t (32 * fld v.mdoc 39 20 + 4 * (r % 2 ^ fld v.mgen 27 24)) 4).or
        (scrPoison s t (32 * fld v.mdoc 19 0) (4 * j.vl))
    else none)

/-- Least score of an unmasked lane, and the score of a masked one (07, R165). -/
def scoreFloor : Dy := ⟨-1, 125⟩
def maskScore : Num := .fin true 1 126

/-- x[j] of an unmasked lane: value and flags (07, R165). -/
def smxScore (imm c : Nat) : Num × Nat :=
  let (p, f1) := numMul (num32 c) (num32 imm)
  let (r, f2) := f32Of .rne p
  let x := num32 r
  (match x with
    | .inf true => scoreFloor.num
    | .fin _ _ _ => if Dy.le x.dy scoreFloor then scoreFloor.num else x
    | _ => x, f1 ||| f2)

/-- The larger of two values, NaN when either is NaN: value and flags. -/
def numMax (a b : Num) : Num × Nat :=
  let (c, f) := minmax32 true (exact32 a) (exact32 b)
  (num32 c, f ||| sigIV a ||| sigIV b)

/-- exp2(x - m) into a format: code and flags. -/
def smxExp (df : Nat) (rm : Rm) (x m : Num) : Nat × Nat :=
  let (d, f1) := numAdd x m.negate
  let (c, f2) := exp2Fmt df rm d
  (c, f1 ||| f2)

/-- One row of SMX (07, R165, R167). -/
def smxRow (s : State) (t : Nat) (j : VecJob) : VecOut :=
  let w := j.w
  let i := j.done
  let pf := Smx.pf w
  let ff := (ffmtOf pf).getD ffp32
  match smxPoison s t j with
  | some a => .error a
  | none =>
    let v := vecOf s t
    let es := slotRow s t (Smx.slot w) (Smx.row0 w + i) j.vl
    let ms := (List.range j.vl).map (smxMasked s t j)
    let xs := (es.zip ms).map (fun p => if p.2 then (maskScore, 0) else smxScore (Smx.imm w) p.1)
    let any := ms.any (fun m => !m)
    let vs := Smx.vs w
    let m0 := num32 (vlane v vs i)
    let bitI := (maskOf v (Smx.mau w)).getLsbD i
    let off := adRow j (Smx.ar w) i
    let put := fun (s : State) (cs : List Nat) => scrWrite s t off (packElts (eltBits pf) cs)
    let fx := orAll (xs.map (·.2))
    let probs := fun (m : Num) => (xs.zipIdx).map (fun p => smxExp pf (rmAt j (Smx.rm w) i p.2) p.1.1 m)
    if Smx.bwd w = 1 then
      let ps := ((probs m0).zip ms).map (fun p => if p.2 || !bitI then (0, 0) else p.1)
      .ok (put s (ps.map (·.1)), { j with flags := j.flags ||| fx ||| orAll (ps.map (·.2)) })
    else if !(bitI || any) then
      let s := put s (List.replicate j.vl 0)
      .ok (modVec s t (fun v => setLane v (vs + 2) i 0x3F800000), j)
    else
      let (mn, fm) := xs.foldl (fun (a : Num × Nat) x => let r := numMax a.1 x.1; (r.1, a.2 ||| r.2)) (m0, 0)
      let (f, ff1) := smxExp FP32 .rne m0 mn
      let ps := probs mn
      let (sum, fs) := ps.foldl (fun (a : Num × Nat) p => let r := numAdd a.1 (ffDecode ff p.1); (r.1, a.2 ||| r.2)) (.fin false 0 0, 0)
      let (lf, f2) := numMul (num32 (vlane v (vs + 1) i)) (num32 f)
      let (l', f3) := numAdd lf sum
      let (lc, f4) := f32Of .rne l'
      let s := put s (ps.map (·.1))
      let s := modVec s t (fun v =>
        let v := setLane (setLane (setLane v (vs + 1) i lc) vs i (exact32 mn)) (vs + 2) i f
        setMask v (Smx.mau w) (maskOf v (Smx.mau w) ||| (1#512 <<< i)))
      .ok (s, { j with flags := ((((((j.flags ||| fx) ||| fm) ||| ff1) ||| orAll (ps.map (·.2))) ||| fs) ||| f2) ||| f3 ||| f4 })

/-- One row of SRS (07, R168). -/
def srsRow (s : State) (t : Nat) (j : VecJob) : VecOut :=
  let w := j.w
  let i := j.done
  let x := tileAt s t
  let r := Smx.row0 w + i
  let n := geomSC x
  if Smx.fin w = 1 ∧ (maskOf x.vec (Smx.mau w)).getLsbD i = false then
    .ok (putSlotRow s t (Smx.slot w) r (List.replicate n 0), { j with flags := j.flags ||| fROWE })
  else match slotPoison s t (Smx.slot w) r n with
    | some a => .error a
    | none =>
      let k := num32 (vlane x.vec (Smx.vs w) i)
      let rs := (slotRow s t (Smx.slot w) r n).map (fun c =>
        let (p, f1) := numMul (num32 c) k
        let (d, f2) := f32Of .rne p
        (d, f1 ||| f2))
      .ok (putSlotRow s t (Smx.slot w) r (rs.map (·.1)), { j with flags := j.flags ||| orAll (rs.map (·.2)) })

/-! ### Row statistics -/

/-- FP32 rounding of an exact value divided by a positive integer. -/
def round32Div (d : Dy) (n : Nat) : Nat × Nat :=
  let m := d.i.natAbs * 2 ^ 128
  if d.i = 0 then (0, 0)
  else f32Of .rne (.fin (decide (d.i < 0)) (2 * (m / n) + (if m % n = 0 then 0 else 1)) (d.e - 129))

/-- The X96 sum of terms with P chosen by R172: the sum and its status. -/
def statSum (ts : List Num) : Dy × Nat :=
  let es := ts.filterMap (fun x => match x with
    | .fin _ m e => if m = 0 then none else some ((flog2 m : Int) + e)
    | _ => none)
  let p : Int := match es with
    | [] => 0
    | a :: r => min 32 (max (-64) (r.foldl max a - 6))
  let (n, st) := ts.foldl (fun (a : Nat × Nat) x => let k := x96Term p x; (x96Add a.1 k.1, a.2 ||| k.2)) (0, 0)
  (⟨sgn 96 n, p - 64⟩, st)

/-- One statistic row (07, R171, R172): mean or mean square, variance, flags, status. -/
def statRow (fn : Nat) (es : List Nat) : Nat × Nat × Nat × Nat :=
  let n := es.length
  let s0 := if fn = 0 then num32 (es.headD 0) else .fin false 0 0
  let ds := es.map (fun c =>
    let (d, f1) := numAdd (num32 c) s0.negate
    let (r, f2) := f32Of .rne d
    (num32 r, f1 ||| f2))
  let (s1, t1) := statSum (ds.map (·.1))
  let (s2, t2) := statSum (ds.map (fun d => (numMul d.1 d.1).1))
  let fd := orAll (ds.map (·.2))
  if fn = 0 then
    let (mean, fm) := match s0 with
      | .fin _ _ _ => round32Div ((Dy.mul s0.dy ⟨n, 0⟩).add s1) n
      | _ => f32Of .rne s0
    let q := (Dy.mul s2 ⟨n, 0⟩).add (Dy.mul s1 s1).neg
    let (var, fv) := if q.i ≤ 0 then (0, 0) else round32Div q (n * n)
    (mean, var, fd ||| fm ||| fv, t1 ||| t2)
  else
    let (ms, fv) := round32Div s2 n
    (ms, 0, fd ||| fv, t1 ||| t2)

/-- One statistic row of RST (07, R171). -/
def rstRow (v : Vec) (j : VecJob) : Vec × VecJob :=
  let w := j.w
  let g := 2 ^ Rst.gl w
  let ns := Vr.nr w / g
  let k := j.done
  let act := actLanes v j.vl (Vr.mk w)
  let es := (List.range g).flatMap (fun q =>
    let a := vrow v (Vr.va w + k * g + q)
    ((List.range 512).filter (fun l => act.getLsbD l)).map (fun l => a.getD l 0))
  let put := fun (v : Vec) (r c : Nat) =>
    let old := vrow v r
    setRow v r ((List.range 512).map (fun l => if l < j.vl then c else old.getD l 0))
  let (a, b, fl, st) := if es.isEmpty then (0, 0, fROWE, 0) else statRow (Vr.fn w) es
  let v := put v (Vr.vd w + k) a
  let v := if Vr.fn w = 0 then put v (Vr.vd w + ns + k) b else v
  let j := { j with flags := j.flags ||| fl ||| st * 256 }
  (v, if fl &&& Vr.fsel w = 0 then j else { j with fmask := j.fmask ||| act })

/-! ### Commands -/

/-- SFN. -/
def execSfn (t : TileId) (w : Word128) (s : State) : Out := issueCmd 0x60 t.val w (issueSfn t.val w) s
/-- SMX. -/
def execSmx (t : TileId) (w : Word128) (s : State) : Out := issueCmd 0x61 t.val w (issueSmx t.val w) s
/-- SRS. -/
def execSrs (t : TileId) (w : Word128) (s : State) : Out := issueCmd 0x62 t.val w (issueSrs t.val w) s
/-- RST. -/
def execRst (t : TileId) (w : Word128) (s : State) : Out := issueCmd 0x63 t.val w (issueRst t.val w) s
/-- MGN. -/
def execMgn (t : TileId) (w : Word128) (s : State) : Out := issueCmd 0x70 t.val w (issueMgn t.val w) s
/-- MPS. -/
def execMps (t : TileId) (w : Word128) (s : State) : Out := issueCmd 0x71 t.val w (issueMps t.val w) s

end Sys2Proof.Machine
end

