-- ==== Sys2Proof/Machine/VecPipe.lean ====
section
/-! DEFINITION. The vector and special-function pipes (06, R130, R147, R151, R155; 07, R157, R158). -/

namespace Sys2Proof.Machine

/-- Rows of an instruction of the vector queue. -/
def vecRows (w : Word128) : Nat :=
  match opOf w with
  | 0x40 | 0x41 | 0x42 => 1
  | 0x43 | 0x44 | 0x45 => Vm.nr w
  | 0x46 => Epi.rc w
  | 0x61 | 0x62 => Smx.rc w
  | 0x63 => Vr.nr w / 2 ^ Rst.gl w
  | _ => Vr.nr w

/-- Seed register that an instruction names (06, R145). -/
def seedReg (w : Word128) : Nat :=
  match opOf w with
  | 0x43 | 0x44 | 0x45 => Vm.sdi w
  | 0x46 => Epi.sdi w
  | 0x61 => Smx.sdi w
  | _ => Vr.sdi w

/-- A packed ZRC store, which ends by VSTZ_FINISH (06, R151, R152). -/
def isPacked (w : Word128) : Bool := (opOf w == 0x45 && Vm.zmd w == 0) || (opOf w == 0x46 && Epi.z w == 1)
/-- A ZRC store. -/
def isZrc (w : Word128) : Bool := opOf w == 0x45 || (opOf w == 0x46 && Epi.z w == 1)
/-- `FDST` of a register-form instruction (06, R147; 07, R159, R171). -/
def fdstOf (w : Word128) : Nat :=
  let op := opOf w
  if (0x48 ≤ op ∧ op ≤ 0x52) ∨ op = 0x60 ∨ op = 0x63 then Vr.fdst w else 0

/-- One row of the instruction at the head of the vector queue. -/
def vecRowOf (s : State) (t : Nat) (j : VecJob) : VecOut :=
  let reg := fun (r : Vec × VecJob) => (.ok (modVec s t (fun _ => r.1), r.2) : VecOut)
  match opOf j.w with
  | 0x40 | 0x41 | 0x42 => .ok (s, j)
  | 0x43 => if Vm.sk j.w = 1 then vldSlotRow s t j else vldRow s t j
  | 0x44 => vstRow s t j
  | 0x45 => vstzRow s t j
  | 0x46 => epiRow s t j
  | 0x60 => reg (sfnRow (vecOf s t) j)
  | 0x61 => smxRow s t j
  | 0x62 => srsRow s t j
  | 0x63 => reg (rstRow (vecOf s t) j)
  | _ => reg (regRow (vecOf s t) j)

/-- The job that the pipe takes its next row from: the one in it, or the head of the queue with its seed read
in this cycle, when no earlier instruction holds its slot (06, R130, R145; 07, R169). -/
def vecNext (s : State) (t : Nat) : Option VecJob :=
  let x := tileAt s t
  match x.vec.run with
  | some j => if j.done < vecRows j.w then some j else none
  | none => match x.vec.queue with
    | j :: _ =>
      if (sfuSlot j.w).any (fun sl => slotBusyForSfu x j.seq sl) then none
      else some { j with seed := ((tileHearth s t).map (fun h =>
        (vget (hearthAt s h).mem.vecSeed (seedReg j.w) 0).toNat)).getD 0 }
    | [] => none

/-- The pipe holds job j. -/
def setRun (s : State) (t : Nat) (j : Option VecJob) (seq : Nat) : State :=
  modVec s t (fun v => { v with run := j, queue := v.queue.filter (fun q => q.seq != seq) })

/-- The last row of an instruction completes: flags, the captured mask, the length of a strided ZRC store, and
the trap of R144 (06, R144, R147, R151, R155). -/
def vecEnd (s : State) (t : Nat) (j : VecJob) : State :=
  let s := modVec s t (fun v =>
    let v := { v with flag := v.flag ||| BitVec.ofNat 64 j.flags, flagNow := v.flagNow.note s.cyc j.flags }
    let v := setMask v (fdstOf j.w) j.fmask
    if isZrc j.w && !isPacked j.w then { v with zlen := BitVec.ofNat 64 (j.zlen % 2 ^ 32) } else v)
  let s := setRun s t (if isPacked j.w then some j else none) j.seq
  match j.oor with
  | some (r, l) => if opOf j.w = 0x4E ∧ bit (vecOf s t).cfg 0 then tileFault s t spVEC vOOR r j.idx l else s
  | none => s

/-- A pair differs in a vector or special-function row (15, R357). -/
def vecPair (s : State) (t : Nat) (j : VecJob) (mismatch : Bool) : State :=
  if mismatch && tileRole s t == 1 then
    let h := tileHearth s t
    let s := raise s spCHK 2 (if 0x60 ≤ opOf j.w then 2 else 1) h (0x100000 + t) 0 j.idx 0 true
    let s := tstat s t 15 0
    match h with
    | some k => retractEpoch s k 1
    | none => s
  else s

/-- Scratch that the next row of an instruction reads is read: a VLD, an EPI with a residual, the document arrays of an
SMX (06, R149, R152; 08, R176; 09, R197). -/
def vecSee (s : State) (t : Nat) (j : VecJob) : State :=
  if s.codes.words.isEmpty then s
  else
    let v := vecOf s t
    let w := j.w
    let see := fun (s : State) (r b : Nat) (act : BitVec 512) => (laneRuns act j.vl).foldl (fun s l =>
      scrSee s t (adRow j r j.done + b * l.1 / 8) (cdiv (b * (l.1 + l.2)) 8 - b * l.1 / 8)) s
    match opOf w with
    | 0x43 =>
      if Vm.sk w = 1 then s else
      let act := actLanes v j.vl (Vm.mk w)
      let s := see s (Vm.ar w) (eltBits (Vm.fmt w)) act
      if isMx (Vm.fmt w) then (laneRuns act j.vl).foldl (fun s l =>
        scrSee s t (adRow j (Vm.sar w) j.done + l.1 / 32) ((l.1 + l.2 - 1) / 32 + 1 - l.1 / 32)) s else s
    | 0x46 => if Epi.ren w = 1 then see s (Epi.ra w) (eltBits (Epi.rfmt w)) (actLanes v j.vl (Epi.mk w)) else s
    | 0x61 =>
      if Smx.msrc w = 2 ∧ bit v.mgen 30 then
        let q := 32 * fld v.mdoc 39 20 + 4 * ((Smx.row0 w + j.done) % 2 ^ fld v.mgen 27 24)
        scrSee (scrSee s t q 4) t (32 * fld v.mdoc 19 0) (4 * j.vl)
      else s
    | _ => s

/-- VEC_ROW_COMPLETE: the next row of the oldest instruction, so that no row is skipped (06, R130, R154). -/
def vecRowComplete (s : State) (t : Nat) (mismatch : Bool) : State :=
  if !tileRuns s t || tileRole s t == 2 || pipeHeld (tileAt s t) 3 then s
  else match vecNext s t with
    | none => s
    | some j =>
      let s := vecSee s t j
      match vecRowOf s t j with
      | .error a => poisonHold s t 3 a
      | .ok (s, k) =>
        let k := { k with done := k.done + 1 }
        let s := if k.done < vecRows k.w then setRun s t (some k) k.seq else vecEnd s t k
        vecPair s t j mismatch

/-- VSTZ_FINISH (06, R151, R152). -/
def vstzFinish (s : State) (t : Nat) : State :=
  match (vecOf s t).run with
  | some j =>
    if isPacked j.w && decide (vecRows j.w ≤ j.done) then
      modVec s t (fun v =>
        let v := { v with zlen := BitVec.ofNat 64 (j.zlen % 2 ^ 32), run := none }
        match packedAr j.w with
        | some a => { v with addr := vmod v.addr a (fun r => setFld r 19 0 (fld r 19 0 + j.zlen / 32)) }
        | none => v)
    else s
  | none => s

/-- VEC_ROW_COMPLETE. -/
def execVecRowComplete (t : TileId) (pairMismatch : Bool) (s : State) : Out := .next (vecRowComplete s t.val pairMismatch)
/-- VSTZ_FINISH. -/
def execVstzFinish (t : TileId) (s : State) : Out := .next (vstzFinish s t.val)

end Sys2Proof.Machine
end

