-- ==== Sys2Proof/Machine/Fetch.lean ====
section
/-! DEFINITION. Fetch and issue of a command-stream word (10, R233; 17, R421). -/

namespace Sys2Proof.Machine

/-- Issue of a word by its opcode; none for an opcode that no instruction has. -/
def issueOf (t : Nat) (w : Word128) : Option (State → Issue) :=
  match opOf w with
  | 0x10 => some (issueMmt t w)
  | 0x11 => some (issueLdp t w)
  | 0x12 => some (issueBld t w)
  | 0x13 => some (issueBkt t w)
  | 0x20 => some (issueAgeo t w)
  | 0x21 => some (issueAini t w)
  | 0x22 => some (issueAadd t w)
  | 0x23 => some (issueAchn t w)
  | 0x24 => some (issueAsnd t w)
  | 0x30 => some (issueWcf t w)
  | 0x31 => some (issueWin t w)
  | 0x32 => some (issueWcur t w)
  | 0x40 => some (issueVlen t w)
  | 0x41 => some (issueVadr t w)
  | 0x42 => some (issueVidx t w)
  | 0x43 => some (issueVld t w)
  | 0x44 => some (issueVst t w)
  | 0x45 => some (issueVstz t w)
  | 0x46 => some (issueEpi t w)
  | 0x48 => some (issueVfa t w)
  | 0x49 => some (issueVia t w)
  | 0x4A => some (issueVcmp t w)
  | 0x4B => some (issueVsel t w)
  | 0x4C => some (issueVcvt t w)
  | 0x4D => some (issueVmsk t w)
  | 0x4E => some (issueVperm t w)
  | 0x4F => some (issueVlsh t w)
  | 0x50 => some (issueVcmpr t w)
  | 0x51 => some (issueVexpd t w)
  | 0x52 => some (issueVred t w)
  | 0x60 => some (issueSfn t w)
  | 0x61 => some (issueSmx t w)
  | 0x62 => some (issueSrs t w)
  | 0x63 => some (issueRst t w)
  | 0x70 => some (issueMgn t w)
  | 0x71 => some (issueMps t w)
  | 0x80 => some (issueDmk t w)
  | 0x81 => some (issueDwt t w)
  | 0x82 => some (issueBln t w)
  | 0x90 => some (issueSinc t w)
  | 0x91 => some (issueSwat t w)
  | 0x92 => some (issueSbas t w)
  | 0x93 => some (issueSclm t w)
  | 0xA0 => some (issuePht t w)
  | 0xB0 => some (issueTsl t w)
  | _ => none

/-- Code space and code with which a reserved opcode faults (03, R77; 04, R97; 05, R124; 06, R134; 07, R157; 08,
R177; 10, Table 10-2; 11, R274; 15, R368; 17, R421). -/
def opcFault (op : Nat) : Nat × Nat × Nat :=
  if op < 0x20 then (spANV, 9, op)
  else if op < 0x30 then (spACC, 7, 0)
  else if op < 0x40 then (spWIN, 0x0A, 0)
  else if op < 0x60 then (spVEC, 1, 0)
  else if op < 0x78 then (spSFU, 1, 0)
  else if op < 0x80 then (spANV, 9, op)
  else if op < 0x90 then (spBLW, 1, 0)
  else if op < 0xA0 then (spSYN, 1, 0)
  else if op < 0xB0 then (spCOL, 0x0A, op)
  else if op < 0xC0 then (spCHK, 0x15, 0)
  else (spANV, 9, op)

/-- A reserved opcode issues: the fault. A reserved phase-timer opcode goes to `ANV_FAULT` with `ANV_OPC`, its
record to space COL (13, R329). -/
def reservedOp (s : State) (t op : Nat) : State :=
  let f := opcFault op
  let word := csWord s t
  if f.1 = spCOL then
    let s := setFault s t spANV (faultWord word 0 9 op)
    raise (stopStream s t) spCOL 0x0A op (tileHearth s t) (0x100000 + t) 0 word
  else tileFault s t f.1 f.2.1 f.2.2 word 0

/-- The stream issues word w. -/
def issueWord (s : State) (t : Nat) (w : Word128) : State :=
  match issueOf t w with
  | some f => issue t w f s
  | none => if canIssue s t w then reservedOp s t (opOf w) else s

/-- The 16 bytes at an address as a word. -/
def word128 (bs : List Byte) : Word128 := BitVec.ofNat 128 (leNat bs)

/-- CS_WORD_ISSUE (10, R233): the word at 16 × (`BASE` + `WORD`) is fetched, deep memory with ALLOC, and issues; a
word that the stream holds at is not fetched again. -/
def csWordIssue (s : State) (t : TileId) : State :=
  let x := tileAt s t.val
  if csState s t.val ≠ csRunning then s
  else match x.blw.pend with
    | some w => issueWord s t.val w
    | none =>
      if csWord s t.val < fld x.blw.csLim 31 0 ∧ tileRuns s t.val ∧ tileRole s t.val ≠ 2 then
        let a := 16 * (fld x.blw.csBase 39 0 + csWord s t.val)
        let h := tileHearth s t.val
        if h.isNone ∨ !reach s h a 16 then issueWord (misuse s SYS_UNMAPPED (.tile t) a) t.val 0
        else match devRead s h .alloc a 16 [] with
          | some (s, bs, _) => issueWord s t.val (word128 bs)
          | none => waitOp s (.tile t) (h.getD 0) a 16 .alloc
      else s

/-- CS_WORD_ISSUE. -/
def execCsWordIssue (t : TileId) (s : State) : Out := .next (csWordIssue s t)

end Sys2Proof.Machine
end

