-- ==== Sys2Proof/Machine/PowerOps.lean ====
section
/-! DEFINITION. Charges, budgets, steps and the pool of the power manager, in tenths of a watt (19, R451 to
R456). -/

namespace Sys2Proof.Machine

/-- `LGR_HCTL.STATE` (16, Table 16-16): 0 RUN, 1 PREEMPTING, 2 PREEMPTED. -/
def hctlState (s : State) (h : Nat) : Nat := fld (hearthAt s h).chk.hctl 3 2

/-- We(step) of Table 19-4. -/
def weOf (step : Nat) : Nat := match step with | 0 => 330 | 1 => 264 | 2 => 220 | _ => 165

/-- A function is charged: ON or STARTING. -/
def fnCharged (s : State) (f : Nat) : Bool := decide (fnSt s f = fSTARTING) || decide (fnSt s f = fON)

/-- Base power B (19, R451, Table 19-4). -/
def basePower (s : State) : Nat :=
  let sum := fun (n : Nat) (g : Nat → Nat) => (List.range n).foldl (fun a i => a + g i) 0
  sum 12 (fun k => if fnCharged s (60 + k) then 64 * fld (vget s.msys.stk k 0) 27 24 else 0) +
  sum 12 (fun p => if fnCharged s (48 + p) || decide (portState s p ≠ 0) then 158 else 0) +
  sum 2 (fun i => if fnCharged s (74 + i) then 2300 else 0) +
  sum 32 (fun t => if fnCharged s t && (tileHearth s t).isSome then 25 else 0) +
  sum 16 (fun c => if fnCharged s (32 + c) then 25 else 0) +
  (if fnCharged s 72 then 100 else 0)

/-- Input voltage that the Stoker measured last, in 10 mV units (21, R479). -/
def vin (s : State) : Nat := s.pwr.volts
/-- Cap that the power manager holds to, in tenths of a watt: 2,550 W while the input is below 51.0 V (19, R450). -/
def capNow (s : State) : Nat :=
  let c := fld s.pwr.dev 15 0
  10 * (if s.pwr.sagged ∨ (0 < vin s ∧ vin s < 5100) then min c 2550 else c)

/-- Hearths that hold a power budget: present and not pre-empted (16, R401). -/
def pHearths (s : State) : List Nat := (List.range 16).filter (fun h => hOn s h && decide (hctlState s h ≠ 2))
def clkMin (s : State) (h : Nat) : Nat := (hsec s h).l.clkmin
def clkMax (s : State) (h : Nat) : Nat := (hsec s h).l.clkmax
/-- Floor need Fh (19, R452). -/
def floorNeed (s : State) (h : Nat) : Nat := (hTiles s h).length * weOf (clkMin s h)
def sumOf (l : List Nat) (g : Nat → Nat) : Nat := l.foldl (fun a x => a + g x) 0

/-- The budgets are scaled (19, R452). -/
def scaled (s : State) : Bool :=
  decide (capNow s < basePower s + sumOf (pHearths s) (fun h => 10 * (hsec s h).l.pbudget))
/-- Engine budget of a hearth (19, R452). -/
def budgetOf (s : State) (h : Nat) : Nat :=
  let hs := pHearths s
  let pb := 10 * (hsec s h).l.pbudget
  if !hs.contains h then 0
  else if !scaled s then pb
  else
    let f := floorNeed s h
    let rest := capNow s - basePower s - sumOf hs (floorNeed s)
    let w := sumOf hs (fun k => 10 * (hsec s k).l.pbudget - floorNeed s k)
    f + (if w = 0 then 0 else rest * (pb - f) / w)

/-- The floor needs exceed what the cap leaves (19, R452, R456). -/
def floorsMiss (s : State) : Bool := decide (capNow s < basePower s + sumOf (pHearths s) (floorNeed s))

/-- Tiles of a hearth that are not lent. -/
def liveTiles (s : State) (h : Nat) : Nat := ((hTiles s h).filter (fun t => !bit s.pwr.lentTiles t)).length

/-- The fastest step that a budget allows, not faster than `CLKMAX`, not below the floor (19, R453, R456). -/
def ownStep (s : State) (h budget : Nat) : Nat :=
  let na := liveTiles s h
  ((List.range 4).find? (fun st => decide (clkMax s h ≤ st) && (decide (na * weOf st ≤ budget) || decide (clkMin s h ≤ st)))).getD (clkMin s h)

/-- A hearth's share while the pool is granted: step, budget, amount pooled, amount borrowed. -/
structure Grant where
  h : Nat
  na : Nat
  step : Nat
  top : Nat
  budget : Nat
  pooled : Nat
  borrowed : Nat
deriving DecidableEq, Repr

/-- One pass of the pool over the hearths, in ascending order (19, R454). -/
def grantPass : List Grant → Nat → List Grant × Nat
  | [], pool => ([], pool)
  | g :: r, pool =>
    let need := g.na * (weOf (g.step - 1) - weOf g.step)
    if g.top < g.step ∧ 0 < g.na ∧ need ≤ pool then
      let q := grantPass r (pool - need)
      ({ g with step := g.step - 1, borrowed := g.borrowed + need } :: q.1, q.2)
    else
      let q := grantPass r pool
      (g :: q.1, q.2)

/-- Passes until no hearth can rise: at most three steps for each hearth. -/
def grantAll : Nat → List Grant → Nat → List Grant
  | 0, l, _ => l
  | k + 1, l, pool => let q := grantPass l pool; grantAll k q.1 q.2

/-- A hearth on its own budget (19, R453). -/
def ownGrant (s : State) (h : Nat) : Grant :=
  let b := budgetOf s h
  let st := ownStep s h b
  let na := liveTiles s h
  { h := h, na := na, step := st, top := clkMax s h, budget := b, pooled := b - na * weOf st, borrowed := 0 }
/-- The device pool beside these grants (19, R454). -/
def poolOf (s : State) (l : List Grant) : Nat :=
  capNow s - basePower s - sumOf (pHearths s) (budgetOf s) + l.foldl (fun a g => a + g.pooled) 0
/-- Every hearth's grant (19, R453, R454). -/
def grants (s : State) : List Grant :=
  let l := (pHearths s).map (ownGrant s)
  grantAll 48 l (poolOf s l)

/-- One pass over the borrowers: each steps down by one while what is lent exceeds the pool by `ex` (19, R455). -/
def backPass : List Grant → Nat → List Grant × Nat
  | [], ex => ([], ex)
  | g :: r, ex =>
    if 0 < ex ∧ 0 < g.borrowed then
      let give := min g.borrowed (g.na * (weOf g.step - weOf (g.step + 1)))
      let q := backPass r (ex - give)
      ({ g with step := g.step + 1, borrowed := g.borrowed - give } :: q.1, q.2)
    else
      let q := backPass r ex
      (g :: q.1, q.2)
def backAll : Nat → List Grant → Nat → List Grant
  | 0, l, _ => l
  | k + 1, l, ex => let q := backPass l ex; backAll k q.1 q.2

/-- The grants in force, as `PWR_HB` shows them, with hearth h back on its own budget: borrowers have stepped down, the
highest hearth first, until the pool returns what it takes (19, R455; log 59). -/
def reclaimGrants (s : State) (h : Nat) : List Grant :=
  let l := (pHearths s).map (fun k =>
    let p := (hearthAt s k).chk.pwr0
    let g := ownGrant s k
    if k = h then g
    else { g with step := fld (hearthAt s k).chk.pwr1 5 4, pooled := fld p 31 16, borrowed := fld p 15 0 })
  (backAll 3 l.reverse (l.foldl (fun a g => a + g.borrowed) 0 - poolOf s l)).reverse

def modPwr (s : State) (f : Power → Power) : State := { s with pwr := f s.pwr }

/-- An emergency is in force (19, R456). -/
def inEmergency (s : State) : Bool := !s.pwr.emerg.isEmpty

/-- The condition of an emergency is seen: at its start it is raised and CLOCK declared (19, R456). -/
def emergency (s : State) (code detail : Nat) : State :=
  let first := (look? s.pwr.emerg code).isNone
  let s := modPwr s (fun p => { p with emerg := put p.emerg code (fc s) })
  if !first then s
  else
    let s := raise s 0x10 code detail none 0
    forEach (List.range 16) s (fun h s => if hOn s h ∧ clkMin s h < 3 ∧ holdCauses s h / 2 ^ (cCLOCK - 1) % 2 = 0 then breach s h cCLOCK none 0 else s)

/-- A tile's step is decided; it changes at the next boundary of 120 root cycles (19, R446). -/
def decideStep (s : State) (t step : Nat) (em : Bool) : State :=
  modPwr s (fun p => { p with
    nextStep := vput p.nextStep t (some step)
    clkTile := vmod p.clkTile t (fun r => setBit r 6 em) })

/-- The budgets are scaled, or the floor needs do not fit (19, R452, R456). -/
def budgetAlarms (s : State) : State :=
  let key := (basePower s, capNow s)
  let s := if scaled s && decide (s.pwr.scaledFor ≠ some key) then
      raise (modPwr s (fun p => { p with scaledFor := some key })) 0x10 7 0 none 0
    else s
  if floorsMiss s then emergency s 4 0 else s

/-- The steps that grants, or an emergency, give every hearth. -/
def takeGrants (s : State) (gs : List Grant) : State :=
  let em := inEmergency s
  let s := modPwr s (fun p => { p with base := BitVec.ofNat 64 (basePower s % 2 ^ 32) })
  forEach (List.range 16) s (fun h s => match gs.find? (fun g => g.h == h) with
    | some g =>
      let st := if em then 3 else g.step
      let s := modChk s h (fun c => { c with
        pwr0 := BitVec.ofNat 64 (g.budget % 65536 * 2 ^ 48 + g.na * weOf st % 65536 * 2 ^ 32 + g.pooled % 65536 * 65536 + g.borrowed % 65536)
        pwr1 := BitVec.ofNat 64 (st * 16 + clkMin s h * 4 + clkMax s h) })
      forEach (hTiles s h) s (fun t s => if bit s.pwr.lentTiles t then s else decideStep s t st em)
    | none => modChk s h (fun c => { c with pwr0 := 0 }))

/-- The power manager recomputes budgets and steps (19, R451 to R456). -/
def recompute (s : State) : State :=
  let s := budgetAlarms s
  takeGrants s (grants s)
/-- A hearth needs budget back (19, R455). -/
def reclaim (s : State) (h : Nat) : State :=
  let s := budgetAlarms s
  takeGrants s (reclaimGrants s h)

end Sys2Proof.Machine
end

