-- ==== Sys2Proof/Machine/Work.lean ====
section
/-! DEFINITION. Work queues, the ledger, items and their services, pre-emption and hold books (16). -/

namespace Sys2Proof.Machine

/-! ### Queue registers (16, Table 16-15) -/

def qEn (w : WorkQ) : Bool := bit w.cfg 0
def qHearth (w : WorkQ) : Nat := fld w.cfg 16 13
def qLogn (w : WorkQ) : Nat := fld w.cfg 20 17
def qLbase (w : WorkQ) : Nat := fld w.cfg 39 21
def qProd (w : WorkQ) : Nat := fld w.cfg 63 40
def qVec (w : WorkQ) : Nat := fld w.cfg 12 2
def qState (w : WorkQ) : Nat := fld w.stat 1 0
def qCode (w : WorkQ) : Nat := fld w.stat 15 8
def qHead (w : WorkQ) : Nat := fld w.ptr 31 0
def qTail (w : WorkQ) : Nat := fld w.ptr 63 32
def qBase (w : WorkQ) : Nat := fld w.ring 43 10 * 1024
def qCbase (w : WorkQ) : Nat := fld w.cring 43 10 * 1024
def qCLOSED : Nat := 0
def qOPEN : Nat := 1
def qSTOPPED : Nat := 2
def qRECOVERING : Nat := 3

def setQ (s : State) (q st code : Nat) : State :=
  modQueue s q (fun w => { w with stat := setFld (setFld w.stat 15 8 code) 1 0 st })

def gLOG : Nat := 0x0D
def lgSEQGAP : Nat := 1
def lgPROD : Nat := 2
def lgSTORE : Nat := 3
def lgTORN : Nat := 4
def lgBOOKS : Nat := 5
def lgRETBAD : Nat := 6
def lgTIMEOUT : Nat := 7
def lgINTERRUPTED : Nat := 8
def lgREDO : Nat := 9

/-- Address of queue q's registers (16; 09, Table 09-3). -/
def queueReg (q off : Nat) : Nat := ctlBase + 0x20000000 + q * 0x100 + off

/-- Agent code of the core that runs a hearth's services (16, R397). -/
def svcAgent (s : State) (h : Nat) : Nat := 0x200000 + (hsec s h).h.svc

def storeReady (s : State) : Bool := decide (fld s.lgr.dev 1 0 = 1)

/-- A queue with a host producer is served only while the host link is UP (16, Table 16-9). -/
def prodLives (s : State) (w : WorkQ) : Bool := decide (qProd w / 2 ^ 20 ≠ 4) || decide (fld s.hif.link 1 0 = 2)

/-- Who reaches the registers of a queue: units of its hearth, its producer, the physical function, the Stoker
(09, R201; 20, R466). -/
def mayQueue (s : State) (a : Agent) (q : Nat) : Bool :=
  match a with
  | .stoker => true
  | .host f => decide (f.val = 0) || decide (a.code = qProd (queueAt s q))
  | _ => (agentHearth s a).isSome && agentHearth s a == queueHearth s q

/-- The producer, or the consumer, is told (16, R381, R388, R396; 20, R468). -/
def tellAck (s : State) (q : Nat) : State :=
  let w := queueAt s q
  notify s (qProd w) (qVec w) 16
def tellDone (s : State) (q : Nat) : State :=
  let w := queueAt s q
  let s := tellAck s q
  if qProd w / 2 ^ 20 = 2 then notify s (0x400000 + (hsec s (qHearth w)).h.vf) (qVec w) 16 else s

/-! ### TAIL writes and descriptor reads (16, R377 to R379) -/

/-- QUEUE_TAIL_WRITE. -/
def tailWrite (s : State) (a : Agent) (q tail : Nat) : State :=
  let w := queueAt s q
  if !qEn w || decide (a.code ≠ qProd w) then raise s gLOG lgPROD 0 (queueHearth s q) a.code (queueReg q 0x18)
  else if 2 ^ qLogn w < (tail + 2 ^ 32 - qHead w) % 2 ^ 32 then misuse s SYS_OBLIG a (queueReg q 0x18)
  else modQueue s q (fun w => { w with ptr := setFld w.ptr 63 32 tail })

/-- A service's or queue unit's read of deep memory or scratch: bytes, and poisoned sectors numbered from the first. It is
zero and poisoned where it may not reach (00, R9; 09, R214), and none while it, or an earlier write of the service, waits. -/
def svcRead (s : State) (h a n : Nat) : Option (State × List Byte × List Nat) :=
  if !reach s (some h) a n then
    some (raise s 0x12 SYS_UNMAPPED 0 (some h) (svcAgent s h) a, List.replicate n 0, List.range (cdiv n 32))
  else if writesWait s (agentOf (svcAgent s h)) then none
  else (devRead s (some h) .noalloc a n []).map (fun r => (r.1, r.2.1, r.2.2.map (fun k => k - a / 32)))
def svcWrite (s : State) (h a : Nat) (bs : List Byte) (ps : List Nat := []) : State :=
  if reach s (some h) a bs.length then postWrite s (agentOf (svcAgent s h)) h .noalloc a bs (ps.map (· + a / 32))
  else raise s 0x12 SYS_UNMAPPED 0 (some h) (svcAgent s h) a

/-- DESCRIPTOR_READ (16, R379); it comes again when the read must wait. -/
def descRead (s : State) (q : Nat) : State :=
  let w := queueAt s q
  if !qEn w || qState w != qOPEN || qHead w == qTail w || w.read.isSome || s.recs.silent || !prodLives s w then s
  else
    match svcRead s (qHearth w) (qBase w + 64 * (qHead w % 2 ^ qLogn w)) 64 with
    | none => s
    | some (s, d, _) =>
      let acc := w.acc.toNat
      if Wd.seq d = acc + 1 then modQueue s q (fun w => { w with read := some d })
      else if Wd.seq d ≤ acc then
        tellAck (modQueue s q (fun w => { w with ptr := bumpMod w.ptr 31 0 1, stat := bumpSat w.stat 63 32 1 })) q
      else raise (setQ s q qSTOPPED lgSEQGAP) gLOG lgSEQGAP 0 (some (qHearth w)) 0 (Wd.seq d) q

/-! ### Checks at acceptance (16, R380) -/

def allZero (bs : List Byte) : Bool := bs.all (fun b => decide (b = 0))

/-- Address ranges that a descriptor names: local address and length. -/
def wdRanges (d : List Byte) : List (Nat × Nat) :=
  let k := Wd.kind d
  if k = kSTREAM then [(Wd.a2 d, 256)]
  else if k = kDATA then (Wd.a3 d, Wd.a1 d) :: (if Wd.a4 d = 0 then [] else [(Wd.a4 d, 32 * (Wd.a1 d / 1024))])
  else if k = kCOLL then [(Wd.a2 d, 64 * Wd.a1 d)]
  else if k = kCKPT ∨ k = kRESTORE ∨ k = kCOMMIT then [(Wd.a2 d, 32 * Wd.a1 d)]
  else []

/-- First unused byte of `ARG`, and reserved bits of its first word. -/
def wdUnused (d : List Byte) : Nat × Nat :=
  let k := Wd.kind d
  let dev := if 2 ^ 31 ≤ Wd.a0 d then Wd.a0 d % 2 ^ 31 / 32 else Wd.a0 d / 2 ^ 20
  if k = kSTREAM then (48, 0)
  else if k = kDATA then (64, dev)
  else if k = kCOLL then (48, Wd.a0 d / 16)
  else if k = kCKPT ∨ k = kRESTORE then (56, dev)
  else if k = kCOMMIT then (48, Wd.a0 d)
  else (32, 0)

def usesDev (d : List Byte) : Bool := Wd.kind d == kDATA || Wd.kind d == kCKPT || Wd.kind d == kRESTORE

/-- `DETAIL` of the refusal of a descriptor (16, R380). -/
def wdBad (s : State) (h : Nat) (d : List Byte) : Option Nat :=
  let k := Wd.kind d
  let x := (hsec s h).h
  let deep := fun (r : Nat × Nat) => r.2 == 0 || (decide (k ≠ kDATA ∨ r.1 + r.2 ≤ deepTop) && reach s (some h) r.1 r.2)
  if k = 0 ∨ 8 < k ∨ 32 ≤ leAt d 9 1 ∨ leAt d 11 1 ≠ 0 ∨ leAt d 20 4 ≠ 0 ∨ !allZero (d.drop (wdUnused d).1) ∨ (wdUnused d).2 ≠ 0 ∨
      (Wd.rstc d ∧ !Wd.rst d) ∨ 50 < Wd.tmo d then some 1
  else if !(wdRanges d).all deep then some 2
  else if k = kSTREAM ∧ (BitVec.ofNat 32 (Wd.a0 d) &&& ~~~x.tiles) ≠ 0 then some 3
  else if k = kCOLL ∧ 12 ≤ Wd.a0 d then some 3
  else if usesDev d ∧ 2 ^ 31 ≤ Wd.a0 d ∧ Wd.a0 d % 32 ≠ x.vf then some 3
  else if 1 ≤ k ∧ k ≤ kRESTORE ∧ Wd.a1 d = 0 then some 4
  else if k = kDATA ∧ (Wd.a1 d % 32 ≠ 0 ∨ (Wd.a4 d ≠ 0 ∧ Wd.a1 d % 1024 ≠ 0)) then some 4
  else if (k = kOPEN ∨ k = kCOMMIT) ∧ Wd.epoch d = 0 then some 5
  else none

/-! ### The ledger store (16, R381 to R386) -/

/-- Calendar time of a count, from the latest anchor (16, Table 16-5; 13, R330). -/
def ledgerCal (s : State) (cyc : Nat) : Nat :=
  if s.anchor1 = 0 then 0 else calAt { cal := s.anchor1.toNat, cyc := s.anchor0.toNat } cyc

/-- Byte of the store at which the record of item `seq` lies (16, R382). -/
def recAddr (w : WorkQ) (seq : Nat) : Nat := 128 * (qLbase w + seq % 2 ^ qLogn w)

def modLgr (s : State) (f : Ledger → Ledger) : State := { s with lgr := f s.lgr }

/-- The stream of a tile stops without a fault. -/
def haltStream (s : State) (t : Nat) : State :=
  if csState s t = csRunning then
    modTile (setCs s t csStopped) t (fun x => { x with acc := { x.acc with headFc := none }, blw := { x.blw with pend := none }, misc := { x.misc with wait := none } })
  else s

/-- The store has FAILED (16, R386, Table 16-9). -/
def storeFailed (s : State) : State :=
  let s := modLgr s (fun l => { l with dev := setFld l.dev 1 0 2 })
  let s := raise s gLOG lgSTORE 0 none 0
  let s := forEach (List.range 256) s (fun q s => if qEn (queueAt s q) then setQ s q qSTOPPED lgSTORE else s)
  forEach (List.range 32) s (fun t s => haltStream s t)

/-- One write of a record part with its read-back: none when it is not found equal. -/
def lgrWrite (s : State) (a : Nat) (bs : List Byte) (ok : Bool) : Bool × State :=
  let s := modLgr s (fun l => { l with lstat := bumpMod l.lstat 63 32 1 })
  if ok then (true, modLgr s (fun l => { l with bytes := writeMem l.bytes a bs, bad := 0 }))
  else
    let s := modLgr s (fun l => { l with lstat := bumpSat l.lstat 31 16 1, bad := l.bad + 1 })
    (false, if s.lgr.bad = 3 then storeFailed s else s)

/-- Accept part and done part of an item's record (16, Table 16-5). -/
def acceptPart (s : State) (q h : Nat) (d : List Byte) : List Byte :=
  let b := d ++ leBytes 8 s.cyc ++ leBytes 8 (ledgerCal s s.cyc) ++ leBytes 1 q ++ leBytes 1 h ++ leBytes 6 0
  b ++ leBytes 4 (crc32 b) ++ leBytes 4 0
def donePart (s : State) (i : Item) (o det : Nat) : List Byte :=
  let b := leBytes 8 s.cyc ++ leBytes 1 o ++ leBytes 1 det ++ leBytes 1 (min 255 i.restarts) ++ leBytes 1 0 ++
    leBytes 8 (ledgerCal s s.cyc) ++ leBytes 4 i.seq ++ leBytes 4 0
  b ++ leBytes 4 (crc32 b)

/-- State of an item when it is accepted (16, R380, R391, R395). -/
def acceptedAs (s : State) (h : Nat) (d : List Byte) : ItemSt :=
  match wdBad s h d with
  | some k => .ended 5 k
  | none =>
    if (hearthAt s h).run.removed then .ended 4 0
    else if Wd.epoch d ≠ 0 ∧ (hearthAt s h).run.retracted.contains (Wd.epoch d) then .ended 3 0
    else .pending

/-- ITEM_ACCEPT (16, R381, R382). -/
def itemAccept (s : State) (q : Nat) (ok : Bool) : State :=
  let w := queueAt s q
  match w.read with
  | none => s
  | some d =>
    let seq := Wd.seq d
    if !qEn w || qState w != qOPEN || s.recs.silent || !storeReady s || !prodLives s w || decide (w.ret.toNat + 2 ^ qLogn w < seq) then s
    else
      let h := qHearth w
      let r := lgrWrite s (recAddr w seq) (acceptPart s q h d) ok
      if !r.1 then r.2
      else
        let s := r.2
        let i : Item := { seq := seq, desc := d, st := acceptedAs s h d, ord := s.lgr.accepted }
        let s := modLgr s (fun l => { l with accepted := l.accepted + 1 })
        tellAck (modQueue s q (fun w => { w with
          acc := BitVec.ofNat 64 seq, ptr := bumpMod w.ptr 31 0 1, read := none, items := w.items ++ [i] })) q

/-! ### Host memory of a service (20, R469, R472) -/

/-- Bytes that the host's memory holds: free values (log 34). -/
def hostBytes (s : State) (n : Nat) : List Byte × State :=
  let (k, s) := draw s
  ((List.range n).map (Config.hostByte k), s)

/-! ### Services (16, R397 to R400) -/

def itemFail (s : State) (q seq detail : Nat) : State := itemEnd s q seq 1 detail
def setLeft (s : State) (q seq n : Nat) : State := modItem s q seq (fun i => { i with left := n })

/-- STREAM (16, Table 16-2): a fresh start of the named tiles at word 0. -/
def runStream (s : State) (q h : Nat) (i : Item) : Option State :=
  let ts := setBits (BitVec.ofNat 32 (Wd.a0 i.desc))
  match ts.find? (fun t => decide (tileRole s t = 2) || (freshStart s t 0).isNone) with
  | some t =>
    some (itemFail (raise s 0x12 SYS_BUSY 0 (some h) (svcAgent s h) (blwReg t 0x38)) q i.seq t)
  | none => optEach ts s (fun t s => (svcRead s h (Wd.a2 i.desc + 8 * t) 8).map (fun (s, b, _) =>
      let s := modTile s t (fun x => { x with blw := { x.blw with
        csBase := BitVec.ofNat 64 (leNat b % 2 ^ 44 / 16), csLim := BitVec.ofNat 64 (Wd.a1 i.desc) } })
      (freshStart s t 0).getD s))

/-- Pieces of at most 4,064 bytes of (local address, length, target offset). -/
def pieces : Nat → Nat → Nat → Nat → List (Nat × Nat × Nat)
  | 0, _, _, _ => []
  | g + 1, a, n, off => if n = 0 then [] else (a, min n 4064, off) :: pieces g (a + 4064) (n - 4064) (off + 4064)
def cut (a n off : Nat) : List (Nat × Nat × Nat) := pieces (n / 4064 + 1) a n off
/-- Pieces of extents, consecutive in the target. -/
def cutAll : List (Nat × Nat) → Nat → List (Nat × Nat × Nat)
  | [], _ => []
  | (a, n) :: r, off => cut a n off ++ cutAll r (off + n)

/-- Move pieces between local memory and `base` of another device or function (16, R397, R398): `out` sends them. -/
def runPieces (s : State) (q : QueueId) (h : Nat) (i : Item) (base : Nat) (out : Bool) (ps : List (Nat × Nat × Nat)) :
    Option State :=
  let dev := Wd.a0 i.desc
  if 2 ^ 31 ≤ dev then
    let f := dev % 32
    let r := hostReq s f
    if !r.1 then some (itemFail r.2 q.val i.seq 0)
    else optEach ps r.2 (fun p s =>
      if out then (svcRead s h p.1 p.2.1).map (fun (s, b, _) => emit s (.hostWrite f (base + p.2.2) b))
      else
        let (b, s) := hostBytes s p.2.1
        some (svcWrite s h p.1 b))
  else if !admitted s dev ∨ dev = devNo s then some (itemFail s q.val i.seq 0)
  else
    let ag := svcAgent s h
    optEach ps (setLeft s q.val i.seq ps.length) (fun p s =>
      if out then (svcRead s h p.1 p.2.1).map (fun (s, b, bad) =>
        sendWrite s ag (some h) dev (base + p.2.2) b bad (.item q i.seq))
      else some (sendRead s ag dev (base + p.2.2) p.2.1 (.item q i.seq)))

/-- DATA (16, R397). -/
def runData (s : State) (q : QueueId) (h : Nat) (i : Item) : Option State :=
  runPieces s q h i (Wd.a2 i.desc) false (cut (Wd.a3 i.desc) (Wd.a1 i.desc) 0)

/-- CKPT and RESTORE (16, R398). -/
def runCkpt (s : State) (q : QueueId) (h : Nat) (i : Item) : Option State :=
  let g := genOf s h
  (svcRead s h (Wd.a2 i.desc) (32 * Wd.a1 i.desc)).bind (fun (s, _, _) =>
    let s := modItem s q.val i.seq (fun i => { i with gen := g })
    let es := extents s i.desc g
    match (List.range es.length).find? (fun k =>
        let e := es.getD k (0, 0)
        decide (e.1 % 256 ≠ 0) || decide (e.2 % 256 ≠ 0) || !(e.2 == 0 || reach s (some h) e.1 e.2)) with
    | some k => some (itemFail s q.val i.seq k)
    | none => runPieces s q h i (Wd.a3 i.desc) (decide (Wd.kind i.desc = kCKPT)) (cutAll es 0))

/-- A COLL item copies its descriptors into `COL_RING` as the ring has room (16, R397). -/
def feedColl (s : State) (q h seq : Nat) : Option State :=
  match itemAt s q seq with
  | none => some s
  | some i =>
    let p := Wd.a0 i.desc % 16
    let r0 := vget (portAt s p).ring0 h 0
    let r1 := vget (portAt s p).ring1 h 0
    let used := (fld r1 63 32 + 2 ^ 32 - fld r1 31 0) % 2 ^ 32
    let n := min (Wd.a1 i.desc - i.copied) (2 ^ fld r0 5 0 - used)
    (svcRead s h (Wd.a2 i.desc + 64 * i.copied) (64 * n)).map (fun (s, b, ps) =>
      let s := forEach (List.range n) s (fun k s =>
        svcWrite s h (ringDesc s p h (fld r1 63 32 + k)) ((b.drop (64 * k)).take 64)
          ((ps.filter (fun j => decide (j / 2 = k))).map (· % 2)))
      let s := modPort s p (fun x => { x with ring1 := vmod x.ring1 h (fun r => bumpMod r 63 32 n) })
      modItem s q seq (fun i => { i with copied := i.copied + n }))
def runColl (s : State) (q h : Nat) (i : Item) : Option State :=
  let t := fld (vget (portAt s (Wd.a0 i.desc % 16)).ring1 h 0) 63 32
  feedColl (modItem s q i.seq (fun i => { i with ring := t })) q h i.seq

/-- EPOCH_OPEN once no checkpoint of the hearth reads the generation that the epoch will write (16, R399). -/
def openTry (s : State) (q h : Nat) (i : Item) : State :=
  let g := 1 - genOf s h
  if (hItems s h).any (fun k => isRunning k && Wd.kind k.desc == kCKPT && k.gen == g) then s
  else
    let s := modChk s h (fun c => { c with epochReq := BitVec.ofNat 64 (Wd.epoch i.desc) })
    let r := openEpoch s h (Wd.epoch i.desc) (svcAgent s h)
    if r.1 then itemEnd r.2 q i.seq 0 0
    else modItem (itemFail r.2 q i.seq 0) q i.seq (fun i => { i with esq := some (r.2.recs.seq - 1) })

/-- EPOCH_COMMIT up to its commit record (16, R400, steps 1 to 4). -/
def commitTry (s : State) (q h : Nat) (i : Item) : State :=
  let e := Wd.epoch i.desc
  if (hItems s h).any (fun k => decide (k.ord < i.ord) && Wd.epoch k.desc == e) then s
  else if (hearthAt s h).run.epochBad.contains e then itemFail s q i.seq 0
  else
    let s := if i.closed then s else modItem (closeEpoch s h) q i.seq (fun i => { i with closed := true })
    let st := ecState s h
    if st = eRETRACTED then itemEnd s q i.seq 3 0
    else if st = eUNRESOLVED then itemFail s q i.seq 0
    else if st = eCOMMITTED ∧ !quenchActive s h then itemEnd s q i.seq 0 (1 - genOf s h)
    else s

/-- The item may start (16, R387, R401, R402; Table 16-9). -/
def mayStart (s : State) (q : Nat) (i : Item) : Bool :=
  let w := queueAt s q
  let h := qHearth w
  let k := Wd.kind i.desc
  let first := (w.items.head?.map (·.seq)) == some i.seq
  (decide (qState w = qOPEN) || (decide (qState w = qSTOPPED) && decide (qCode w ≠ lgSTORE))) &&
  decide (hctlState s h ≠ 2) && !s.recs.silent &&
  (first || !(Wd.fence i.desc || decide (k = kFENCE) || decide (k = kCOMMIT))) &&
  !(atBoundary s h && testsOwed s h)

/-- An item starts; its service begins (16, R397). None while a read of it waits. -/
def startItem (s : State) (q : QueueId) (i : Item) : Option State :=
  let h := qHearth (queueAt s q.val)
  let k := Wd.kind i.desc
  let s := modItem s q.val i.seq (fun i => { i with st := .running (fc s), cyc := s.cyc, began := true })
  let s := modRun s h (fun r => { r with boundary := decide (k = kFENCE) })
  if k = kSTREAM then runStream s q.val h i
  else if k = kDATA then runData s q h i
  else if k = kCOLL then runColl s q.val h i
  else if k = kCKPT ∨ k = kRESTORE then runCkpt s q h i
  else if k = kOPEN then some (openTry s q.val h i)
  else if k = kCOMMIT then some (commitTry s q.val h i)
  else some (itemEnd s q.val i.seq 0 0)

/-- ITEM_START: running COLL items are fed first. -/
def itemStart (s : State) (q : QueueId) : State :=
  let w := queueAt s q.val
  let s := forEach (w.items.filter (fun i => isRunning i && Wd.kind i.desc == kCOLL)) s (fun i s =>
    (feedColl s q.val (qHearth w) i.seq).getD s)
  match (queueAt s q.val).items.find? isPending with
  | some i => if mayStart s q.val i then (startItem s q i).getD s else s
  | none => s

/-! ### Completion (16, R388) -/

/-- Page hashes of a DATA item (16, R397; 08, R187). -/
def pageHashes (h : Nat) (bs : List Byte) : Nat → Nat → List Byte → State → State
  | 0, _, _, s => s
  | n + 1, hadr, prev, s =>
    let v := shake256 (prev ++ bs.take 1024) 32
    pageHashes h (bs.drop 1024) n (hadr + 32) v (svcWrite s h hadr v)
def hashData (s : State) (h : Nat) (i : Item) : Option State :=
  if Wd.a4 i.desc = 0 then some s
  else (svcRead s h (Wd.a3 i.desc) (Wd.a1 i.desc)).map (fun (s, bs, _) => pageHashes h bs (Wd.a1 i.desc / 1024) (Wd.a4 i.desc)
    (shake256 ([0x5A, 0x4B, 0x56, 0x31] ++ leBytes 8 (hearthAt s h).chk.salt.toNat) 32) s)
/-- Its writes have still to commit. -/
def svcWaits (s : State) (h : Nat) : Bool := writesWait s (agentOf (svcAgent s h))

/-- Whether a running item has come to its end (16, Table 16-2). -/
def evalItem (s : State) (q h : Nat) (i : Item) : State :=
  let k := Wd.kind i.desc
  if k = kSTREAM then
    let ts := setBits (BitVec.ofNat 32 (Wd.a0 i.desc))
    match ts.find? (fun t => decide (csState s t = csFaulted)) with
    | some t => modItem (itemFail s q i.seq t) q i.seq (fun i => { i with esq := (tileAt s t).misc.faultSeq })
    | none => if ts.all (fun t => decide (csState s t = csDoneSt)) then itemEnd s q i.seq 0 0 else s
  else if k = kDATA then
    (if i.left = 0 ∧ !svcWaits s h then ((hashData s h i).map (fun s => itemEnd s q i.seq 0 0)).getD s else s)
  else if k = kCKPT ∨ k = kRESTORE then
    let es := extents s i.desc i.gen
    (if i.left = 0 ∧ !svcWaits s h ∧ !es.any (fun e => backBlocked s e.1 e.2 false) then
      itemEnd (forEach es s (fun e s => writeBack s h e.1 e.2 false)) q i.seq 0 0
    else s)
  else if k = kCOLL then
    let p := Wd.a0 i.desc % 16
    let gone := (fld (vget (portAt s p).ring1 h 0) 31 0 + 2 ^ 32 - i.ring) % 2 ^ 32
    let n := Wd.a1 i.desc
    if i.copied = n ∧ n ≤ gone ∧ (n < gone ∨ (activeAt s p h).isNone) then itemEnd s q i.seq 0 0 else s
  else if k = kOPEN then openTry s q h i
  else if k = kCOMMIT then commitTry s q h i
  else itemEnd s q i.seq 0 0

/-- Steps 5 and 6 of a commit to generation g (16, R400). -/
def commitWrites (s : State) (h g : Nat) (i : Item) : Option State :=
  (svcRead s h (Wd.a2 i.desc) (32 * Wd.a1 i.desc)).map (fun (s, bs, _) =>
    let s := forEach (List.range (Wd.a1 i.desc)) s (fun k s =>
      let b := bs.drop (32 * k)
      svcWrite s h (leAt b 0 8) (leBytes 8 (leAt b (8 + 8 * (g % 2)) 8)))
    if genOf s h = g then s else flipGen s h (svcAgent s h))

/-- Completion entry of an item whose done part is durable (16, Table 16-6). -/
def complEntry (s : State) (q : Nat) (i : Item) (o det : Nat) : List Byte :=
  leBytes 8 i.seq ++ leBytes 1 o ++ leBytes 1 det ++ leBytes 1 (min 255 i.restarts) ++ leBytes 1 (Wd.kind i.desc) ++ leBytes 4 0 ++
  readMem s.lgr.bytes (recAddr (queueAt s q) i.seq + 96) 8 ++ leBytes 8 (i.esq.getD (2 ^ 64 - 1))

/-- Steps 2 to 5 of a completion (16, R388); a repeat makes no increment (R389). -/
def postItem (s : State) (q : Nat) (i : Item) (o det : Nat) (again : Bool) : State :=
  let w := queueAt s q
  let h := qHearth w
  let s := svcWrite s h (qCbase w + 32 * (i.seq % 2 ^ qLogn w)) (complEntry s q i o det)
  let s := modQueue s q (fun w => { w with done := BitVec.ofNat 64 i.seq, items := w.items.filter (fun k => k.seq != i.seq) })
  let s := if !Wd.cen i.desc || again then s
    else if ctrIn s h (Wd.ctr i.desc) then
      issueWith s (some h) (Wd.ctr i.desc) (Wd.amt i.desc) none (waitingWrites s (agentOf (svcAgent s h)))
    else synRefuse s 2 (some h) (svcAgent s h) (Wd.ctr i.desc)
  let s := if Wd.nirq i.desc then tellDone s q else s
  let s := if i.began then phaseEntry s h i.cyc (Wd.phase i.desc) (svcAgent s h) 2 else s
  modRun s h (fun r => { r with
    epochBad := if o ≠ 0 ∧ Wd.epoch i.desc ≠ 0 then Wd.epoch i.desc :: r.epochBad else r.epochBad
    boundary := r.boundary || decide (Wd.kind i.desc = kCOMMIT) })

/-- Post the item when it is the next of its queue. -/
def postNext (s : State) (q seq : Nat) : State :=
  match itemAt s q seq with
  | some i => match i.st with
    | .durable o det => if (queueAt s q).done.toNat + 1 = seq then postItem s q i o det false else s
    | _ => s
  | none => s

/-- The done part of an ended item is written; a commit then writes its pointers and flips (16, R388, R400). It comes again
when a read of that must wait. -/
def makeDurable (s : State) (q seq : Nat) (ok : Bool) : State :=
  let s0 := s
  match itemAt s q seq with
  | some i => match i.st with
    | .ended o det =>
      let h := qHearth (queueAt s q)
      let r := lgrWrite s (recAddr (queueAt s q) seq + 96) (donePart s i o det) ok
      if !r.1 then r.2
      else
        let s := modItem r.2 q seq (fun i => { i with st := .durable o det })
        if Wd.kind i.desc = kCOMMIT ∧ o = 0 then (commitWrites s h det i).getD s0 else s
    | _ => s
  | none => s

/-- ITEM_COMPLETE (16, R388). -/
def itemComplete (s : State) (q seq : Nat) (ok : Bool) : State :=
  if !storeReady s then s
  else match itemAt s q seq with
    | none => s
    | some i =>
      let s := if isRunning i then evalItem s q (qHearth (queueAt s q)) i else s
      postNext (makeDurable s q seq ok) q seq

/-! ### Ends that are not the item's own (16, R390, R401) -/

/-- The threads of a tile stop. -/
def haltThreads (s : State) (t : Nat) : State := modTile s t (fun x => { x with blw := { x.blw with threads := [] } })
/-- The stream and the threads of a tile stop without a fault (16, R401). -/
def haltTile (s : State) (t : Nat) : State := haltThreads (haltStream s t) t

/-- The run of an item ends before the item does: its window ends, and the next run opens another (13, R331). -/
def endItemWindow (s : State) (q h : Nat) (i : Item) : State :=
  if i.began then phaseEntry (modItem s q i.seq (fun i => { i with began := false })) h i.cyc (Wd.phase i.desc) (svcAgent s h) 2 else s

/-- Everything that an item started stops (16, R390). -/
def stopItem (s : State) (q : QueueId) (i : Item) : State :=
  let h := qHearth (queueAt s q.val)
  let k := Wd.kind i.desc
  if k = kSTREAM then forEach (setBits (BitVec.ofNat 32 (Wd.a0 i.desc))) s (fun t s => haltThreads (stopStream s t) t)
  else if k = kCOLL then
    let p := Wd.a0 i.desc % 16
    let at' := fun (x : Nat) => (x + 2 ^ 32 - i.ring) % 2 ^ 32
    let s := if (activeAt s p h).isSome ∧ at' (activeIdx s p h) < i.copied then quenchStop (dropActive s p h) p h else s
    modPort s p (fun x => { x with ring1 := vmod x.ring1 h (fun r =>
      if at' (fld r 31 0) < i.copied then setFld r 31 0 (i.ring + i.copied) else r) })
  else
    let keep := fun (e : SendEntry) => decide (e.use ≠ .item q i.seq)
    { s with lnk := { s.lnk with send := s.lnk.send.filter keep, waiting := s.lnk.waiting.filter keep } }

/-- LGR_TIMEOUT (16, R390). -/
def lgrTimeout (s : State) (q : QueueId) (seq : Nat) : State :=
  match itemAt s q.val seq with
  | some i => match i.st with
    | .running since =>
      let h := qHearth (queueAt s q.val)
      let k := if Wd.tmo i.desc = 0 then fld (hearthAt s h).chk.hcfg 39 34 else Wd.tmo i.desc
      if since + 2 ^ k ≤ fc s then
        let s := stopItem s q i
        let s := modItem s q.val seq (fun i => { i with st := .ended 6 0, esq := some s.recs.seq })
        raise s gLOG lgTIMEOUT 0 (some h) (svcAgent s h) seq
      else s
    | _ => s
  | none => s

/-- RET_WRITE (16, R384, R389). -/
def retWrite (s : State) (a : Agent) (q value : Nat) : State :=
  let w := queueAt s q
  if !mayQueue s a q then misuse s SYS_UNMAPPED a (queueReg q 0x30)
  else if value < w.ret.toNat ∨ w.done.toNat < value then raise s gLOG lgRETBAD 0 (queueHearth s q) a.code (queueReg q 0x30)
  else
    let n := w.hdrSince + (value - w.ret.toNat)
    modQueue s q (fun w => { w with
      ret := BitVec.ofNat 64 value
      hdrRet := if 2 ^ (qLogn w - 1) ≤ n then value else w.hdrRet
      hdrSince := if 2 ^ (qLogn w - 1) ≤ n then 0 else n })

/-- QUEUE_RESUME (16, R379). -/
def queueResume (s : State) (a : Agent) (q : Nat) : State :=
  let w := queueAt s q
  if !mayQueue s a q then misuse s SYS_UNMAPPED a (queueReg q 0x38)
  else if qState w = qSTOPPED ∧ qCode w = lgSEQGAP then setQ s q qOPEN 0
  else s

/-! ### Recovery (16, R385, R393) -/

/-- A part of a record as recovery finds it: none when it was never written or is invalid. -/
def partOk (bs : List Byte) (n : Nat) : Bool := decide (crc32 (bs.take n) = leAt bs n 4)

/-- Invalid parts of the area are counted and recorded (16, R385). -/
def tornParts (s : State) (w : WorkQ) : State :=
  forEach (List.range (2 ^ qLogn w)) s (fun k s =>
    let r := qLbase w + k
    let b := readMem s.lgr.bytes (128 * r) 128
    forEach [(b.take 96, 88), (b.drop 96, 28)] s (fun p s =>
      if allZero p.1 || partOk p.1 p.2 then s
      else raise (modLgr s (fun l => { l with lstat := bumpSat l.lstat 15 0 1 })) gLOG lgTORN 0 (some (qHearth w)) 0 r))

/-- Descriptor of item `seq`, when its accept part is valid, and its done part: outcome, detail, restarts. -/
def findRec (s : State) (w : WorkQ) (seq : Nat) : Option (List Byte × Option (Nat × Nat × Nat)) :=
  let b := readMem s.lgr.bytes (recAddr w seq) 128
  if !allZero (b.take 96) && partOk b 88 && Wd.seq b == seq then
    let e := b.drop 96
    some (b.take 64, if !allZero e && partOk e 28 && leAt e 20 4 == seq % 2 ^ 32 then some (leAt e 8 1, leAt e 9 1, leAt e 10 1) else none)
  else none

/-- Highest SEQ with a valid accept part. -/
def accFound (s : State) (w : WorkQ) : Nat :=
  (List.range (2 ^ qLogn w)).foldl (fun m k =>
    let b := readMem s.lgr.bytes (128 * (qLbase w + k)) 128
    if !allZero (b.take 96) && partOk b 88 then max m (Wd.seq b) else m) 0

/-- Recovery of one item (16, R393, R400). -/
def recoverItem (s : State) (q seq : Nat) : Option State :=
  let w := queueAt s q
  let h := qHearth w
  let warm := decide (w.rclass = 0) || decide (w.rclass = 2)
  match findRec s w seq with
  | none => some s
  | some (d, done) =>
    let maxr := fld (hearthAt s h).chk.hcfg 47 40
    let r0 := look w.kept seq 0
    let i : Item := { seq := seq, desc := d, ord := s.lgr.accepted, restarts := r0 }
    let s := modLgr s (fun l => { l with accepted := l.accepted + 1 })
    let push := fun (s : State) (i : Item) => modQueue s q (fun w => { w with items := w.items ++ [i] })
    match done with
    | some (o, det, rs) =>
      let i := { i with restarts := rs, st := .durable o det }
      let s := push s i
      (if Wd.kind d = kCOMMIT ∧ o = 0 ∧ warm then
          (commitWrites s h det i).map (fun s => raise s gLOG lgREDO 0 (some h) (svcAgent s h) seq)
        else some s).map (fun s => if (queueAt s q).done.toNat + 1 = seq then postItem s q i o det true else s)
    | none => some <|
      if Wd.rst d && (warm || Wd.rstc d) && decide (r0 < maxr) then push s { i with restarts := r0 + 1 }
      else
        let det := if Wd.rst d && (warm || Wd.rstc d) then 4 else if w.rclass = 0 then 0 else if w.rclass = 2 then 1 else 2
        let s := push s { i with st := .ended 2 det, esq := some s.recs.seq }
        let s := raise s gLOG lgINTERRUPTED 0 (some h) (svcAgent s h) seq
        postNext (makeDurable s q seq true) q seq

/-- The items of a queue are recovered in order; none while a read of one waits. -/
def recoverAll (s : State) (q : Nat) : Option State :=
  let w := queueAt s q
  let s := tornParts s w
  let acc := accFound s w
  let s := modQueue s q (fun w => { w with
    acc := BitVec.ofNat 64 acc, done := BitVec.ofNat 64 w.hdrRet, ret := BitVec.ofNat 64 w.hdrRet, items := [], read := none, hdrSince := 0 })
  (optEach (List.range (acc - w.hdrRet)) s (fun k s => recoverItem s q (w.hdrRet + 1 + k))).map (fun s =>
    let s := modQueue s q (fun w => { w with ptr := setFld (setFld w.ptr 63 32 acc) 31 0 acc, kept := [] })
    let s := setQ s q qOPEN 0
    if (List.range 256).all (fun k => decide (qState (queueAt s k) ≠ qRECOVERING)) then { s with pwr := { s.pwr with bootWarm := false } } else s)

/-- QUEUE_RECOVERY (16, R393). -/
def queueRecovery (s : State) (q : Nat) : State :=
  if qState (queueAt s q) ≠ qRECOVERING ∨ !storeReady s then s else (recoverAll s q).getD s

/-! ### Pre-emption (16, R401) -/

def setHctl (s : State) (h st : Nat) : State := modChk s h (fun c => { c with hctl := setFld c.hctl 3 2 st })

/-- HCTL_PREEMPT. -/
def hctlPreempt (s : State) (a : Agent) (h : Nat) : State :=
  if !mayHearth s a h then misuse s SYS_UNMAPPED a (ctlBase + 0x20100000 + h * 0x100 + 8)
  else if hctlState s h = 0 then setHctl s h 1 else s

/-- The hearth leaves PREEMPTING or PREEMPTED. -/
def resumeHearth (s : State) (h : Nat) : State :=
  if hctlState s h = 0 then s else recompute (setHctl s h 0)

/-- HCTL_RESUME. -/
def hctlResume (s : State) (a : Agent) (h : Nat) : State :=
  if !mayHearth s a h then misuse s SYS_UNMAPPED a (ctlBase + 0x20100000 + h * 0x100 + 8) else resumeHearth s h

/-- HEARTH_PREEMPTED (16, R401). -/
def hearthPreempted (s : State) (h : Nat) : State :=
  let st := ecState s h
  if hctlState s h ≠ 1 ∨ st = eOPEN ∨ st = eCLOSED ∨ st = eCONFIRMED then s
  else
    let s := forEach (hTiles s h) s (fun t s => haltTile s t)
    let s := forEach (List.range 12) s (fun p s => quenchStop (dropActive s p h) p h)
    let s := forEach (setBits (hsec s h).h.queues) s (fun q s =>
      forEach ((queueAt s q).items.filter isRunning) s (fun i s =>
        let qid : QueueId := ⟨q % 256, Nat.mod_lt _ (by decide)⟩
        let s := endItemWindow (stopItem s qid i) q h i
        if Wd.rst i.desc then modItem s q i.seq (fun i => { i with
          st := .pending, restarts := min 255 (i.restarts + 1), left := 0, copied := 0, closed := false })
        else
          let s := modItem s q i.seq (fun i => { i with st := .ended 2 3, esq := some s.recs.seq })
          raise s gLOG lgINTERRUPTED 0 (some h) (svcAgent s h) i.seq))
    let s := hearthOwnersGone s h
    let s := modRun (setHctl s h 2) h (fun r => { r with boundary := true })
    recompute s

/-! ### The books of a hold (16, R403) -/

/-- Requests of a tile that hold a token at a core. -/
def coreReqs (x : Tile) (core : Nat) : Nat := (x.blw.reqs.filter (fun r => r.core == core)).length

/-- Books that balance, bit order of `BAL` (16, Table 16-11). -/
def books (s : State) (h : Nat) : List Bool :=
  let n := (hearthAt s h).net
  [ s.ports.toList.all (fun x => decide (fld x.crd 47 32 + fld x.crd 31 16 ≤ fld x.crd 15 0)),
    (hTiles s h).all (fun t => (List.range 128).all (fun c => decide (coreReqs (tileAt s t) c ≤ 48))),
    s.msys.pool.toList.all (fun x => decide ((x.tiles.map (·.idx)).Nodup) && x.tiles.all (fun m => decide (m.idx < 2048 + x.lent.length))),
    s.ports.toList.all (fun x => decide (fld x.qbuf 7 0 + fld x.qbuf 15 8 = 64)),
    (setBits (hsec s h).h.queues).all (fun q =>
      let w := queueAt s q
      decide (w.acc.toNat - w.done.toNat = w.items.length) && decide (w.done.toNat - w.ret.toNat ≤ 2 ^ qLogn w) &&
      decide ((qTail w + 2 ^ 32 - qHead w) % 2 ^ 32 ≤ 2 ^ qLogn w)),
    decide (n.issued = n.done + n.loc + n.out) && decide (n.rxacc = n.rxapp + n.pend) ]

/-- Amounts in flight at a hold point (16, Tables 16-11 and 16-16). -/
def auditWords (s : State) (h bal cr : Nat) : List Nat :=
  let n := (hearthAt s h).net
  let tok := (hTiles s h).foldl (fun k t => k + ((tileAt s t).blw.reqs.filter (fun r => r.sent && r.peer.isSome)).length) 0
  let wb := s.msys.pool.toList.foldl (fun k x => k + (x.tiles.filter (fun m => m.busy && m.owner == h)).length) 0
  let ending := fun (i : Item) => match i.st with | .ended _ _ => true | .durable _ _ => true | _ => false
  let qc := ((hItems s h).filter ending).length
  [0x80 + bal, tok % 2 ^ 32 + cr * 2 ^ 32, qc % 2 ^ 32 + wb * 2 ^ 32, (n.loc + n.out + n.pend).toNat]

/-- Every tile has stopped: no row is inside the array but that of a replay (10, R246). -/
def tilesStopped (s : State) (h : Nat) : Bool :=
  (hTiles s h).all (fun t => (tileAt s t).anv.array.isEmpty || (tileAt s t).anv.replay.isSome)

/-- HEARTH_HELD (10, Table 10-9; 16, R403). -/
def hearthHeld (s : State) (h : Nat) : State :=
  if holdState s h ≠ 1 ∨ !tilesStopped s h then s
  else
    let s := setHold s h 2
    let bs := books s h
    let bal := (List.range 6).foldl (fun b i => b + (if bs.getD i true then 2 ^ i else 0)) 0
    let (n, s) := draw s
    let ws := auditWords s h bal (Config.crWire n).toNat
    let s := modChk s h (fun c => { c with audit := Vector.ofFn (fun i => BitVec.ofNat 64 (ws.getD i.val 0)) })
    forEach (List.range 6) s (fun i s => if bs.getD i true then s else raise s gLOG lgBOOKS i (some h) 0)

/-! ### Commands -/

/-- QUEUE_TAIL_WRITE. -/
def execQueueTailWrite (a : Agent) (q : QueueId) (tail : Nat) (s : State) : Out := .next (tailWrite s a q.val tail)
/-- DESCRIPTOR_READ. -/
def execDescriptorRead (q : QueueId) (s : State) : Out := .next (descRead s q.val)
/-- ITEM_ACCEPT. -/
def execItemAccept (q : QueueId) (storeOk : Bool) (s : State) : Out := .next (itemAccept s q.val storeOk)
/-- ITEM_START. -/
def execItemStart (q : QueueId) (s : State) : Out := .next (itemStart s q)
/-- ITEM_COMPLETE. -/
def execItemComplete (q : QueueId) (seq : Nat) (storeOk : Bool) (s : State) : Out := .next (itemComplete s q.val seq storeOk)
/-- LGR_TIMEOUT. -/
def execLgrTimeout (q : QueueId) (seq : Nat) (s : State) : Out := .next (lgrTimeout s q seq)
/-- RET_WRITE. -/
def execRetWrite (a : Agent) (q : QueueId) (value : Nat) (s : State) : Out := .next (retWrite s a q.val value)
/-- QUEUE_RESUME. -/
def execQueueResume (a : Agent) (q : QueueId) (s : State) : Out := .next (queueResume s a q.val)
/-- QUEUE_RECOVERY. -/
def execQueueRecovery (q : QueueId) (s : State) : Out := .next (queueRecovery s q.val)
/-- HCTL_PREEMPT. -/
def execHctlPreempt (a : Agent) (h : HearthId) (s : State) : Out := .next (hctlPreempt s a h.val)
/-- HEARTH_PREEMPTED. -/
def execHearthPreempted (h : HearthId) (s : State) : Out := .next (hearthPreempted s h.val)
/-- HCTL_RESUME. -/
def execHctlResume (a : Agent) (h : HearthId) (s : State) : Out := .next (hctlResume s a h.val)
/-- HEARTH_HELD. -/
def execHearthHeld (h : HearthId) (s : State) : Out := .next (hearthHeld s h.val)

end Sys2Proof.Machine
end

