-- ==== Sys2Proof/Machine/RegFile.lean ====
section
/-! DEFINITION. The control region: which register a word of it is, what it reads, which of its bits software
may write, and where a value written is kept (00, R11 to R14; 09, R200; the register tables of each chapter). -/

namespace Sys2Proof.Machine

/-- A 64-bit word of the control region (09, Table 09-3; 20, Table 20-4), by block, unit and offset. -/
inductive Loc where
  | tile (t o : Nat)
  | hearth (h o : Nat)
  | dev (o : Nat)
  | blw (t o : Nat)
  | port (p o : Nat)
  | ctr (c o : Nat)
  | queue (q o : Nat)
  | hwork (h o : Nat)
  | lgr (o : Nat)
  | plat (o : Nat)
  | fpage (f o : Nat)
  /-- an offset of a block that no chapter defines: reserved (09, R200) -/
  | rsvd
  /-- between the blocks: unmapped (09, R200) -/
  | gap
deriving DecidableEq, Repr

/-- The word at an offset of the control region. -/
def locOf (o : Nat) : Loc :=
  if o < 0x200000 then .tile (o / 0x10000) (o % 0x10000)
  else if o < 0x1000000 then .gap
  else if o < 0x1100000 then .hearth (o / 0x10000 % 16) (o % 0x10000)
  else if o < 0x2000000 then .gap
  else if o < 0x2100000 then .dev (o % 0x100000)
  else if o < 0x3000000 then .gap
  else if o < 0x3200000 then .blw (o / 0x10000 % 32) (o % 0x10000)
  else if o < 0x4000000 then .gap
  else if o < 0x4C00000 then .port ((o - 0x4000000) / 0x100000) (o % 0x100000)
  else if o < 0x10000000 then .gap
  else if o < 0x11000000 then .ctr ((o - 0x10000000) / 0x100) (o % 0x100)
  else if o < 0x20000000 then .gap
  else if o < 0x20010000 then .queue (o / 0x100 % 256) (o % 0x100)
  else if o < 0x20100000 then .rsvd
  else if o < 0x20101000 then .hwork (o / 0x100 % 16) (o % 0x100)
  else if o < 0x20200000 then .rsvd
  else if o < 0x20200100 then .lgr (o % 0x100)
  else if o < 0x21000000 then .rsvd
  else if o < 0x30000000 then .gap
  else if 0x30281000 ≤ o ∧ o < 0x30292000 then .fpage ((o - 0x30281000) / 0x1000) (o % 0x1000)
  else if o < 0x31000000 then .plat (o % 0x1000000)
  else .gap

/-! ### Values read -/

/-- Two 32-bit registers in one word. -/
def pair32 (lo hi : Nat) : Nat := lo % 2 ^ 32 + hi % 2 ^ 32 * 2 ^ 32

/-- `ANV_STATUS` (03, Table 03-10). -/
def anvStatus (x : Tile) : Nat :=
  let b0 := vget x.anv.buf 0 {}
  let b1 := vget x.anv.buf 1 {}
  let st := fun (b : PlaneBuf) => if b.ready then 2 else if b.loading then 1 else 0
  let fm := fun (b : PlaneBuf) => (b.issued.map (·.fmt)).getD 0
  fm b1 * 2 ^ 16 + fm b0 * 2 ^ 8 + b2n (!anvilIdle x) * 16 + st b1 * 4 + st b0

/-- `ACC_CHST` (04, Table 04-13); `CREDIT` counts at a local chain-out target. -/
def accChst (s : State) (x : Tile) : Nat :=
  let cr := if fld x.acc.chain 13 12 = 1 then chainFree s (chainOutTile x) else 0
  x.acc.segIn % 2 ^ 32 * 2 ^ 32 + min 64 cr * 2 ^ 16 + min 64 x.acc.fifo.length

/-- `WIN_STATUS` (05, Table 05-4); lines of the output rows ahead that are not resident are being fetched. -/
def winStatus (x : Tile) : Nat :=
  let busy := (anvJobs x).any (fun j => match j.op with | .mmt k => Mmt.src k.w == 1 | _ => false) || winFetching x
  x.win.oy % 4096 * 2 ^ 52 + x.win.ox % 4096 * 2 ^ 40 + x.win.ch % 4096 * 2 ^ 28 + min 64 x.win.lines.length * 2 ^ 21 +
    b2n (x.win.wcf.isSome && x.win.win.isSome) * 2 + b2n busy

/-- A special-function instruction holds its pipe. -/
def sfuBusy (x : Tile) : Bool := x.vec.run.any (fun j => decide (0x60 ≤ opOf j.w))

/-- `SFU_STATUS.ROWS`: how far the rows of the instruction have come is a matter of time, which the model leaves out; a free
value between 1 and the rows that it still has, and at most the 80 that the pipe holds (07, Table 07-10; log 56). -/
def sfuRows (s : State) (x : Tile) : Nat :=
  match x.vec.run with
  | some j => if 0x60 ≤ opOf j.w then 1 + (Config.sfuRows s.fresh).toNat % max 1 (min 80 (vecRows j.w - j.done)) else 0
  | none => 0

/-- Bits of the threads of a core (10, Table 10-18), and its requests in flight. -/
def blwCore (x : Tile) (c : Nat) : Nat :=
  let st := (List.range 16).foldl (fun a t => a + (match threadAt x c t with
    | none => 0
    | some th => match th.st with | .run => 1 | .wait => 2 | .fault => 3) * 4 ^ t) 0
  min 48 (coreReqs x c) * 2 ^ 32 + st

/-- Words of the anvil register block; a shadow shows the execution state of its partner (15, R356). -/
def readTile (s : State) (t o : Nat) : Nat :=
  let own := tileAt s t
  let x := tileAt s (execTile s t)
  let a := x.anv
  let c := x.acc
  let v := x.vec
  if o = 0 then own.anv.cfg.toNat
  else if o = 0x8 then anvStatus x
  else if o = 0x10 then a.flag.toNat
  else if o = 0x18 then a.fault.toNat
  else if 0x80 ≤ o ∧ o < 0xC0 then pair32 (vget a.bound ((o - 0x80) / 4) 0).toNat (vget a.bound ((o - 0x80) / 4 + 1) 0).toNat
  else if 0x100 ≤ o ∧ o < 0x300 then (vget a.bkt ((o - 0x100) / 8) 0).toNat
  else if o = 0x400 then own.acc.cfg.toNat
  else if o = 0x408 then c.geom.toNat
  else if o = 0x410 then c.chain.toNat
  else if o = 0x418 then accChst s x
  else if o = 0x420 then c.fault.toNat
  else if 0x480 ≤ o ∧ o < 0x580 then
    let n := (o - 0x480) / 4
    let w := fun n => if n < geomN x then (vget c.sst n 0).toNat + b2n (wpend x n) * 2 ^ 15 else 0
    pair32 (w n) (w (n + 1))
  else if o = 0x600 then winStatus x
  else if o = 0x608 then x.win.fault.toNat
  else if o = 0x800 then own.vec.cfg.toNat
  else if o = 0x808 then min 16 v.queue.length * 2 ^ 11 + b2n (!vecIdle x) * 2 ^ 10 + v.vl
  else if o = 0x810 then v.flag.toNat
  else if o = 0x818 then v.fault.toNat
  else if o = 0x820 then v.zlen.toNat
  else if o = 0x828 then v.idx.toNat
  else if o = 0x830 then v.tag.toNat
  else if 0x840 ≤ o ∧ o < 0x880 then (vget v.addr ((o - 0x840) / 8) 0).toNat
  else if o = 0xA00 then sfuRows s x * 2 + b2n (sfuBusy x)
  else if o = 0xA08 then v.sfuFault.toNat
  else if o = 0xA10 then v.mgen.toNat
  else if o = 0xA18 then v.mdoc.toNat
  else if o = 0xA20 then v.mpos.toNat
  else if o = 0xC00 then own.misc.scrEcc.toNat
  else if 0xE00 ≤ o ∧ o < 0xE40 then (vget x.misc.synTb ((o - 0xE00) / 8) 0).toNat
  else if o = 0xE40 then x.misc.synFault.toNat
  else if o = 0xF00 then own.misc.chkTcfg.toNat
  else if o = 0xF08 then own.misc.chkTstat.toNat
  else if o = 0xF10 then own.misc.chkSpk0.toNat
  else if o = 0xF18 then own.misc.chkSpk1.toNat
  else if o = 0xF20 then x.misc.chkFault.toNat
  else 0

/-- Words of the bellows block. -/
def readBlw (s : State) (t o : Nat) : Nat :=
  let x := tileAt s (execTile s t)
  let b := x.blw
  if o = 0 then (tileAt s t).blw.cfg.toNat
  else if o = 0x8 then b.mark.toNat
  else if o = 0x10 then b.fault.toNat
  else if o = 0x20 then b.pfdrop.toNat
  else if o = 0x28 then b.csBase.toNat
  else if o = 0x30 then b.csLim.toNat
  else if o = 0x38 then b.csCtl.toNat
  else if 0x100 ≤ o ∧ o < 0x180 then pair32 (landAt x ((o - 0x100) / 4)) (landAt x ((o - 0x100) / 4 + 1))
  else if 0x200 ≤ o ∧ o < 0x600 then blwCore x ((o - 0x200) / 8)
  else if 0x8000 ≤ o then (look b.prog ((o - 0x8000) / 8) 0).toNat
  else 0

/-- Words of the hearth control block. -/
def readHearth (s : State) (h o : Nat) : Nat :=
  let x := hearthAt s h
  let m := x.mem
  let n := x.net
  let c := x.chk
  if 0x100 ≤ o ∧ o < 0x120 then (vget m.vecSeed ((o - 0x100) / 8) 0).toNat
  else if o = 0x200 then m.kvcfg.toNat
  else if o = 0x208 then m.kvrc.toNat
  else if o = 0x210 then m.kvfree.toNat
  else if o = 0x218 then m.kvfptr.toNat
  else if o = 0x220 then m.kvrel.toNat
  else if o = 0x228 then m.kvrptr.toNat
  else if o = 0x230 then m.kvcnt.toNat
  else if o = 0x300 then m.mtlShare.toNat + usedBy (poolAt s 1) h % 2 ^ 13 * 2 ^ 51 + usedBy (poolAt s 0) h % 2 ^ 13 * 2 ^ 35
  else if o = 0x308 then m.mtlOp.toNat
  else if o = 0x310 then m.mtlOpadr.toNat
  else if o = 0x318 then m.mtlOplen.toNat
  else if o = 0x320 then m.mtlStat0.toNat
  else if o = 0x328 then m.mtlStat1.toNat
  else if o = 0x400 then m.sched.toNat
  else if o = 0x408 then m.brch.toNat
  else if o = 0x410 then m.held.toNat
  else if 0x440 ≤ o ∧ o < 0x480 then pair32 (vget m.mcg ((o - 0x440) / 4) 0).toNat (vget m.mcg ((o - 0x440) / 4 + 1) 0).toNat
  else if o = 0x480 then m.actBase.toNat
  else if o = 0x488 then m.actLim.toNat
  else if o = 0x490 then m.actUsed.toNat
  else if o = 0x500 then n.synCfg.toNat
  else if o = 0x508 then n.issued.toNat
  else if o = 0x510 then n.done.toNat
  else if o = 0x518 then n.loc.toNat
  else if o = 0x520 then n.out.toNat
  else if o = 0x528 then n.rxacc.toNat
  else if o = 0x530 then n.rxapp.toNat
  else if o = 0x538 then n.pend.toNat
  else if o = 0x540 then n.rxcnt.toNat
  else if 0x600 ≤ o ∧ o < 0x800 then (if o % 16 = 0 then vget n.ws0 ((o - 0x600) / 16) 0 else vget n.ws1 ((o - 0x600) / 16) 0).toNat
  else if 0x800 ≤ o ∧ o < 0xA00 then (vget (vget n.lnkWin ((o - 0x800) / 32) (Vector.replicate 4 0)) (o / 8 % 4) 0).toNat
  else if o = 0xA00 then n.lnkRate.toNat
  else if o = 0xA08 then n.lnkRateCnt.toNat
  else if o = 0xB00 then n.colCfg.toNat
  else if o = 0xB08 then n.phBase.toNat
  else if o = 0xB10 then n.phPtr.toNat
  else if 0xC00 ≤ o ∧ o < 0x1000 then (if o % 16 = 0 then vget n.grp0 ((o - 0xC00) / 16) 0 else vget n.grp1 ((o - 0xC00) / 16) 0).toNat
  else if o = 0x1000 then n.qchCfg.toNat
  else if o = 0x1008 then n.qchGen.toNat
  else if o = 0x1010 then n.qchStat0.toNat
  else if o = 0x1018 then n.qchStat1.toNat
  else if o = 0x1100 then c.chkCfg.toNat
  else if o = 0x1108 then c.epoch.toNat
  else if o = 0x1110 then c.ectl.toNat
  else if o = 0x1118 then c.chkGrp0.toNat
  else if o = 0x1120 then c.chkGrp1.toNat
  else if 0x1128 ≤ o ∧ o < 0x1140 then (vget c.peer ((o - 0x1128) / 8) 0).toNat
  else if o = 0x1140 then c.hstat.toNat
  else 0

/-- Words of the device block. -/
def readDev (s : State) (o : Nat) : Nat :=
  if o = 0 then (vget s.msys.cfg 0 0).toNat
  else if o = 8 then (vget s.msys.cfg 1 0).toNat
  else if 0x10000 ≤ o ∧ o < 0x10100 then (vget s.msys.rgn ((o - 0x10000) / 8) 0).toNat
  else if 0x10200 ≤ o ∧ o < 0x10260 then (vget s.msys.stk ((o - 0x10200) / 8) 0).toNat
  else if o = 0x10300 then s.msys.ecc0.toNat
  else if o = 0x10308 then s.msys.ecc1.toNat
  else if o = 0x20000 then s.lnk.topo.toNat
  else if o = 0x20008 then
    min (2 ^ 16 - 1) s.lnk.sessions.length * 2 ^ 48 + min (2 ^ 16 - 1) s.lnk.send.length * 2 ^ 32 + min (2 ^ 32 - 1) s.lnk.ended
  else if 0x20100 ≤ o ∧ o < 0x20160 then (vget s.lnk.dtr ((o - 0x20100) / 8) 0).toNat
  else if o = 0x30000 then s.cyc % 2 ^ 64
  else if o = 0x30010 then s.anchor0.toNat
  else if o = 0x30018 then s.anchor1.toNat
  else 0

/-- Words of a port block. -/
def readPort (s : State) (p o : Nat) : Nat :=
  let x := portAt s p
  if o = 0 then x.cfg.toNat
  else if o = 0x8 then x.state.toNat
  else if o = 0x10 then x.fec.toNat
  else if o = 0x18 then x.retry.toNat
  else if o = 0x20 then x.rx0.toNat
  else if o = 0x28 then x.rx1.toNat
  else if o = 0x30 then x.crd.toNat
  else if 0x1000 ≤ o ∧ o < 0x1200 then
    let h := (o - 0x1000) / 32
    (match o / 8 % 4 with | 0 => vget x.ring0 h 0 | 1 => vget x.ring1 h 0 | 2 => vget x.ring2 h 0 | _ => 0).toNat
  else if o = 0x2000 then x.qbuf.toNat
  else 0

/-- Waits on a counter, and increments on their way to it (11, Table 11-10). -/
def ctrWaits (s : State) (c : Nat) : Nat :=
  (s.tiles.toList.filter (fun x => x.misc.wait.any (fun w => w.ctr == c))).length +
  s.hearths.toList.foldl (fun n x => n + ((List.range 32).filter (fun i => wsSt x i == 1 && wsCtr x i == c)).length) 0
def ctrInflight (s : State) (c : Nat) : Nat :=
  (s.flights.filter (fun f => f.ctr == c)).length +
  s.lnk.sessions.foldl (fun n x => x.rx.toList.foldl (fun n k => n + (k.pend.filter (fun i => i.ctr == c)).length) n) 0

/-- Words of a counter. -/
def readCtr (s : State) (c o : Nat) : Nat :=
  let x := ctrAt s c
  if o = 0 then x.value.toNat
  else if o = 0x10 then b2n x.lost * 2 ^ 63 + b2n x.sat * 2 ^ 62 + b2n x.rem * 2 ^ 61 + x.epoch.toNat * 2 ^ 32 + x.owner.toNat
  else if o = 0x20 then min (2 ^ 16 - 1) (ctrWaits s c) * 2 ^ 48 + min (2 ^ 32 - 1) (ctrInflight s c)
  else 0

/-- Words of a queue, of a hearth's work page and of the ledger. -/
def readQueue (s : State) (q o : Nat) : Nat :=
  let w := queueAt s q
  if o = 0 then w.cfg.toNat
  else if o = 0x8 then w.ring.toNat
  else if o = 0x10 then w.cring.toNat
  else if o = 0x18 then w.ptr.toNat
  else if o = 0x20 then w.acc.toNat
  else if o = 0x28 then w.done.toNat
  else if o = 0x30 then w.ret.toNat
  else if o = 0x38 then w.stat.toNat
  else 0
def readHwork (s : State) (h o : Nat) : Nat :=
  let c := (hearthAt s h).chk
  if o = 0 then c.hcfg.toNat
  else if o = 0x8 then c.hctl.toNat
  else if o = 0x10 then c.salt.toNat
  else if o = 0x18 then pair32 ((hItems s h).filter isPending).length ((hItems s h).filter isRunning).length
  else if 0x40 ≤ o ∧ o < 0x60 then (vget c.audit ((o - 0x40) / 8) 0).toNat
  else 0

/-- `TMP_STAT.STATE` (17, Table 17-18). -/
def tmpStNo (x : TmpSt) : Nat := match x with | .idle => 0 | .verify => 1 | .quiesce => 2 | .apply => 3 | .staged => 4 | .committing => 5

/-- Words of the platform block. -/
def readPlat (s : State) (o : Nat) : Nat :=
  let p := s.pwr
  let r := s.recs
  if o = 0 then p.clkStat.toNat
  else if 0x100 ≤ o ∧ o < 0x200 then (vget p.clkTile ((o - 0x100) / 8) 0).toNat
  else if o = 0x80000 then p.dev.toNat
  else if o = 0x80008 then p.base.toNat
  else if o = 0x80010 then p.tj.toNat
  else if o = 0x80018 then p.cool.toNat
  else if 0x80100 ≤ o ∧ o < 0x80200 then
    let c := (hearthAt s ((o - 0x80100) / 16)).chk
    (if o % 16 = 0 then c.pwr0 else c.pwr1).toNat
  else if 0x81000 ≤ o ∧ o < 0x81260 then (vget p.fn ((o - 0x81000) / 8) 0).toNat
  else if o = 0x100000 then pair32 r.head r.tail
  else if o = 0x100008 then pair32 r.ovf r.suppTotal
  else if o = 0x100010 then r.sseed.toNat
  else if o = 0x100018 then r.sround.toNat
  else if o = 0x100020 then r.excl0.toNat
  else if o = 0x100028 then r.excl1.toNat
  else if o = 0x180000 then s.tmp.qtmo
  else if o = 0x180010 then
    min (2 ^ 32 - 1) s.tmp.rejects * 2 ^ 32 + s.tmp.code * 2 ^ 16 + s.tmp.hearth * 2 ^ 8 + s.tmp.scope * 2 ^ 6 + tmpStNo s.tmp.st
  else if o = 0x180100 then s.tmp.cur.serDev
  else if 0x180108 ≤ o ∧ o < 0x180188 then vget s.tmp.cur.ser ((o - 0x180108) / 8) 0
  else if o = 0x200000 then s.stk.stat.toNat
  else if o = 0x200008 then s.stk.dbg.toNat
  else if o = 0x280000 then s.hif.link.toNat
  else 0

/-- Words of a function page. -/
def readPage (s : State) (f o : Nat) : Nat :=
  let x := vget s.hif.fns f {}
  if o = 0 then x.fn.toNat
  else if o = 0x10 then x.ering0.toNat
  else if o = 0x18 then x.ering1.toNat
  else if 0x20 ≤ o ∧ o < 0x40 then (vget x.ap ((o - 0x20) / 8) 0).toNat
  else if o = 0x40 then x.mbx0.toNat
  else if o = 0x48 then x.mbx1.toNat
  else if o = 0x50 then x.mbx2.toNat
  else if o = 0x60 then x.stat.toNat
  else 0

/-- What a word of the control region reads. -/
def readLoc (s : State) (l : Loc) : Nat :=
  match l with
  | .tile t o => readTile s t o
  | .hearth h o => readHearth s h o
  | .dev o => readDev s o
  | .blw t o => readBlw s t o
  | .port p o => readPort s p o
  | .ctr c o => readCtr s c o
  | .queue q o => readQueue s q o
  | .hwork h o => readHwork s h o
  | .lgr o => if o = 0 then s.lgr.dev.toNat else if o = 8 then s.lgr.lstat.toNat else 0
  | .plat o => readPlat s o
  | .fpage f o => readPage s f o
  | .rsvd => 0
  | .gap => 0

/-! ### Bits that software writes -/

/-- Fields of a word by type (00, Table 00-5), as (high, low) bits: RW, RWL, RW1C. Fields whose write has a
behaviour of its own are not here. -/
structure RMask where
  rw : List (Nat × Nat) := []
  rwl : List (Nat × Nat) := []
  w1c : List (Nat × Nat) := []
deriving DecidableEq, Repr

def maskTile (o : Nat) : RMask :=
  if o = 0x10 then { w1c := [(3, 0)] }
  else if 0x80 ≤ o ∧ o < 0xC0 then { rw := [(19, 0), (51, 32)] }
  else if 0x100 ≤ o ∧ o < 0x300 then { rw := [(63, 32), (19, 0)] }
  else if 0x480 ≤ o ∧ o < 0x580 then { rw := [(14, 8), (46, 40)], w1c := [(5, 0), (37, 32)] }
  else if o = 0x810 then { w1c := [(12, 0)] }
  else {}
def maskBlw (o : Nat) : RMask :=
  if o = 0x28 then { rw := [(39, 0)] }
  else if o = 0x30 then { rw := [(31, 0)] }
  else if 0x8000 ≤ o then { rw := [(63, 0)] }
  else {}
def maskHearth (o : Nat) : RMask :=
  if 0x100 ≤ o ∧ o < 0x120 then { rw := [(63, 0)] }
  else if o = 0x200 then { rwl := [(13, 8), (0, 0)] }
  else if o = 0x208 then { rwl := [(43, 16)] }
  else if o = 0x210 ∨ o = 0x220 then { rwl := [(43, 12), (4, 0)] }
  else if o = 0x218 then { rw := [(63, 32)] }
  else if o = 0x228 then { rw := [(31, 0)] }
  else if o = 0x308 then { w1c := [(2, 2)] }
  else if o = 0x310 ∨ o = 0x318 then { rw := [(43, 0)] }
  else if o = 0x400 then { rwl := [(13, 8)] }
  else if 0x440 ≤ o ∧ o < 0x480 then { rwl := [(63, 0)] }
  else if o = 0x480 ∨ o = 0x488 then { rwl := [(43, 5)] }
  else if o = 0x500 then { rwl := [(29, 24)] }
  else if 0x600 ≤ o ∧ o < 0x800 then (if o % 16 = 0 then { rw := [(63, 0)] } else { rw := [(26, 16), (7, 2)] })
  else if o = 0xB00 then { rwl := [(5, 0)] }
  else if o = 0xB08 then { rwl := [(43, 17)] }
  else if o = 0x1000 then { rwl := [(43, 14), (1, 1)] }
  else if o = 0x1100 then { rwl := [(47, 42), (41, 36)] }
  else if o = 0x1108 then { rw := [(63, 0)] }
  else if o = 0x1118 then { rwl := [(43, 0)] }
  else if o = 0x1120 then { rwl := [(63, 48), (47, 32), (7, 2), (0, 0)] }
  else if o = 0x1128 then { rwl := [(63, 44), (0, 0)] }
  else if o = 0x1130 ∨ o = 0x1138 then { rwl := [(43, 0)] }
  else {}
def maskPort (o : Nat) : RMask :=
  if 0x1000 ≤ o ∧ o < 0x1200 ∧ o / 8 % 4 = 0 then { rw := [(43, 6), (5, 0)] } else {}
def maskQueue (o : Nat) : RMask :=
  if o = 0 then { rwl := [(12, 2)] } else if o = 0x8 ∨ o = 0x10 then { rwl := [(43, 10)] } else {}
def maskHwork (o : Nat) : RMask :=
  if o = 0 then { rwl := [(47, 40), (39, 34)] } else if o = 0x10 then { rw := [(63, 0)] } else {}
def maskPage (o : Nat) : RMask :=
  if o = 0 then { rw := [(2, 2)] }
  else if o = 0x10 then { rw := [(63, 6), (5, 0)] }
  else if o = 0x18 then { rw := [(11, 1), (0, 0)] }
  else if 0x20 ≤ o ∧ o < 0x40 then { rw := [(43, 34)] }
  else if o = 0x40 then { rw := [(63, 12)] }
  else if o = 0x48 then { rw := [(31, 0)] }
  else {}

/-- Writable fields of a word. -/
def maskLoc (l : Loc) : RMask :=
  match l with
  | .tile _ o => maskTile o
  | .hearth _ o => maskHearth o
  | .dev o => if 0x10200 ≤ o ∧ o < 0x10260 then { w1c := [(2, 2)] } else {}
  | .blw _ o => maskBlw o
  | .port _ o => maskPort o
  | .ctr _ o => if o = 0x10 then { rw := [(61, 61)] } else {}
  | .queue _ o => maskQueue o
  | .hwork _ o => maskHwork o
  | .plat o => if o = 0x100000 then { rw := [(31, 0)] } else {}
  | .fpage _ o => maskPage o
  | _ => {}

/-- Fields that the Stoker alone writes, by word of the platform or device block (13, Table 13-16; 15, Tables
15-22 and 15-23; 17, R422; 21, Table 21-6). -/
def stokerMask (l : Loc) : List (Nat × Nat) :=
  match l with
  | .plat o =>
    if o = 0x100000 then [(31, 0)]
    else if o = 0x100010 then [(63, 0)]
    else if o = 0x100018 then [(31, 0)]
    else if o = 0x100020 then [(63, 48), (31, 0)]
    else if o = 0x100028 then [(23, 12), (11, 0)]
    else if o = 0x180000 then [(5, 0)]
    else if o = 0x80018 then [(33, 31), (27, 15), (11, 0)]
    else []
  | .dev o => if o = 0x30010 ∨ o = 0x30018 then [(63, 0)] else []
  | _ => []

/-! ### Reserved bits -/

/-- Defined fields of a word of the anvil register block, as (high, low) bits (03, Tables 03-9 to 03-14; 04, Tables 04-10 to
04-15; 05, Tables 05-4 and 05-5; 06, Tables 06-8 to 06-12; 07, Tables 07-10 and 07-11; 08, Table 08-2; 09, Table 09-15; 11,
Table 11-14; 15, Tables 15-12 to 15-15). -/
def definedTile (o : Nat) : List (Nat × Nat) :=
  if o = 0 then [(3, 0)]
  else if o = 0x8 then [(20, 16), (12, 8), (4, 0)]
  else if o = 0x10 then [(3, 0)]
  else if o = 0x18 then [(63, 32), (15, 0)]
  else if 0x80 ≤ o ∧ o < 0xC0 then [(51, 32), (19, 0)]
  else if 0x100 ≤ o ∧ o < 0x300 then [(63, 32), (19, 0)]
  else if o = 0x400 then [(14, 8)]
  else if o = 0x408 then [(14, 8), (4, 0)]
  else if o = 0x410 then [(63, 10)]
  else if o = 0x418 then [(63, 32), (22, 16), (6, 0)]
  else if o = 0x420 then [(63, 0)]
  else if 0x480 ≤ o ∧ o < 0x580 then [(47, 40), (37, 32), (15, 8), (5, 0)]
  else if o = 0x600 then [(63, 21), (1, 0)]
  else if o = 0x608 then [(63, 0)]
  else if o = 0x800 then [(0, 0)]
  else if o = 0x808 then [(15, 0)]
  else if o = 0x810 then [(12, 0)]
  else if o = 0x818 then [(63, 32), (24, 0)]
  else if o = 0x820 then [(31, 0)]
  else if o = 0x828 then [(47, 0)]
  else if o = 0x830 then [(55, 0)]
  else if 0x840 ≤ o ∧ o < 0x880 then [(35, 0)]
  else if o = 0xA00 then [(7, 0)]
  else if o = 0xA08 then [(63, 32), (15, 0)]
  else if o = 0xA10 then [(30, 0)]
  else if o = 0xA18 then [(39, 0)]
  else if o = 0xA20 then [(63, 0)]
  else if o = 0xC00 then [(63, 40), (31, 0)]
  else if 0xE00 ≤ o ∧ o < 0xE48 then [(63, 0)]
  else if o = 0xF00 then [(7, 6), (4, 0)]
  else if o = 0xF08 then [(63, 0)]
  else if o = 0xF10 then [(63, 32), (3, 0)]
  else if o = 0xF18 then [(63, 0)]
  else if o = 0xF20 then [(63, 32), (15, 0)]
  else []

/-- Defined fields of a word of the bellows block (10, Tables 10-13 to 10-18 and 10-24, R226). -/
def definedBlw (o : Nat) : List (Nat × Nat) :=
  if o = 0 then [(2, 0)]
  else if o = 0x8 then [(31, 0)]
  else if o = 0x10 then [(63, 20), (15, 0)]
  else if o = 0x18 then [(31, 21), (11, 0)]
  else if o = 0x20 then [(31, 0)]
  else if o = 0x28 then [(39, 0)]
  else if o = 0x30 then [(31, 0)]
  else if o = 0x38 then [(63, 32), (5, 4), (2, 0)]
  else if 0x100 ≤ o ∧ o < 0x180 then [(63, 0)]
  else if 0x200 ≤ o ∧ o < 0x600 then [(37, 0)]
  else if 0x8000 ≤ o then [(63, 0)]
  else []

/-- Defined fields of a word of a hearth's control block (06, Table 06-13; 08, Table 08-7; 09, Tables 09-12 to 09-14; 10,
Tables 10-19 to 10-23; 11, Tables 11-11 to 11-13; 12, Tables 12-19 and 12-20; 13, Tables 13-14 and 13-15; 14, Tables 14-6
to 14-8; 15, Tables 15-16 to 15-20). -/
def definedHearth (o : Nat) : List (Nat × Nat) :=
  if 0x100 ≤ o ∧ o < 0x120 then [(63, 0)]
  else if o = 0x200 then [(13, 8), (0, 0)]
  else if o = 0x208 then [(43, 16)]
  else if o = 0x210 ∨ o = 0x220 then [(43, 12), (4, 0)]
  else if o = 0x218 ∨ o = 0x228 ∨ o = 0x230 then [(63, 0)]
  else if o = 0x300 then [(63, 51), (47, 28), (23, 0)]
  else if o = 0x308 then [(15, 8), (2, 0)]
  else if o = 0x310 ∨ o = 0x318 then [(43, 0)]
  else if o = 0x320 ∨ o = 0x328 then [(63, 0)]
  else if o = 0x400 then [(47, 40), (34, 32), (13, 8), (1, 0)]
  else if o = 0x408 then [(63, 32), (15, 8), (4, 0)]
  else if o = 0x410 then [(63, 0)]
  else if 0x440 ≤ o ∧ o < 0x480 then [(63, 0)]
  else if o = 0x480 ∨ o = 0x488 ∨ o = 0x490 then [(43, 0)]
  else if o = 0x500 then [(29, 24), (16, 0)]
  else if 0x508 ≤ o ∧ o < 0x548 then [(63, 0)]
  else if 0x600 ≤ o ∧ o < 0x800 then (if o % 16 = 0 then [(63, 0)] else [(63, 40), (26, 16), (11, 0)])
  else if 0x800 ≤ o ∧ o < 0xA00 then
    (if o / 8 % 4 = 0 then [(63, 24), (3, 0)] else if o / 8 % 4 = 3 then [(63, 32)] else [(43, 0)])
  else if o = 0xA00 then [(47, 0)]
  else if o = 0xA08 then [(63, 0)]
  else if o = 0xB00 then [(5, 0)]
  else if o = 0xB08 then [(43, 0)]
  else if o = 0xB10 then [(63, 0)]
  else if 0xC00 ≤ o ∧ o < 0x1000 then (if o % 16 = 0 then [(63, 0)] else [(63, 40), (2, 0)])
  else if o = 0x1000 then [(43, 14), (10, 0)]
  else if o = 0x1008 then [(63, 32), (1, 0)]
  else if o = 0x1010 ∨ o = 0x1018 then [(63, 0)]
  else if o = 0x1100 then [(47, 24), (1, 0)]
  else if o = 0x1108 then [(63, 0)]
  else if o = 0x1110 then [(15, 8), (4, 0)]
  else if o = 0x1118 then [(43, 0)]
  else if o = 0x1120 then [(63, 32), (7, 2), (0, 0)]
  else if o = 0x1128 then [(63, 44), (0, 0)]
  else if o = 0x1130 ∨ o = 0x1138 then [(43, 0)]
  else if o = 0x1140 then [(63, 0)]
  else []

/-- Defined fields of a word of the device block (09, Tables 09-8 to 09-11; 12, Tables 12-17 and 12-18; 13, Table 13-16). -/
def definedDev (o : Nat) : List (Nat × Nat) :=
  if o = 0 ∨ o = 8 then [(12, 0)]
  else if 0x10000 ≤ o ∧ o < 0x10100 then [(11, 1)]
  else if 0x10200 ≤ o ∧ o < 0x10260 then [(63, 36), (27, 20), (2, 0)]
  else if o = 0x10300 then [(63, 0)]
  else if o = 0x10308 then [(43, 0)]
  else if o = 0x20000 then [(63, 63), (57, 12)]
  else if o = 0x20008 then [(63, 0)]
  else if 0x20100 ≤ o ∧ o < 0x20160 then [(7, 7), (3, 0)]
  else if o = 0x30000 ∨ o = 0x30010 ∨ o = 0x30018 then [(63, 0)]
  else []

/-- Defined fields of a word of a port block (12, Tables 12-13 to 12-16; 13, Table 13-13; 14, Table 14-9). -/
def definedPort (o : Nat) : List (Nat × Nat) :=
  if o = 0 then [(15, 0)]
  else if o = 0x8 then [(63, 36), (15, 8), (2, 0)]
  else if 0x10 ≤ o ∧ o < 0x38 then [(63, 0)]
  else if 0x1000 ≤ o ∧ o < 0x1200 then
    (match o / 8 % 4 with | 0 => [(43, 0)] | 1 => [(63, 0)] | 2 => [(63, 32), (16, 0)] | _ => [])
  else if o = 0x2000 then [(63, 32), (23, 0)]
  else []

/-- Defined fields of a word of a counter, a queue, a hearth's work page and the ledger (11, Table 11-10; 16, Tables 16-15
to 16-17). -/
def definedCtr (o : Nat) : List (Nat × Nat) :=
  if o = 0 then [(47, 0)]
  else if o = 0x8 then [(63, 0)]
  else if o = 0x10 then [(63, 61), (47, 32), (23, 0)]
  else if o = 0x18 then [(1, 0)]
  else if o = 0x20 then [(63, 48), (31, 0)]
  else []
def definedQueue (o : Nat) : List (Nat × Nat) :=
  if o = 0 then [(63, 2), (0, 0)]
  else if o = 0x8 ∨ o = 0x10 then [(43, 10)]
  else if 0x18 ≤ o ∧ o < 0x38 then [(63, 0)]
  else if o = 0x38 then [(63, 32), (16, 8), (1, 0)]
  else []
def definedHwork (o : Nat) : List (Nat × Nat) :=
  if o = 0 then [(51, 34)]
  else if o = 0x8 then [(3, 0)]
  else if o = 0x10 ∨ o = 0x18 then [(63, 0)]
  else if o = 0x40 then [(7, 7), (5, 0)]
  else if 0x40 < o ∧ o < 0x60 then [(63, 0)]
  else []
def definedLgr (o : Nat) : List (Nat × Nat) :=
  if o = 0 then [(63, 16), (11, 8), (1, 0)] else if o = 8 then [(63, 0)] else []

/-- Defined fields of a word of the platform block and of a function page (15, Tables 15-21 to 15-23; 17, Tables 17-17 to
17-19; 18, Tables 18-8 and 18-9; 19, Tables 19-10 to 19-13; 20, Tables 20-6 to 20-10; 21, Table 21-6). -/
def definedPlat (o : Nat) : List (Nat × Nat) :=
  if o = 0 then [(31, 16), (1, 0)]
  else if 0x100 ≤ o ∧ o < 0x200 then [(7, 4), (0, 0)]
  else if o = 0x80000 then [(63, 0)]
  else if o = 0x80008 then [(31, 0)]
  else if o = 0x80010 then [(11, 0)]
  else if o = 0x80018 then [(33, 31), (27, 15), (11, 0)]
  else if 0x80100 ≤ o ∧ o < 0x80200 then (if o % 16 = 0 then [(63, 0)] else [(5, 0)])
  else if 0x81000 ≤ o ∧ o < 0x81260 then [(63, 48), (15, 8), (2, 0)]
  else if o = 0x100000 ∨ o = 0x100008 ∨ o = 0x100010 then [(63, 0)]
  else if o = 0x100018 then [(31, 0)]
  else if o = 0x100020 then [(63, 48), (31, 0)]
  else if o = 0x100028 then [(23, 0)]
  else if o = 0x180000 then [(5, 0)]
  else if o = 0x180008 then [(0, 0)]
  else if o = 0x180010 then [(63, 32), (23, 16), (11, 6), (2, 0)]
  else if 0x180100 ≤ o ∧ o < 0x180188 then [(63, 0)]
  else if o = 0x200000 then [(55, 32), (15, 13), (9, 8), (4, 0)]
  else if o = 0x200008 then [(63, 32), (1, 0)]
  else if o = 0x280000 then [(63, 48), (15, 8), (1, 0)]
  else []
def definedPage (o : Nat) : List (Nat × Nat) :=
  if o = 0 then [(47, 43), (2, 0)]
  else if o = 0x10 then [(63, 0)]
  else if o = 0x18 then [(63, 32), (11, 0)]
  else if 0x20 ≤ o ∧ o < 0x40 then [(43, 34)]
  else if o = 0x40 then [(63, 12)]
  else if o = 0x48 then [(31, 0)]
  else if o = 0x50 then [(15, 8), (1, 0)]
  else if o = 0x60 then [(63, 0)]
  else []

/-- Defined fields of a word; an offset that no chapter defines has none (09, R200). -/
def definedLoc (l : Loc) : List (Nat × Nat) :=
  match l with
  | .tile _ o => definedTile o
  | .hearth _ o => definedHearth o
  | .dev o => definedDev o
  | .blw _ o => definedBlw o
  | .port _ o => definedPort o
  | .ctr _ o => definedCtr o
  | .queue _ o => definedQueue o
  | .hwork _ o => definedHwork o
  | .lgr o => definedLgr o
  | .plat o => definedPlat o
  | .fpage _ o => definedPage o
  | .rsvd | .gap => []

/-- Ones in the bits of fields. -/
def bitsOf (fs : List (Nat × Nat)) : BitVec 64 := fs.foldl (fun m f => m ||| ones 64 f.1 f.2) 0

/-- Reserved bits of a word, which software must write as zero (00, Table 00-5). -/
def rsvdBits (l : Loc) : BitVec 64 := ~~~(bitsOf (definedLoc l))

/-! ### Where a value written is kept -/

def put2 {n : Nat} (v : Vector Reg n) (i : Nat) (x : BitVec 64) : Vector Reg n :=
  vput (vput v i (x &&& 0xFFFFFFFF)) (i + 1) (x >>> 32)

/-- `px` says which PX fields of a word of ACC_SST the write covers: each becomes the tracked P at once (04, R93). -/
def storeTile (s : State) (t o : Nat) (v : BitVec 64) (px : BitVec 64) : State :=
  let anv := fun (f : Anvil → Anvil) => modTile s t (fun x => { x with anv := f x.anv })
  if o = 0x10 then anv (fun a => { a with flag := v })
  else if 0x80 ≤ o ∧ o < 0xC0 then anv (fun a => { a with bound := put2 a.bound ((o - 0x80) / 4) v })
  else if 0x100 ≤ o ∧ o < 0x300 then anv (fun a => { a with bkt := vput a.bkt ((o - 0x100) / 8) v })
  else if 0x480 ≤ o ∧ o < 0x580 then
    let n := (o - 0x480) / 4
    modTile s t (fun x =>
      let one := fun (y : Tile) (k : Nat) (w : Reg) => if k < geomN x then { y with acc := { y.acc with
          sst := vput y.acc.sst k (w &&& ~~~(ones 64 15 15))
          trackPX := if bit px (32 * (k - n) + 8) then vput y.acc.trackPX k (fld w 14 8) else y.acc.trackPX } }
        else y
      one (one x n (v &&& 0xFFFFFFFF)) (n + 1) (v >>> 32))
  else if o = 0x810 then modTile s t (fun x => { x with vec := { x.vec with flag := v } })
  else s

def storeBlw (s : State) (t o : Nat) (v : BitVec 64) : State :=
  if o = 0x28 then modBlw s t (fun b => { b with csBase := v })
  else if o = 0x30 then modBlw s t (fun b => { b with csLim := v })
  else if 0x8000 ≤ o then modBlw s t (fun b => { b with prog := if v = 0 then drop1 b.prog ((o - 0x8000) / 8) else put b.prog ((o - 0x8000) / 8) v })
  else s

def storeHearth (s : State) (h o : Nat) (v : BitVec 64) : State :=
  let mem := fun (f : HMem → HMem) => modHearth s h (fun x => { x with mem := f x.mem })
  let net := modNet s h
  let chk := modChk s h
  if 0x100 ≤ o ∧ o < 0x120 then mem (fun m => { m with vecSeed := vput m.vecSeed ((o - 0x100) / 8) v })
  else if o = 0x200 then mem (fun m => { m with kvcfg := v })
  else if o = 0x208 then mem (fun m => { m with kvrc := v })
  else if o = 0x210 then mem (fun m => { m with kvfree := v })
  else if o = 0x218 then mem (fun m => { m with kvfptr := v })
  else if o = 0x220 then mem (fun m => { m with kvrel := v })
  else if o = 0x228 then mem (fun m => { m with kvrptr := v })
  else if o = 0x308 then mem (fun m => { m with mtlOp := v })
  else if o = 0x310 then mem (fun m => { m with mtlOpadr := v })
  else if o = 0x318 then mem (fun m => { m with mtlOplen := v })
  else if o = 0x400 then mem (fun m => { m with sched := v })
  else if 0x440 ≤ o ∧ o < 0x480 then mem (fun m => { m with mcg := put2 m.mcg ((o - 0x440) / 4) v })
  else if o = 0x480 then mem (fun m => { m with actBase := v })
  else if o = 0x488 then mem (fun m => { m with actLim := v })
  else if o = 0x500 then net (fun n => { n with synCfg := v })
  else if 0x600 ≤ o ∧ o < 0x800 then
    (if o % 16 = 0 then net (fun n => { n with ws0 := vput n.ws0 ((o - 0x600) / 16) v })
    else net (fun n => { n with ws1 := vput n.ws1 ((o - 0x600) / 16) v }))
  else if o = 0xB00 then net (fun n => { n with colCfg := v })
  else if o = 0xB08 then net (fun n => { n with phBase := v })
  else if o = 0x1000 then net (fun n => { n with qchCfg := v })
  else if o = 0x1100 then chk (fun c => { c with chkCfg := v })
  else if o = 0x1108 then chk (fun c => { c with epochReq := v })
  else if o = 0x1118 then chk (fun c => { c with chkGrp0 := v })
  else if o = 0x1120 then chk (fun c => { c with chkGrp1 := v })
  else if 0x1128 ≤ o ∧ o < 0x1140 then chk (fun c => { c with peer := vput c.peer ((o - 0x1128) / 8) v })
  else s

def storePlat (s : State) (o : Nat) (v : BitVec 64) : State :=
  let rec' := fun (f : Records → Records) => { s with recs := f s.recs }
  if o = 0x100000 then rec' (fun r => { r with head := fld v 31 0 })
  else if o = 0x100010 then rec' (fun r => { r with sseed := v })
  else if o = 0x100018 then rec' (fun r => { r with sround := v })
  else if o = 0x100020 then rec' (fun r => { r with excl0 := v })
  else if o = 0x100028 then rec' (fun r => { r with excl1 := v })
  else if o = 0x180000 then { s with tmp := { s.tmp with qtmo := v.toNat } }
  else if o = 0x80018 then modPwr s (fun p => { p with cool := v })
  else s

def storePage (s : State) (f o : Nat) (v : BitVec 64) : State :=
  if o = 0 then modFn s f (fun x => { x with fn := v })
  else if o = 0x10 then modFn s f (fun x => { x with ering0 := v })
  else if o = 0x18 then modFn s f (fun x => { x with ering1 := v })
  else if 0x20 ≤ o ∧ o < 0x40 then modFn s f (fun x => { x with ap := vput x.ap ((o - 0x20) / 8) v })
  else if o = 0x40 then modFn s f (fun x => { x with mbx0 := v })
  else if o = 0x48 then modFn s f (fun x => { x with mbx1 := v })
  else s

/-- Keep the value of a word whose fields are stored. -/
def storeLoc (s : State) (l : Loc) (v : BitVec 64) (en : BitVec 64) : State :=
  match l with
  | .tile t o => storeTile s t o v en
  | .hearth h o => storeHearth s h o v
  | .dev o =>
    if 0x10200 ≤ o ∧ o < 0x10260 then { s with msys := { s.msys with stk := vput s.msys.stk ((o - 0x10200) / 8) v } }
    else if o = 0x30010 then { s with anchor0 := v }
    else if o = 0x30018 then { s with anchor1 := v }
    else s
  | .blw t o => storeBlw s t o v
  | .port p o => modPort s p (fun x => { x with ring0 := vput x.ring0 ((o - 0x1000) / 32) v })
  | .ctr c o => if o = 0x10 then modCtr s c (fun x => { x with rem := bit v 61 }) else s
  | .queue q o =>
    modQueue s q (fun w => if o = 0 then { w with cfg := v } else if o = 0x8 then { w with ring := v } else { w with cring := v })
  | .hwork h o => modChk s h (fun c => if o = 0 then { c with hcfg := v } else { c with salt := v })
  | .plat o => storePlat s o v
  | .fpage f o => storePage s f o v
  | _ => s

/-- Hearth whose Temper commit locks the RWL fields of a word (00, R11). -/
def locHearth (s : State) (l : Loc) : Option Nat :=
  match l with
  | .tile t _ | .blw t _ => tileHearth s t
  | .hearth h _ | .hwork h _ => some h
  | .queue q _ => queueHearth s q
  | _ => none
def lockedLoc (s : State) (l : Loc) : Bool :=
  match locHearth s l with
  | some h => (hearthAt s h).run.locked
  | none => false

/-- RW1C bits of a word that the device has set in the present cycle (00, R12). -/
def setNowOf (s : State) (l : Loc) : Nat :=
  match l with
  | .tile t o =>
    let x := tileAt s t
    if o = 0x10 then x.anv.flagNow.held s.cyc
    else if o = 0x810 then x.vec.flagNow.held s.cyc
    else if 0x480 ≤ o ∧ o < 0x580 then
      pair32 ((vget x.acc.sstNow ((o - 0x480) / 4) {}).held s.cyc) ((vget x.acc.sstNow ((o - 0x480) / 4 + 1) {}).held s.cyc)
    else 0
  | .dev o => if 0x10200 ≤ o ∧ o < 0x10260 then (vget s.msys.rcfNow ((o - 0x10200) / 8) {}).held s.cyc else 0
  | .hearth h o => if o = 0x308 then (hearthAt s h).mem.mtlNow.held s.cyc else 0
  | _ => 0

/-- The stored fields of `m` take the bits of v that lie in `en`; the other bits of the word stay, and RW1C bits
written as one clear, but for those that the device sets in the same cycle (00, R11, R12). A word whose read is computed
keeps its stored bits. -/
def writeFields (s : State) (l : Loc) (m : List (Nat × Nat)) (w1c : List (Nat × Nat)) (v en : BitVec 64) : State :=
  let old : BitVec 64 := BitVec.ofNat 64 (readLoc s l)
  let k := bitsOf m &&& en
  let c := bitsOf w1c &&& en &&& v &&& ~~~(BitVec.ofNat 64 (setNowOf s l))
  if k = 0 ∧ c = 0 then s else storeLoc s l ((old &&& ~~~k &&& ~~~c) ||| (v &&& k)) k

end Sys2Proof.Machine
end

