-- ==== Sys2Proof/Machine/Apply.lean ====
section
/-! DEFINITION. What a configuration sets, resets of single units, functions, and the effects of APPLY (09, R198,
R199; 17, R416 to R418, Table 17-12; 19, Table 19-7). -/

namespace Sys2Proof.Machine

/-! ### Fields that Temper sets -/

/-- `PART` byte of a tile. -/
def partByte (c : HearthCfg) (t : Nat) : Nat := c.h.part.getD t 0

/-- What Temper sets in a tile: none when it belongs to no hearth (17, Table 17-12). -/
def tileKey (c : Cfg) (t : Nat) : Option (Nat × List Nat) :=
  match (List.range 16).find? (fun h => (vget c.hearths h {}).h.present && bit (vget c.hearths h {}).h.tiles t) with
  | some h =>
    let x := vget c.hearths h {}
    some (h, [x.h.thr, x.h.srl, x.h.scl, x.h.sfmt, x.h.geoen, x.h.lend, partByte x t, x.j.dyn, x.j.oortrap, x.j.ctmo, x.j.level])
  | none => none

/-- The Temper-set fields of a tile, which a reset of it reapplies (03, 04, 06, 09, 10, 15). -/
def temperTile (s : State) (t : Nat) : State :=
  let own := tileHearth s t
  let s := modPwr s (fun p => { p with
    lentTiles := setBit p.lentTiles t false
    nextStep := vput p.nextStep t none
    clkTile := vput p.clkTile t (if own.isSome then 0x30 else 0x31) })
  match own with
  | none => s
  | some h =>
    let c := hsec s h
    modTile s t (fun x => { x with
      anv := { x.anv with cfg := BitVec.ofNat _ (c.j.dyn * 4 + b2n (decide (1 ≤ c.j.level)) * 2 + 1) }
      acc := { x.acc with cfg := BitVec.ofNat _ (c.j.ctmo * 512 + c.h.geoen * 256), geom := mkGeom c.h.srl c.h.scl c.h.sfmt }
      vec := { x.vec with cfg := BitVec.ofNat _ c.j.oortrap }
      blw := { x.blw with cfg := BitVec.ofNat _ (c.h.thr * 2 + 1) }
      misc := { x.misc with chkTcfg := BitVec.ofNat _ partFields, lend := c.h.lend } })
where
  /-- `CHK_TCFG` of the tile: `ROLE` from bits 7 (shadow) and 6 (working) of its `PART` byte. -/
  partFields : Nat :=
    match tileHearth s t with
    | some h => let b := partByte (hsec s h) t; (b / 128 % 2 * 2 + b / 64 % 2) * 64 + b % 32
    | none => 0

/-- The Temper-set fields of a hearth's registers (09 to 12, 14 to 16, 19). -/
def temperHearth (s : State) (h : Nat) : State :=
  let c := hsec s h
  modHearth s h (fun x => { x with
    mem := { x.mem with mtlShare := BitVec.ofNat 64 (c.h.lend * 2 ^ 28 + c.h.min1 * 2 ^ 12 + c.h.min0) }
    net := { x.net with
      synCfg := setFld (setFld x.net.synCfg 16 8 c.h.nblk) 7 0 c.h.cbase
      lnkWin := Vector.ofFn (fun n => Vector.ofFn (fun k => BitVec.ofNat 64 ((c.l.wins.getD n.val []).getD k.val 0)))
      lnkRate := BitVec.ofNat 64 (c.l.incmax * 2 ^ 32 + c.l.bytemax)
      qchCfg := setFld (setFld x.net.qchCfg 10 2 c.j.ngrp) 0 0 c.j.qchen }
    chk := { x.chk with
      chkCfg := setFld (setFld (setFld x.chk.chkCfg 35 30 c.l.ivl) 29 24 c.l.defer) 1 0 c.j.level
      hcfg := setFld x.chk.hcfg 51 48 c.h.svc
      pwr1 := setFld (setFld x.chk.pwr1 3 2 c.l.clkmin) 1 0 c.l.clkmax } })

/-- The JOB entry that assigns a queue, with its hearth. -/
def queueEntry (c : Cfg) (q : Nat) : Option (Nat × QEntry) :=
  match (List.range 16).find? (fun h => (vget c.hearths h {}).h.present && bit (vget c.hearths h {}).h.queues q) with
  | some h => ((vget c.hearths h {}).j.qs.find? (fun e => e.queue == q)).map (fun e => (h, e))
  | none => none

/-- `LGR_QCFG` of an assigned queue; a queue without a JOB entry is not assigned. -/
def temperQueue (s : State) (q : Nat) : State :=
  modQueue s q (fun w => { w with cfg := match queueEntry s.tmp.cur q with
    | some (h, e) => setFld (setFld (setFld (setFld (setFld w.cfg 63 40 e.prod) 39 21 e.lbase) 20 17 e.logn) 16 13 h) 0 0 1
    | none => 0x80000 })

/-- Mantel tiles lent in a half: tile t of the half lends numbers 256 t on, 16 for each MiB; 99 marks a number
that no tile lends (09, R199). -/
def lentList (s : State) (half : Nat) : List Nat :=
  let ts := (List.range 16).map (fun k => 16 * half + k)
  let lends := fun t => match tileHearth s t with
    | some h => (h, 16 * (hsec s h).h.lend)
    | none => (99, 0)
  if ts.all (fun t => (lends t).2 == 0) then []
  else ts.flatMap (fun t => List.replicate (lends t).2 (lends t).1 ++ List.replicate (256 - (lends t).2) 99)

/-- The lent tiles of a pool become those of the configuration; a tile no longer lent is written back and leaves
(17, Table 17-12). -/
def temperPool (s : State) (half : Nat) : State :=
  let new := lentList s half
  let old := (poolAt s half).lent
  let out := fun (m : MTile) => decide (2048 ≤ m.idx) && decide (new.getD (m.idx - 2048) 99 ≠ old.getD (m.idx - 2048) 99)
  let s := forEach ((poolAt s half).tiles.filter out) s (fun m s => mtlStat s (some m.owner) 1 63 32 (dirtyCount m))
  let s := forEach ((poolAt s half).tiles.filter out) s dropFill
  let s := modPool s half (fun x => { x with lent := new, tiles := x.tiles.filter (fun m => !out m) })
  { s with msys := { s.msys with cfg := vput s.msys.cfg half (BitVec.ofNat _ (2048 + (new.filter (fun h => h != 99)).length)) } }

/-- `DPM_RGN` of a pair (09, R202, Table 09-8): a pair that no hearth owns keeps its mode. -/
def temperPair (s : State) (p : Nat) : State :=
  let o0 := regionHearth s (2 * p)
  let o1 := regionHearth s (2 * p + 1)
  let own := fun (o : Option Nat) => match o with | some h => 16 + h | none => 0
  let m := match o0, o1 with
    | some h, _ => b2n (hsec s h).h.hash
    | none, some h => b2n (hsec s h).h.hash
    | none, none => b2n (isSplit s (2 * p))
  { s with msys := { s.msys with rgn := vput s.msys.rgn p (BitVec.ofNat _ (m * 2 ^ 11 + own o1 * 2 ^ 6 + own o0 * 2)) } }

/-- A PCIe function is enabled (20, R464): the physical function while the link is up, a virtual one while VF
Enable is set and it is advertised. -/
def fnEnabled (s : State) (f : Nat) : Bool :=
  decide (fld s.hif.link 1 0 = 2) && (decide (f = 0) || (s.hif.vfEn && decide (f ≤ s.tmp.cur.dev.nvf)))
/-- `HIF_FN` fields `HEARTH`, `HV` and `EN` of every function. -/
def temperFns (s : State) : State :=
  forEach (List.range 17) s (fun f s => modFn s f (fun x =>
    let h := fnHearth s f
    { x with fn := setFld (setFld (setFld x.fn 47 44 (h.getD 0)) 43 43 (b2n h.isSome)) 0 0 (b2n (fnEnabled s f)) }))

/-- Device registers that follow the configuration. -/
def temperDevice (s : State) : State :=
  let s := forEach (List.range 32) s (fun p s => temperPair s p)
  let s := temperPool (temperPool s 0) 1
  let s := forEach (List.range 12) s (fun k s => modStk s k (fun r => setFld r 23 20 (stackFloor s k)))
  let s := modPwr s (fun p => { p with dev := setFld p.dev 15 0 s.tmp.cur.dev.pcap })
  temperFns s

/-- `LNK_TOPO`, `LNK_DTR` and the ports' `LNK_CFG` (12, Tables 12-13, 12-17, 12-18). -/
def temperLink (s : State) : State :=
  let c := s.tmp.cur.link
  let s := { s with lnk := { s.lnk with
    topo := BitVec.ofNat 64 (c.mode * 2 ^ 63 + c.etmo * 2 ^ 52 + c.dev % 2 ^ 20 * 2 ^ 32 + c.size % 2 ^ 20 * 2 ^ 12)
    dtr := Vector.ofFn (fun p => BitVec.ofNat _ (c.dtr.getD p.val 0 &&& 0x8F)) } }
  forEach (List.range 12) s (fun p s => match c.ports[p]? with
    | some (role, media, ctmo, rtmo) => modPort s p (fun x => { x with cfg := BitVec.ofNat _ (role * 2 ^ 14 + media * 2 ^ 12 + ctmo * 2 ^ 6 + rtmo) })
    | none => s)

/-- Word and bits of the register that a REGS entry names (17, Table 17-9); the act-row counts `BLW_MCG` are
32-bit registers in pairs. -/
def regEntry (a : Nat) : Loc × Nat × BitVec 64 :=
  let o := a - ctlBase
  let l := locOf (o / 8 * 8)
  let half := match l with | .hearth _ k => decide (0x440 ≤ k) && decide (k < 0x480) | _ => false
  if a % 8 = 4 then (l, 2 ^ 32, ones 64 63 32) else (l, 1, if half then ones 64 31 0 else ones 64 63 0)

/-- The REGS values of a hearth are written in list order (17, R416). -/
def temperRegs (s : State) (h : Nat) : State :=
  forEach (hsec s h).regs s (fun e s =>
    let (l, sc, en) := regEntry e.1
    writeFields s l (maskLoc l).rwl [] (BitVec.ofNat 64 (e.2 * sc)) en)

/-! ### Resets of units -/

/-- A tile after its reset, which still holds what requests in flight keep. A warm one preserves `CHK_TSTAT` and `CHK_SPK`
with what they time (10, R226; 15). -/
def freshTile (x : Tile) (warm : Bool) : Tile :=
  let b := x.blw
  let kept : Bellows := if b.draining.isSome then
      { prog := b.prog, threads := b.threads, turns := b.turns, draining := b.draining, reqs := b.reqs, nextGrp := b.nextGrp }
    else {}
  if warm then { blw := kept
                 misc := { chkTstat := x.misc.chkTstat, chkSpk0 := x.misc.chkSpk0, chkSpk1 := x.misc.chkSpk1,
                           spkLast := x.misc.spkLast, spkDue := x.misc.spkDue, spkOver := x.misc.spkOver } }
  else { blw := kept }

/-- Accesses of an agent that wait at the mantel end. -/
def dropAccesses (s : State) (p : MAccess → Bool) : State :=
  forEach (List.range 2) s (fun i s => modPool s i (fun x => { x with waiting := x.waiting.filter (fun m => !p m) }))

/-- A tile is reset: its phase window ends, its requests commit, its counters lose their owner, its scratch and accumulator
memory are zero, and it takes its Temper-set fields again (09, R198; 04, R96; 06, R156; 10, R226; 11, R264, R278; 13,
R331). -/
def resetTile (s : State) (t : Nat) (warm : Bool) : State :=
  let s := endTilePhase s t
  let s := quiesce s (Fin.ofNat 32 t) warm
  let s := ownerGone s (0x100000 + t)
  let s := dropAccesses s (fun m => m.agent.code == 0x100000 + t && !m.wr)
  let s := modTile s t (fun x => freshTile x warm)
  let s := if (tileAt s t).blw.draining.isSome then s else zeroRange s (winBase t) 0x2000000
  temperTile s t

/-- Items whose service a Hob core ran when it is reset (16, Table 16-9). -/
def hobItems (s : State) (c : Nat) : State :=
  forEach (List.range 16) s (fun h s =>
    if hOn s h ∧ (hsec s h).h.svc = c then
      forEach (setBits (hsec s h).h.queues) s (fun q s =>
        forEach ((queueAt s q).items.filter isRunning) s (fun i s =>
          let qid : QueueId := ⟨q % 256, Nat.mod_lt _ (by decide)⟩
          let s := endItemWindow (stopItem s qid i) q h i
          if Wd.rst i.desc then modItem s q i.seq (fun i => { i with
            st := .pending, restarts := min 255 (i.restarts + 1), left := 0, copied := 0, closed := false })
          else
            let s := modItem s q i.seq (fun i => { i with st := .ended 2 5, esq := some s.recs.seq })
            raise s gLOG lgINTERRUPTED 0 (some h) (0x200000 + c) i.seq))
    else s)

/-- A Hob core is reset: its counters lose their owner, its lines leave the mantel's books, and it loads the active
image from the Stoker (11, R264; 18, Table 18-6). -/
def resetHob (s : State) (c : Nat) : State :=
  let s := ownerGone s (0x200000 + c)
  let s := dropAccesses s (fun m => m.agent.code == 0x200000 + c)
  let s := forEach (List.range 2) s (fun p s => modPool s p (fun x => { x with tiles := x.tiles.map (fun m => { m with
    hobs := m.hobs.filterMap (fun e => let k := e.2 &&& ~~~(1#16 <<< c); if k = 0 then none else some (e.1, k)) }) }))
  { s with hobs := vput s.hobs c { run := decide (fnSt s (32 + c) = fON) }
           stk := { s.stk with stat := setBit s.stk.stat (32 + c) false } }

/-- Deep memory of a region is zero and unpoisoned, and its mantel tiles are free without write-back (17, Table 17-12;
09, R220). -/
def zeroRegion (s : State) (r : Nat) : State :=
  let s := dropAccesses s (fun m => decide (m.addr < deepTop) && decide (regionOf m.addr = r))
  let s := forEach (List.range 2) s (fun p s => modPool s p (fun x => { x with
    tiles := x.tiles.filter (fun m => decide (regionOf (m.block * 65536) ≠ r)) }))
  zeroRange s (r * 0x600000000) 0x600000000

/-- Regions that pass to another hearth or change their mode between two states (09, R202). -/
def movedRegions (old new : State) : List Nat :=
  (List.range 64).filter (fun r => decide (regionHearth old r ≠ regionHearth new r) ||
    decide (isSplit (temperPair new (r / 2)) r ≠ isSplit old r))
/-- Regions and counters that have passed to another hearth, or whose mode has changed, are cleared (09, R202; 11, R250). -/
def clearMoved (old s : State) : State :=
  let s := forEach (movedRegions old s) s (fun r s => zeroRegion s r)
  { s with counters := s.counters.filter (fun e => (ctrHearth s e.1).isNone || ctrHearth s e.1 == ctrHearth old e.1)
           claims := s.claims.filter (fun e => ctrHearth s e.1 == ctrHearth old e.1) }

/-! ### Functions (19, Tables 19-6 and 19-7) -/

/-- What the start of a function does. -/
def startWork (s : State) (f : Nat) : State :=
  if f < 32 then resetTile s f true
  else if f < 48 then resetHob s (f - 32)
  else if f < 60 then portEnable s (f - 48)
  else if f = 72 then { s with hif := { s.hif with link := setFld s.hif.link 1 0 1 } }
  else s
/-- An enable reaches a function. -/
def startFn (s : State) (f : Nat) : State :=
  let st := fnSt s f
  let s := enableFn s f
  if st ≠ fSTARTING ∧ fnSt s f = fSTARTING then startWork s f else s

/-! ### APPLY -/

/-- The configuration moves from `old` to `new`: effects of Table 17-12 in the order of R416. `lnk` when the image
carries a LINK section. -/
def applyCfg (s : State) (old new : Cfg) (lnk : Bool) : State :=
  let tiles := (List.range 32).filter (fun t => tileKey old t ≠ tileKey new t)
  let s := forEach tiles s (fun t s => quiesce (endTilePhase s t) (Fin.ofNat 32 t) true)
  let s0 := s
  let was := fun (c : Cfg) => ({ s0 with tmp := { s0.tmp with cur := c } } : State)
  let sOld := was old
  let s := was new
  let hs := (List.range 16).filter (fun h => vget old.hearths h {} ≠ vget new.hearths h {})
  -- ALLOW
  let allow := decide (old.dev.ranges ≠ new.dev.ranges ∨ old.dev.revs ≠ new.dev.revs ∨ old.dev.topoid ≠ new.dev.topoid ∨ old.dev.tkey ≠ new.dev.tkey)
  let s := if allow then
      let s := forEach (s.lnk.sessions.map (fun x => x.dev.toNat)) s (fun d s => if admitted s d then s else endSession s d)
      forEach (List.range 12) s (fun p s => if portState s p = pREJECTED then setPort s p pTRAINING else s)
    else s
  -- LINK
  let s := if lnk then
      let s := temperLink s
      let s := forEach (List.range 12) s (fun p s => if portState s p = pREJECTED then setPort s p pTRAINING else s)
      forEach (List.range 12) s (fun p s => if portRole s p ≠ 0 ∧ !bit s.recs.excl1 p then portEnable (startFn s (48 + p)) p else s)
    else s
  -- HEARTH
  let s := temperDevice (clearMoved sOld s)
  let s := forEach tiles s (fun t s =>
    let s := resetTile s t true
    setFn s t (if (tileHearth s t).isNone then fOFF else if fnSt s t = fFAILED then fFAILED else fON))
  let s := forEach (List.range 16) s (fun c s => if hobHearth sOld c = hobHearth s c then s else resetHob s c)
  let s := forEach (List.range 256) s (fun q s =>
    let key := fun (c : Cfg) => (queueEntry c q).map (fun e => (e.1, e.2.lbase, e.2.logn))
    if key old = key new then temperQueue s q
    else
      let s := temperQueue (modQueue s q (fun _ => {})) q
      match queueEntry new q with
      | some (_, e) =>
        let s := modLgr s (fun l => { l with bytes := zeroMem l.bytes (128 * e.lbase) (128 * 2 ^ e.logn) })
        if bit s.pwr.booted 11 ∧ storeReady s then setQ s q qOPEN 0 else s
      | none => s)
  -- LIMITS, JOB, REGS
  let s := forEach hs s (fun h s => temperRegs (modRun (temperHearth s h) h (fun r => { r with removed := false })) h)
  recompute s

end Sys2Proof.Machine
end

