-- ==== Sys2Proof/Machine/Resets.lean ====
section
/-! DEFINITION. Reset classes of hearths and of the device (00, R13; 09, R220, R221; 16, R392, Table 16-8; 17, R419;
19, R459). -/

namespace Sys2Proof.Machine

/-! ### The image in progress (17, R414, R419) -/

/-- Units that the Temper engine quiesced itself are released: RESUME to its hearths, its ports enabled again. -/
def releaseUnits (s : State) : State :=
  let t := s.tmp
  let s := { s with tmp := { t with preempted := [], ports := [] } }
  let s := forEach t.preempted s (fun h s => resumeHearth s h)
  forEach t.ports s (fun p s => portEnable (startFn s (48 + p)) p)

/-- The mailbox of the function that submitted the image learns the outcome (20, R471). -/
def mbxOutcome (s : State) (code : Nat) : State :=
  match s.tmp.mbx with
  | some f => modFn { s with tmp := { s.tmp with mbx := none } } f (fun x => { x with
      mbx2 := BitVec.ofNat _ (code * 256) })
  | none => s

/-- The configuration with the durable content of a scope: 0 all, 1 hearth h, 2 device and links. Committed serials
stay. -/
def durableOf (s : State) (scope h : Nat) : Cfg :=
  let c := s.tmp.cur
  let d := s.tmp.durable
  if scope = 1 then { c with hearths := vput c.hearths h (vget d.hearths h {}) }
  else if scope = 2 then { c with dev := d.dev, link := d.link }
  else { d with serDev := c.serDev, ser := c.ser }

/-- The image in progress is discarded; what it had applied returns to the committed images. -/
def dropImage (s : State) : State :=
  let t := s.tmp
  if t.st = .idle then s
  else
    let s := mbxOutcome s 0
    let s := { s with tmp := { s.tmp with st := .idle, image := [], next := none, boot := false } }
    let s := if t.st = .staged ∨ t.st = .committing then
        let c := durableOf s t.scope t.hearth
        applyCfg s s.tmp.cur c (decide (t.scope ≠ 1))
      else s
    releaseUnits s

/-- The image in progress concerns hearth h. -/
def imageOf (s : State) (h : Nat) : Bool :=
  decide (s.tmp.st ≠ .idle) && (decide (s.tmp.scope = 0) || (decide (s.tmp.scope = 1) && decide (s.tmp.hearth = h)))

/-! ### Hearth resets (16, Table 16-8) -/

/-- A hearth's registers after a reset; a warm one preserves what each chapter names. -/
def freshHearth (x : Hearth) (warm : Bool) : Hearth :=
  if warm then
    { mem := { vecSeed := x.mem.vecSeed, kvfptr := x.mem.kvfptr, kvrptr := x.mem.kvrptr, kvcnt := x.mem.kvcnt,
               mtlStat0 := x.mem.mtlStat0, mtlStat1 := x.mem.mtlStat1, brch := x.mem.brch, held := x.mem.held, actUsed := x.mem.actUsed, kvLocks := x.mem.kvLocks }
      net := { issued := x.net.issued, done := x.net.done, loc := x.net.loc, out := x.net.out, rxacc := x.net.rxacc,
               rxapp := x.net.rxapp, pend := x.net.pend, rxcnt := x.net.rxcnt, lnkRateCnt := x.net.lnkRateCnt,
               grp0 := x.net.grp0, grp1 := x.net.grp1, phPtr := x.net.phPtr, qchGen := x.net.qchGen,
               qchStat0 := x.net.qchStat0, qchStat1 := x.net.qchStat1 }
      chk := { epoch := x.chk.epoch, epochReq := x.chk.epochReq, ectl := x.chk.ectl, hstat := x.chk.hstat }
      run := { epochHigh := x.run.epochHigh, retracted := x.run.retracted, board := x.run.board, nctrRead := x.run.nctrRead,
               confirmedFc := x.run.confirmedFc, removed := x.run.removed, epochBad := x.run.epochBad, dseq := x.run.dseq,
               notices := x.run.notices.map (fun n => { n with sent := false }) } }
  else { run := { removed := x.run.removed } }

/-- A reset is counted in the device header of the ledger, with its class (16, R384, Table 16-17). -/
def countReset (s : State) (cls : Nat) : State :=
  modLgr s (fun l => { l with dev := setFld (if cls % 2 = 0 then bumpSat l.dev 39 16 1 else bumpSat l.dev 63 40 1) 11 8 cls })

/-- A queue waits for the recovery of R393 after a reset of a class: its items live on in the ledger. A warm reset
writes the queue header (16, R384). -/
def queueReset (s : State) (q cls st : Nat) : State :=
  let ready := storeReady s
  modQueue s q (fun w =>
    { cfg := setFld w.cfg 12 2 0, stat := BitVec.ofNat _ (if qEn w then st else 0),
      hdrRet := if cls % 2 = 0 ∧ ready then w.ret.toNat else w.hdrRet,
      hdrSince := if cls % 2 = 0 ∧ ready then 0 else w.hdrSince, rclass := cls,
      kept := w.items.map (fun i => (i.seq, i.restarts)) ++ w.kept })

/-- Requests to other devices that a hearth's services, engines and check unit wait for are given up. Its increments stay in
flight (11, R270): those of a cold reset are no longer in its books, which start anew (11, R273). -/
def dropHearthSends (s : State) (h : Nat) (warm : Bool) : State :=
  let keep := fun (e : SendEntry) => match e.use with
    | .item q _ => queueHearth s q.val != some h
    | .coll _ k => k.val != h
    | .refetch k _ => k.val != h
    | .notice k _ => k.val != h || e.frame.ftype == fINC
    | _ => true
  let book := fun (e : SendEntry) => match e.use with
    | .notice k _ => if k.val = h then { e with use := .inc k (b2n warm) } else e
    | .inc k n => if k.val = h then { e with use := .inc k (if warm then n else 0) } else e
    | _ => e
  { s with lnk := { s.lnk with send := (s.lnk.send.filter keep).map book, waiting := (s.lnk.waiting.filter keep).map book } }

/-- Increments on their way, and those pending, leave the books of a hearth that a cold reset clears (11, R273). -/
def leaveBooks (s : State) (h : Nat) : State :=
  { s with
    flights := s.flights.map (fun f => if f.hearth.any (·.val == h) then { f with hearth := none } else f)
    lnk := { s.lnk with sessions := s.lnk.sessions.map (fun x => { x with rx := x.rx.map (fun c =>
      { c with pend := c.pend.map (fun i => if i.book = some h then { i with book := none } else i) }) }) } }

/-- Every open window of a hearth ends, in ascending agent code: those of its tiles, of its items, and of the collective
descriptors that run or whose increment is on its way (13, R331). -/
def endWindows (s : State) (h : Nat) : State :=
  let s := forEach (hTiles s h) s (fun t s => endTilePhase s t)
  let s := forEach ((List.range 256).filter (fun q => queueHearth s q = some h)) s (fun q s =>
    forEach (queueAt s q).items s (fun i s => endItemWindow s q h i))
  let of := fun (f : Flight) => f.hearth.any (·.val == h)
  let fs := s.flights.filter of
  let s := { s with flights := s.flights.map (fun f => if of f then { f with phase := none } else f) }
  forEach (List.range 12) s (fun p s =>
    let s := forEach fs s (fun f s => match f.phase with
      | some (start, tag, agent) => if agent = portAgent p then phaseEntry s h start tag agent 1 else s
      | none => s)
    dropActive s p h)

/-- A hearth warm or cold reset. -/
def hearthReset (s : State) (h : Nat) (warm : Bool) : State :=
  if !hOn s h then s
  else
    let s := if imageOf s h then dropImage s else s
    let c := durableOf s 1 h
    let s := if vget c.hearths h {} = hsec s h then s else applyCfg s s.tmp.cur c false
    let s := endWindows s h
    let s := forEach (List.range 12) s (fun p s => quenchStop s p h)
    let s := dropHearthSends s h warm
    let s := if warm then s else leaveBooks s h
    let s := forEach (hTiles s h) s (fun t s => resetTile s t warm)
    let s := forEach (hHobs s h) s (fun c s => resetHob s c)
    let s := hearthOwnersGone s h
    let s := modHearth s h (fun x => freshHearth x warm)
    let s := forEach (List.range 12) s (fun p s => modPort s p (fun x => { x with ring2 := vput x.ring2 h 0 }))
    let s := if warm then s
      else
        let s := forEach (setBits (hsec s h).h.regions) s (fun r s => zeroRegion s r)
        forEach (List.range 12) s (fun p s => modPort s p (fun x => { x with ring0 := vput x.ring0 h 6, ring1 := vput x.ring1 h 0 }))
    let s := forEach (setBits (hsec s h).h.queues) s (fun q s => queueReset s q (if warm then 0 else 1) qRECOVERING)
    let s := temperRegs (temperHearth s h) h
    let s := countReset (modRun s h (fun r => { r with locked := true })) (if warm then 0 else 1)
    recompute s

/-! ### Device resets -/

/-- Preserved fields of a port: its counters, its rings of collective descriptors without their fault words, the test counts
of its quench unit (12; 13, R333; 15, R371). -/
def freshPort (x : Port) : Port :=
  { fec := x.fec, retry := x.retry, rx0 := x.rx0, rx1 := x.rx1, ring0 := x.ring0, ring1 := x.ring1,
    trainSeen := x.trainSeen, tested := x.tested, testFails := x.testFails }

/-- Function states after a warm reset: boot starts them again but for the host interface and the fabric, which its
steps do not repeat; `FAILS` stays (19, R459, R460). -/
def warmFn (f : Nat) (r : Reg) : Reg := if 72 ≤ f ∧ f ≠ 73 then r else r &&& 0xFFFF000000000000

/-- Records that the Stoker has not taken. -/
def recsLeft (s : State) : Nat := s.recs.ring.length + s.recs.overflow.length
/-- Before a reset empties the ring, the Stoker in service takes every record (01, R28; log 43). -/
def takeRecords (s : State) : State := forEach (List.range (recsLeft s)) s (fun _ s => recordForward s)

/-- Records after a warm reset: the ring is empty, `CHK_ERR`, `CHK_EXCL` and what the Stoker keeps stay (15). A record that was
not taken counts for CHK_LOST (01, R28; log 43). -/
def warmRecs (s : State) : Records :=
  let r := s.recs
  { seq := r.seq, supp := r.supp + recsLeft s, suppTotal := r.suppTotal, ovf := r.ovf, taken := fc s, excl0 := r.excl0, excl1 := r.excl1,
    tiles := r.tiles, ports := r.ports, stks := r.stks, hobs := r.hobs }

/-- Posted writes that wait at a pool are written. -/
def commitWaiting (s : State) : State :=
  forEach (List.range 2) s (fun p s => forEach ((poolAt s p).waiting.filter (·.wr)) s (fun m s => store s m.addr m.data m.poison))
/-- The pools are written back and emptied (09, R221): the poison of a fill goes with its tile. -/
def writePools (s : State) : State :=
  forEach (List.range 2) s (fun p s =>
    let s := forEach (poolAt s p).tiles s (fun m s => dropFill m (mtlStat s (some m.owner) 1 63 32 (dirtyCount m)))
    modPool s p (fun x => { x with tiles := [], waiting := [] }))
/-- What a warm reset of the device ends while its parts still work: windows, requests in flight, increments on their way,
sessions, owners (10, R226; 11, R268, R273, R278; 13, R331). -/
def endWork (s : State) : State :=
  let s := forEach (List.range 16) s (fun h s => endWindows s h)
  let s := forEach (List.range 32) s (fun t s => quiesce s (Fin.ofNat 32 t) false)
  let s := forEach s.flights { s with flights := [] } (fun f s =>
    let s := match f.hearth with
      | some h => bookDone s h.val f.amt false
      | none => s
    applyInc s f.ctr f.amt)
  let s := forEach (s.lnk.sessions.map (fun x => x.dev.toNat)) s (fun d s => endSession s d)
  let s := forEach s.lnk.waiting s (fun e s => entryFail s e)
  let s := forEach (s.counters.filterMap (fun e => if e.2.owner = 0 then none else some e.1)) s (fun c s => loseOwner s c)
  writePools (commitWaiting s)

/-- The hearths end, queues close, and the Stoker takes the records. -/
def endDevice (s : State) (cls : Nat) : State :=
  let s := mbxOutcome s 0
  let s := if cls = 2 then endWork s else s
  takeRecords (forEach (List.range 256) s (fun q s => modQueue (queueReset s q cls qCLOSED) q (fun w => { w with cfg := 0x80000 })))

/-- What passes to another hearth or mode when the durable configuration stands again is cleared (09, R202; 11, R250). -/
def clearDurable (s : State) : State :=
  let n := clearMoved s { s with tmp := { s.tmp with cur := { s.tmp.durable with serDev := s.tmp.cur.serDev } } }
  { n with tmp := s.tmp }

/-- DEVICE_WARM_RESET (09, R221; 19, R459): deep memory and what each chapter preserves stay; the write-back goes on
until boot starts again. -/
def deviceWarm (s : State) : State :=
  if s.pwr.off ∨ !bit s.pwr.booted 3 then s
  else
    let s := clearDurable (endDevice s 2)
    let s := zeroRange s scrWin (32 * 0x2000000)
    temperFns { s with
      tiles := s.tiles.map (fun x => freshTile x true)
      hearths := s.hearths.map (fun x => freshHearth x true)
      ports := s.ports.map freshPort
      hobs := Vector.replicate 16 {}
      lnk := { ended := s.lnk.ended }
      claims := []
      tmp := { rejects := s.tmp.rejects, durable := s.tmp.durable, cur := { serDev := s.tmp.cur.serDev, ser := s.tmp.cur.ser } }
      lgr := { bytes := s.lgr.bytes, accepted := s.lgr.accepted, dev := s.lgr.dev &&& 0xFFFFFFFFFFFFFF00 }
      msys := { stk := s.msys.stk.map (fun r => (r &&& 0xFFFF000000000000) ||| 0x8000000), ecc0 := s.msys.ecc0, ecc1 := s.msys.ecc1,
                rgn := s.msys.rgn.map (fun r => r &&& 0x800), recal := s.msys.recal }
      recs := warmRecs s
      pwr := { clkStat := s.pwr.clkStat, volts := s.pwr.volts, cool := s.pwr.cool, rails := s.pwr.rails,
               fn := s.pwr.fn.mapIdx (fun f r => warmFn f r), booted := 0x18E, bootWarm := true, warming := some (fc s),
               emerg := s.pwr.emerg, sagged := s.pwr.sagged }
      hif := { s.hif with fns := s.hif.fns.map (fun x => { stat := x.stat, d3 := x.d3, msix := x.msix }) } }

/-- What a cold reset and a power-down leave: every volatile field at its reset value; the Stoker's state, the ledger
store and the durable images stay. -/
def coldState (s : State) : State :=
  let s := calRebase (endDevice s 3)
  { State.reset with
    pending := s.pending
    queues := s.queues
    tmp := { durable := s.tmp.durable }
    lgr := { bytes := s.lgr.bytes, accepted := s.lgr.accepted, dev := s.lgr.dev &&& 0xFFFFFFFFFFFFFF00 }
    stk := { s.stk with dbg := if bit s.stk.dbg 1 then s.stk.dbg else setBit s.stk.dbg 0 false }
    recs := { tiles := s.recs.tiles, ports := s.recs.ports, stks := s.recs.stks, hobs := s.recs.hobs
              supp := recsLeft s, excl0 := exclBits (fun k => (vget s.recs.tiles k {}).cls) 32 ||| (exclBits (fun k => (vget s.recs.hobs k {}).cls) 16 <<< 48)
              excl1 := exclBits (fun k => (vget s.recs.ports k {}).cls) 12 ||| (exclBits (fun k => (vget s.recs.stks k {}).cls) 12 <<< 12) }
    pwr := { cool := s.pwr.cool, volts := s.pwr.volts, rails := s.pwr.rails, lostInput := s.pwr.lostInput }
    out := s.out
    fresh := s.fresh }
where
  /-- Bits of the PERMANENT units: the Stoker keeps their class (15, R371, R372). -/
  exclBits (c : Nat → UClass) (n : Nat) : Reg :=
    (List.range n).foldl (fun r k => if c k = .permanent then setBit r k true else r) 0

/-- DEVICE_COLD_RESET (09, R220; 16, Table 16-8). -/
def deviceCold (s : State) : State := countReset (coldState s) 3

/-- WARM_RESET_FALLBACK (09, R221; 19, R459): boot goes on from step 4, with rails and clocks up. -/
def warmFallback (s : State) : State :=
  match s.pwr.warming with
  | some f =>
    if f + 2 ^ 20 ≤ fc s then
      let p := s.pwr
      let s := deviceCold s
      { s with pwr := { s.pwr with clkStat := p.clkStat &&& 0x3, booted := 0xE, fn := p.fn.mapIdx (fun f r => if 74 ≤ f then setFld r 63 48 0 else 0) } }
    else s
  | none => s

/-- The device is powered down, every rail off but VSB (19, R449); it stays so until RESET_DEVICE. -/
def powerDown (s : State) : State :=
  let s := coldState s
  { s with pwr := { s.pwr with rails := 1, off := true } }

/-- DEVICE_WARM_RESET. -/
def execDeviceWarmReset (s : State) : Out := .next (deviceWarm s)
/-- DEVICE_COLD_RESET. -/
def execDeviceColdReset (s : State) : Out := .next (deviceCold s)
/-- WARM_RESET_FALLBACK. -/
def execWarmResetFallback (s : State) : Out := .next (warmFallback s)
/-- HEARTH_WARM_RESET. -/
def execHearthWarmReset (h : HearthId) (s : State) : Out := .next (hearthReset s h.val true)
/-- HEARTH_COLD_RESET. -/
def execHearthColdReset (h : HearthId) (s : State) : Out := .next (hearthReset s h.val false)

end Sys2Proof.Machine
end

