-- ==== Sys2Proof/Machine/Temper.lean ====
section
/-! DEFINITION. The Temper engine: the layout of an image, its checks in order, quiescing, commit (17). -/

namespace Sys2Proof.Machine

/-! ### Codes (17, Table 17-16) -/

def tFORMAT : Nat := 1
def tVERSION : Nat := 2
def tSIG : Nat := 3
def tROLE : Nat := 4
def tSTALE : Nat := 5
def tTARGET : Nat := 6
def tCONFLICT : Nat := 7
def tLIMIT : Nat := 8
def tBUSY : Nat := 9
def tQUIESCE : Nat := 0xA
def tCOUNTER : Nat := 0xB
def tREG : Nat := 0xC
def tSTORE : Nat := 0xD
def tCOMMIT : Nat := 0xE

/-! ### Layout (17, R406 to R408, Tables 17-1 and 17-2) -/

/-- Fields of the image header. -/
def iScope (b : List Byte) : Nat := leAt b 8 1
def iHearth (b : List Byte) : Nat := leAt b 9 1 % 16
def iStage (b : List Byte) : Bool := leAt b 10 1 % 2 == 1
def iNsect (b : List Byte) : Nat := leAt b 12 4
def iLength (b : List Byte) : Nat := leAt b 16 4
def iTdev (b : List Byte) : Nat := leAt b 20 4 % 2 ^ 20
def iTopoid (b : List Byte) : Nat := leAt b 24 8
def iSerial (b : List Byte) : Nat := leAt b 32 8

/-- A section: its 32-byte header, payload and signature field, and its index. -/
structure Sect where
  idx : Nat
  hdr : List Byte
  payload : List Byte
  sig : List Byte
deriving DecidableEq, Repr

def Sect.typ (x : Sect) : Nat := leAt x.hdr 0 2
def Sect.sfl (x : Sect) : Nat := leAt x.hdr 2 1 % 4
def Sect.role (x : Sect) : Nat := leAt x.hdr 3 1
/-- Hearth of the section; none for a device section. -/
def Sect.hearth (x : Sect) : Option Nat := if leAt x.hdr 4 1 = 0xFF then none else some (leAt x.hdr 4 1 % 16)
def Sect.ver (x : Sect) : Nat := leAt x.hdr 5 1
def Sect.keyid (x : Sect) : Nat := leAt x.hdr 12 8

def sDEVICE : Nat := 1
def sALLOW : Nat := 2
def sLINK : Nat := 3
def sHEARTH : Nat := 0x10
def sLIMITS : Nat := 0x11
def sJOB : Nat := 0x12
def sREGS : Nat := 0x13

/-- The sections of an image after its header: none when the bytes do not hold them exactly. -/
def sections : Nat → Nat → List Byte → Option (List Sect)
  | 0, _, bs => if bs.isEmpty then some [] else none
  | n + 1, i, bs =>
    let len := leAt bs 8 4
    if bs.length < 32 + len + 3328 then none
    else
      let x : Sect := { idx := i, hdr := bs.take 32, payload := (bs.drop 32).take len, sig := (bs.drop (32 + len)).take 3309 }
      (sections n (i + 1) (bs.drop (32 + len + 3328))).map (fun l => x :: l)

/-- A level-1 device knows the section; others are skipped or rejected (17, R409). -/
def known (x : Sect) : Bool := decide (x.ver = 0) && decide (x.typ < 0x20)

def roundUp (n : Nat) : Nat := cdiv n 32 * 32
/-- Payload length that a known type must have. -/
def lenOk (x : Sect) : Bool :=
  let p := x.payload
  let n := p.length
  if x.typ = sDEVICE then n == 32
  else if x.typ = sALLOW then decide (1984 ≤ n) && n == roundUp (1984 + 8 * leAt p 8 2 + 32 * leAt p 10 2)
  else if x.typ = sLINK then n == 96
  else if x.typ = sHEARTH then n == 128
  else if x.typ = sLIMITS then decide (32 ≤ n) && n == 32 + 32 * leAt p 14 1
  else if x.typ = sJOB then decide (32 ≤ n) && n == roundUp (32 + 16 * leAt p 6 1)
  else true

/-- Section types reserved at level 1 (17, Table 17-3). -/
def rsvdType (t : Nat) : Bool := t == 0 || (decide (4 ≤ t) && decide (t < 0x10)) || (decide (0x14 ≤ t) && decide (t < 0x20))

/-- Order key of a section: type, then hearth. -/
def Sect.key (x : Sect) : Nat := x.typ * 256 + leAt x.hdr 4 1

/-- R406 and R408: the sections, or the index of the section at fault, if it is one. -/
def layout (b : List Byte) : Except (Option Nat) (List Sect) :=
  if b.length < 64 ∨ leAt b 0 4 ≠ 0x504D545A ∨ iNsect b = 0 ∨ 64 < iNsect b ∨ iLength b ≠ b.length ∨ 2 ^ 22 < b.length then .error none
  else match sections (iNsect b) 0 (b.drop 64) with
    | none => .error none
    | some l =>
      let bad := fun (x : Sect) =>
        rsvdType x.typ || decide (x.sfl = 0) || decide (x.sfl = 3) || decide (x.payload.length % 32 ≠ 0) || (known x && !lenOk x) ||
        l.any (fun y => decide (y.idx + 1 = x.idx) && decide (x.key ≤ y.key))
      match l.find? bad with
      | some x => .error (some x.idx)
      | none => .ok l

/-! ### Payloads (17, Tables 17-4 to 17-9) -/

def readDevice (c : DevCfg) (p : List Byte) : DevCfg := { c with pcap := leAt p 0 2, nvf := leAt p 2 1 }
def readAllow (c : DevCfg) (p : List Byte) : DevCfg :=
  let n := leAt p 8 2
  { c with topoid := leAt p 0 8, tkey := (p.drop 32).take 1952
           ranges := (List.range n).map (fun i => (leAt p (1984 + 8 * i) 4 % 2 ^ 20, leAt p (1988 + 8 * i) 4 % 2 ^ 20))
           revs := (List.range (leAt p 10 2)).map (fun i => leAt p (1984 + 8 * n + 32 * i) 32) }
def readLink (p : List Byte) : LinkCfg :=
  { mode := leAt p 0 1, dev := leAt p 1 3 % 2 ^ 20, size := leAt p 4 3 % 2 ^ 20, etmo := leAt p 7 1
    ports := (List.range 12).map (fun i => (leAt p (8 + 4 * i) 1, leAt p (9 + 4 * i) 1, leAt p (10 + 4 * i) 1, leAt p (11 + 4 * i) 1))
    dtr := (List.range 12).map (fun i => leAt p (56 + i) 1) }
def readHearthSec (p : List Byte) : HearthSec :=
  { present := true, tiles := BitVec.ofNat 32 (leAt p 0 4), hobs := BitVec.ofNat 16 (leAt p 4 2), svc := leAt p 6 1 % 16, vf := leAt p 7 1
    regions := BitVec.ofNat 64 (leAt p 8 8), hash := leAt p 16 1 % 2 == 1, lend := leAt p 17 1, thr := leAt p 18 1
    srl := leAt p 19 1 % 4, scl := leAt p 19 1 / 4 % 4, sfmt := leAt p 19 1 / 16 % 2, geoen := leAt p 19 1 / 32 % 2
    cbase := leAt p 20 1, nblk := leAt p 21 2, min0 := leAt p 23 2, min1 := leAt p 25 2
    queues := BitVec.ofNat 256 (leAt p 32 32), part := (List.range 32).map (fun i => leAt p (64 + i) 1 &&& 0xDF) }
def readLimits (p : List Byte) : LimitsSec :=
  { pbudget := leAt p 0 2, clkmin := leAt p 2 1, clkmax := leAt p 3 1, bwfloor := leAt p 4 1, lvlmax := leAt p 5 1, ivl := leAt p 6 1
    defer := leAt p 7 1, bytemax := leAt p 8 4, incmax := leAt p 12 2
    wins := (List.range (leAt p 14 1)).map (fun i => (List.range 4).map (fun k => leAt p (32 + 32 * i + 8 * k) 8)) }
def readJob (p : List Byte) : JobSec :=
  { level := leAt p 0 1, dyn := leAt p 1 1, oortrap := leAt p 2 1 % 2, qchen := leAt p 2 1 / 2 % 2, ngrp := leAt p 3 2, ctmo := leAt p 5 1
    qs := (List.range (leAt p 6 1)).map (fun i => { queue := leAt p (32 + 16 * i) 1, logn := leAt p (33 + 16 * i) 1,
                                                    prod := leAt p (34 + 16 * i) 3, lbase := leAt p (40 + 16 * i) 4 }) }
def readRegs (p : List Byte) : List (Nat × Nat) :=
  (List.range (p.length / 16)).map (fun i => (leAt p (16 * i) 8, leAt p (16 * i + 8) 8))

/-- The configuration with a section's content. -/
def addSect (c : Cfg) (x : Sect) : Cfg :=
  let hc := fun (f : HearthCfg → HearthCfg) => match x.hearth with
    | some h => { c with hearths := vmod c.hearths h f }
    | none => c
  if x.typ = sDEVICE then { c with dev := readDevice c.dev x.payload }
  else if x.typ = sALLOW then { c with dev := readAllow c.dev x.payload }
  else if x.typ = sLINK then { c with link := readLink x.payload }
  else if x.typ = sHEARTH then hc (fun h => { h with h := readHearthSec x.payload })
  else if x.typ = sLIMITS then hc (fun h => { h with l := readLimits x.payload })
  else if x.typ = sJOB then hc (fun h => { h with j := readJob x.payload })
  else if x.typ = sREGS then hc (fun h => { h with regs := readRegs x.payload })
  else c

/-- The configuration that an image leads to (17, R412): a FULL one replaces the whole. -/
def nextCfg (s : State) (b : List Byte) (l : List Sect) : Cfg :=
  let c := s.tmp.cur
  let base : Cfg := if iScope b = 0 then { serDev := c.serDev, ser := c.ser } else c
  (l.filter known).foldl addSect base

/-! ### Checks (17, R413, Table 17-10): each answers whether it fails, and the index of the section at fault if it is one -/

def hasType (l : List Sect) (t : Nat) : Bool := l.any (fun x => known x && x.typ == t)

/-- Version, level, generation, must-understand. -/
def checkVersion (b : List Byte) (l : List Sect) : Option (Option Nat) :=
  if leAt b 4 1 ≠ 1 ∨ 1 < leAt b 6 1 ∨ 1 < leAt b 7 1 % 16 ∨ leAt b 7 1 / 16 < 1 then some none
  else (l.find? (fun x => !known x && x.sfl == 1)).map (fun x => some x.idx)

/-- Target: scope, section kinds, device, topology. -/
def checkTarget (s : State) (b : List Byte) (l : List Sect) : Option (Option Nat) :=
  let isDev := fun (x : Sect) => decide (x.typ ≤ 3)
  let l := l.filter known
  let allow := l.find? (fun x => x.typ == sALLOW)
  let topo := match allow with
    | some x => leAt x.payload 0 8
    | none => s.tmp.cur.dev.topoid
  match l.find? (fun x => isDev x != x.hearth.isNone ||
      (iScope b == 1 && x.hearth != some (iHearth b)) || (iScope b == 2 && !isDev x)) with
  | some x => some (some x.idx)
  | none =>
    if 2 < iScope b then some none
    else if iScope b = 0 ∧ !(hasType l sDEVICE && hasType l sALLOW && hasType l sLINK) then some none
    else if iTdev b ≠ devNo s ∧ iTdev b ≠ 0xFFFFF then some none
    else if iTopoid b ≠ topo then some none
    else none

/-- Committed serial of the scope (17, R416). -/
def scopeSerial (s : State) (b : List Byte) : Nat :=
  if iScope b = 1 then vget s.tmp.cur.ser (iHearth b) 0 else s.tmp.cur.serDev

/-- The key is enrolled in the section's role (18, Table 18-2). -/
def keyInRole (s : State) (role keyid : Nat) : Bool :=
  if role = 1 then Config.makerKey keyid
  else if role = 2 then s.stk.keys.any (fun k => k.keyid == keyid && !k.operator)
  else if role = 3 then s.stk.keys.any (fun k => k.keyid == keyid && k.operator)
  else false

/-- Signed message of a section (17, R407). -/
def sectMsg (b : List Byte) (x : Sect) : List Byte := [0x5A, 0x54, 0x53, 0x31] ++ b.take 64 ++ x.hdr ++ x.payload

def checkSig (s : State) (b : List Byte) (l : List Sect) : Option (Option Nat) :=
  ((l.filter known).find? (fun x => !(keyInRole s x.role x.keyid && Config.sectionSig x.keyid (sectMsg b x) x.sig))).map (fun x => some x.idx)

/-- R411: the role that the type permits; an operator for a hearth of its mask. -/
def checkRole (s : State) (l : List Sect) : Option (Option Nat) :=
  ((l.filter known).find? (fun x =>
    let op := s.stk.keys.any (fun k => k.keyid == x.keyid && k.operator && (match x.hearth with | some h => bit k.mask h | none => false))
    !(x.role == 2 || (x.role == 3 && (x.typ == sJOB || x.typ == sREGS) && op)))).map (fun x => some x.idx)

def inRange (v lo hi : Nat) : Bool := decide (lo ≤ v) && decide (v ≤ hi)

/-- Highest `PCAP` for the input voltage (19, Table 19-3). -/
def pcapMax (s : State) : Nat := if vin s < 5100 then 2550 else 2600

/-- Fields of a section outside their ranges (17, Tables 17-4 to 17-9; 12, Tables 12-1 and 12-13). -/
def fieldBad (s : State) (boot : Bool) (x : Sect) : Bool :=
  let p := x.payload
  if x.typ = sDEVICE then
    let c := readDevice {} p
    decide (16 < c.nvf) || decide (pcapMax s < c.pcap) || (!boot && decide (c.nvf ≠ s.tmp.cur.dev.nvf))
  else if x.typ = sALLOW then decide (256 < leAt p 8 2) || decide (1024 < leAt p 10 2)
  else if x.typ = sLINK then
    let c := readLink p
    decide (1 < c.mode) || !inRange c.etmo 1 40 ||
    c.ports.any (fun e => decide (2 < e.1) || decide (2 < e.2.1) || !inRange e.2.2.1 1 40 || !inRange e.2.2.2 1 40) ||
    c.dtr.any (fun e => decide (128 ≤ e) && decide (12 ≤ e % 16))
  else if x.typ = sHEARTH then
    let c := readHearthSec p
    decide (16 < c.vf) || decide (16 < c.lend) || decide (2 < c.thr) || decide (256 < c.nblk) || decide (256 < c.cbase + c.nblk)
  else if x.typ = sLIMITS then
    let c := readLimits p
    decide (3 < c.clkmin) || decide (3 < c.clkmax) || !inRange c.bwfloor 2 8 || decide (2 < c.lvlmax) || !inRange c.ivl 30 50 ||
    !inRange c.defer 20 50 || decide (16 < c.wins.length)
  else if x.typ = sJOB then
    let c := readJob p
    decide (2 < c.level) || decide (2 < c.dyn) || !inRange c.ngrp 1 256 || !inRange c.ctmo 1 40 || c.qs.any (fun e => !inRange e.logn 4 10)
  else false

/-- Hearths of a configuration. -/
def cfgHearths (c : Cfg) : List (Nat × HearthCfg) :=
  (List.range 16).filterMap (fun h => if (vget c.hearths h {}).h.present then some (h, vget c.hearths h {}) else none)

/-- Bytes [a, a + n) lie in the regions or in the scratch windows of a hearth's tiles. -/
def winRange (x : HearthSec) (a n : Nat) : Bool :=
  match place a, place (a + n - 1) with
  | .deep u, .deep v => ((List.range (regionOf v + 1 - regionOf u)).map (· + regionOf u)).all (fun r => bit x.regions r)
  | .win t o, .win t' o' =>
    if t = t' then bit x.tiles t && (decide (o' < (24 - x.lend) * 0x100000) || decide (0x1800000 ≤ o) || x.lend == 0)
    else x.lend == 0 && ((List.range (t' + 1 - t)).map (· + t)).all (fun k => bit x.tiles k)
  | _, _ => false

/-- A window's range outside the hearth's memory, whether the window is enabled or not (12, R303). -/
def windowBad (x : HearthSec) (w : List Nat) : Bool :=
  let n := w.getD 2 0 % 2 ^ 44
  !(n == 0 || winRange x (w.getD 1 0 % 2 ^ 44) n)

/-- Ledger areas (16, R384): first record and size. -/
def ledgerAreas (c : Cfg) : List (Nat × Nat) :=
  (cfgHearths c).flatMap (fun e => e.2.j.qs.map (fun q => (q.lbase, 2 ^ q.logn)))
def areasBad (l : List (Nat × Nat)) : Bool :=
  l.any (fun a => decide (a.1 < 4096) || decide (a.1 % a.2 ≠ 0) || decide (524288 < a.1 + a.2)) ||
  (List.range l.length).any (fun i => (List.range i).any (fun j =>
    let a := l.getD i (0, 0)
    let b := l.getD j (0, 0)
    decide (a.1 < b.1 + b.2) && decide (b.1 < a.1 + a.2)))

/-- Limits of the whole configuration. -/
def cfgLimits (c : Cfg) : Bool :=
  let hs := cfgHearths c
  let need := fun (e : Nat × HearthCfg) => (setBits e.2.h.tiles).length * weOf e.2.l.clkmin
  let sum := fun (g : Nat × HearthCfg → Nat) => hs.foldl (fun a e => a + g e) 0
  hs.any (fun e => decide (e.2.l.lvlmax < e.2.j.level) || decide (e.2.l.clkmin < e.2.l.clkmax) || decide (10 * e.2.l.pbudget < need e) ||
    e.2.l.wins.any (windowBad e.2.h)) ||
  decide (c.dev.pcap < sum (fun e => e.2.l.pbudget)) || decide (10 * c.dev.pcap < sum need + 13940) ||
  decide (2048 < sum (fun e => e.2.h.min0)) || decide (2048 < sum (fun e => e.2.h.min1)) || areasBad (ledgerAreas c)

def checkLimit (s : State) (boot : Bool) (l : List Sect) (c : Cfg) : Option (Option Nat) :=
  match (l.filter known).find? (fieldBad s boot) with
  | some x => some (some x.idx)
  | none => if cfgLimits c then some none else none

/-- Two hearths hold the same unit. -/
def unitTwice (a b : HearthSec) : Bool :=
  (a.tiles &&& b.tiles) != 0 || (a.hobs &&& b.hobs) != 0 || (a.regions &&& b.regions) != 0 || (a.queues &&& b.queues) != 0 ||
  (a.vf != 0 && a.vf == b.vf) ||
  (a.nblk != 0 && b.nblk != 0 && decide (a.cbase < b.cbase + b.nblk) && decide (b.cbase < a.cbase + a.nblk))
/-- Two hearths that hash differently own the two regions of a pair (09, R202). -/
def hashDiffers (a b : HearthSec) : Bool :=
  a.hash != b.hash && (List.range 32).any (fun p =>
    (bit a.regions (2 * p) && bit b.regions (2 * p + 1)) || (bit b.regions (2 * p) && bit a.regions (2 * p + 1)))

/-- The pairs of a hearth (15, R356): at level 2 every tile is of a pair, below it none is. -/
def pairsBad (x : HearthCfg) : Bool :=
  let b := fun t => x.h.part.getD t 0
  (List.range 32).any (fun t =>
    let v := b t
    let u := v % 32
    let w := b u
    decide (v ≠ 0) && (decide (x.j.level < 2) || !bit x.h.tiles t || !bit x.h.tiles u || decide (tileHalf t ≠ tileHalf u) || decide (t = u) ||
      decide (w % 32 ≠ t) || !((v / 64 == 1 && w / 64 == 2) || (v / 64 == 2 && w / 64 == 1)))) ||
  (decide (x.j.level = 2) && (setBits x.h.tiles).any (fun t => decide (b t = 0)))

/-- Stacks that a hearth's regions occupy. -/
def secStacks (x : HearthSec) : List Nat :=
  (setBits x.regions).flatMap (fun r => if x.hash then (List.range 6).map (· + 6 * (r % 2)) else List.range 12)

/-- A unit set in `CHK_EXCL` that the configuration names (15, R372). -/
def namesExcluded (s : State) (c : Cfg) : Bool :=
  (cfgHearths c).any (fun e =>
    (e.2.h.tiles &&& (s.recs.excl0.setWidth 32)) != 0 || (e.2.h.hobs &&& ((s.recs.excl0 >>> 48).setWidth 16)) != 0 ||
    (secStacks e.2.h).any (fun k => bit s.recs.excl1 (12 + k))) ||
  (List.range 12).any (fun p => bit s.recs.excl1 p && (match c.link.ports[p]? with | some e => e.1 != 0 | none => false))

def checkConflict (s : State) (c : Cfg) : Bool :=
  let hs := cfgHearths c
  hs.any (fun a => hs.any (fun b => decide (a.1 < b.1) && (unitTwice a.2.h b.2.h || hashDiffers a.2.h b.2.h))) ||
  hs.any (fun a => a.2.h.tiles == 0 || a.2.h.hobs == 0 || !bit a.2.h.hobs a.2.h.svc || pairsBad a.2 ||
    a.2.j.qs.any (fun e => !bit a.2.h.queues e.queue)) ||
  namesExcluded s c

/-- A REGS entry that names no RWL field of the hearth (17, Table 17-10). -/
def regBad (c : Cfg) (h : Nat) (a : Nat) : Bool :=
  let (l, _, en) := regEntry a
  let mine := match l with
    | .hearth k _ => k == h
    | .tile t _ | .blw t _ => bit (vget c.hearths h {}).h.tiles t
    | _ => false
  decide (a < ctlBase) || decide (a % 4 ≠ 0) || !mine || decide (bitsOf (maskLoc l).rwl &&& en = 0)

def checkRegs (c : Cfg) (l : List Sect) : Option (Option Nat) :=
  ((l.filter known).find? (fun x => x.typ == sREGS && (match x.hearth with
    | some h => (readRegs x.payload).any (fun e => regBad c h e.1)
    | none => true))).map (fun x => some x.idx)

/-- The checks in order: code of the first that fails, with the index of the section at fault if it is one, or the
configuration. -/
def checkImage (s : State) : Except (Nat × Option Nat) Cfg :=
  let b := s.tmp.image
  match layout b with
  | .error i => .error (tFORMAT, i)
  | .ok l =>
    let c := nextCfg s b l
    match checkVersion b l with
    | some i => .error (tVERSION, i)
    | none => match checkTarget s b l with
      | some i => .error (tTARGET, i)
      | none =>
        if iSerial b ≤ scopeSerial s b then .error (tSTALE, none)
        else match checkSig s b l with
          | some i => .error (tSIG, i)
          | none => match checkRole s l with
            | some i => .error (tROLE, i)
            | none => match checkLimit s s.tmp.boot l c with
              | some i => .error (tLIMIT, i)
              | none =>
                if checkConflict s c then .error (tCONFLICT, none)
                else match checkRegs c l with
                  | some i => .error (tREG, i)
                  | none => .ok c

/-! ### Outcomes -/

def setTmp (s : State) (f : Temper → Temper) : State := { s with tmp := f s.tmp }

/-- Record of an outcome: `SERIAL` and section index (17, R413). -/
def tmpRecord (s : State) (code idx : Nat) : State :=
  let b := s.tmp.image
  raise s 0x0E code 0 (if iScope b = 1 then some (iHearth b) else none) 0 (iSerial b) idx

/-- Section index of a reject: a free value where no one section is at fault (17, R413; log 52). -/
def rejectIndex (s : State) (idx : Option Nat) : Nat × State :=
  match idx with
  | some i => (i, s)
  | none => ((Config.tmpSection s.fresh).toNat, (draw s).2)

/-- The image in progress is rejected: nothing changes but the units quiesced for it, which are released. -/
def tmpReject (s : State) (code : Nat) (idx : Option Nat) : State :=
  let (i, s) := rejectIndex s idx
  let s := tmpRecord s code i
  let s := mbxOutcome s code
  let s := setTmp s (fun t => { t with st := .idle, next := none, image := [], boot := false, code := code, rejects := min (2 ^ 32 - 1) (t.rejects + 1) })
  releaseUnits s

/-- An image reaches the device from the Stoker (17, R419; Table 17-13). Before boot step 9 no hearth exists, and a
FULL image is one applied at boot. -/
def tmpSubmit (s : State) (image : List Byte) (mbx : Option Nat) : State :=
  if s.tmp.st ≠ .idle then
    let (i, s) := rejectIndex s none
    let s := raise s 0x0E tBUSY 0 none 0 (iSerial image) i
    let s := setTmp s (fun t => { t with code := tBUSY, rejects := min (2 ^ 32 - 1) (t.rejects + 1) })
    match mbx with
    | some f => modFn s f (fun x => { x with mbx2 := BitVec.ofNat _ (tBUSY * 256) })
    | none => s
  else setTmp s (fun t => { t with
    st := .verify, image := image, next := none, mbx := mbx, since := fc s, scope := iScope image % 4, hearth := iHearth image
    boot := iScope image == 0 && !bit s.pwr.booted 9 })

/-! ### Quiescing (17, R414, Table 17-11) -/

/-- Hearths whose sections the image carries. -/
def imageHearths (b : List Byte) : List Nat :=
  match layout b with
  | .ok l => (l.filter known).filterMap (·.hearth)
  | .error _ => []
def imageHas (b : List Byte) (t : Nat) : Bool :=
  match layout b with
  | .ok l => hasType l t
  | .error _ => false

/-- Ports and hearths that a change of the link section reaches. -/
def linkPorts (s : State) (c : Cfg) : List Nat :=
  let o := s.tmp.cur.link
  let n := c.link
  let all := decide (o.mode ≠ n.mode) || decide (o.dev ≠ n.dev) || decide (o.size ≠ n.size) || decide (o.etmo ≠ n.etmo)
  (List.range 12).filter (fun p => all || o.ports[p]? != n.ports[p]?)
def linkAll (s : State) (c : Cfg) : Bool :=
  let o := s.tmp.cur.link
  decide (o.mode ≠ c.link.mode) || decide (o.dev ≠ c.link.dev) || decide (o.size ≠ c.link.size) || decide (o.etmo ≠ c.link.etmo)

/-- Hearths that own a region of a pair whose mode changes, before or after. -/
def pairHearths (s : State) (c : Cfg) : List Nat :=
  let s1 := { s with tmp := { s.tmp with cur := c } }
  let ps := (List.range 32).filter (fun p => isSplit (temperPair s1 p) (2 * p) != isSplit s (2 * p))
  ps.flatMap (fun p => [regionHearth s (2 * p), regionHearth s (2 * p + 1), regionHearth s1 (2 * p), regionHearth s1 (2 * p + 1)].filterMap id)

/-- Hearths to be PREEMPTED and ports to be OFF before APPLY: those that exist now. -/
def quiesceHearths (s : State) (c : Cfg) : List Nat :=
  let b := s.tmp.image
  if s.tmp.boot then []
  else (List.range 16).filter (fun h => hOn s h &&
    (decide (iScope b = 0) || (imageHearths b).contains h || (imageHas b sLINK && linkAll s c) || (pairHearths s c).contains h))
def quiescePorts (s : State) (c : Cfg) : List Nat :=
  let b := s.tmp.image
  if s.tmp.boot then []
  else if iScope b = 0 then List.range 12
  else if imageHas b sLINK then linkPorts s c
  else []

/-- The ports to be taken OFF are disabled; those that were in use are remembered. -/
def disablePorts (s : State) (ps : List Nat) : State :=
  forEach ps s (fun p s =>
    if portState s p = pOFF then s
    else
      let s := setTmp s (fun t => { t with ports := if t.ports.contains p then t.ports else p :: t.ports })
      portDisable (disableFn s (48 + p)) p)

/-- TEMPER_VERIFY (17, R413, R414): the checks, then PREEMPT for hearths in RUN and the disabling of ports. -/
def tmpVerify (s : State) : State :=
  if s.tmp.st ≠ .verify then s
  else match checkImage s with
    | .error e => tmpReject s e.1 e.2
    | .ok c =>
      let s := setTmp s (fun t => { t with st := .quiesce, next := some c, since := fc s })
      let s := forEach (quiesceHearths s c) s (fun h s =>
        if hctlState s h = 0 then setTmp (setHctl s h 1) (fun t => { t with preempted := h :: t.preempted }) else s)
      disablePorts s (quiescePorts s c)

/-- Every unit of Table 17-11 is quiesced. -/
def quiesced (s : State) (c : Cfg) : Bool :=
  (quiesceHearths s c).all (fun h => decide (hctlState s h = 2)) && (quiescePorts s c).all (fun p => decide (portState s p = pOFF))

/-- A counter that leaves a hearth has waiters or increments in flight (17, R415). -/
def ctrBusy (s : State) (c : Cfg) : Bool :=
  let s1 := { s with tmp := { s.tmp with cur := c } }
  let used := s.flights.map (·.ctr) ++ s.tiles.toList.filterMap (fun x => x.misc.wait.map (·.ctr)) ++
    s.hearths.toList.flatMap (fun x => (List.range 32).filterMap (fun i => if wsSt x i = 1 then some (wsCtr x i) else none)) ++
    s.lnk.sessions.flatMap (fun x => x.rx.toList.flatMap (fun k => k.pend.map (·.ctr)))
  used.any (fun k => (ctrHearth s k).isSome && decide (ctrHearth s1 k ≠ ctrHearth s k))

/-- TEMPER_QUIESCED (17, R414 to R416, R418): APPLY once every unit is quiesced. -/
def tmpQuiesced (s : State) : State :=
  match s.tmp.next with
  | some c =>
    if s.tmp.st ≠ .quiesce then s
    else
      let s := disablePorts s (quiescePorts s c)
      if !quiesced s c then s
      else if namesExcluded s c then tmpReject s tCONFLICT none
      else if ctrBusy s c then tmpReject s tCOUNTER none
      else
        let b := s.tmp.image
        let old := if s.tmp.boot then s.tmp.durable else s.tmp.cur
        let s := applyCfg s old { c with serDev := s.tmp.cur.serDev, ser := s.tmp.cur.ser } (imageHas b sLINK)
        let s := if iStage b then forEach (imageHearths b) s (fun h s => modRun s h (fun r => { r with locked := false })) else s
        setTmp s (fun t => { t with st := if iStage b then .staged else .committing, next := none, since := fc s })
  | none => s

/-- TMP_QUIESCE (17, R414): the time has passed, or a hearth that the device pre-empted was resumed. -/
def tmpTimeout (s : State) : State :=
  if s.tmp.st = .quiesce ∧ (s.tmp.since + 2 ^ s.tmp.qtmo ≤ fc s ∨ s.tmp.preempted.any (fun h => hctlState s h == 0)) then
    tmpReject s tQUIESCE none
  else s

/-! ### Commit (17, R417, R418) -/

/-- Measurements of an image committed for a scope (18, Table 18-5). -/
def measure (s : State) (i v : Nat) : State := { s with stk := { s.stk with meas := vput s.stk.meas i v } }

/-- TEMPER_DURABLE (17, R417). -/
def tmpDurable (s : State) (ok : Bool) : State :=
  if s.tmp.st ≠ .committing then s
  else
    let b := s.tmp.image
    let scope := iScope b
    let ser := iSerial b
    let hs := if scope = 0 then List.range 16 else if scope = 1 then [iHearth b] else []
    let s := setTmp s (fun t => { t with cur := { t.cur with
      serDev := if scope = 1 then t.cur.serDev else ser
      ser := hs.foldl (fun v h => vput v h ser) t.cur.ser } })
    let s := forEach hs s (fun h s => if hOn s h then modRun s h (fun r => { r with locked := true }) else s)
    let m := leNat (shake256 b 32)
    let s := if scope = 1 then s else measure s 6 m
    let s := forEach hs s (fun h s => measure s (7 + h) m)
    let s := tmpRecord s tCOMMIT 0
    let s := if ok then
        setTmp s (fun t => { t with code := tCOMMIT, durable :=
          if scope = 0 then t.cur
          else if scope = 1 then { t.durable with hearths := vput t.durable.hearths (iHearth b) (vget t.cur.hearths (iHearth b) {}), ser := vput t.durable.ser (iHearth b) ser }
          else { t.durable with dev := t.cur.dev, link := t.cur.link, serDev := ser } })
      else setTmp (tmpRecord s tSTORE 0) (fun t => { t with code := tSTORE })
    let s := mbxOutcome s s.tmp.code
    releaseUnits (setTmp s (fun t => { t with st := .idle, image := [], boot := false }))

/-- A STAGED image goes on to commit. -/
def stagedCommit (s : State) : State :=
  if s.tmp.st = .staged then setTmp s (fun t => { t with st := .committing, since := fc s }) else s

/-- `TMP_CTL` is written by the Stoker or the service core of a hearth that the image covers (17, R418). -/
def mayCommit (s : State) (a : Agent) : Bool :=
  match a with
  | .stoker => true
  | .hob c => (List.range 16).any (fun h => imageOf s h && hOn s h && decide ((hsec s h).h.svc = c.val))
  | _ => false
def tmpAddr : Nat := ctlBase + 0x30180008
/-- TMP_CTL_COMMIT; the register is read-only to the physical function (20, R466). -/
def ctlCommit (s : State) (a : Agent) : State :=
  if mayCommit s a then stagedCommit s
  else match a with
    | .host f => if f.val = 0 then s else misuse s SYS_UNMAPPED a tmpAddr
    | _ => misuse s SYS_UNMAPPED a tmpAddr

/-- STAGED_TIMEOUT (17, R418). -/
def stagedTimeout (s : State) : State := if s.tmp.since + 2 ^ 30 ≤ fc s then stagedCommit s else s

/-! ### Commands -/

/-- TEMPER_VERIFY. -/
def execTemperVerify (s : State) : Out := .next (tmpVerify s)
/-- TEMPER_QUIESCED. -/
def execTemperQuiesced (s : State) : Out := .next (tmpQuiesced s)
/-- TMP_QUIESCE. -/
def execTmpQuiesce (s : State) : Out := .next (tmpTimeout s)
/-- TEMPER_DURABLE. -/
def execTemperDurable (ok : Bool) (s : State) : Out := .next (tmpDurable s ok)
/-- TMP_CTL_COMMIT. -/
def execTmpCtlCommit (a : Agent) (s : State) : Out := .next (ctlCommit s a)
/-- STAGED_TIMEOUT. -/
def execStagedTimeout (s : State) : Out := .next (stagedTimeout s)

end Sys2Proof.Machine
end

