-- ==== Sys2Proof/Machine/Power.lean ====
section
/-! DEFINITION. Clocks, rails, power emergencies, lending, functions, boot and the module's sensors (19; 21). -/

namespace Sys2Proof.Machine

def gPWR : Nat := 0x10

/-! ### Lending (11, R262; 19, R446, R454, R455) -/

def setLentBit (s : State) (t : Nat) (b : Bool) : State :=
  modPwr s (fun p => { p with clkTile := vmod p.clkTile t (fun r => setBit r 7 b) })

/-- BUDGET_LEND. -/
def budgetLend (s : State) (t : Nat) : State :=
  match (tileAt s t).misc.wait with
  | some w =>
    if w.ended.isNone && !w.lent && decide (2500 ≤ waited s t w) && tileRuns s t then
      let s := modTile s t (fun x => { x with misc := { x.misc with wait := some { w with lent := true } } })
      recompute (setLentBit (modPwr s (fun p => { p with lentTiles := setBit p.lentTiles t true, nextStep := vput p.nextStep t none })) t true)
    else s
  | none => s

/-- The wait of a lent tile has ended, or is gone. -/
def waitOver (s : State) (t : Nat) : Bool :=
  match (tileAt s t).misc.wait with
  | some w => w.ended.isSome
  | none => true

/-- BUDGET_RECLAIM: borrowers step down first; the tile is ungated when the steps that this asks for have taken effect (19,
R455). -/
def budgetReclaim (s : State) (t : Nat) : State :=
  if !bit (vget s.pwr.clkTile t 0) 7 || !waitOver s t then s
  else
    let s := if bit s.pwr.lentTiles t then
        let s := modPwr s (fun p => { p with lentTiles := setBit p.lentTiles t false })
        match tileHearth s t with
        | some h => reclaim s h
        | none => recompute s
      else s
    let slower := (List.range 32).any (fun k => decide (k ≠ t) && (match vget s.pwr.nextStep k none with
      | some st => decide (fld (vget s.pwr.clkTile k 0) 5 4 < st)
      | none => false))
    if slower then s
    else
      let s := modTile s t (fun x => { x with misc := { x.misc with wait := x.misc.wait.map (fun w => { w with lent := false }) } })
      let s := modPwr s (fun p => { p with
        clkTile := vmod p.clkTile t (fun r => match vget p.nextStep t none with | some st => setFld r 5 4 st | none => r)
        nextStep := vput p.nextStep t none })
      setLentBit s t false

/-- CORE_STEP_CHANGE (19, R446): at a boundary of 15 fc every tile whose step changes takes its new one, beside tile t. -/
def coreStep (s : State) (t : Nat) : State :=
  if fc s % 15 = 0 ∧ (vget s.pwr.nextStep t none).isSome then modPwr s (fun p => { p with
    nextStep := Vector.replicate 32 none
    clkTile := p.clkTile.mapIdx (fun i r => match vget p.nextStep i none with | some st => setFld r 5 4 st | none => r) })
  else s

/-! ### Input, power and temperature (19, R449, R450, R456; 21, R479, R480) -/

def setVin (s : State) (v : Nat) : State := modPwr s (fun p => { p with volts := v, dev := setFld p.dev 47 32 v })
/-- A power-down happens once; every cause is raised (21, R480, R483). -/
def downFor (s : State) (code detail : Nat) : State :=
  raise (if s.pwr.off then s else powerDown s) gPWR code detail none 0 0 0 0 true

/-- PWR_INPUT. -/
def pwrInput (s : State) (v : Nat) : State :=
  if v < 4700 then modPwr (setVin (downFor s 4 0) v) (fun p => { p with lostInput := true })
  else if 5600 < v then setVin (downFor s 4 1) v
  else setVin s v

/-- INPUT_SAG (19, R450). -/
def inputSag (s : State) (v : Nat) : State :=
  let s := setVin s v
  if 5100 ≤ v then (if s.pwr.sagged then recompute (modPwr s (fun p => { p with sagged := false })) else s)
  else if fld s.pwr.dev 15 0 ≤ 2550 ∨ s.pwr.sagged then s
  else recompute (raise (modPwr s (fun p => { p with sagged := true })) gPWR 4 0 none 0)

/-- PWR_OVER: measured power over a window of 2^14 fc. The module's input power beside it is free (19, Table 19-11; log 59). -/
def pwrOver (s : State) (watts : Nat) : State :=
  let s := modPwr s (fun p => { p with dev := setFld (setFld p.dev 31 16 watts) 63 48 (Config.inputPower s.cyc).toNat })
  if 105 * fld s.pwr.dev 15 0 < 100 * watts then recompute (emergency s 6 0) else s

/-- PWR_THERM: the hottest junction, in eighths of a degree. -/
def pwrTherm (s : State) (tj : Nat) : State :=
  let s := modPwr s (fun p => { p with tj := setFld p.tj 11 0 tj })
  if 920 ≤ tj then downFor s 5 1
  else if 840 ≤ tj then recompute (emergency s 5 0)
  else s

/-- EMERGENCY_END. -/
def emergencyEnd (s : State) (code : Nat) : State :=
  match look? s.pwr.emerg code with
  | some f =>
    if f + 2 ^ 20 ≤ fc s then
      let s := modPwr s (fun p => { p with emerg := drop1 p.emerg code })
      let s := if inEmergency s then s else forEach (List.range 16) s (fun h s => endCause s h cCLOCK)
      recompute s
    else s
  | none => s

/-! ### Functions (19, R457) -/

/-- The host link goes down: the function pages return to reset, the host's counters lose their owner (20, R463, R474). -/
def linkDown (s : State) : State :=
  if fld s.hif.link 1 0 = 0 then s
  else
    let s := forEach (List.range 17) s (fun f s => ownerGone s (0x400000 + f))
    let s := temperFns { s with
      hif := { link := s.hif.link &&& 0xFFFF000000000000 }
      tmp := { s.tmp with mbx := none } }
    raise s 0x11 1 0 none 0

/-- What the shutdown of a function does. -/
def stopWork (s : State) (f : Nat) : State :=
  if f < 32 then haltTile s f
  else if f < 48 then { hobItems (ownerGone s (0x200000 + (f - 32))) (f - 32) with hobs := vput s.hobs (f - 32) {} }
  else if f < 60 then portDisable s (f - 48)
  else if f = 72 then linkDown s
  else s

/-- FUNCTION_ENABLE. -/
def functionEnable (s : State) (f : Nat) : State := if enableDropped s f then s else startFn (noteEnable s f) f
/-- FUNCTION_DISABLE. -/
def functionDisable (s : State) (f : Nat) : State :=
  let st := fnSt s f
  let s := disableFn s f
  if st = fSTARTING ∨ st = fON then stopWork s f else s

/-- A start may end: a port has left OFF, the host link has trained. -/
def startReady (s : State) (f : Nat) : Bool :=
  if 48 ≤ f ∧ f < 60 then decide (portState s (f - 48) ≠ pOFF)
  else if f = 72 then decide (fld s.hif.link 1 0 = 2)
  else true
/-- FUNCTION_START_COMPLETE. -/
def functionStarted (s : State) (f : Nat) : State :=
  if fnSt s f = fSTARTING && startReady s f then
    let s := setFn s f fON
    if 32 ≤ f ∧ f < 48 then { s with hobs := vmod s.hobs (f - 32) (fun x => { x with run := true }) }
    else if f = 73 then modLgr s (fun l => { l with dev := setFld l.dev 1 0 1 })
    else s
  else s

/-- A shutdown may end: rows have drained, a port is OFF. -/
def stopReady (s : State) (f : Nat) : Bool :=
  if f < 32 then tileIdle (tileAt s f)
  else if 48 ≤ f ∧ f < 60 then decide (portState s (f - 48) = pOFF)
  else true
/-- FUNCTION_SHUTDOWN_COMPLETE. -/
def functionStopped (s : State) (f : Nat) : State :=
  let st := fnSt s f
  if (st = fSTOPPING ∨ st = fSTOPSTART) ∧ stopReady s f then
    let s := setFn s f (afterShutdown st)
    let s := if f = 73 then modLgr s (fun l => { l with dev := setFld l.dev 1 0 0 }) else s
    if st = fSTOPSTART then startWork s f else s
  else s

/-- The smallest working set of R404 can still be reached (16, Table 16-12). -/
def couldServe (s : State) : Bool :=
  let ok := fun f => decide (fnSt s f ≠ fFAILED)
  let free := fun (w : Reg) k => !bit w k
  s.stk.up && ok 73 &&
  (List.range 16).any (fun c => ok (32 + c) && free s.recs.excl0 (48 + c) && ok (74 + c / 8)) &&
  (List.range 32).any (fun t => ok t && free s.recs.excl0 t) &&
  (List.range 12).any (fun k => ok (60 + k) && free s.recs.excl1 (12 + k)) &&
  (ok 72 || (List.range 12).any (fun p => ok (48 + p) && free s.recs.excl1 p))

/-- Boot stops at a step: the queues stay CLOSED (19, R458). -/
def bootStops (s : State) (n : Nat) : State :=
  raise (modPwr s (fun p => { p with bootStop := some n })) gPWR 9 n none 0

/-- A start fails. -/
def failFn (s : State) (f : Nat) : State :=
  let s := setFn s f fFAILED
  let s := modPwr s (fun p => { p with fn := vmod p.fn f (fun r => setFld (bumpSat r 63 48 1) 15 8 8) })
  raise s gPWR 8 f none 0

/-! ### Boot (19, R458, R459, Table 19-8) -/

/-- Steps that a step waits for. -/
def bootAfter (n : Nat) : List Nat :=
  match n with
  | 1 => [] | 2 => [1] | 3 => [2] | 4 => [3] | 5 => [3] | 6 => [4] | 7 => [6] | 8 => [6] | 9 => [7] | 10 => [9] | _ => [10, 5]

/-- Functions that a step starts; excluded units stay out. -/
def bootFns (s : State) (n : Nat) : List Nat :=
  match n with
  | 3 => [74, 75]
  | 4 => ((List.range 16).filter (fun c => !bit s.recs.excl0 (48 + c))).map (· + 32)
  | 5 => [73]
  | 6 => ((List.range 12).filter (fun k => !bit s.recs.excl1 (12 + k))).map (· + 60)
  | 8 => [72]
  | 10 => ((List.range 12).filter (fun p => !bit s.recs.excl1 p && decide (portRole s p ≠ 0))).map (· + 48)
  | _ => []

/-- A step has begun; it has ended when none of its functions is starting. -/
def bootBegun (s : State) (n : Nat) : Bool := bit s.pwr.booted n
def bootEnded (s : State) (n : Nat) : Bool :=
  bootBegun s n && (bootFns s n).all (fun f => decide (fnSt s f ≠ fSTARTING)) &&
  (if n = 2 then decide (s.pwr.rails = 0xFF)
   else if n = 10 then (bootFns s n).all (fun f =>
     let st := portState s (f - 48)
     decide (st = pUP) || decide (st = pDOWN) || decide (st = pREJECTED) || decide (fnSt s f = fFAILED))
   else true)

/-- The durable configuration is applied and commits at once: every unit has been reset (19, Table 19-8, step 9; 17,
R418; log 44). -/
def bootTemper (s : State) : State :=
  let c := s.tmp.cur
  let d := s.tmp.durable
  let s := setTmp s (fun t => { t with cur := if s.pwr.bootWarm then { d with serDev := c.serDev, ser := c.ser } else d })
  let s := temperLink (temperDevice s)
  let s := forEach (List.range 32) s (fun t s =>
    let s := temperTile s t
    if (tileHearth s t).isSome ∧ fnSt s t ≠ fFAILED ∧ !bit s.recs.excl0 t then setFn s t fON else s)
  let s := forEach (List.range 256) s (fun q s => temperQueue s q)
  let s := forEach (List.range 16) s (fun h s =>
    if hOn s h then
      let c := hsec s h
      let out := (c.h.tiles &&& (s.recs.excl0.setWidth 32)) != 0 || (c.h.hobs &&& ((s.recs.excl0 >>> 48).setWidth 16)) != 0 ||
        (secStacks c.h).any (fun k => bit s.recs.excl1 (12 + k))
      modRun (temperRegs (temperHearth s h) h) h (fun r => { r with locked := true, removed := out })
    else s)
  let s := if d = {} then s
    else raise (setTmp s (fun t => { t with code := tCOMMIT })) 0x0E tCOMMIT 0 none 0 d.serDev
  recompute s

/-- Work of a step. -/
def bootWork (s : State) (n : Nat) : State :=
  let s := forEach (bootFns s n) s (fun f s => startFn s f)
  match n with
  | 1 =>
    let s := calCheck s
    { modPwr s (fun p => { p with rails := p.rails ||| 1, dev := setFld p.dev 47 32 p.volts }) with stk := { s.stk with stat := if s.stk.up then setFld s.stk.stat 9 8 2 else s.stk.stat } }
  | 3 => modPwr s (fun p => { p with clkStat := p.clkStat ||| 3 })
  | 7 =>
    let s := forEach (List.range 2) s (fun i s => modPool s i (fun x => { x with tiles := [], waiting := [] }))
    zeroRange s 0 deepTop
  | 9 => bootTemper s
  | 11 =>
    if storeReady s ∧ couldServe s then
      forEach (List.range 256) s (fun q s => if qEn (queueAt s q) then setQ s q qRECOVERING 0 else s)
    else bootStops s 11
  | _ => s

/-- The next step that may begin. -/
def bootNext (s : State) : Option Nat :=
  ((List.range 11).map (· + 1)).find? (fun n => !bootBegun s n && (bootAfter n).all (bootEnded s))

/-- BOOT: the next step begins. A step that overruns fails the functions it starts, or ends the boot when it
starts none (19, R458). -/
def boot (s : State) (ok : Bool) : State :=
  if s.pwr.off || s.pwr.bootStop.isSome then s
  else if ok then
    match bootNext s with
    | some n =>
      if n = 9 ∧ s.tmp.st ≠ .idle then s
      else
        let s := if s.pwr.warming.isSome then countReset (modPwr s (fun p => { p with warming := none })) 2 else s
        let s := modPwr s (fun p => { p with booted := setBit p.booted n true })
        let s := bootWork s n
        if n = 11 ∧ (List.range 256).all (fun q => decide (qState (queueAt s q) ≠ qRECOVERING)) then modPwr s (fun p => { p with bootWarm := false }) else s
    | none => s
  else
    match ((List.range 11).map (· + 1)).find? (fun n => bootBegun s n && !bootEnded s n) with
    | some n =>
      let fs := (bootFns s n).filter (fun f => decide (fnSt s f = fSTARTING))
      let s := forEach fs s (fun f s => failFn s f)
      if n = 2 ∨ !couldServe s then bootStops s n else s
    | none => match bootNext s with
      | some n => bootStops s n
      | none => s

/-- PWR_FNFAIL. -/
def functionFails (s : State) (f : Nat) : State :=
  if fnSt s f = fSTARTING then
    let s := failFn s f
    if s.pwr.bootStop.isNone && !bootBegun s 11 && !couldServe s then
      match ((List.range 11).map (· + 1)).find? (fun n => bootBegun s n && (bootFns s n).contains f) with
      | some n => bootStops s n
      | none => s
    else s
  else s

/-! ### Rails and the root clock (19, R447 to R449) -/

/-- RAIL_POWER_GOOD: the next rail in order is in regulation. -/
def railGood (s : State) : State :=
  if s.pwr.off || !bootBegun s 2 then s
  else match ((List.range 7).map (· + 1)).find? (fun i => !bit s.pwr.rails i) with
    | some i => modPwr s (fun p => { p with rails := setBit p.rails i true })
    | none => s

/-- PWR_RAIL: a rail of Table 19-2 misses power-good or drops out. -/
def railFails (s : State) (rail : Nat) : State :=
  if s.pwr.off ∨ rail = 0 ∨ !bootBegun s 2 then s else downFor s 1 rail

/-- PWR_PLL: the root PLL loses lock while running. -/
def pllLost (s : State) : State :=
  if s.pwr.off || !bit s.pwr.clkStat 0 then s
  else
    let s := deviceCold s
    raise (modPwr s (fun p => { p with clkStat := bumpSat p.clkStat 31 16 1 })) gPWR 3 0 none 0

/-- PWR_REF: no reference, or no lock after it; the device stays in reset. -/
def refAbsent (s : State) (absent : Bool) : State :=
  if s.pwr.off || bootBegun s 3 || s.pwr.bootStop.isSome then s
  else
    let s := modPwr s (fun p => { p with bootStop := some 3, clkStat := setBit p.clkStat 1 (!absent) })
    raise s gPWR (if absent then 2 else 3) 0 none 0

/-! ### Module sensors (21, R482, R483) -/

/-- PWR_LEAK. -/
def leak (s : State) : State := modPwr (downFor s 0x0B 0) (fun p => { p with cool := setBit p.cool 33 true })

/-- Field and validity of a reading in eighths of a degree: a value that the field does not hold is free. -/
def plate (s : State) (t : Int) : Nat × Bool × State :=
  let ok := decide (-160 ≤ t) && decide (t ≤ 1000)
  if ok && decide (0 ≤ t) then (t.toNat, true, s)
  else
    let (n, s) := draw s
    ((Config.coldReading n).toNat, ok, s)

/-- COOLANT_SAMPLE. -/
def coolant (s : State) (tin tout : Int) : State :=
  let (vi, oi, s) := plate s tin
  let (vo, oo, s) := plate s tout
  let hotI := oi && decide (320 < tin)
  let hotO := oo && decide (480 < tout)
  let was := bit s.pwr.cool 32
  let s := modPwr s (fun p => { p with
    cool := setBit (setFld (setBit (setFld (setBit p.cool 32 (hotI || hotO)) 27 16 vo) 31 oo) 11 0 vi) 15 oi })
  let s := if hotI && !was then raise s gPWR 0x0A 0 none 0 else s
  let s := if hotO && !was then raise s gPWR 0x0A 1 none 0 else s
  let s := if oi then s else raise s gPWR 0x0C 0 none 0
  if oo then s else raise s gPWR 0x0C 1 none 0

/-! ### Commands -/

/-- BUDGET_LEND. -/
def execBudgetLend (t : TileId) (s : State) : Out := .next (budgetLend s t.val)
/-- BUDGET_RECLAIM. -/
def execBudgetReclaim (t : TileId) (s : State) : Out := .next (budgetReclaim s t.val)
/-- CORE_STEP_CHANGE. -/
def execCoreStepChange (t : TileId) (s : State) : Out := .next (coreStep s t.val)
/-- PWR_PLL. -/
def execPwrPll (s : State) : Out := .next (pllLost s)
/-- PWR_REF. -/
def execPwrRef (absent : Bool) (s : State) : Out := .next (refAbsent s absent)
/-- RAIL_POWER_GOOD. -/
def execRailPowerGood (s : State) : Out := .next (railGood s)
/-- PWR_RAIL. -/
def execPwrRail (rail : Fin 8) (s : State) : Out := .next (railFails s rail.val)
/-- PWR_INPUT. -/
def execPwrInput (v : Nat) (s : State) : Out := .next (pwrInput s v)
/-- INPUT_SAG. -/
def execInputSag (v : Nat) (s : State) : Out := .next (inputSag s v)
/-- POWER_RECOMPUTE. -/
def execPowerRecompute (s : State) : Out := .next (recompute s)
/-- PWR_OVER. -/
def execPwrOver (watts : Nat) (s : State) : Out := .next (pwrOver s watts)
/-- PWR_THERM. -/
def execPwrTherm (tj : Nat) (s : State) : Out := .next (pwrTherm s tj)
/-- EMERGENCY_END. -/
def execEmergencyEnd (code : Nat) (s : State) : Out := .next (emergencyEnd s code)
/-- FUNCTION_ENABLE. -/
def execFunctionEnable (f : Fin 76) (s : State) : Out := .next (functionEnable s f.val)
/-- FUNCTION_DISABLE. -/
def execFunctionDisable (f : Fin 76) (s : State) : Out := .next (functionDisable s f.val)
/-- FUNCTION_START_COMPLETE. -/
def execFunctionStartComplete (f : Fin 76) (s : State) : Out := .next (functionStarted s f.val)
/-- PWR_FNFAIL. -/
def execPwrFnfail (f : Fin 76) (s : State) : Out := .next (functionFails s f.val)
/-- FUNCTION_SHUTDOWN_COMPLETE. -/
def execFunctionShutdownComplete (f : Fin 76) (s : State) : Out := .next (functionStopped s f.val)
/-- BOOT. -/
def execBoot (ok : Bool) (s : State) : Out := .next (boot s ok)
/-- PWR_LEAK. -/
def execPwrLeak (s : State) : Out := .next (leak s)
/-- COOLANT_SAMPLE. -/
def execCoolantSample (tin tout : Int) (s : State) : Out := .next (coolant s tin tout)

end Sys2Proof.Machine
end

