-- ==== Sys2Proof/Machine/Stoker.lean ====
section
/-! DEFINITION. The Stoker: rights, the audit log, keys, firmware slots, the calendar, quotes (18). -/

namespace Sys2Proof.Machine

def gSTK : Nat := 0x0F
def modStoker (s : State) (f : Stoker → Stoker) : State := { s with stk := f s.stk }

/-! ### The audit log (18, R432, R433, Table 18-4) -/

/-- The 128 bytes of an entry. -/
def Audit.bytes (a : Audit) : List Byte :=
  leBytes 8 a.seq ++ leBytes 8 a.cal ++ leBytes 8 a.cyc ++ leBytes 8 a.keyid ++ leBytes 1 a.role ++ leBytes 1 a.action ++
  leBytes 1 a.result ++ leBytes 1 a.hearth ++ leBytes 4 0 ++ leBytes 32 a.req ++ leBytes 32 a.prev ++ leBytes 8 a.arg ++ leBytes 16 0
def auditHash (a : Audit) : Nat := leNat (shake256 a.bytes 32)

/-- The Stoker signs a checkpoint over the last entry. -/
def checkpoint (s : State) : State :=
  match s.stk.audit with
  | a :: _ => modStoker s (fun k => { k with checkpoints := (a.seq, auditHash a) :: k.checkpoints, unsigned := 0 })
  | [] => s

/-- Append an entry; a checkpoint follows every 256th. -/
def auditAdd (s : State) (keyid role action result : Nat) (h : Option Nat) (req arg : Nat) : State :=
  let a : Audit := {
    seq := s.stk.auditSeq, cal := calNow s, cyc := if s.pwr.off then 0 else s.cyc, keyid := keyid, role := role, action := action,
    result := result, hearth := match h with | some k => 0x80 + k | none => 0
    req := req, prev := match s.stk.audit with | p :: _ => auditHash p | [] => 0
    arg := arg }
  let s := modStoker s (fun k => { k with audit := (a :: k.audit).take 65536, auditSeq := k.auditSeq + 1, unsigned := k.unsigned + 1 })
  if s.stk.auditSeq % 256 = 0 then checkpoint s else s

/-- AUDIT_CHECKPOINT. -/
def auditCheckpoint (s : State) : State := if s.stk.up ∧ 0 < s.stk.unsigned then checkpoint s else s

/-! ### Rights (18, R429 to R431) -/

def rINSTALLER : Nat := 2
def rOPERATOR : Nat := 3

/-- Role of an enrolled key: 0 when it is none. -/
def keyRole (s : State) (keyid : Nat) : Nat :=
  match s.stk.keys.find? (fun k => k.keyid == keyid) with
  | some k => if k.operator then rOPERATOR else rINSTALLER
  | none => 0
/-- An operator's mask holds the hearth. -/
def keyMask (s : State) (keyid h : Nat) : Bool :=
  s.stk.keys.any (fun k => k.keyid == keyid && k.operator && bit k.mask h)
def factory (s : State) : Bool := bit s.stk.stat 13

/-- A rights-bearing action: who may ask for it (by role, or by the console), whether the boot code takes it from the
console (R440), the hearth it concerns, its argument, and what it comes to: result 0 accepted, 1 refused, 2 failed after
acceptance, and its effect, which follows the audit entry. -/
structure Action where
  no : Nat
  allowed : Bool
  console : Bool := false
  boot : Bool := false
  hearth : Option Nat := none
  arg : Nat := 0
  result : Nat := 0
  effect : State → State

/-- A request of a rights-bearing action. -/
def act (s : State) (r : Request) (x : Action) : State :=
  if !s.stk.up && !(r.console && x.boot) then s
  else
    let id := if r.console then 0 else r.keyid
    let role := if r.console then 0 else keyRole s r.keyid
    let refuse := fun (s : State) d => raise s gSTK 4 d none 0 id
    if !r.auditOk then refuse s 3
    else if if r.console then x.console else x.allowed then
      x.effect (auditAdd s id role x.no x.result x.hearth r.reqHash x.arg)
    else refuse (auditAdd s id role x.no 1 x.hearth r.reqHash x.arg) (if role = 0 ∧ !r.console then 1 else 0)

def isInstaller (s : State) (r : Request) : Bool := keyRole s r.keyid == rINSTALLER
def mayHearthKey (s : State) (r : Request) (h : Nat) : Bool := isInstaller s r || keyMask s r.keyid h

/-! ### Firmware (18, R439, R440, Table 18-6) -/

/-- Slot B of a kind is the active one. -/
def slotB (s : State) (kind : Nat) : Bool := bit s.stk.stat (kind - 1)
def slotOf (s : State) (kind : Nat) (b : Bool) : FwSlot :=
  let p := vget s.stk.slots (kind - 1) ({}, {})
  if b then p.2 else p.1
def setSlot (s : State) (kind : Nat) (b : Bool) (x : FwSlot) : State :=
  modStoker s (fun k => { k with slots := vmod k.slots (kind - 1) (fun p => if b then (p.1, x) else (x, p.2)) })
def kindOk (k : Nat) : Bool := decide (1 ≤ k) && decide (k ≤ 5)

/-- The Stoker stays in its boot code (18, R440). -/
def inBootCode (s : State) : Bool := decide (fld s.stk.stat 9 8 = 1)

/-- FW_LOAD. -/
def fwLoad (s : State) (r : Request) (img : FwImage) : State :=
  let ok := kindOk img.kind && img.sigOk && img.bodyOk && decide (vget s.stk.minVer (img.kind - 1) 0 ≤ img.version)
  act s r {
    no := 1, allowed := isInstaller s r, console := inBootCode s && decide (img.kind = 1), boot := inBootCode s, arg := b2n !(slotB s img.kind)
    result := if ok then 0 else 2
    effect := fun s =>
      if ok then setSlot s img.kind (!slotB s img.kind) { accepted := true, version := img.version, minVersion := img.minVersion, hash := img.hash }
      else raise (if kindOk img.kind then setSlot s img.kind (!slotB s img.kind) {} else s) gSTK 2 img.kind none 0 }

/-- A slot of a kind becomes active. -/
def activate (s : State) (kind : Nat) (b : Bool) : State :=
  let x := slotOf s kind b
  modStoker s (fun k => { k with
    stat := setBit k.stat (kind - 1) b
    minVer := vmod k.minVer (kind - 1) (fun v => max v x.minVersion)
    meas := vput k.meas kind x.hash })

/-- FW_ACTIVATE. -/
def fwActivate (s : State) (r : Request) (kind : Nat) (b : Bool) : State :=
  let ok := kindOk kind && (slotOf s kind b).accepted
  act s r {
    no := 2, allowed := isInstaller s r, arg := b2n b, result := if ok then 0 else 1
    effect := fun s =>
      if !ok then s
      else
        let s := raise (activate s kind b) gSTK 3 kind none 0 0 (b2n b)
        if kind = 1 then modStoker s (fun k => { k with up := false, stat := setFld k.stat 9 8 3 })
        else if kind = 2 then modStoker s (fun k => { k with stat := (List.range 16).foldl (fun r c =>
          if (vget s.hobs c {}).run then setBit r (32 + c) true else r) k.stat })
        else s }

/-- STK_RESTART (18, R428; 21, R476). -/
def stkRestart (s : State) (sa : Nat) : State :=
  let s := modStoker s (fun k => { k with up := true, sa := sa, stat := bumpSat (setFld k.stat 9 8 2) 55 48 1 })
  raise s gSTK 1 (b2n (slotB s 1)) none 0

/-- STOKER_SLOT_FALLBACK (18, R440): the other slot runs, or neither does. -/
def slotFallback (s : State) : State :=
  if s.stk.up then s
  else
    let b := !slotB s 1
    if (slotOf s 1 b).accepted then
      let s := activate s 1 b
      let s := modStoker s (fun k => { k with up := true, stat := bumpSat (setFld k.stat 9 8 2) 55 48 1 })
      raise (raise s gSTK 1 (b2n b) none 0) gSTK 2 0x81 none 0
    else modStoker s (fun k => { k with stat := setFld k.stat 9 8 1 })

/-! ### Keys (18, R429, R430) -/

def setFactory (s : State) (b : Bool) : State := modStoker s (fun k => { k with stat := setBit k.stat 13 b })

/-- KEY_ENROL. -/
def keyEnrol (s : State) (r : Request) (keyid : Nat) (operator : Bool) (mask : BitVec 16) : State :=
  let old := s.stk.keys.find? (fun k => k.keyid == keyid)
  let conflict := Config.makerKey keyid || (match old with | some k => k.operator != operator | none => false)
  let full := old.isNone && decide ((if operator then 64 else 4) ≤ (s.stk.keys.filter (fun k => k.operator == operator)).length)
  let ok := !conflict && !full
  act s r {
    no := 4, allowed := isInstaller s r && !factory s, console := factory s && !operator, arg := keyid, result := if ok then 0 else 1
    effect := fun s =>
      if ok then
        let s := modStoker s (fun k => { k with keys := k.keys.filter (fun k => k.keyid != keyid) ++ [{ keyid := keyid, operator := operator, mask := if operator then mask else 0 }] })
        raise (setFactory s false) gSTK 8 0 none 0 keyid
      else if conflict then raise s gSTK 8 1 none 0 keyid
      else s }

/-- KEY_REVOKE. -/
def keyRevoke (s : State) (r : Request) (keyid : Nat) : State :=
  let last := keyRole s keyid == rINSTALLER && decide ((s.stk.keys.filter (fun k => !k.operator)).length = 1)
  let ok := keyRole s keyid != 0 && !last
  act s r {
    no := 5, allowed := isInstaller s r, arg := keyid, result := if ok then 0 else 1
    effect := fun s =>
      if ok then raise (modStoker s (fun k => { k with keys := k.keys.filter (fun k => k.keyid != keyid) })) gSTK 8 0 none 0 keyid
      else if last then raise s gSTK 8 2 none 0 keyid
      else s }

/-- A collector given a new address: what the old one may not have been given is counted for STK_FWDLOST (01, R28; log 45). -/
def newCollector (x : Collector) (a : Nat) : Collector :=
  if x.addr = a then x else { addr := a, dropped := x.dropped + x.store.length }

/-- RELEASE (18, R430). -/
def release (s : State) (r : Request) : State :=
  act s r {
    no := 0x0C, allowed := isInstaller s r
    effect := fun s =>
      let s := modStoker s (fun k => { k with keys := [], addr := 0, collectors := k.collectors.map (fun x => newCollector x 0), trw := 4, ueth := 16
                                              meas := k.meas.mapIdx (fun i m => if 6 ≤ i ∧ i ≤ 22 then 0 else m) })
      let s := deviceCold { setFactory s true with tmp := { s.tmp with durable := {} } }
      raise s gSTK 0x0A 0 none 0 }

/-! ### Other actions (18, Table 18-3) -/

/-- TEMPER_SUBMIT. -/
def temperSubmit (s : State) (r : Request) (image : List Byte) : State :=
  act s r {
    no := 3, allowed := keyRole s r.keyid != 0, arg := iSerial image
    hearth := if iScope image = 1 then some (iHearth image) else none
    effect := fun s => tmpSubmit s image none }

/-- CAL_SET (18, R442, R443). -/
def calSet (s : State) (r : Request) (cal : BitVec 64) : State :=
  act s r {
    no := 6, allowed := isInstaller s r, arg := cal.toNat / 2 ^ 30
    effect := fun s =>
      let s := modStoker s (fun k => { k with cal := cal.toNat, calCyc := s.cyc, stat := setBit k.stat 14 true })
      raise (anchorWrite s) gSTK 5 0 none 0 cal.toNat }

/-- CLASS_RESET (15, Table 15-7). -/
def classReset (s : State) (r : Request) (u : UnitRef) : State :=
  let ok := decide ((histOf s u).cls = .permanent)
  act s r {
    no := 7, allowed := isInstaller s r, arg := unitFn u, result := if ok then 0 else 1
    effect := fun s => if ok then setExcl (setClass s u .good) u false else s }

/-- SETTINGS. -/
def settings (s : State) (r : Request) (address c0 c1 trw ueth : Nat) : State :=
  act s r {
    no := 8, allowed := isInstaller s r
    effect := fun s => modStoker s (fun k =>
      { k with addr := address, trw := trw, ueth := ueth
               collectors := (k.collectors.setIfInBounds 0 (newCollector (vget k.collectors 0 {}) c0)).setIfInBounds 1 (newCollector (vget k.collectors 1 {}) c1) }) }

/-- RESET_DEVICE: a device that is off comes up cold (19, R449). -/
def resetDevice (s : State) (r : Request) (kind : ResetKind) : State :=
  act s r {
    no := 9, allowed := isInstaller s r
    effect := fun s => match kind with
      | .cold => deviceCold s
      | .warm => if s.pwr.off || !bit s.pwr.booted 3 then deviceCold s else deviceWarm s }

/-- RESET_HEARTH. -/
def resetHearth (s : State) (r : Request) (h : Nat) (kind : ResetKind) : State :=
  act s r { no := 0x0A, allowed := mayHearthKey s r h, hearth := some h, effect := fun s => hearthReset s h (decide (kind = .warm)) }

/-- PREEMPT. -/
def preemptAct (s : State) (r : Request) (h : Nat) (resume : Bool) : State :=
  act s r { no := 0x0B, allowed := mayHearthKey s r h, hearth := some h, effect := fun s => if resume then hctlResume s .stoker h else hctlPreempt s .stoker h }

/-! ### Debug header (18, R438) -/

/-- DEBUG_OPEN. -/
def debugOpen (s : State) : State :=
  let s := modStoker s (fun k => { k with dbg := bumpSat (k.dbg ||| 3) 63 32 1 })
  raise (auditAdd s 0 0 0x0D 0 none 0 0) gSTK 7 0 none 0

/-- DBGNOW_CLEAR. -/
def dbgnowClear (s : State) : State := modStoker s (fun k => { k with dbg := setBit k.dbg 1 false })

/-! ### Quotes and reads (18, R426, R436) -/

/-- What a quote holds before its signature. -/
def quoteOf (s : State) (nonce : Nat) : List Nat :=
  [nonce, devNo s, s.stk.identity, s.cyc, calNow s, s.stk.dbg.toNat, fld s.stk.stat 47 32] ++
  (List.range 23).map (fun i => vget s.stk.meas i 0) ++ [s.stk.dbg.toNat]

/-- QUOTE. -/
def quote (s : State) (nonce : Nat) : State := if s.stk.up then emit s (.reply (quoteOf s nonce)) else s

/-- Records that the Stoker can give from a number on: those of its ring and of the collectors' stores. -/
def recordsFrom (s : State) (n : Nat) : List Nat :=
  let q := s.recs
  let all := (vget s.stk.collectors 0 {}).store ++ (vget s.stk.collectors 1 {}).store ++ q.ring ++ q.overflow
  let keep := all.foldl (fun (l : List (Nat × Rec)) r => if n ≤ r.seq then put l r.seq r else l) []
  keep.map (fun e => leNat (e.2.bytes (devNo s) e.2.cal))

/-- SMBUS_READ. -/
def smbusRead (s : State) (item : SmbusItem) : State :=
  if !s.stk.up then s
  else emit s (.reply (match item with
    | .status => [s.stk.stat.toNat, s.stk.dbg.toNat]
    | .sensors => [s.pwr.dev.toNat, s.pwr.tj.toNat, s.pwr.cool.toNat]
    | .records n => recordsFrom s n
    | .auditLog => s.stk.audit.reverse.map (fun a => leNat a.bytes)
    | .quote n => quoteOf s n))

/-! ### Commands -/

/-- FW_LOAD. -/
def execFwLoad (r : Request) (img : FwImage) (s : State) : Out := .next (fwLoad s r img)
/-- FW_ACTIVATE. -/
def execFwActivate (r : Request) (kind : Nat) (b : Bool) (s : State) : Out := .next (fwActivate s r kind b)
/-- TEMPER_SUBMIT. -/
def execTemperSubmit (r : Request) (image : List Byte) (s : State) : Out := .next (temperSubmit s r image)
/-- KEY_ENROL. -/
def execKeyEnrol (r : Request) (keyid : Nat) (operator : Bool) (mask : BitVec 16) (s : State) : Out := .next (keyEnrol s r keyid operator mask)
/-- KEY_REVOKE. -/
def execKeyRevoke (r : Request) (keyid : Nat) (s : State) : Out := .next (keyRevoke s r keyid)
/-- CAL_SET. -/
def execCalSet (r : Request) (cal : BitVec 64) (s : State) : Out := .next (calSet s r cal)
/-- CLASS_RESET. -/
def execClassReset (r : Request) (u : UnitRef) (s : State) : Out := .next (classReset s r u)
/-- SETTINGS. -/
def execSettings (r : Request) (address c0 c1 trw ueth : Nat) (s : State) : Out := .next (settings s r address c0 c1 trw ueth)
/-- RESET_DEVICE. -/
def execResetDevice (r : Request) (kind : ResetKind) (s : State) : Out := .next (resetDevice s r kind)
/-- RESET_HEARTH. -/
def execResetHearth (r : Request) (h : HearthId) (kind : ResetKind) (s : State) : Out := .next (resetHearth s r h.val kind)
/-- PREEMPT. -/
def execPreempt (r : Request) (h : HearthId) (resume : Bool) (s : State) : Out := .next (preemptAct s r h.val resume)
/-- RELEASE. -/
def execRelease (r : Request) (s : State) : Out := .next (release s r)
/-- DEBUG_OPEN. -/
def execDebugOpen (s : State) : Out := .next (debugOpen s)
/-- DBGNOW_CLEAR. -/
def execDbgnowClear (s : State) : Out := .next (dbgnowClear s)
/-- AUDIT_CHECKPOINT. -/
def execAuditCheckpoint (s : State) : Out := .next (auditCheckpoint s)
/-- QUOTE. -/
def execQuote (nonce : Nat) (s : State) : Out := .next (quote s nonce)
/-- SMBUS_READ. -/
def execSmbusRead (item : SmbusItem) (s : State) : Out := .next (smbusRead s item)
/-- STK_RESTART. -/
def execStkRestart (sa : Fin 8) (s : State) : Out := .next (stkRestart s sa.val)
/-- STOKER_SLOT_FALLBACK. -/
def execStokerSlotFallback (s : State) : Out := .next (slotFallback s)

end Sys2Proof.Machine
end

