-- ==== Sys2Proof/Machine/HostIf.lean ====
section
/-! DEFINITION. The host interface: its link, its functions, IDE and the Temper mailbox (20). -/

namespace Sys2Proof.Machine

def gHIF : Nat := 0x11

/-- Agent code of a function (11, Table 11-2). -/
def fnCode (f : Nat) : Nat := 0x400000 + f

/-- A function's state ends: its page returns to its reset values, its counters lose their owner, and its image's
outcome is no longer reported (20, R463, R474). -/
def endFn (s : State) (f : Nat) : State :=
  let s := ownerGone s (fnCode f)
  let s := modFn s f (fun _ => {})
  { s with tmp := { s.tmp with mbx := if s.tmp.mbx = some f then none else s.tmp.mbx } }

/-- PERST: PERST#, a loss of `PE_REFCLK`, a link-down event or a hot reset (20, R463). -/
def execPerst (s : State) : Out := .next (linkDown s)

/-- `HIF_LINK.FLIT`: always at 64 GT/s, never below 16 GT/s, as the partner decides between (20, Table 20-1; log 38). -/
def flitOf (s : State) (speed : Nat) : Nat × State :=
  if speed = 6 then (1, s)
  else if speed = 4 ∨ speed = 5 then
    let (k, s) := draw s
    ((Config.flitMode k).toNat, s)
  else (0, s)

/-- HOST_LINK_UP: the link settles at a speed code and a width once VPCIE is in regulation; while it is UP this is a
retraining, and configuration space reports the serial number (20, R462, Tables 20-1, 20-6; 21, R487). -/
def hostLinkUp (s : State) (speed width : Nat) : State :=
  if s.pwr.off || !bit s.pwr.rails 7 || !(decide (1 ≤ speed) && decide (speed ≤ 6)) || !(width == 1 || width == 4 || width == 8) then s
  else
    let (flit, s) := flitOf s speed
    let old := s.hif.link
    let r := if fld old 1 0 = 2 then bumpSat old 63 48 1 else old
    let r := setFld (setFld (setFld (setFld r 15 15 flit) 14 12 speed) 11 8 width) 1 0 2
    let s := emit (temperFns { s with hif := { s.hif with link := r } }) (.deviceSerial s.stk.serial)
    if speed < 4 ∨ width < 8 then raise s gHIF 2 speed none 0 else s
def execHostLinkUp (speed width : Nat) (s : State) : Out := .next (hostLinkUp s speed width)

/-- FLR: a Function Level Reset; one of a virtual function resets its hearth warm (20, R464). -/
def flr (s : State) (f : Nat) : State :=
  if !fnEnabled s f then s
  else
    let h := fnHearth s f
    let s := endFn s f
    let s := match h with
      | some k => hearthReset s k true
      | none => s
    let s := temperFns s
    raise s gHIF 6 f h (fnCode f)
def execFlr (f : FnId) (s : State) : Out := .next (flr s f.val)

/-- VF_ENABLE: the host sets VF Enable (20, R464). -/
def vfEnable (s : State) : State :=
  if fld s.hif.link 1 0 = 2 then temperFns { s with hif := { s.hif with vfEn := true } } else s
def execVfEnable (s : State) : Out := .next (vfEnable s)

/-- VF_ENABLE_CLEAR: every VF's state ends and no hearth is reset (20, R464). -/
def vfEnableClear (s : State) : State :=
  if s.hif.vfEn then
    let s := forEach ((List.range 16).map (· + 1)) s (fun f s => endFn s f)
    temperFns { s with hif := { s.hif with vfEn := false } }
  else s
def execVfEnableClear (s : State) : Out := .next (vfEnableClear s)

/-- D3HOT: D3hot stops the function's requests and leaves its hearth running (20, Table 20-1). -/
def d3hot (s : State) (f : Nat) (enter : Bool) : State :=
  if fnEnabled s f then modFn s f (fun x => { x with d3 := enter }) else s
def execD3hot (f : FnId) (enter : Bool) (s : State) : Out := .next (d3hot s f.val enter)

/-- HIF_IDE: a stream in use fails its integrity check and becomes Insecure (20, R472). -/
def ideFails (s : State) (i : Nat) : State :=
  let x := vget s.hif.ide i {}
  if x.fn.isSome && !x.insecure then
    raise { s with hif := { s.hif with ide := vput s.hif.ide i { x with insecure := true } } } gHIF 4 i none 0
  else s
def execHifIde (stream : Fin 32) (s : State) : Out := .next (ideFails s stream.val)

/-- IDE_KM: a stream comes into use for a function (20, Table 20-1, R472). -/
def ideKm (s : State) (i f : Nat) : State :=
  if fld s.hif.link 1 0 = 2 then { s with hif := { s.hif with ide := vput s.hif.ide i { fn := some f } } } else s
def execIdeKm (stream : Fin 32) (f : FnId) (s : State) : Out := .next (ideKm s stream.val f.val)

/-- A function may submit an image: a VF only HEARTH images of its own hearth (20, R471). -/
def maySubmit (s : State) (f : Nat) (b : List Byte) : Bool :=
  decide (f = 0) || (decide (iScope b = 1) && fnHearth s f == some (iHearth b))

/-- The Stoker logs a submission through a mailbox with `KEYID` zero and role none (18, R432; 20, R471). -/
def mbxAudit (s : State) (result : Nat) (b : List Byte) : State :=
  auditAdd s 0 0 3 result (if iScope b = 1 then some (iHearth b) else none) (leNat (shake256 b 32)) (iSerial b)

/-- GO: the device reads an image of `LEN` bytes from host memory and hands it to the Stoker (20, R471). -/
def go (s : State) (f : Nat) (image : List Byte) : State :=
  if !fnAlive s f then s
  else
    let x := vget s.hif.fns f {}
    let len := fld x.mbx1 31 0
    if bit x.mbx2 1 || decide (2 ^ 22 < len) then raise s gHIF 5 f (fnHearth s f) (fnCode f)
    else if !(hostReq s f).1 then (hostReq s f).2
    else
      let b := image.take len
      if !maySubmit s f b then
        let s := mbxAudit s 1 b
        let (i, s) := rejectIndex s none
        let s := raise s 0x0E tTARGET 0 (fnHearth s f) (fnCode f) (iSerial b) i
        let s := setTmp s (fun t => { t with code := tTARGET, rejects := min (2 ^ 32 - 1) (t.rejects + 1) })
        modFn s f (fun x => { x with mbx2 := BitVec.ofNat _ (tTARGET * 256) })
      else
        let s := modFn (mbxAudit s 0 b) f (fun x => { x with mbx2 := 2 })
        tmpSubmit s b (some f)
def execGo (f : FnId) (image : List Byte) (s : State) : Out := .next (go s f.val image)

end Sys2Proof.Machine
end

