-- ==== Sys2Proof/Machine/Pages.lean ====
section
/-! DEFINITION. The page walker: READK, READV, APPEND, SHARE, RELEASE and its ring stalls (08, R179 to R186; 10,
R240, R241). -/

namespace Sys2Proof.Machine

/-- Walker fault codes of Table 08-6. -/
def kvRANGE : Nat := 0xC0
def kvGAP : Nat := 0xC1
def kvSHARED : Nat := 0xC2
def kvNOFREE : Nat := 0xC3
def kvRELFULL : Nat := 0xC4
def kvRCSAT : Nat := 0xC5
def kvRCZERO : Nat := 0xC6
def kvDISABLED : Nat := 0xC7

/-! ### Geometry, index and entries (08, Table 08-5; 10, Tables 10-4 and 10-5) -/

/-- The operands of a page walk. -/
structure Walk where
  dir : BitVec 64
  dst : BitVec 64
  rsl : Nat
  fmt : Nat
  pages : Nat
  groups : Nat
  layers : Nat
  group : Nat
  layer : Nat
  pos : Nat
  n : Nat

def walkOf (x : Thread) (w : BWord) : Walk :=
  let g := breg x (Bw.rss w)
  let i := breg x (Bw.rts w)
  { dir := breg x (Bw.rs w), dst := breg x (Bw.rt w), rsl := fld g 55 53, fmt := fld g 52 48, pages := fld g 47 24
    groups := fld g 23 16 + 1, layers := fld g 15 0, group := fld i 55 48, layer := fld i 47 32, pos := fld i 31 0
    n := Bw.rows w }

/-- Bytes of a row, and of a frame (08, R179). -/
def Walk.row (k : Walk) : Nat := 64 * 2 ^ k.rsl
def Walk.frame (k : Walk) : Nat := max 65536 (512 * k.row)
/-- Address of entry i of a directory. -/
def entryAt (dir : BitVec 64) (i : Nat) : Nat := (dir + BitVec.ofNat 64 (8 * i)).toNat
/-- Page and directory index of position i of the walk, or of its entry i for SHARE and RELEASE. -/
def Walk.page (k : Walk) (i : Nat) : Nat := (k.pos + i) / 256
def Walk.idx (k : Walk) (i : Nat) : Nat := (k.layer * k.groups + k.group) * k.pages + k.page i
def Walk.page' (k : Walk) (i : Nat) : Nat := k.pos + i / (k.layers * k.groups)
def Walk.idx' (k : Walk) (i : Nat) : Nat := i % (k.layers * k.groups) * k.pages + k.page' i

/-- A page-table entry. -/
def mkEntry (cow : Bool) (fill frame : Nat) : Nat := 2 ^ 63 + b2n cow * 2 ^ 62 + fill % 512 * 2 ^ 53 + frame % 2 ^ 25
def eV (e : Nat) : Bool := bit (BitVec.ofNat 64 e) 63
def eCOW (e : Nat) : Bool := bit (BitVec.ofNat 64 e) 62
def eFILL (e : Nat) : Nat := fld (BitVec.ofNat 64 e) 61 53
def eFRAME (e : Nat) : Nat := fld (BitVec.ofNat 64 e) 24 0

/-- Words that the walker reads: the state, and the number. One that must wait makes the operation wait, with nothing of it
done; the word of a poisoned sector is never used (log 57). -/
def walkRead (s : State) (h a n ea : Nat) (hint : Hint := .noalloc) : Except RowPlan (Nat × State) :=
  match devRead s (some h) hint a n [] with
  | none => .error (.wait s)
  | some (s, bs, p) => if p.isEmpty then .ok (leNat bs, s) else .error (.fault bPOISON 0 ea)
def readEntry (s : State) (h a : Nat) : Except RowPlan (Nat × State) := walkRead s h (gLoc a) 8 a .alloc

/-- A write by the walker. -/
def walkWrite (s : State) (h a : Nat) (bs : List Byte) : Except RowPlan State :=
  match devWrite s (some h) .noalloc a bs [] with
  | none => .error (.wait s)
  | some s => .ok s
def writeEntry (s : State) (h a e : Nat) : Except RowPlan State := walkWrite s h (gLoc a) (leBytes 8 e)

/-- An APPEND is under way on the entry (08, R184). -/
def entryBusy (s : State) (h ea : Nat) : Bool := (look? (hearthAt s h).mem.kvLocks (gLoc ea)).isSome

/-- The request that reading an entry costs (10, R241): the walker has its bytes. -/
def entryReq (th : ThreadId) (g a e : Nat) : Req :=
  { core := th.core.val, thr := th.thr.val, src := gLoc a / 32 * 32, srcDev := none, len := 32, dst := .none, hint := .alloc
    grp := g, data := leBytes 8 e }

/-! ### Rings and counts (08, R183, R185) -/

def modMem (s : State) (h : Nat) (f : HMem → HMem) : State := modHearth s h (fun x => { x with mem := f x.mem })

/-- Entries between HEAD and TAIL. -/
def ringLen (p : Reg) : Nat := (fld p 63 32 + 2 ^ 32 - fld p 31 0) % 2 ^ 32
/-- Address of entry i of a ring. -/
def ringAddr (cfg : Reg) (i : Nat) : Nat := fld cfg 43 12 * 4096 + 4 * (i % 2 ^ fld cfg 4 0)

def freeEmpty (s : State) (h : Nat) : Bool := ringLen (hearthAt s h).mem.kvfptr == 0
def relFull (s : State) (h : Nat) : Bool :=
  decide (2 ^ fld (hearthAt s h).mem.kvrel 4 0 ≤ ringLen (hearthAt s h).mem.kvrptr)

/-- Pop of the free ring. -/
def popFree (s : State) (h : Nat) : Except RowPlan (Nat × State) := do
  let m := (hearthAt s h).mem
  let a := ringAddr m.kvfree (fld m.kvfptr 31 0)
  if freeEmpty s h then .error (.stall false)
  else if !reach s (some h) a 4 then .error (.fault bRANGE 2 0)
  else
    let (f, s) ← walkRead s h a 4 0
    .ok (f % 2 ^ 25, modMem s h (fun m => { m with kvfptr := bumpMod m.kvfptr 31 0 1, kvcnt := bumpMod m.kvcnt 63 32 1 }))

/-- Address of a frame's count. -/
def rcAddr (s : State) (h f : Nat) : Nat := fld (hearthAt s h).mem.kvrc 43 16 * 65536 + 2 * f
def setRc (s : State) (h f v : Nat) : Except RowPlan State := walkWrite s h (rcAddr s h f) (leBytes 2 v)

/-- Increment of a count. -/
def incFrame (s : State) (h f ea : Nat) : Except RowPlan State := do
  if !reach s (some h) (rcAddr s h f) 2 then .error (.fault bRANGE 2 ea)
  else
    let (c, s) ← walkRead s h (rcAddr s h f) 2 ea
    if 65535 ≤ c then .error (.fault kvRCSAT 0 ea) else setRc s h f (c + 1)

/-- Decrement of a count; at zero the frame goes to the release ring. -/
def decFrame (s : State) (h f ea : Nat) : Except RowPlan State := do
  let m := (hearthAt s h).mem
  let a := ringAddr m.kvrel (fld m.kvrptr 63 32)
  if !reach s (some h) (rcAddr s h f) 2 then .error (.fault bRANGE 2 ea)
  else
    let (c, s) ← walkRead s h (rcAddr s h f) 2 ea
    if c = 0 then .error (.fault kvRCZERO 0 ea)
    else if 1 < c then setRc s h f (c - 1)
    else if relFull s h then .error (.stall true)
    else if !reach s (some h) a 4 then .error (.fault bRANGE 2 ea)
    else
      let s ← setRc s h f 0
      let s ← walkWrite s h a (leBytes 4 f)
      .ok (modMem s h (fun m => { m with kvrptr := bumpMod m.kvrptr 63 32 1 }))

/-! ### APPEND (08, R181) -/

/-- A frame lies in deep memory within the hearth's reach, aligned to its own size (08, R179; log 57). -/
def frameOk (s : State) (h : Nat) (k : Walk) (f : Nat) : Bool :=
  reach s (some h) (f * 65536) k.frame && decide (f * 65536 % k.frame = 0) &&
  (match place (f * 65536) with
    | .deep _ => true
    | _ => false)

/-- Bytes of a frame, with the poison of each sector, moved to another frame (09, R214). -/
def copyBytes (s : State) (h src dst n : Nat) : Except RowPlan State :=
  match devCopy s (some h) .noalloc src dst n with
  | none => .error (.wait s)
  | some s => .ok s

/-- A new frame with rows 0 to s - 1 of another, all other rows zero. -/
def newFrame (s : State) (h : Nat) (k : Walk) (from' : Option Nat) (rows ea : Nat) : Except RowPlan (Nat × State) := do
  let (f, s) ← popFree s h
  if !frameOk s h k f || !reach s (some h) (rcAddr s h f) 2 then .error (.fault bRANGE 1 ea)
  else
    let s ← walkWrite s h (f * 65536) (List.replicate (512 * k.row) 0)
    let s ← setRc s h f 1
    match from' with
    | none => .ok (f, s)
    | some g =>
      if !frameOk s h k g then .error (.fault bRANGE 0 ea)
      else
        let n := rows * k.row
        let s ← copyBytes s h (g * 65536) (f * 65536) n
        let s ← copyBytes s h (g * 65536 + 256 * k.row) (f * 65536 + 256 * k.row) n
        let s := modMem s h (fun m => { m with kvcnt := bumpMod m.kvcnt 31 0 1 })
        let s ← decFrame s h g ea
        .ok (f, s)

/-- APPEND's work on its entry e at row r: the frame, the entry that the rows complete, state. -/
def appendEntry (s : State) (h : Nat) (k : Walk) (ea r e : Nat) : Except RowPlan (Nat × Nat × State) := do
  let (cow, fill, f, s) ←
    if !eV e then
      if r ≠ 0 then .error (.fault kvGAP 0 ea)
      else do
        let (f, s) ← newFrame s h k none 0 ea
        .ok (false, 0, f, s)
    else if eCOW e then
      if r < eFILL e then .error (.fault kvSHARED 0 ea)
      else if eFILL e < r then .error (.fault kvGAP 0 ea)
      else do
        let (f, s) ← newFrame s h k (some (eFRAME e)) r ea
        .ok (false, r, f, s)
    else .ok (false, eFILL e, eFRAME e, s)
  if fill < r then .error (.fault kvGAP 0 ea)
  else if !frameOk s h k f then .error (.fault bRANGE 1 ea)
  else .ok (f, mkEntry cow (if r = fill then r + 1 else fill) f, s)

/-- A plan from an operation; one that waits or stalls leaves everything as it was before it (08, R186). -/
def planOf {α : Type} (s0 : State) (e : Except RowPlan α) (f : α → RowPlan) : RowPlan :=
  match e with
  | .error (.wait _) => .wait s0
  | .error p => p
  | .ok a => f a

/-- Position i of an APPEND. Its rows travel as requests; the entry becomes what they make it once they have committed, and
no other operation on the entry starts before (08, R181, R184). -/
def appendRow (th : ThreadId) (h : Nat) (k : Walk) (hint : Hint) (g : Nat) (x : Thread) (s : State) (i aux : Nat) : RowPlan :=
  let p := k.page i
  let r := (k.pos + i) % 256
  let ea := entryAt k.dir (k.idx i)
  if k.pages ≤ p then .fault kvRANGE 0 ea
  else if !lOk s h ea 8 then .fault bRANGE 2 ea
  else if entryBusy s h ea then .wait s
  else planOf s (do
      let (e, s) ← readEntry s h ea
      appendEntry s h k ea r e) (fun (f, e, s) =>
    let key := (k.dst + BitVec.ofNat 64 (i * k.row)).toNat
    let val := (k.dst + BitVec.ofNat 64 ((k.n + i) * k.row)).toNat
    let held := if aux = 0 then x.entry.any (fun e => e.1 == ea) else aux / 2 ^ 64 == ea + 1
    let read := if held then [] else [entryReq th g ea e]
    let s := modMem s h (fun m => { m with kvLocks := put m.kvLocks (gLoc ea) e })
    .ok s (read ++ (rowReqs s th g hint key (ofLoc (f * 65536 + r * k.row)) k.row ++
      rowReqs s th g hint val (ofLoc (f * 65536 + (256 + r) * k.row)) k.row).map (fun q => { q with ent := some (gLoc ea) })) ((ea + 1) * 2 ^ 64 + e))

/-! ### READK and READV (10, R240) -/

/-- Position i of a READK or READV; `aux` holds the entry last read and its address plus one, at first the one that the
thread kept (10, R241). -/
def readRowOf (th : ThreadId) (h : Nat) (k : Walk) (val : Bool) (hint : Hint) (g : Nat) (x : Thread) (s : State) (i aux : Nat) : RowPlan :=
  let r := (k.pos + i) % 256
  let ea := entryAt k.dir (k.idx i)
  let dst := (k.dst + BitVec.ofNat 64 (i * k.row)).toNat
  if k.pages ≤ k.page i then .fault kvRANGE 0 ea
  else if !lOk s h ea 8 then .fault bRANGE 2 ea
  else
    let held := if aux ≠ 0 then (if aux / 2 ^ 64 = ea + 1 then some (aux % 2 ^ 64) else none)
      else (x.entry.filter (fun e => e.1 == ea)).map (·.2)
    planOf s (match held with
      | some e => .ok (e, s)
      | none => readEntry s h ea) (fun (e, s) =>
    let read := if held.isSome then [] else [entryReq th g ea e]
    let aux := (ea + 1) * 2 ^ 64 + e
    if !eV e then
      .ok s (read ++ (rowReqs s th g hint dst dst k.row).map (fun q => { q with zero := true, srcDev := none })) aux
    else
      let src := ofLoc (eFRAME e * 65536 + ((if val then 256 else 0) + r) * k.row)
      if !lOk s h src k.row || !frameOk s h k (eFRAME e) then .fault bRANGE 0 ea
      else .ok s (read ++ rowReqs s th g hint src dst k.row) aux)

/-- The first check that a row of a READK or READV would fail as the entries stand: it has then no effect at all (10,
R248). -/
def readBad (s : State) (h : Nat) (k : Walk) (x : Thread) : Option (Nat × Nat × Nat) :=
  (List.range k.n).findSome? (fun i =>
    let ea := entryAt k.dir (k.idx i)
    if k.pages ≤ k.page i then some (kvRANGE, 0, ea)
    else if !lOk s h ea 8 then some (bRANGE, 2, ea)
    else
      let kept := x.entry.filter (fun e => e.1 == ea && decide (ea = entryAt k.dir (k.idx 0)))
      let e := (kept.map (·.2)).getD (leNat (readMem s.mem (gLoc ea) 8))
      if eV e && !frameOk s h k (eFRAME e) then some (bRANGE, 0, ea) else none)

/-! ### SHARE and RELEASE (08, R182) -/

/-- The entry e gives up its frame. -/
def releaseEntry (s : State) (h ea e : Nat) : Except RowPlan State :=
  if eV e then do
    let s ← decFrame s h (eFRAME e) ea
    writeEntry s h ea 0
  else .ok s

/-- Entry i of a RELEASE. -/
def releaseRow (th : ThreadId) (h : Nat) (k : Walk) (g : Nat) (_x : Thread) (s : State) (i aux : Nat) : RowPlan :=
  let ea := entryAt k.dir (k.idx' i)
  if k.pages ≤ k.page' i then .fault kvRANGE 0 ea
  else if !lOk s h ea 8 then .fault bRANGE 2 ea
  else if entryBusy s h ea then .wait s
  else planOf s (do
      let (e, s) ← readEntry s h ea
      let s ← releaseEntry s h ea e
      .ok (e, s)) (fun (e, s) => .ok s [entryReq th g ea e] aux)

/-- Entry i of a SHARE. -/
def shareRow (th : ThreadId) (h : Nat) (k : Walk) (g : Nat) (_x : Thread) (s : State) (i aux : Nat) : RowPlan :=
  let ea := entryAt k.dir (k.idx' i)
  let da := entryAt k.dst (k.idx' i)
  if k.pages ≤ k.page' i then .fault kvRANGE 0 ea
  else if !lOk s h ea 8 ∨ !lOk s h da 8 then .fault bRANGE 2 ea
  else if entryBusy s h ea ∨ entryBusy s h da then .wait s
  else planOf s (do
      let (e, s) ← readEntry s h ea
      if eV e then
        let s ← incFrame s h (eFRAME e) ea
        let s ← writeEntry s h ea (mkEntry true (eFILL e) (eFRAME e))
        let (d, s) ← readEntry s h da
        let s ← if eV d then decFrame s h (eFRAME d) ea else .ok s
        let s ← writeEntry s h da (mkEntry true (eFILL e) (eFRAME e))
        .ok (e, d, s)
      else
        let (d, s) ← readEntry s h da
        let s ← releaseEntry s h da d
        .ok (e, d, s)) (fun (e, d, s) => .ok s [entryReq th g ea e, entryReq th g da d] aux)

/-! ### The instruction -/

/-- Checks that every page walk makes at issue (10, R240; 08, R179, R186). -/
def walkChk (s : State) (h : Nat) (w : BWord) (k : Walk) (usesDst : Bool) : List (Bool × Nat × Nat) :=
  [(!bit (hearthAt s h).mem.kvcfg 0, kvDISABLED, 0),
   (Bw.hnt w == 3, bRSVD, 23),
   (decide (4 < k.rsl), bRSVD, 53),
   (!(k.fmt == E4M3 || k.fmt == E5M2 || k.fmt == BF16 || k.fmt == FP16), bRSVD, 48),
   (odd32 k.dir || (usesDst && odd32 k.dst), bALIGN, 0),
   (decide (k.layers ≤ k.layer) || decide (k.groups ≤ k.group), kvRANGE, 0)]

/-- Words PGW with an operation number; one above 4 is reserved, and any page-walk command meets it. -/
def isPgw (n : Nat) (w : BWord) : Bool := Bw.op w == 0x24 && (Bw.scl w == n || decide (4 < Bw.scl w))

/-- A page walk's last entry stays with the thread (10, R241). -/
def keepEntry (x : Thread) : Thread :=
  if x.aux / 2 ^ 64 = 0 then { x with entry := none } else { x with entry := some (x.aux / 2 ^ 64 - 1, x.aux % 2 ^ 64) }

/-- READK and READV. -/
def thRead (th : ThreadId) (val : Bool) (s : State) (h : Nat) (x : Thread) (w : BWord) : TRes :=
  let k := walkOf x w
  let dst := fun i => (k.dst + BitVec.ofNat 64 (i * k.row)).toNat
  if 4 < Bw.scl w then .fault s bRSVD 12 0
  else moveExec th w {
    rows := k.n
    chk := fun s => walkChk s h w k true ++ [
      (anyRow k.n (fun i => !gOk s h (dst i) k.row), bRANGE, 1),
      (Bw.lv w == 1 && anyRow k.n (fun i => !isLocal s (dst i)), bLV, 0)]
    begin' := fun s _ _ => match readBad s h k x with
      | some e => .error e
      | none => .ok (s, 0, [])
    plan := readRowOf th h k val (hintOf (Bw.hnt w))
    mask := landMask s th.tile (dst 0)
    finish := keepEntry } s h x

/-- APPEND. -/
def thAppend (th : ThreadId) (s : State) (h : Nat) (x : Thread) (w : BWord) : TRes :=
  let k := walkOf x w
  let src := fun i => (k.dst + BitVec.ofNat 64 (i * k.row)).toNat
  if 4 < Bw.scl w then .fault s bRSVD 12 0
  else moveExec th w {
    rows := k.n
    chk := fun s => walkChk s h w k true ++ [(anyRow (2 * k.n) (fun i => !gOk s h (src i) k.row), bRANGE, 0)]
    plan := appendRow th h k (hintOf (Bw.hnt w))
    mask := some (1#32 <<< th.tile.val)
    finish := keepEntry } s h x

/-- SHARE and RELEASE. -/
def thShare (th : ThreadId) (rel : Bool) (s : State) (h : Nat) (x : Thread) (w : BWord) : TRes :=
  let k := walkOf x w
  if 4 < Bw.scl w then .fault s bRSVD 12 0
  else moveExec th w {
    rows := k.n * (k.layers * k.groups)
    chk := fun s => walkChk s h w k !rel
    plan := fun g => if rel then releaseRow th h k g else shareRow th h k g
    mask := some (1#32 <<< th.tile.val)
    finish := fun x => { x with entry := none } } s h x

/-! ### Ring stalls (08, R185) -/

/-- The entry at which a thread's page walk stands. -/
def stallEntry (x : Thread) (w : BWord) : Nat :=
  let k := walkOf x w
  if Bw.scl w = 2 then entryAt k.dir (k.idx x.step) else entryAt k.dir (k.idx' x.step)

/-- A stall on a ring has lasted 2^RTMO fc. -/
def stallFault (s : State) (th : ThreadId) (rel : Bool) (code : Nat) : State :=
  match threadAt (tileAt s th.tile) th.core th.thr, tileHearth s th.tile with
  | some x, some h => match x.stall with
    | some (r, since) =>
      let bad := if rel then relFull s h else freeEmpty s h
      if r = rel ∧ bad ∧ since + 2 ^ fld (hearthAt s h).mem.kvcfg 13 8 ≤ fc s then
        thFault s th code 0 (stallEntry x (look (tileAt s th.tile).blw.prog x.pc 0))
      else s
    | none => s
  | _, _ => s

/-- KVP_RING_RESUME. -/
def ringResume (s : State) (th : ThreadId) : State :=
  match threadAt (tileAt s th.tile) th.core th.thr, tileHearth s th.tile with
  | some x, some h => match x.stall with
    | some (rel, _) =>
      if (if rel then relFull s h else freeEmpty s h) then s
      else setThread s th.tile th.core th.thr (some { x with stall := none })
    | none => s
  | _, _ => s

/-! ### Commands -/

/-- READK. -/
def execReadk (th : ThreadId) (s : State) : Out := .next (thRun th (isPgw 0) (thRead th false) s)
/-- READV. -/
def execReadv (th : ThreadId) (s : State) : Out := .next (thRun th (isPgw 1) (thRead th true) s)
/-- APPEND. -/
def execAppend (th : ThreadId) (s : State) : Out := .next (thRun th (isPgw 2) (thAppend th) s)
/-- SHARE. -/
def execShare (th : ThreadId) (s : State) : Out := .next (thRun th (isPgw 3) (thShare th false) s)
/-- RELEASE_PAGES. -/
def execReleasePages (th : ThreadId) (s : State) : Out := .next (thRun th (isPgw 4) (thShare th true) s)
/-- KVP_NOFREE. -/
def execKvpNofree (th : ThreadId) (s : State) : Out := .next (stallFault s th false kvNOFREE)
/-- KVP_RELFULL. -/
def execKvpRelfull (th : ThreadId) (s : State) : Out := .next (stallFault s th true kvRELFULL)
/-- KVP_RING_RESUME. -/
def execKvpRingResume (th : ThreadId) (s : State) : Out := .next (ringResume s th)

end Sys2Proof.Machine
end

