-- ==== Sys2Proof/Machine/Regs.lean ====
section
/-! DEFINITION. Accesses of software: control registers, deep memory and scratch windows, and the host's BARs
(00, R9, R11, R14; 09, R195, R200, R201, R207; 20, R465, R466, R472). -/

namespace Sys2Proof.Machine

/-! ### Reach -/

/-- An agent of a hearth may reach a word of the control region (09, R201; 13, R308; 17, R418). -/
def unitLoc (s : State) (a : Agent) (l : Loc) : Bool :=
  match l with
  | .tile t _ | .blw t _ => mayTile s a t
  | .hearth h _ | .hwork h _ => mayHearth s a h
  | .ctr c _ => mayCtr s a c
  | .queue q _ => mayQueue s a q
  | _ => false

/-- Who reaches a word of the control region (09, R200, R201; 20, R466, Table 20-4). -/
def mayLoc (s : State) (a : Agent) (l : Loc) : Bool :=
  match a with
  | .stoker => decide (l ≠ .gap)
  | .host f =>
    if f.val = 0 then decide (l ≠ .gap)
    else unitLoc s a l || (match l with
      | .plat o => decide (o = 0x280000)
      | .fpage g _ => decide (g = f.val)
      | _ => false)
  | .remote _ => false
  | .port _ => false
  | _ => unitLoc s a l || (match l with
      | .port _ o => decide (0x1000 ≤ o) && decide (o < 0x1200) && mayHearth s a ((o - 0x1000) / 32)
      | .plat o => decide (o = 0x180008) && mayCommit s a
      | _ => false)

/-- Naturally aligned, 32 or 64 bits (00, R14). -/
def alignedReg (addr size : Nat) : Bool := (size == 4 || size == 8) && addr % size == 0

/-- Bits of a 64-bit word that an access of `size` bytes covers. -/
def enBits (addr size : Nat) : BitVec 64 :=
  if size = 8 then BitVec.allOnes 64 else if addr % 8 = 4 then ones 64 63 32 else ones 64 31 0

/-! ### Reads -/

/-- A read of a control register: the bytes, whether they are poisoned, and the state after it. -/
def regRead (s : State) (a : Agent) (addr size : Nat) : List Byte × Bool × State :=
  let l := locOf ((addr - ctlBase) / 8 * 8)
  if !mayLoc s a l then (List.replicate size 0, true, misuse s SYS_UNMAPPED a addr)
  else if !alignedReg addr size then (List.replicate size 0xFF, false, misuse s SYS_ALIGN a addr)
  else (leBytes size (readLoc s l / 256 ^ (addr % 8)), false, s)

/-! ### Writes of words with a behaviour of their own -/

/-- The word's value after a write of the bits `en`. -/
def merged (s : State) (l : Loc) (v en : BitVec 64) : BitVec 64 :=
  (BitVec.ofNat 64 (readLoc s l) &&& ~~~en) ||| (v &&& en)

/-- `BLW_CSCTL` (10, R233). -/
def csWrite (s : State) (a : Agent) (t : Nat) (v en : BitVec 64) : State :=
  tileWrite s a t (blwReg t 0x38) (fun s =>
    let word := if bit en 32 then fld v 63 32 else csWord s t
    let s := if bit en 32 ∧ csState s t ≠ csRunning then modBlw s t (fun b => { b with csCtl := setFld b.csCtl 63 32 word }) else s
    let go := bit en 0 && bit v 0
    let s := if go then (if bit v 2 then csResume s a t word else csFresh s a t word) else s
    if bit en 1 && bit v 1 then csStop s a t else s)

/-- `MTL_OP` (09, R211). -/
def mtlWrite (s : State) (a : Agent) (h : Nat) (v en : BitVec 64) : State :=
  if !bit en 0 then s
  else if (hearthAt s h).run.mtl.isSome then misuse s SYS_BUSY a (hearthReg h 0x308)
  else
    let s := writeFields s (.hearth h 0x308) [] [(2, 2)] v en
    if fld v 1 0 = 1 then mtlStart s a h false else if fld v 1 0 = 2 then mtlStart s a h true else s

/-- Both words of a wait slot (11, R261). -/
def waitSlotWrite (s : State) (a : Agent) (h o : Nat) (v en : BitVec 64) : State :=
  let i := (o - 0x600) / 16
  if o % 16 = 0 then
    if wsSt (hearthAt s h) i = 1 then misuse s SYS_BUSY a (hearthReg h o)
    else writeFields s (.hearth h o) (maskHearth o).rw [] v en
  else
    let s := if bit en 0 && bit v 0 then armSlot s a h i v.toNat else writeFields s (.hearth h o) (maskHearth o).rw [] v en
    if bit en 0 && bit v 1 then cancelSlot s a h i else s

/-- `CHK_ERING.HEAD`: the Stoker has taken the records before it (15, Table 15-21). -/
def headWrite (s : State) (v : Nat) : State :=
  let q := s.recs
  let n := (v + 2 ^ 32 - q.head) % 2 ^ 32
  if n ≤ q.ring.length then
    let k := min n q.overflow.length
    { s with recs := { q with ring := q.ring.drop n ++ q.overflow.take k, overflow := q.overflow.drop k, head := v, tail := (q.tail + k) % 2 ^ 32
                              taken := if n = 0 then q.taken else fc s, silent := q.silent && decide (n = 0) } }
  else s

/-- `HIF_ERING` word 0 while the ring is in use (20, R470), and `IDEREQ`, which the PF alone writes (20, R472). -/
def pageWrite (s : State) (a : Agent) (f o : Nat) (v en : BitVec 64) : State :=
  let adr := ctlBase + 0x30281000 + f * 0x1000 + o
  if o = 0x10 ∧ bit (vget s.hif.fns f {}).ering1 0 then misuse s SYS_BUSY a adr
  else if o = 0 ∧ a ≠ .host 0 then s
  else if o = 0x50 then
    if bit en 0 && bit v 0 then
      let (b, s) := hostBytes s (fld (vget s.hif.fns f {}).mbx1 31 0)
      go s f b
    else s
  else writeFields s (.fpage f o) (maskPage o).rw [] v en

/-- `BLW_KVFPTR.TAIL`: the producer of the free ring stays within the ring (08, R185; 00, R2). -/
def freeTail (s : State) (a : Agent) (h v : Nat) : State :=
  let m := (hearthAt s h).mem
  if 2 ^ fld m.kvfree 4 0 < (v + 2 ^ 32 - fld m.kvfptr 31 0) % 2 ^ 32 then misuse s SYS_OBLIG a (hearthReg h 0x218)
  else modHearth s h (fun x => { x with mem := { x.mem with kvfptr := setFld x.mem.kvfptr 63 32 v } })

/-- The behaviour of a word of a hearth's control block beside its stored fields. -/
def hearthWrite (s : State) (a : Agent) (h o : Nat) (v en : BitVec 64) : State :=
  let lo := bit en 0
  if o = 0x308 then mtlWrite s a h v en
  else if o = 0x218 then (if bit en 32 then freeTail s a h (fld v 63 32) else s)
  else if o = 0x400 then (if lo then softWrite s a h (bit v 0) (bit v 1) else s)
  else if 0x600 ≤ o ∧ o < 0x800 then waitSlotWrite s a h o v en
  else if 0xC00 ≤ o ∧ o < 0x1000 then grpWrite s a h ((o - 0xC00) / 16) (o / 8 % 2) (merged s (.hearth h o) v en).toNat
  else if o = 0x1008 then (if lo && bit v 1 then flipGen s h a.code else s)
  else if o = 0x1108 then modChk s h (fun c => { c with epochReq := (c.epochReq &&& ~~~en) ||| (v &&& en) })
  else if o = 0x1110 then
    let s := if lo && bit v 0 then chkOpen s a h else s
    if lo && bit v 1 then chkClose s a h else s
  else writeFields s (.hearth h o) (maskHearth o).rw (maskHearth o).w1c v en

/-- The effect of a write on the fields that are not RWL. Several action bits act from the lowest up (log 8). -/
def locWrite (s : State) (a : Agent) (l : Loc) (v en : BitVec 64) : State :=
  let plain := fun (s : State) => writeFields s l (maskLoc l).rw (maskLoc l).w1c v en
  match l with
  | .tile t o => tileWrite s a t (anvReg t o) plain
  | .blw t o =>
    if o = 0x18 then (if bit en 0 then blwLaunch s a t (fld v 31 0) else s)
    else if o = 0x38 then csWrite s a t v en
    else tileWrite s a t (blwReg t o) plain
  | .hearth h o => hearthWrite s a h o v en
  | .port p o =>
    let h := (o - 0x1000) / 32
    if 0x1000 ≤ o ∧ o < 0x1200 ∧ o / 8 % 4 = 1 then (if bit en 32 then ringPost s a p h (fld v 63 32) else s)
    else if 0x1000 ≤ o ∧ o < 0x1200 ∧ o / 8 % 4 = 2 then (if bit en 16 && bit v 16 then ringRestart s a p h else s)
    else plain s
  | .ctr c o =>
    if o = 0x8 then synInc s a c (v &&& en)
    else if o = 0x18 then (if bit en 0 && (bit v 0 || bit v 1) then synOwn s a c (bit v 0) (bit v 1) else s)
    else plain s
  | .queue q o =>
    if o = 0x18 then (if bit en 32 then tailWrite s a q (fld v 63 32) else s)
    else if o = 0x30 then retWrite s a q (merged s l v en).toNat
    else if o = 0x38 then (if bit en 16 && bit v 16 then queueResume s a q else s)
    else s
  | .hwork h o =>
    if o = 0x8 then
      let s := if bit en 0 && bit v 0 then hctlPreempt s a h else s
      if bit en 0 && bit v 1 then hctlResume s a h else s
    else plain s
  | .plat o =>
    if o = 0x180008 then (if bit en 0 && bit v 0 then ctlCommit s a else s) else s
  | .fpage f o => pageWrite s a f o v en
  | _ => plain s

/-- Fields that the Stoker alone writes: for any other agent the write has no effect and is misuse (15, Table 15-24;
20, R466). -/
def stokerWrite (s : State) (a : Agent) (l : Loc) (addr : Nat) (v en : BitVec 64) : State :=
  let m := stokerMask l
  if bitsOf m &&& en = 0 then s
  else if a ≠ .stoker then misuse s SYS_RWL a addr
  else if l = .plat 0x100000 then headWrite s (fld v 31 0)
  else writeFields s l m [] v en

/-- RWL fields: writable until the hearth's Temper commit, misuse after it (00, R11, Table 00-5). -/
def rwlWrite (s : State) (a : Agent) (l : Loc) (addr : Nat) (v en : BitVec 64) : State :=
  let m := (maskLoc l).rwl
  if bitsOf m &&& en = 0 then s
  else if lockedLoc s l then misuse s SYS_RWL a addr
  else writeFields s l m [] v en

/-- A write of a control register (00, R11, R14; 09, R200, R201). One that sets a reserved bit breaks an obligation whose
outcome no chapter states, and is refused (00, R2, Table 00-5; 15, Table 15-24). -/
def regWrite (s : State) (a : Agent) (addr size value : Nat) : State :=
  let l := locOf ((addr - ctlBase) / 8 * 8)
  if !mayLoc s a l then misuse s SYS_UNMAPPED a addr
  else if !alignedReg addr size then misuse s SYS_ALIGN a addr
  else
    let en := enBits addr size
    let v : BitVec 64 := BitVec.ofNat 64 (value * 256 ^ (addr % 8)) &&& en
    if v &&& rsvdBits l ≠ 0 then misuse s SYS_OBLIG a addr
    else locWrite (rwlWrite (stokerWrite s a l addr v en) a l addr v en) a l v en

/-! ### Deep memory and scratch windows -/

/-- Bytes of memory that an agent may reach (09, R201; 20, R466). -/
def mayMem (s : State) (a : Agent) (addr n : Nat) : Bool :=
  match a with
  | .stoker => reach s none addr n
  | .host f => if f.val = 0 then reach s none addr n else (fnHearth s f.val).any (fun h => reach s (some h) addr n)
  | .remote _ => false
  | .port _ => false
  | _ => (agentHearth s a).any (fun h => reach s (some h) addr n)

/-- Poisoned completions that a function was sent (20, R466, Table 20-10). -/
def countPoison (s : State) (a : Agent) (ps : List Nat) : State :=
  match a with
  | .host f => if ps.isEmpty then s else modFn s f.val (fun x => { x with stat := bumpSat x.stat 31 16 1 })
  | _ => s

/-- A load, store or host access to memory (09, R195, R207, R209). One that needs a mantel tile and finds none
waits. -/
def memAccess (s : State) (a : Agent) (addr len : Nat) (wr : Bool) (data : List Byte) (hint : Hint) (ecc : EccHits) : State :=
  let bs := data.take len
  let n := if wr then bs.length else len
  let hint := match a with | .host _ => .noalloc | _ => hint
  let line := match a with | .hob c => some c.val | _ => none
  let h := agentHearth s a
  if n = 0 then s
  else if !mayMem s a addr n then
    let s := misuse s SYS_UNMAPPED a addr
    if wr then s else emit s (.readData a (List.replicate n 0) (sectors addr n))
  else
    let wait := waitTile s { agent := a, hearth := h.getD 255, addr := addr, len := n, wr := wr, data := if wr then bs else [], poison := [], hint := hint }
    if wr then (devWrite s h hint addr bs [] line ecc).getD wait
    else match devRead s h hint addr n ecc line with
      | some r => emit (countPoison r.1 a r.2.2) (.readData a r.2.1 r.2.2)
      | none => wait

/-- REGISTER_WRITE; at an address that is no control register it is a store. -/
def registerWrite (s : State) (a : Agent) (addr size value : Nat) : State :=
  if s.pwr.off then s
  else match place addr with
    | .ctl _ => regWrite s a addr size value
    | _ => memAccess s a addr size true (leBytes size value) .noalloc []
def execRegisterWrite (a : Agent) (addr size value : Nat) (s : State) : Out := .next (registerWrite s a addr size value)

/-- A read of a control register as software sees it: the bytes, poisoned where it had no effect. -/
def regLoad (s : State) (a : Agent) (addr n : Nat) : State :=
  let (b, p, s) := regRead s a addr n
  emit s (.readData a b (if p then sectors addr n else []))

/-- MEMORY_ACCESS; at an address of the control region it reads or writes a register. -/
def memoryAccess (s : State) (a : Agent) (addr len : Nat) (wr : Bool) (data : List Byte) (hint : Hint) (ecc : EccHits) : State :=
  if s.pwr.off then s
  else match place addr with
    | .ctl _ => if wr then regWrite s a addr len (leNat (data.take len)) else regLoad s a addr len
    | _ => memAccess s a addr len wr data hint ecc
def execMemoryAccess (a : Agent) (addr len : Nat) (wr : Bool) (data : List Byte) (hint : Hint) (ecc : EccHits) (s : State) : Out :=
  .next (memoryAccess s a addr len wr data hint ecc)

/-! ### BARs (20, R463, R465, R466, R472, Table 20-3) -/

/-- A request of the host to a function arrives: the function answers, and IDE allows it. -/
def barOk (s : State) (f : Nat) (ide : Bool) : Bool × State :=
  let x := vget s.hif.fns f {}
  let secure := s.hif.ide.toList.any (fun k => k.fn == some f && !k.insecure)
  if s.pwr.off || !fnEnabled s f || x.d3 || !bootEnded s 8 then (false, s)
  else if (if ide then secure else !bit x.fn 2) then (true, s)
  else (false, modFn s f (fun x => { x with stat := bumpSat x.stat 15 0 1 }))

/-- The MSI-X table and pending bits of a function: the table is kept as written. -/
def msixAccess (s : State) (f : FnId) (off size : Nat) (wr : Bool) (value : Nat) : State :=
  if wr then modFn s f.val (fun x => { x with
    msix := ((leBytes size value).zipIdx off).foldl (fun l e => if e.2 < 0x8000 then put l e.2 e.1 else l) x.msix })
  else emit s (.readData (.host f) ((List.range size).map (fun i => look (vget s.hif.fns f.val {}).msix (off + i) 0)) [])

/-- A read that was refused, or that a warm reset keeps from its target: zero data marked poisoned. -/
def noData (s : State) (f : FnId) (addr size : Nat) (wr : Bool) : State :=
  if wr then s else emit s (.readData (.host f) (List.replicate size 0) (sectors addr size))

/-- BAR_ACCESS. -/
def barAccess (s : State) (f : FnId) (bar off size : Nat) (wr : Bool) (value : Nat) (ide : Bool) : State :=
  let r := barOk s f.val ide
  let s := r.2
  if !r.1 then s
  else if s.pwr.bootWarm then noData s f off size wr
  else if bar = 0 ∧ off < 2 ^ 30 then
    (if wr then regWrite s (.host f) (ctlBase + off) size value else regLoad s (.host f) (ctlBase + off) size)
  else if bar = 2 ∧ off < 2 ^ 36 then
    let addr := fld (vget (vget s.hif.fns f.val {}).ap (off / 2 ^ 34) 0) 43 34 * 2 ^ 34 + off % 2 ^ 34
    memAccess s (.host f) addr size wr (leBytes size value) .noalloc []
  else if bar = 4 ∧ off < 2 ^ 16 then msixAccess s f off size wr value
  else s
def execBarAccess (f : FnId) (bar off size : Nat) (wr : Bool) (value : Nat) (ide : Bool) (s : State) : Out :=
  .next (barAccess s f bar off size wr value ide)

end Sys2Proof.Machine
end

