-- ==== Sys2Proof/Machine/Dispatch.lean ====
section
/-! DEFINITION. One arm per command: its meaning. -/

namespace Sys2Proof.Machine

def exec (i : Instr) (s : State) : Host.Outcome State Fault Refusal :=
  match i with
  | .registerWrite a addr size value => Sys2Proof.Machine.execRegisterWrite a addr size value s
  | .memoryAccess a addr len wr data hint ecc => Sys2Proof.Machine.execMemoryAccess a addr len wr data hint ecc s
  | .mmt t w => Sys2Proof.Machine.execMmt t w s
  | .ldp t w => Sys2Proof.Machine.execLdp t w s
  | .bld t w => Sys2Proof.Machine.execBld t w s
  | .bkt t w => Sys2Proof.Machine.execBkt t w s
  | .ldpLoadStart t => Sys2Proof.Machine.execLdpLoadStart t s
  | .bufferReady t => Sys2Proof.Machine.execBufferReady t s
  | .mmtRowEnter t => Sys2Proof.Machine.execMmtRowEnter t s
  | .mmtRowWrite t err shadowErr => Sys2Proof.Machine.execMmtRowWrite t err shadowErr s
  | .ageo t w => Sys2Proof.Machine.execAgeo t w s
  | .ageoApply t => Sys2Proof.Machine.execAgeoApply t s
  | .aini t w => Sys2Proof.Machine.execAini t w s
  | .aadd t w => Sys2Proof.Machine.execAadd t w s
  | .achn t w => Sys2Proof.Machine.execAchn t w s
  | .achnApply t => Sys2Proof.Machine.execAchnApply t s
  | .asnd t w => Sys2Proof.Machine.execAsnd t w s
  | .chainRowArrive t => Sys2Proof.Machine.execChainRowArrive t s
  | .chainSegmentHead t => Sys2Proof.Machine.execChainSegmentHead t s
  | .chainRowReserved t => Sys2Proof.Machine.execChainRowReserved t s
  | .accChaintmo t => Sys2Proof.Machine.execAccChaintmo t s
  | .wcf t w => Sys2Proof.Machine.execWcf t w s
  | .win t w => Sys2Proof.Machine.execWin t w s
  | .wcur t w => Sys2Proof.Machine.execWcur t w s
  | .winLineArrive t oy ty => Sys2Proof.Machine.execWinLineArrive t oy ty s
  | .vlen t w => Sys2Proof.Machine.execVlen t w s
  | .vadr t w => Sys2Proof.Machine.execVadr t w s
  | .vidx t w => Sys2Proof.Machine.execVidx t w s
  | .vld t w => Sys2Proof.Machine.execVld t w s
  | .vst t w => Sys2Proof.Machine.execVst t w s
  | .vstz t w => Sys2Proof.Machine.execVstz t w s
  | .epi t w => Sys2Proof.Machine.execEpi t w s
  | .vfa t w => Sys2Proof.Machine.execVfa t w s
  | .via t w => Sys2Proof.Machine.execVia t w s
  | .vcmp t w => Sys2Proof.Machine.execVcmp t w s
  | .vsel t w => Sys2Proof.Machine.execVsel t w s
  | .vcvt t w => Sys2Proof.Machine.execVcvt t w s
  | .vmsk t w => Sys2Proof.Machine.execVmsk t w s
  | .vperm t w => Sys2Proof.Machine.execVperm t w s
  | .vlsh t w => Sys2Proof.Machine.execVlsh t w s
  | .vcmpr t w => Sys2Proof.Machine.execVcmpr t w s
  | .vexpd t w => Sys2Proof.Machine.execVexpd t w s
  | .vred t w => Sys2Proof.Machine.execVred t w s
  | .vecRowComplete t pairMismatch => Sys2Proof.Machine.execVecRowComplete t pairMismatch s
  | .vstzFinish t => Sys2Proof.Machine.execVstzFinish t s
  | .sfn t w => Sys2Proof.Machine.execSfn t w s
  | .smx t w => Sys2Proof.Machine.execSmx t w s
  | .srs t w => Sys2Proof.Machine.execSrs t w s
  | .rst t w => Sys2Proof.Machine.execRst t w s
  | .mgn t w => Sys2Proof.Machine.execMgn t w s
  | .mps t w => Sys2Proof.Machine.execMps t w s
  | .dmk t w => Sys2Proof.Machine.execDmk t w s
  | .dmkTakeEffect t => Sys2Proof.Machine.execDmkTakeEffect t s
  | .dwt t w => Sys2Proof.Machine.execDwt t w s
  | .bln t w => Sys2Proof.Machine.execBln t w s
  | .blwLaunch a t value => Sys2Proof.Machine.execBlwLaunch a t value s
  | .landLate t => Sys2Proof.Machine.execLandLate t s
  | .li th => Sys2Proof.Machine.execLi th s
  | .lih th => Sys2Proof.Machine.execLih th s
  | .add th => Sys2Proof.Machine.execAdd th s
  | .addi th => Sys2Proof.Machine.execAddi th s
  | .sub th => Sys2Proof.Machine.execSub th s
  | .muli th => Sys2Proof.Machine.execMuli th s
  | .shli th => Sys2Proof.Machine.execShli th s
  | .shri th => Sys2Proof.Machine.execShri th s
  | .andi th => Sys2Proof.Machine.execAndi th s
  | .ldw th => Sys2Proof.Machine.execLdw th s
  | .loop th => Sys2Proof.Machine.execLoop th s
  | .endl th => Sys2Proof.Machine.execEndl th s
  | .bnz th => Sys2Proof.Machine.execBnz th s
  | .endT th => Sys2Proof.Machine.execEndT th s
  | .mwt th => Sys2Proof.Machine.execMwt th s
  | .fen th => Sys2Proof.Machine.execFen th s
  | .lnd th => Sys2Proof.Machine.execLnd th s
  | .cinc th => Sys2Proof.Machine.execCinc th s
  | .move th pairMismatch => Sys2Proof.Machine.execMove th pairMismatch s
  | .gath th => Sys2Proof.Machine.execGath th s
  | .mcst th => Sys2Proof.Machine.execMcst th s
  | .pft th => Sys2Proof.Machine.execPft th s
  | .readk th => Sys2Proof.Machine.execReadk th s
  | .readv th => Sys2Proof.Machine.execReadv th s
  | .append th => Sys2Proof.Machine.execAppend th s
  | .share th => Sys2Proof.Machine.execShare th s
  | .releasePages th => Sys2Proof.Machine.execReleasePages th s
  | .kvpNofree th => Sys2Proof.Machine.execKvpNofree th s
  | .kvpRelfull th => Sys2Proof.Machine.execKvpRelfull th s
  | .kvpRingResume th => Sys2Proof.Machine.execKvpRingResume th s
  | .zpk th => Sys2Proof.Machine.execZpk th s
  | .zup th => Sys2Proof.Machine.execZup th s
  | .ars th => Sys2Proof.Machine.execArs th s
  | .requestCommit t i1 ecc => Sys2Proof.Machine.execRequestCommit t i1 ecc s
  | .landingIncrement t i1 => Sys2Proof.Machine.execLandingIncrement t i1 s
  | .threadResume th => Sys2Proof.Machine.execThreadResume th s
  | .csFreshStart a t word => Sys2Proof.Machine.execCsFreshStart a t word s
  | .csResume a t word => Sys2Proof.Machine.execCsResume a t word s
  | .csStop a t => Sys2Proof.Machine.execCsStop a t s
  | .csDone t => Sys2Proof.Machine.execCsDone t s
  | .csWordIssue t => Sys2Proof.Machine.execCsWordIssue t s
  | .hearthHeld h => Sys2Proof.Machine.execHearthHeld h s
  | .hearthCausesClear h => Sys2Proof.Machine.execHearthCausesClear h s
  | .hearthResume h => Sys2Proof.Machine.execHearthResume h s
  | .schedStall h => Sys2Proof.Machine.execSchedStall h s
  | .hreq a h alsoRel => Sys2Proof.Machine.execHreq a h alsoRel s
  | .hrel a h alsoReq => Sys2Proof.Machine.execHrel a h alsoReq s
  | .sinc t w => Sys2Proof.Machine.execSinc t w s
  | .swat t w => Sys2Proof.Machine.execSwat t w s
  | .sbas t w => Sys2Proof.Machine.execSbas t w s
  | .sclm t w => Sys2Proof.Machine.execSclm t w s
  | .incrementApply c => Sys2Proof.Machine.execIncrementApply c s
  | .synInc a c amt => Sys2Proof.Machine.execSynInc a c amt s
  | .claim a c alsoRelease => Sys2Proof.Machine.execClaim a c alsoRelease s
  | .releaseOwner a c alsoClaim => Sys2Proof.Machine.execReleaseOwner a c alsoClaim s
  | .arm a h i1 value => Sys2Proof.Machine.execArm a h i1 value s
  | .cancel a h i1 => Sys2Proof.Machine.execCancel a h i1 s
  | .waitSatisfied r => Sys2Proof.Machine.execWaitSatisfied r s
  | .synTmo r => Sys2Proof.Machine.execSynTmo r s
  | .ownerLost c => Sys2Proof.Machine.execOwnerLost c s
  | .budgetLend t => Sys2Proof.Machine.execBudgetLend t s
  | .inc p f => Sys2Proof.Machine.execInc p f s
  | .pendingIncrementApply dev ch => Sys2Proof.Machine.execPendingIncrementApply dev ch s
  | .incrementAck dev fnum status => Sys2Proof.Machine.execIncrementAck dev fnum status s
  | .flitReceive p f => Sys2Proof.Machine.execFlitReceive p f s
  | .flitReplay p fseq => Sys2Proof.Machine.execFlitReplay p fseq s
  | .replayTimeout p => Sys2Proof.Machine.execReplayTimeout p s
  | .lnkLane p => Sys2Proof.Machine.execLnkLane p s
  | .lnkCredit p => Sys2Proof.Machine.execLnkCredit p s
  | .portEnable p => Sys2Proof.Machine.execPortEnable p s
  | .portDisable p => Sys2Proof.Machine.execPortDisable p s
  | .lanesLocked p => Sys2Proof.Machine.execLanesLocked p s
  | .lnkTrain p => Sys2Proof.Machine.execLnkTrain p s
  | .downRetry p => Sys2Proof.Machine.execDownRetry p s
  | .admitTimeout p => Sys2Proof.Machine.execAdmitTimeout p s
  | .rejectRetry p => Sys2Proof.Machine.execRejectRetry p s
  | .drainEnd p => Sys2Proof.Machine.execDrainEnd p s
  | .hello p f => Sys2Proof.Machine.execHello p f s
  | .hsk p f => Sys2Proof.Machine.execHsk p f s
  | .handshakeSignature p => Sys2Proof.Machine.execHandshakeSignature p s
  | .sessionOpen peer => Sys2Proof.Machine.execSessionOpen peer s
  | .sessionRekey peer => Sys2Proof.Machine.execSessionRekey peer s
  | .close p f => Sys2Proof.Machine.execClose p f s
  | .sessionEnd dev => Sys2Proof.Machine.execSessionEnd dev s
  | .write p f => Sys2Proof.Machine.execWrite p f s
  | .read p f => Sys2Proof.Machine.execRead p f s
  | .rdata p f => Sys2Proof.Machine.execRdata p f s
  | .ack p f => Sys2Proof.Machine.execAck p f s
  | .chain p f => Sys2Proof.Machine.execChain p f s
  | .flue p f => Sys2Proof.Machine.execFlue p f s
  | .coll p f => Sys2Proof.Machine.execColl p f s
  | .frameForward p f => Sys2Proof.Machine.execFrameForward p f s
  | .sendResend dev fnum => Sys2Proof.Machine.execSendResend dev fnum s
  | .sendTableSlotFree => Sys2Proof.Machine.execSendTableSlotFree s
  | .colRingPost a p h tail => Sys2Proof.Machine.execColRingPost a p h tail s
  | .descriptorTake p h => Sys2Proof.Machine.execDescriptorTake p h s
  | .free p f => Sys2Proof.Machine.execFree p f s
  | .restart a p h => Sys2Proof.Machine.execRestart a p h s
  | .colGrpWrite a h g word value => Sys2Proof.Machine.execColGrpWrite a h g word value s
  | .collectiveComplete p h => Sys2Proof.Machine.execCollectiveComplete p h s
  | .colTmo p h => Sys2Proof.Machine.execColTmo p h s
  | .flueBufferRelease p h => Sys2Proof.Machine.execFlueBufferRelease p h s
  | .pht t w => Sys2Proof.Machine.execPht t w s
  | .anchorWrite => Sys2Proof.Machine.execAnchorWrite s
  | .quenchChunk p h => Sys2Proof.Machine.execQuenchChunk p h s
  | .quenchBufferFree p => Sys2Proof.Machine.execQuenchBufferFree p s
  | .flip a h => Sys2Proof.Machine.execFlip a h s
  | .quenchRetract p h => Sys2Proof.Machine.execQuenchRetract p h s
  | .replayRow t => Sys2Proof.Machine.execReplayRow t s
  | .replayEnd t err shadowErr => Sys2Proof.Machine.execReplayEnd t err shadowErr s
  | .chkOpen a h => Sys2Proof.Machine.execChkOpen a h s
  | .chkClose a h => Sys2Proof.Machine.execChkClose a h s
  | .epochConfirm h => Sys2Proof.Machine.execEpochConfirm h s
  | .chkRetract h trig => Sys2Proof.Machine.execChkRetract h trig s
  | .noticeReceive h rank => Sys2Proof.Machine.execNoticeReceive h rank s
  | .noticeSendNext h rank => Sys2Proof.Machine.execNoticeSendNext h rank s
  | .chkUnresolved h => Sys2Proof.Machine.execChkUnresolved h s
  | .chkRefetch h granule => Sys2Proof.Machine.execChkRefetch h granule s
  | .chkRefail h => Sys2Proof.Machine.execChkRefail h s
  | .tsl t w => Sys2Proof.Machine.execTsl t w s
  | .sparkRound t kaOk digest => Sys2Proof.Machine.execSparkRound t kaOk digest s
  | .sparkDue t => Sys2Proof.Machine.execSparkDue t s
  | .chkOverdue t => Sys2Proof.Machine.execChkOverdue t s
  | .sparkCompare round => Sys2Proof.Machine.execSparkCompare round s
  | .chkClass u e => Sys2Proof.Machine.execChkClass u e s
  | .chkLost => Sys2Proof.Machine.execChkLost s
  | .recordForward => Sys2Proof.Machine.execRecordForward s
  | .stkFwdlost collector => Sys2Proof.Machine.execStkFwdlost collector s
  | .queueTailWrite a q tail => Sys2Proof.Machine.execQueueTailWrite a q tail s
  | .descriptorRead q => Sys2Proof.Machine.execDescriptorRead q s
  | .itemAccept q storeOk => Sys2Proof.Machine.execItemAccept q storeOk s
  | .itemStart q => Sys2Proof.Machine.execItemStart q s
  | .itemComplete q seq storeOk => Sys2Proof.Machine.execItemComplete q seq storeOk s
  | .lgrTimeout q seq => Sys2Proof.Machine.execLgrTimeout q seq s
  | .retWrite a q value => Sys2Proof.Machine.execRetWrite a q value s
  | .queueResume a q => Sys2Proof.Machine.execQueueResume a q s
  | .queueRecovery q => Sys2Proof.Machine.execQueueRecovery q s
  | .hctlPreempt a h => Sys2Proof.Machine.execHctlPreempt a h s
  | .hearthPreempted h => Sys2Proof.Machine.execHearthPreempted h s
  | .hctlResume a h => Sys2Proof.Machine.execHctlResume a h s
  | .temperVerify => Sys2Proof.Machine.execTemperVerify s
  | .temperQuiesced => Sys2Proof.Machine.execTemperQuiesced s
  | .tmpQuiesce => Sys2Proof.Machine.execTmpQuiesce s
  | .temperDurable ok => Sys2Proof.Machine.execTemperDurable ok s
  | .tmpCtlCommit a => Sys2Proof.Machine.execTmpCtlCommit a s
  | .stagedTimeout => Sys2Proof.Machine.execStagedTimeout s
  | .fwLoad r img => Sys2Proof.Machine.execFwLoad r img s
  | .fwActivate r kind slotB => Sys2Proof.Machine.execFwActivate r kind slotB s
  | .temperSubmit r image => Sys2Proof.Machine.execTemperSubmit r image s
  | .keyEnrol r keyid operator mask => Sys2Proof.Machine.execKeyEnrol r keyid operator mask s
  | .keyRevoke r keyid => Sys2Proof.Machine.execKeyRevoke r keyid s
  | .calSet r cal => Sys2Proof.Machine.execCalSet r cal s
  | .classReset r u => Sys2Proof.Machine.execClassReset r u s
  | .settings r address collector0 collector1 trw ueth => Sys2Proof.Machine.execSettings r address collector0 collector1 trw ueth s
  | .resetDevice r kind => Sys2Proof.Machine.execResetDevice r kind s
  | .resetHearth r h kind => Sys2Proof.Machine.execResetHearth r h kind s
  | .preempt r h resume => Sys2Proof.Machine.execPreempt r h resume s
  | .release r => Sys2Proof.Machine.execRelease r s
  | .debugOpen => Sys2Proof.Machine.execDebugOpen s
  | .dbgnowClear => Sys2Proof.Machine.execDbgnowClear s
  | .auditCheckpoint => Sys2Proof.Machine.execAuditCheckpoint s
  | .quote nonce => Sys2Proof.Machine.execQuote nonce s
  | .smbusRead item => Sys2Proof.Machine.execSmbusRead item s
  | .stkRestart sa => Sys2Proof.Machine.execStkRestart sa s
  | .stokerSlotFallback => Sys2Proof.Machine.execStokerSlotFallback s
  | .coreStepChange t => Sys2Proof.Machine.execCoreStepChange t s
  | .pwrPll => Sys2Proof.Machine.execPwrPll s
  | .pwrRef absent => Sys2Proof.Machine.execPwrRef absent s
  | .railPowerGood => Sys2Proof.Machine.execRailPowerGood s
  | .pwrRail rail => Sys2Proof.Machine.execPwrRail rail s
  | .pwrInput vin => Sys2Proof.Machine.execPwrInput vin s
  | .inputSag vin => Sys2Proof.Machine.execInputSag vin s
  | .powerRecompute => Sys2Proof.Machine.execPowerRecompute s
  | .budgetReclaim t => Sys2Proof.Machine.execBudgetReclaim t s
  | .pwrOver watts => Sys2Proof.Machine.execPwrOver watts s
  | .pwrTherm tj => Sys2Proof.Machine.execPwrTherm tj s
  | .emergencyEnd code => Sys2Proof.Machine.execEmergencyEnd code s
  | .functionEnable f => Sys2Proof.Machine.execFunctionEnable f s
  | .functionDisable f => Sys2Proof.Machine.execFunctionDisable f s
  | .functionStartComplete f => Sys2Proof.Machine.execFunctionStartComplete f s
  | .pwrFnfail f => Sys2Proof.Machine.execPwrFnfail f s
  | .functionShutdownComplete f => Sys2Proof.Machine.execFunctionShutdownComplete f s
  | .boot ok => Sys2Proof.Machine.execBoot ok s
  | .deviceColdReset => Sys2Proof.Machine.execDeviceColdReset s
  | .deviceWarmReset => Sys2Proof.Machine.execDeviceWarmReset s
  | .warmResetFallback => Sys2Proof.Machine.execWarmResetFallback s
  | .hearthWarmReset h => Sys2Proof.Machine.execHearthWarmReset h s
  | .hearthColdReset h => Sys2Proof.Machine.execHearthColdReset h s
  | .writeback a h => Sys2Proof.Machine.execWriteback a h s
  | .wbinv a h => Sys2Proof.Machine.execWbinv a h s
  | .mtlOpDone h => Sys2Proof.Machine.execMtlOpDone h s
  | .mantelVictimFound half => Sys2Proof.Machine.execMantelVictimFound half s
  | .mantelAgeTick => Sys2Proof.Machine.execMantelAgeTick s
  | .evictionWritebackEnd half i1 => Sys2Proof.Machine.execEvictionWritebackEnd half i1 s
  | .patrolScrub sector ecc => Sys2Proof.Machine.execPatrolScrub sector ecc s
  | .refreshWindow k ch => Sys2Proof.Machine.execRefreshWindow k ch s
  | .recalibration c ok => Sys2Proof.Machine.execRecalibration c ok s
  | .damperSample k temp => Sys2Proof.Machine.execDamperSample k temp s
  | .perst => Sys2Proof.Machine.execPerst s
  | .hostLinkUp speed width => Sys2Proof.Machine.execHostLinkUp speed width s
  | .flr f => Sys2Proof.Machine.execFlr f s
  | .vfEnableClear => Sys2Proof.Machine.execVfEnableClear s
  | .barAccess f bar off size wr value ide => Sys2Proof.Machine.execBarAccess f bar off size wr value ide s
  | .go f image => Sys2Proof.Machine.execGo f image s
  | .hifIde stream => Sys2Proof.Machine.execHifIde stream s
  | .pwrLeak => Sys2Proof.Machine.execPwrLeak s
  | .coolantSample tin tout => Sys2Proof.Machine.execCoolantSample tin tout s
  | .accumulatorPipeRow t => Sys2Proof.Machine.execAccumulatorPipeRow t s
  | .stokerTakesNoRecord => Sys2Proof.Machine.execStokerTakesNoRecord s
  | .quenchTest p pass => Sys2Proof.Machine.execQuenchTest p pass s
  | .vfEnable => Sys2Proof.Machine.execVfEnable s
  | .d3hot f enter => Sys2Proof.Machine.execD3hot f enter s
  | .ideKm stream f => Sys2Proof.Machine.execIdeKm stream f s

end Sys2Proof.Machine
end

