-- ==== Sys2Proof/Safety.lean ====
section
/-! DEFINITION. What counts as a safe run of the block, and the parts of the state that a frame names. -/

namespace Sys2Proof

/-- The structure of the state that every command keeps: memory in its canonical form, poisoned sectors
listed once each in rising order. -/
def Inv (s : Machine.State) : Prop :=
  Machine.memWf s.mem ∧ s.poison.Pairwise (· < ·)

/-- The parts of the state, as frames name them. -/
inductive Part where
  | pending
  | cyc
  | anchors
  | tiles
  | hearths
  | ports
  | queues
  | hobs
  | counters
  | flights
  | lnk
  | tmp
  | lgr
  | mem
  | msys
  | recs
  | stk
  | pwr
  | hif
  | out
  | fresh
deriving DecidableEq, Repr

/-- The part is the same in both states; `mem` is every byte with its poison and its code word, `counters` every counter with
the claims of this fc. -/
def Part.same (p : Part) (s n : Machine.State) : Prop :=
  match p with
  | .pending => n.pending = s.pending
  | .cyc => n.cyc = s.cyc
  | .anchors => n.anchor0 = s.anchor0 ∧ n.anchor1 = s.anchor1
  | .tiles => n.tiles = s.tiles
  | .hearths => n.hearths = s.hearths
  | .ports => n.ports = s.ports
  | .queues => n.queues = s.queues
  | .hobs => n.hobs = s.hobs
  | .counters => n.counters = s.counters ∧ n.claims = s.claims
  | .flights => n.flights = s.flights
  | .lnk => n.lnk = s.lnk
  | .tmp => n.tmp = s.tmp
  | .lgr => n.lgr = s.lgr
  | .mem => n.mem = s.mem ∧ n.poison = s.poison ∧ n.codes = s.codes
  | .msys => n.msys = s.msys
  | .recs => n.recs = s.recs
  | .stk => n.stk = s.stk
  | .pwr => n.pwr = s.pwr
  | .hif => n.hif = s.hif
  | .out => n.out = s.out
  | .fresh => n.fresh = s.fresh

/-- Nothing but these parts differs. -/
def Only (ps : List Part) (s n : Machine.State) : Prop := ∀ p, p ∉ ps → p.same s n

/-- Of the tiles, hearths, ports or queues nothing but unit k differs. -/
def OnlyTile (k : Nat) (s n : Machine.State) : Prop := ∀ u, u ≠ k → Machine.tileAt n u = Machine.tileAt s u
def OnlyHearth (k : Nat) (s n : Machine.State) : Prop := ∀ u, u ≠ k → Machine.hearthAt n u = Machine.hearthAt s u
def OnlyPort (k : Nat) (s n : Machine.State) : Prop := ∀ u, u ≠ k → Machine.portAt n u = Machine.portAt s u
def OnlyQueue (k : Nat) (s n : Machine.State) : Prop := ∀ u, u ≠ k → Machine.queueAt n u = Machine.queueAt s u

/-! ### States written out -/

/-- The state with one unit replaced. -/
def putTile (s : Machine.State) (t : TileId) (x : Machine.Tile) : Machine.State := { s with tiles := Machine.vput s.tiles t.val x }
def putHearth (s : Machine.State) (h : HearthId) (x : Machine.Hearth) : Machine.State := { s with hearths := Machine.vput s.hearths h.val x }
def putPort (s : Machine.State) (p : PortId) (x : Machine.Port) : Machine.State := { s with ports := Machine.vput s.ports p.val x }
def putQueue (s : Machine.State) (q : QueueId) (x : Machine.WorkQ) : Machine.State := { s with queues := Machine.vput s.queues q.val x }

/-- The stream of tile t stands at word w, may issue it, and w carries this opcode (03, R77; 10, R233). -/
def Stands (s : Machine.State) (t : TileId) (w : Word128) (op : Nat) : Prop :=
  wf w 127 120 = op ∧ Machine.canIssue s t.val w = true

/-- A tile whose stream has issued a word and goes on at word n: nothing is held any more, and the next
instruction has the next number. -/
def movedTo (n : Nat) (x : Machine.Tile) : Machine.Tile :=
  { x with blw := { x.blw with pend := none, csCtl := Machine.setFld x.blw.csCtl 63 32 n }
           misc := { x.misc with seq := x.misc.seq + 1 } }

/-- Tile t has issued its word, which made of the tile x, and goes on at the next word. -/
def issuedAs (s : Machine.State) (t : TileId) (x : Machine.Tile) : Machine.State :=
  putTile s t (movedTo (Machine.csWord s t.val + 1) x)

/-- The tile with an operation at the end of its anvil queue (03, R75). -/
def withAnvil (s : Machine.State) (t : TileId) (op : Machine.AnvOp) (x : Machine.Tile) : Machine.Tile :=
  { x with anv := { x.anv with queue := x.anv.queue ++ [{ seq := x.misc.seq, idx := Machine.csWord s t.val, op := op }] } }

/-- The vector unit with a word at the end of its queue, and then f of it (06, R128, R130). -/
def withVector (s : Machine.State) (t : TileId) (w : Word128) (f : Machine.Vec → Machine.Vec) : Machine.Tile :=
  let x := Machine.tileAt s t.val
  { x with vec := f { x.vec with queue := x.vec.queue ++ [Machine.vecJob s t.val w] } }

/-- The vector queue takes another word (06, R130). -/
def VecRoom (s : Machine.State) (t : TileId) : Prop := (Machine.vecOf s t.val).queue.length < 16

/-- Registers r to r + nr - 1 exist (06, R129). -/
def RegsFit (nr : Nat) (rs : List Nat) : Prop := ∀ r ∈ rs, r + nr ≤ 64

/-- The checks common to register-operand forms pass (06, R129, R135): function, flag select, rounding mode. -/
def FormOk (w : Word128) (fnMax : Nat) : Prop :=
  wf w 86 84 ≤ fnMax ∧ (wf w 81 79 = 0 → wf w 78 73 = 0) ∧ wf w 67 66 ≠ 3

/-- `ADV` = 1 moves the index base on by NR rows of RSTR elements (06, R139, R145). -/
def advIndex (w : Word128) (v : Machine.Vec) : Machine.Vec :=
  if wf w 62 62 = 1 then
    { v with idx := Machine.setFld v.idx 47 0 (Machine.fld v.idx 47 0 + (wf w 95 90 + 1) * Machine.fld v.tag 55 32) }
  else v

/-- The parts that an error record touches: the records, what leaves the block, a host function's ring, a Hob core's
interrupt (15, R374). -/
def recParts : List Part := [.recs, .hobs, .hif, .out]

/-- An error record with this space, code and detail, numbered k after those made before s, stands in the Stoker
ring or behind it (15, R373, R374, Table 15-8). -/
def Recorded (s n : Machine.State) (k space code detail : Nat) : Prop :=
  ∃ r ∈ n.recs.ring ++ n.recs.overflow, r.seq = s.recs.seq + k ∧ r.space = space ∧ r.code = code ∧ r.detail = detail

/-- The parts that sending a frame or an increment to another device touches (12, R286, R290). -/
def sendParts : List Part := [.tiles, .hearths, .ports, .lnk, .out] ++ recParts

/-- Thread th belongs to hearth h, is in RUN and stands at word w, and it is its turn; its tile is no shadow and no reset of
it is under way (10, R223, R224, R226, Table 10-1). -/
def AtWord (s : Machine.State) (th : ThreadId) (h : Nat) (x : Machine.Thread) (w : Machine.BWord) : Prop :=
  Machine.threadAt (Machine.tileAt s th.tile.val) th.core.val th.thr.val = some x ∧ Machine.tileHearth s th.tile.val = some h ∧
  x.st = .run ∧ x.stall = none ∧ Machine.threadTurn (Machine.tileAt s th.tile.val) th.core.val th.thr.val = true ∧
  Machine.tileRole s th.tile.val ≠ 2 ∧ (Machine.tileAt s th.tile.val).blw.draining = none ∧
  w = Machine.look (Machine.tileAt s th.tile.val).blw.prog x.pc 0

/-- Thread th has had its turn (10, R223). -/
def tookTurn (s : Machine.State) (th : ThreadId) : Machine.State :=
  let x := Machine.tileAt s th.tile.val
  putTile s th.tile { x with blw := { x.blw with turns := Machine.put x.blw.turns th.core.val th.thr.val } }

/-- Thread th becomes x. -/
def withThread (s : Machine.State) (th : ThreadId) (x : Machine.Thread) : Machine.State :=
  Machine.setThread s th.tile.val th.core.val th.thr.val (some x)

/-- A thread at the beginning of word n. -/
def threadTo (n : Nat) (x : Machine.Thread) : Machine.Thread := 
  { x with pc := n, going := false, begun := false, step := 0, aux := 0, todo := [], tabs := [] }

/-- A request as its instruction made it: without the frame that carries it. -/
def bare (r : Machine.Req) : Machine.Req := { r with fnum := none, sent := false }

/-- The core of thread th has tokens for these requests (10, R225). -/
def TokensFor (s : Machine.State) (th : ThreadId) (rs : List Machine.Req) : Prop :=
  Machine.reqCount (Machine.tileAt s th.tile.val) th.core.val + rs.length ≤ 48

/-- The thread has issued a move's requests, in their order, posted its landing and gone on (10, R225, R230, R236). -/
def Moved (s n : Machine.State) (th : ThreadId) (x : Machine.Thread) (w : Machine.BWord) (rs : List Machine.Req)
    (mask : Option (BitVec 32)) : Prop :=
  let b := (Machine.tileAt s th.tile.val).blw
  let c := (Machine.tileAt n th.tile.val).blw
  c.reqs.map bare = b.reqs.map bare ++ rs.map bare ∧ c.nextGrp = b.nextGrp + 1 ∧
  (∀ m, mask = some m → c.landings = b.landings ++ (if Machine.Bw.lv w = 1 then [⟨b.nextGrp, Machine.Bw.land w, m⟩] else [])) ∧
  (mask = none → c.landings = b.landings) ∧
  ∃ y, Machine.threadAt (Machine.tileAt n th.tile.val) th.core.val th.thr.val = some y ∧ y.st = .run ∧ y.pc = x.pc + 1 ∧ y.stall = none ∧
    y.going = false ∧ y.loops = x.loops

/-- Thread th has had its turn, and its instruction has the next landing group (10, R223, R230). -/
def walkBegun (s : Machine.State) (th : ThreadId) : Machine.State :=
  let x := Machine.tileAt s th.tile.val
  let u := tookTurn s th
  putTile u th.tile { Machine.tileAt u th.tile.val with blw := {
    (Machine.tileAt u th.tile.val).blw with nextGrp := x.blw.nextGrp + 1 } }

/-- Directory entries at these global addresses, read in turn from state s on, go through without poison (10, R241). -/
def EntriesRead (h : Nat) : List Nat → Machine.State → Prop
  | [], _ => True
  | a :: r, s => ∃ n bs, Machine.devRead s (some h) .alloc (Machine.gLoc a) 8 [] = some (n, bs, []) ∧ EntriesRead h r n

/-- No mantel tile is being written back and no stack is tripped: no access to deep memory waits but for a free tile
(09, R208, R209, R218). -/
def Calm (s : Machine.State) : Prop :=
  (∀ p < 2, ∀ m ∈ (Machine.poolAt s p).tiles, m.busy = false) ∧ ∀ k < 12, Machine.tripped s k = false

/-- No access that is not to be given a mantel tile waits, no code word has gone bad, and no writes of these agents stand at a
pool (09, R208, R209, R213, R218). -/
def Settled (s : Machine.State) (as : List Agent) : Prop :=
  Calm s ∧ s.codes = {} ∧ ∀ a ∈ as, Machine.writesWait s a = false

/-- The agent of the core that runs a hearth's services (16, R397). -/
def svcOf (s : Machine.State) (h : Nat) : Agent := Machine.agentOf (Machine.svcAgent s h)

/-- No receive buffer holds a frame and no engine has one to send (12, R291; 13, R308). -/
def EnginesIdle (s : Machine.State) : Prop :=
  ∀ q < 12, (Machine.portAt s q).held = [] ∧ ∀ h < 16, ∀ a, Machine.activeAt s q h = some a → a.sendq = []

/-- Frame f of this type arrives well formed on a port that takes frames, of an open session and sealed with its key
(12, R299, R301, R305, Table 12-4). -/
def Arrives (s : Machine.State) (p : PortId) (f : Frame) (ty : Nat) : Prop :=
  (Machine.portUp s p.val = true ∨ Machine.portState s p.val = 6) ∧ f.ftype = ty ∧ f.ddev = Machine.devNo s ∧ f.rsvdOk = true ∧
  f.plen ≤ 128 ∧ Machine.shapeOk f = true ∧
  ∃ x, Machine.sessOf s f.sdev = some x ∧ f.tagOk = true ∧
    (f.keyid = x.keyid ∨ (x.oldKey = true ∧ (f.keyid + 1) % 256 = x.keyid))

end Sys2Proof
end

