-- ==== Sys2Proof/Certificates/Slice0/Obligations.lean ====
section
/-! DEFINITION. The statements for the provers. -/

open Sys2Proof Sys2Proof.Machine

/-! ### The block -/

/-- A step with a command in front is that command's effect on the state with the rest of the queue. -/
def Obligations.StepRunsFrontCommand : Prop :=
  ∀ (c : Instr) (rest : List Instr) (s : State), step { s with pending := c :: rest } = exec c { s with pending := rest }

/-! ### Tile instructions at issue -/

/-- VLEN, VADR and VIDX set the state that later instructions use, and each takes a place in the vector queue
(06, R128, Tables 06-3, 06-11, 06-12). -/
def Obligations.VectorSetUpWords : Prop :=
  ∀ (s : State) (t : TileId) (w : Word128), VecRoom s t →
    (Stands s t w 0x40 → 1 ≤ wf w 119 110 → wf w 119 110 ≤ 512 →
      exec (.vlen t w) s = .next (issuedAs s t (withVector s t w (fun v => { v with vl := wf w 119 110 })))) ∧
    (Stands s t w 0x41 → namesHeld (tileAt s t.val) [wf w 119 117] = false →
      exec (.vadr t w) s = .next (issuedAs s t (withVector s t w (fun v =>
        { v with addr := vput v.addr (wf w 119 117) (BitVec.ofNat 64 (wf w 96 81 * 2 ^ 20 + wf w 116 97)) })))) ∧
    (Stands s t w 0x42 →
      exec (.vidx t w) s = .next (issuedAs s t (withVector s t w (fun v =>
        { v with idx := setFld v.idx 47 0 (wf w 119 72)
                 tag := setFld (setFld v.tag 31 0 (wf w 47 16)) 55 32 (wf w 71 48) }))))

/-- The register-operand forms whose checks pass take a place in the vector queue, with `ADV` of the index base
(06, R129, R130, R135, R139). -/
def Obligations.VectorRegisterForms : Prop :=
  ∀ (s : State) (t : TileId) (w : Word128), VecRoom s t →
    let nr := wf w 95 90 + 1
    let va := wf w 113 108
    let vd := wf w 119 114
    let vb := if wf w 83 82 = 0 then [wf w 107 102] else []
    let mdst := 1 ≤ vd ∧ vd ≤ 7 ∧ nr = 1
    let q := Host.Outcome.next (φ := Fault) (ρ := Refusal) (issuedAs s t (withVector s t w (advIndex w)))
    (Stands s t w 0x48 → FormOk w 6 → RegsFit nr ([vd, va] ++ vb) → (wf w 86 84 = 3 ∨ wf w 86 84 = 4 → RegsFit nr [wf w 101 96]) →
      exec (.vfa t w) s = q) ∧
    (Stands s t w 0x49 → FormOk w 7 → RegsFit nr ([vd, va] ++ vb) → exec (.via t w) s = q) ∧
    (Stands s t w 0x4A → FormOk w 4 → RegsFit nr (va :: vb) → mdst → exec (.vcmp t w) s = q) ∧
    (Stands s t w 0x4B → FormOk w 0 → RegsFit nr ([vd, va] ++ vb) → wf w 101 96 ≤ 7 → exec (.vsel t w) s = q) ∧
    (Stands s t w 0x4C → FormOk w 2 → RegsFit nr [vd, va] → fmtRsvd (wf w 72 68) = false → wf w 72 68 ≠ X96 →
      (isMx (wf w 72 68) = true → (vecOf s t.val).vl % 32 = 0) → exec (.vcvt t w) s = q) ∧
    (Stands s t w 0x4D → FormOk w 4 → mdst → (wf w 86 84 ≠ 4 → va ≤ 7 ∧ wf w 107 102 ≤ 7) → exec (.vmsk t w) s = q) ∧
    (Stands s t w 0x4E → FormOk w 0 → RegsFit nr ([vd, va] ++ vb) → exec (.vperm t w) s = q) ∧
    (Stands s t w 0x4F → FormOk w 2 → RegsFit nr [vd, va] → exec (.vlsh t w) s = q) ∧
    (Stands s t w 0x50 → FormOk w 0 → RegsFit nr [vd, va] → exec (.vcmpr t w) s = q) ∧
    (Stands s t w 0x51 → FormOk w 0 → RegsFit nr [vd, va] → exec (.vexpd t w) s = q) ∧
    (Stands s t w 0x52 → FormOk w 2 → RegsFit nr [vd, va] → exec (.vred t w) s = q)

/-- VLD, VST, VSTZ and EPI whose checks pass, which name no address register of a packed store under way and, for an
MX format under a mask, whose mask no queued word writes, take a place in the vector queue, with `ADV` of the
registers they name (06, R139, R148 to R153). -/
def Obligations.VectorMemoryForms : Prop :=
  ∀ (s : State) (t : TileId) (w : Word128), VecRoom s t →
    let x := tileAt s t.val
    let held := fun (ns : List Nat) => ns.filter (fun a => packedAr w != some a)
    (Stands s t w 0x43 → namesHeld x (vmNames w) = false → vldFault s t.val w = none →
      exec (.vld t w) s = .next (issuedAs s t (withVector s t w (advWhen (wf w 72 72) (vmNames w) (wf w 113 108 + 1))))) ∧
    (Stands s t w 0x44 → namesHeld x (vmNames w) = false → vstFault s t.val w = none → vstWaits x w = false →
      vstLate s t.val w = none →
      exec (.vst t w) s = .next (issuedAs s t (withVector s t w (advWhen (wf w 72 72) (vmNames w) (wf w 113 108 + 1))))) ∧
    (Stands s t w 0x45 → namesHeld x (vmNames w) = false → vstzFault s t.val w = none →
      exec (.vstz t w) s = .next (issuedAs s t (withVector s t w (advWhen (wf w 72 72) (held (vmNames w)) (wf w 113 108 + 1))))) ∧
    (Stands s t w 0x46 → namesHeld x (epiNames w) = false → epiFault s t.val w = none →
      exec (.epi t w) s = .next (issuedAs s t (withVector s t w (advWhen (wf w 54 54) (held (epiNames w)) (wf w 104 96 + 1)))))

/-- Special-function words whose checks pass take a place in the vector queue; MGN and MPS, which no queued SMX reads
from, set the mask generator (07, R159, R164, R168, R171; 08, R177). -/
def Obligations.SpecialFunctionWords : Prop :=
  ∀ (s : State) (t : TileId) (w : Word128),
    let x := tileAt s t.val
    (VecRoom s t → Stands s t w 0x60 → sfnFault w = none → exec (.sfn t w) s = .next (issuedAs s t (withVector s t w (advIndex w)))) ∧
    (VecRoom s t → Stands s t w 0x61 → namesHeld x [wf w 74 72] = false → smxFault s t.val w = none →
      exec (.smx t w) s = .next (issuedAs s t (withVector s t w (advWhen (wf w 69 69) [wf w 74 72] (wf w 104 96 + 1))))) ∧
    (VecRoom s t → Stands s t w 0x62 → srsFault s t.val w = none → exec (.srs t w) s = .next (issuedAs s t (withVector s t w id))) ∧
    (VecRoom s t → Stands s t w 0x63 → rstFault w = none → exec (.rst t w) s = .next (issuedAs s t (withVector s t w id))) ∧
    (Stands s t w 0x70 → wf w 116 113 ≤ 9 → genUsed x = false →
      (4 ≤ wf w 119 117 → inWindow s t.val (32 * wf w 88 69) (4 * 2 ^ wf w 116 113) = true ∧ inWindow s t.val (32 * wf w 68 49) 2048 = true) →
      exec (.mgn t w) s = .next (issuedAs s t { x with vec := { x.vec with
        mgen := BitVec.ofNat 64 (wf w 119 117 * 2 ^ 28 + wf w 116 113 * 2 ^ 24 + wf w 112 89)
        mdoc := BitVec.ofNat 64 (wf w 88 69 * 2 ^ 20 + wf w 68 49) } })) ∧
    (Stands s t w 0x71 → genUsed x = false →
      exec (.mps t w) s = .next (issuedAs s t { x with vec := { x.vec with
        mpos := BitVec.ofNat 64 (wf w 119 88 * 2 ^ 32 + wf w 87 56) } }))

/-- MMT, LDP, BLD and BKT at issue. An MMT takes a place in the anvil queue with M from its word or its bound register,
and numbers the chain segments it sends and consumes; an LDP takes one and becomes the most recent of its buffer; BLD
loads consecutive bound registers from scratch, whose words it reads with their codes; BKT goes to the target of the first
entry that is at least the bound, which is not zero (03, R68, R75, R78, R83, R84, R86; 04, R105; 09, R197). -/
def Obligations.AnvilWords : Prop :=
  ∀ (s : State) (t : TileId) (w : Word128),
    let x := tileAt s t.val
    let m := if wf w 107 107 = 1 then fld (vget x.anv.bound (wf w 106 103) 0) 19 0 else wf w 102 94 + 1
    (∀ p, Stands s t w 0x10 → mmtFault s t.val w = none → (vget x.anv.buf (wf w 108 108) {}).issued = some p →
      x.anv.queue.length < 16 →
      (wf w 113 112 = 2 → headTaken x = false ∧ ∃ c, x.acc.fifo.head? = some c ∧ segFault x w p.np c = none) →
      let done := Host.Outcome.next (φ := Fault) (ρ := Refusal) (issuedAs s t
        (let y := withAnvil s t (.mmt { w := w, m := m, plane := p, win := (x.win.oy, x.win.ox, x.win.ch), seqOut := x.acc.seqOut + 1 }) x
         let z := if wf w 109 109 = 1 then winAdvance y m else y
         { z with acc := { x.acc with
            seqOut := if wf w 111 110 = 1 then x.acc.seqOut + 1 else x.acc.seqOut
            seqIn := if wf w 113 112 = 2 then (x.acc.fifo.head?.map (·.seq)).getD x.acc.seqIn else x.acc.seqIn
            seqNew := x.acc.seqNew && decide (wf w 113 112 ≠ 2)
            headFc := none
            trackPX := if wf w 114 114 = 1 ∧ wf w 113 112 = 0 ∧ wf w 111 110 = 0 then vput x.acc.trackPX (wf w 86 81) (wf w 93 87)
              else x.acc.trackPX } }))
      exec (.mmt t w) s = done ∧ (x.blw.pend = some w → wf w 113 112 = 2 → exec (.chainSegmentHead t) s = done)) ∧
    (Stands s t w 0x11 → ldpFault s t.val w = none → x.anv.queue.length < 16 →
      exec (.ldp t w) s = .next (issuedAs s t
        (let i : PlaneInfo := { fmt := wf w 119 115, kp := ldpK x w, np := ldpN x w, ck := decide (wf w 113 113 = 1) }
         let y := withAnvil s t (.ldp { w := w, info := i }) x
         { y with anv := { y.anv with buf := vmod x.anv.buf (wf w 112 112) (fun b => { b with issued := some i }) } }))) ∧
    (Stands s t w 0x12 → wf w 119 116 + wf w 115 112 ≤ 15 → 32 * wf w 111 92 + 4 * (wf w 115 112 + 1) ≤ scrSize s t.val →
      let u := scrSee s t.val (32 * wf w 111 92) (4 * (wf w 115 112 + 1))
      ∃ n, exec (.bld t w) s = .next n ∧ csWord n t.val = csWord s t.val + 1 ∧ Only [.tiles] u n ∧ OnlyTile t.val u n ∧
        { tileAt n t.val with anv := x.anv } = movedTo (csWord s t.val + 1) { tileAt u t.val with anv := x.anv } ∧
        { (tileAt n t.val).anv with bound := x.anv.bound } = x.anv ∧
        ∀ r < 16, vget (tileAt n t.val).anv.bound r 0 =
          if wf w 119 116 ≤ r ∧ r ≤ wf w 119 116 + wf w 115 112 then
            BitVec.ofNat 64 (leNat (readMem s.mem (winBase t.val + 32 * wf w 111 92 + 4 * (r - wf w 119 116)) 4) % 2 ^ 20)
          else vget x.anv.bound r 0) ∧
    (∀ k, Stands s t w 0x13 → fld x.anv.cfg 3 2 = 2 → fld (vget x.anv.bound (wf w 119 116) 0) 19 0 ≠ 0 →
      wf w 115 110 + wf w 109 104 ≤ 63 → k ≤ wf w 109 104 →
      fld (vget x.anv.bound (wf w 119 116) 0) 19 0 ≤ fld (vget x.anv.bkt (wf w 115 110 + k) 0) 19 0 →
      (∀ j < k, fld (vget x.anv.bkt (wf w 115 110 + j) 0) 19 0 < fld (vget x.anv.bound (wf w 119 116) 0) 19 0) →
      exec (.bkt t w) s = .next (putTile s t (movedTo
        (twos 32 ((csWord s t.val : Int) + sgn 32 (fld (vget x.anv.bkt (wf w 115 110 + k) 0) 63 32))) x)))

/-- AINI, AADD and ASND whose checks pass take a place in the anvil queue; AGEO and ACHN hold the stream at their word
until they apply (04, R97 to R100, R103, R107). -/
def Obligations.AccumulatorWords : Prop :=
  ∀ (s : State) (t : TileId) (w : Word128),
    let x := tileAt s t.val
    let room := x.anv.queue.length < 16
    let held := putTile s t { x with blw := { x.blw with pend := some w, pendFc := if x.blw.pend = none then fc s else x.blw.pendFc } }
    (Stands s t w 0x20 → bit x.acc.cfg 8 = true → exec (.ageo t w) s = .next held) ∧
    (Stands s t w 0x21 → room → wf w 119 114 < geomN x → wf w 106 98 + wf w 97 89 < geomSR x → (geomFmt x = 1 → wf w 113 107 ≤ 96) →
      exec (.aini t w) s = .next (issuedAs s t
        (let y := withAnvil s t (.acc { w := w, rows := wf w 97 89 + 1 }) x
         { y with acc := { x.acc with
            trackPX := if geomFmt x = 1 then vput x.acc.trackPX (wf w 119 114) (wf w 113 107) else x.acc.trackPX } }))) ∧
    (Stands s t w 0x22 → room → wf w 119 114 < geomN x → (wf w 61 61 = 1 → wf w 60 55 < geomN x) → wf w 106 98 < geomSR x →
      (wf w 61 61 = 0 → ∀ m ≤ wf w 106 98, inWindow s t.val (32 * (wf w 97 78 + m * wf w 77 62)) (geomSC x * geomE x) = true) →
      (geomFmt x = 1 → let p := if wf w 61 61 = 1 then vget x.acc.trackPX (wf w 60 55) 64 else wf w 113 107
        p ≤ 96 ∧ p = vget x.acc.trackPX (wf w 119 114) 64) →
      exec (.aadd t w) s = .next (issuedAs s t (withAnvil s t (.acc { w := w, rows := wf w 106 98 + 1 }) x))) ∧
    (Stands s t w 0x23 → chainEnd s t.val (wf w 119 118) (wf w 117 113) (wf w 112 93) = none →
      chainEnd s t.val (wf w 92 91) (wf w 90 86) (wf w 85 66) = none → exec (.achn t w) s = .next held) ∧
    (Stands s t w 0x24 → room → wf w 119 114 < geomN x → wf w 113 105 < geomSR x → geomFmt x = 1 → fld x.acc.chain 13 12 = 2 →
      exec (.asnd t w) s = .next (issuedAs s t
        (let y := withAnvil s t (.acc { w := w, rows := wf w 113 105 + 1, seqOut := x.acc.seqOut + 1 }) x
         { y with acc := { x.acc with seqOut := x.acc.seqOut + 1 } })))

/-- WCF, WIN and WCUR, once no earlier MMT has window rows to enter, set their words and the cursor, and every resident
line is given up (05, R114, R118, R119, R120). -/
def Obligations.WindowWords : Prop :=
  ∀ (s : State) (t : TileId) (w : Word128), winPending (tileAt s t.val) = false →
    let x := tileAt s t.val
    (Stands s t w 0x30 → fmtRsvd (wf w 119 115) = false → winFmtOk (wf w 119 115) = true → wf w 106 103 + 1 ≠ 16 →
      (1 ≤ wf w 106 103 → wf w 112 107 + 1 ≤ 15) →
      (wf w 113 113 = 0 → wf w 62 55 + (wf w 54 47 + 1) ≤ (wf w 106 103 + 1) * (wf w 112 107 + 1)) →
      (wf w 113 113 = 1 → wf w 62 55 < wf w 106 103 + 1) →
      exec (.wcf t w) s = .next (issuedAs s t { x with win := { x.win with
        wcf := some w, oy := 0, ox := 0, ch := 0, lines := [], late := false } })) ∧
    (Stands s t w 0x31 → (wf w 71 60 + 1) * (wf w 59 48 + 1) ≤ 4096 →
      32 * (wf w 119 100 + (wf w 83 72 + 1) * wf w 99 84) ≤ scrSize s t.val →
      (∀ c, x.win.wcf = some c → wf c 114 114 = 1 → (wf w 71 60 + 1) * (wf w 59 48 + 1) % 64 = 0) →
      exec (.win t w) s = .next (issuedAs s t { x with win := { x.win with
        win := some w, oy := 0, ox := 0, ch := 0, lines := [], late := false } })) ∧
    (∀ c n, Stands s t w 0x32 → x.win.wcf = some c → x.win.win = some n → wf w 107 96 < wf n 47 36 + 1 → wf w 95 84 < winWidth c n →
      wf w 119 108 < wf n 59 48 + 1 →
      exec (.wcur t w) s = .next (issuedAs s t { x with win := { x.win with
        oy := wf w 107 96, ox := wf w 95 84, ch := wf w 119 108, lines := [], late := false } }))

/-! ### Pipes of a tile -/

/-- LDP_LOAD_START takes the first LDP of the queue once no earlier MMT still reads its buffer; BUFFER_READY reads its rows
from scratch, with their codes, and writes the KP-element columns and their scale codes (03, R63, R64, R65, R66; 09, R197). -/
def Obligations.PlaneLoads : Prop :=
  ∀ (s : State) (t : TileId) (j : AnvJob) (k : LdpJob), j.op = .ldp k → tileRuns s t.val = true →
    let x := tileAt s t.val
    let b := wf k.w 112 112
    let i := k.info
    let line := fun (r n : Nat) => unpack (eltBits i.fmt) n (scrRead s t.val (32 * (wf k.w 86 67 + r * wf k.w 46 31)) (eltBytes i.fmt n))
    (tileRole s t.val ≠ 2 → x.anv.loadPipe = none → x.anv.queue.find? isLdp = some j →
      bufReads x b j.seq (tileLevel s t.val) = false →
      exec (.ldpLoadStart t) s = .next (putTile s t { x with anv := { x.anv with
        queue := x.anv.queue.filter (fun q => q.seq != j.seq), loadPipe := some j
        buf := vmod x.anv.buf b (fun v => { v with loading := true, ready := false }) } })) ∧
    (∀ u, u = seeRanges s t.val (ldpRows k ++ ldpScales k) →
      x.anv.loadPipe = some j → pipeHeld x 1 = false → rangesPoison u t.val (ldpRows k ++ ldpScales k) = none →
      ∃ cols scales, exec (.bufferReady t) s = .next (putTile u t { tileAt u t.val with anv := { x.anv with
          loadPipe := none
          buf := vmod x.anv.buf b (fun v => { v with loading := false, ready := true, cols := cols, scales := scales }) } }) ∧
        cols.length = i.np ∧ scales.length = i.np ∧
        (∀ c < i.np, ∀ e < i.kp, (cols.getD c []).getD e 0 =
          if wf k.w 114 114 = 1 then (line c i.kp).getD e 0 else (line e i.np).getD c 0) ∧
        (∀ c < i.np, ∀ g < i.kp / 32, (scales.getD c []).getD g 0 =
          if isMx i.fmt then ((scrRead s t.val (32 * wf k.w 66 47 + c * wf k.w 30 19) (i.kp / 32)).getD g 0).toNat else 127))

/-- A row enters the array: after a resolved replay the suppressed rows in their order, else the next row of the MMT whose
turn it is, read from scratch with its codes, with the terms of its blocks, its chain row consumed and, for a chain-out, a row
reserved at the target (03, R57, R60, R73, R75, R78; 04, R105, R106; 09, R197; 15, R359).
The oldest row leaves the array when its outputs agree: at its slot or, by the chain-out port, at the target's
chain-in buffer (03, R61, R71, R80; 04, R91, R104; 15, R353, R357). -/
def Obligations.RowsCrossArray : Prop :=
  (∀ (s : State) (t : TileId), tileRuns s t.val = true → tileRole s t.val ≠ 2 →
    let x := tileAt s t.val
    x.anv.replay = none → pipeHeld x 0 = false →
    (∀ r rest, x.anv.reenter = r :: rest →
      exec (.mmtRowEnter t) s = .next (putTile s t { x with anv := { x.anv with array := x.anv.array ++ [r], reenter := rest } })) ∧
    (∀ j k es sa, x.anv.reenter = [] → nextMmt x = some (j, k) →
      (bufAt x (wf k.w 108 108)).ready = true → loadPending x (wf k.w 108 108) j.seq = false →
      (jobSlots j).any (fun sl => slotBusyForMmt x j.seq sl) = false →
      (wf k.w 113 112 = 2 → ∃ c, x.acc.fifo.head? = some c ∧ c.poison = false) →
      (wf k.w 113 112 = 1 → slotPoison s t.val (wf k.w 86 81) k.entered k.plane.np = none) →
      let v := if wf k.w 109 109 = 1 then s else seeRanges s t.val (rowRanges k)
      rowOperands v t.val j.seq k = .go es sa → (wf k.w 111 110 = 1 → 0 < chainFree s (chainOutTile x)) →
      let ts := rowTerms (wf k.w 119 115) k.plane (bufAt x (wf k.w 108 108)) es sa
      ∃ n, exec (.mmtRowEnter t) s = .next n ∧
        (tileAt n t.val).anv.array = x.anv.array ++ [{
          seq := j.seq, row := k.entered, terms := ts.1, flags := ts.2
          init := if wf k.w 113 112 = 2 then (x.acc.fifo.head?.map (·.vals)).getD [] else [] }] ∧
        (tileAt n t.val).acc.fifo = (if wf k.w 113 112 = 2 then x.acc.fifo.tail else x.acc.fifo) ∧
        (wf k.w 111 110 = 1 → chainOutTile x ≠ t.val →
          (tileAt n (chainOutTile x)).acc.reserved = (tileAt s (chainOutTile x)).acc.reserved + 1) ∧
        Only [.tiles] v n ∧ ∀ u, u ≠ t.val → (wf k.w 111 110 = 1 → u ≠ chainOutTile x) → tileAt n u = tileAt v u)) ∧
  (∀ (s : State) (t : TileId) (r : ArrayRow) (rest : List ArrayRow) (k : MmtJob) (err shadowErr : RowError),
    let x := tileAt s t.val
    let o := rowResult s t.val k r
    let outs := corrupt o.outs err
    let agrees := fun (v : List Nat) (e : RowError) => k.plane.ck = true →
      rowSkipped k r o v = true ∨ rowPasses k r (rowInit s t.val k r) o v e = true
    x.anv.array = r :: rest → x.anv.replay = none → mmtOf x r.seq = some k → agrees outs err →
    (tileRole s t.val = 1 → outs = corrupt o.outs shadowErr ∧ agrees outs shadowErr) →
    ∃ n, exec (.mmtRowWrite t err shadowErr) s = .next n ∧ (tileAt n t.val).anv.array = rest ∧
      fld (tileAt n t.val).anv.flag 3 0 = (fld x.anv.flag 3 0 ||| o.flags) % 16 ∧
      (wf k.w 111 110 = 0 →
        n.mem = (store s (slotAddr x t.val (wf k.w 86 81) r.row 0) (packElts (8 * geomE x) outs) []).mem ∧
        fld (sstAt (tileAt n t.val) (wf k.w 86 81)) 4 0 = (fld (sstAt x (wf k.w 86 81)) 4 0 |||
          (if k.written + 1 = k.m then k.status ||| o.status else o.status)) % 32) ∧
      (wf k.w 111 110 ≠ 0 → n.mem = s.mem ∧ ∃ c : ChainRow,
        (tileAt n (chainOutTile x)).acc.arriving = (tileAt s (chainOutTile x)).acc.arriving ++ [c] ∧
        c.vals = outs ∧ c.row = r.row ∧ c.m = k.m ∧ c.np = k.plane.np ∧ c.seq = k.seqOut ∧ c.remote = false) ∧
      Only [.tiles, .mem] s n)

/-- At check level 1 or 2 a row that fails its comparison, or a pair that differs, leaves nothing: the array is
suppressed, the row waits for its replay, and the hearth is held under cause REPLAY (15, R354, R357, R358).
The failed row re-enters once the hearth is held, and a replay that settles writes its row, lets the suppressed rows
re-enter in order and ends cause REPLAY (15, R358, R359, Table 15-2). -/
def Obligations.RowsFailAndReplay : Prop :=
  (∀ (s : State) (t : TileId) (h : HearthId) (r : ArrayRow) (rest : List ArrayRow) (k : MmtJob) (err shadowErr : RowError),
    let x := tileAt s t.val
    let o := rowResult s t.val k r
    let outs := corrupt o.outs err
    x.anv.array = r :: rest → x.anv.replay = none → mmtOf x r.seq = some k → tileHearth s t.val = some h.val →
    1 ≤ chkLevel s h.val →
    ((k.plane.ck = true ∧ rowSkipped k r o outs = false ∧ rowPasses k r (rowInit s t.val k r) o outs err = false) ∨
      (tileRole s t.val = 1 ∧ outs ≠ corrupt o.outs shadowErr)) →
    ∃ n, exec (.mmtRowWrite t err shadowErr) s = .next n ∧ (tileAt n t.val).anv.array = [] ∧
      (tileAt n t.val).anv.replay = some { row := r, first := outs, firstShadow := corrupt o.outs shadowErr, entered := false, later := rest } ∧
      Recorded s n 0 0x0C (if tileRole s t.val = 1 then 2 else 1) (if tileRole s t.val = 1 then 0 else wf k.w 86 81) ∧
      bit (hearthAt n h.val).mem.sched 45 = true ∧
      (holdState s h.val = 0 → holdState n h.val = 1) ∧ Part.mem.same s n) ∧
  (∀ (s : State) (t : TileId) (h : HearthId) (p : Replay), (tileAt s t.val).anv.replay = some p → tileHearth s t.val = some h.val →
    let x := tileAt s t.val
    (holdState s h.val = 2 → p.entered = false →
      exec (.replayRow t) s = .next (putTile s t { x with anv := { x.anv with replay := some { p with entered := true } } })) ∧
    (∀ k err shadowErr, mmtOf x p.row.seq = some k → p.entered = true →
      let o := rowResult s t.val k p.row
      let outs := corrupt o.outs err
      let agrees := fun (v : List Nat) (e : RowError) => k.plane.ck = true →
        rowSkipped k p.row o v = true ∨ rowPasses k p.row (rowInit s t.val k p.row) o v e = true
      agrees outs err →
      (tileRole s t.val = 1 → outs = corrupt o.outs shadowErr ∧ agrees outs shadowErr ∧ (outs = p.first ∨ outs = p.firstShadow)) →
      ∃ n, exec (.replayEnd t err shadowErr) s = .next n ∧ (tileAt n t.val).anv.replay = none ∧
        (tileAt n t.val).anv.reenter = p.later ∧ csState n t.val = csState s t.val ∧
        bit (hearthAt n h.val).mem.sched 45 = false ∧
        Recorded s n 0 0x0C (if tileRole s t.val ≠ 1 ∧ outs = p.first then 5 else 3) 0 ∧
        (wf k.w 111 110 = 0 →
          n.mem = (store s (slotAddr x t.val (wf k.w 86 81) p.row.row 0) (packElts (8 * geomE x) outs) []).mem)))

/-- The accumulator pipe does a row of the AINI, AADD or ASND whose turn it is: zeros, sums, or the row sent to another
device. An ASND stays in the pipe until its last frame has left, and then leaves it (04, R97, R99, R100, R102, R103, R107). -/
def Obligations.AccumulatorPipeRows : Prop :=
  ∀ (s : State) (t : TileId) (j : AnvJob) (k : AccJob),
    let x := tileAt s t.val
    let sl := wf k.w 119 114
    let row := slotAddr x t.val sl
    tileRuns s t.val = true → tileRole s t.val ≠ 2 → pipeHeld x 2 = false → accNext x = some j → j.op = .acc k →
    (wf k.w 127 120 = 0x24 → k.done = k.rows → asndWaits s t.val = false →
      exec (.accumulatorPipeRow t) s = .next (putTile s t { x with anv := { x.anv with accPipe := none } })) ∧
    ((wf k.w 127 120 = 0x21 ∨ wf k.w 127 120 = 0x22 ∧ aaddPoison s t.val k = none ∨
        wf k.w 127 120 = 0x24 ∧ asndWaits s t.val = false ∧ k.done ≠ k.rows) →
    ∃ n, exec (.accumulatorPipeRow t) s = .next n ∧
      (let stays := wf k.w 127 120 = 0x24 ∧ asndWaits n t.val = true
       (tileAt n t.val).anv.accPipe = (if k.done + 1 < k.rows ∨ stays then
          some { j with op := .acc { k with done := k.done + 1, waitFc := if stays then some (fc s) else none } } else none)) ∧
      (wf k.w 127 120 = 0x21 → Only [.tiles, .mem] s n ∧
        n.mem = (store s (row (wf k.w 106 98 + k.done) 0) (packElts (8 * geomE x) (List.replicate (geomSC x) 0)) []).mem) ∧
      (wf k.w 127 120 = 0x22 → Only [.tiles, .mem] s n ∧
        let src := unpack (8 * geomE x) (geomSC x) (readMem s.mem (aaddSrc x t.val k) (geomSC x * geomE x))
        let dst := unpack (8 * geomE x) (geomSC x) (readMem s.mem (row k.done 0) (geomSC x * geomE x))
        n.mem = (store s (row k.done 0) (packElts (8 * geomE x) ((dst.zip src).map (fun p =>
          if geomFmt x = 1 then x96Add p.1 (sgn 96 p.2) else add32 p.1 p.2))) []).mem) ∧
      (wf k.w 127 120 = 0x24 → Only sendParts s n))

/-- AGEO and ACHN apply once nothing before them uses the slots, or a chain; chain rows arrive; a tile that waited for a
free row at its target goes on; a chain wait that outlasts 2^CTMO fc faults the tile: a row's, an ASND's for credit, or that of the
MMT at which the stream holds (04, R98, R103, R105 to R108). -/
def Obligations.AccumulatorEvents : Prop :=
  ∀ (s : State) (t : TileId),
    let x := tileAt s t.val
    let takesEffect := fun (op : Nat) (w : Word128) => x.blw.pend = some w ∧ wf w 127 120 = op ∧ csState s t.val = 1 ∧ tileRuns s t.val = true
    (∀ w, takesEffect 0x20 w → x.anv.queue = [] → x.anv.rowPipe = [] → x.anv.accPipe = none → x.anv.array = [] →
      x.anv.replay = none → x.anv.reenter = [] →
      exec (.ageoApply t) s = .next (issuedAs s t { x with acc := { x.acc with
        geom := mkGeom (wf w 119 118) (wf w 117 116) (wf w 115 115)
        sst := x.acc.sst.map (fun r => setFld (setFld r 4 0 0) 14 8 64), trackPX := Vector.replicate 64 64 } })) ∧
    (∀ w, takesEffect 0x23 w → (anvJobs x).any chainJob = false → x.acc.fifo = [] → x.acc.arriving = [] → x.acc.reserved = 0 →
      x.acc.rx = [] → x.acc.rxHdr = none → asndWaits s t.val = false →
      exec (.achnApply t) s = .next (issuedAs s t (chainFrom (put x.acc.seqOld (chainSrc x) x.acc.seqIn) { x with acc := { x.acc with
        chain := BitVec.ofNat 64 (wf w 112 93 * 2 ^ 44 + wf w 85 66 * 2 ^ 24 + wf w 117 113 * 2 ^ 19 + wf w 90 86 * 2 ^ 14 +
          wf w 119 118 * 2 ^ 12 + wf w 92 91 * 2 ^ 10)
        seqOut := 0 } }))) ∧
    (∀ r rest, x.acc.arriving = r :: rest →
      exec (.chainRowArrive t) s = .next (putTile s t { x with acc := { x.acc with
        fifo := x.acc.fifo ++ [r], arriving := rest, reserved := x.acc.reserved - 1 } })) ∧
    (∀ hd, x.acc.arriving = [] → x.acc.rxHdr = some hd → 0 < chainFree s t.val →
      12 * (leAt hd 4 2 + 1) + (if x.acc.rxRow + 1 = leAt hd 2 2 + 1 then 32 else 0) ≤ x.acc.rx.length →
      ∃ n c, exec (.chainRowArrive t) s = .next n ∧ (tileAt n t.val).acc.fifo = x.acc.fifo ++ [c] ∧
        c.vals = unpack 96 (leAt hd 4 2 + 1) (x.acc.rx.take (12 * (leAt hd 4 2 + 1))) ∧ c.row = x.acc.rxRow ∧ c.remote = true ∧
        c.px = leAt hd 1 1 ∧ c.seq = leAt hd 8 8 ∧ Only [.tiles] s n ∧ OnlyTile t.val s n) ∧
    (x.acc.late = true → 0 < chainFree s (chainOutTile x) →
      ∃ m, exec (.chainRowReserved t) s = .next (rowEnter m t.val) ∧ (tileAt m t.val).acc.late = false ∧
        Only [.tiles, .hearths] s m ∧ OnlyTile t.val s m) ∧
    (∀ j k, (x.anv.rowPipe ++ x.anv.queue).find? (fun i => match i.op with
        | .mmt q => chainExpired s t.val q.waitFc
        | _ => false) = some j → j.op = .mmt k →
      ∃ n, exec (.accChaintmo t) s = .next n ∧ Recorded s n 0 2 5 (if x.acc.late then 1 else 0) ∧
        (tileAt n t.val).acc.fault = faultWord j.idx k.entered 5 (if x.acc.late then 1 else 0) ∧
        (csState s t.val = 1 → csState n t.val = 3 ∧ csWord n t.val = j.idx % 2 ^ 32)) ∧
    ((x.anv.rowPipe ++ x.anv.queue).find? (fun i => match i.op with
        | .mmt q => chainExpired s t.val q.waitFc
        | _ => false) = none →
      (∀ j k, x.anv.accPipe = some j → j.op = .acc k → chainExpired s t.val k.waitFc = true →
        ∃ n, exec (.accChaintmo t) s = .next n ∧ Recorded s n 0 2 5 1 ∧ (tileAt n t.val).anv.accPipe = none ∧
          (tileAt n t.val).acc.fault = faultWord j.idx k.done 5 1) ∧
      (x.anv.accPipe = none → x.blw.pend ≠ none → chainExpired s t.val x.acc.headFc = true →
        ∃ n, exec (.accChaintmo t) s = .next n ∧ Recorded s n 0 2 5 0 ∧ (tileAt n t.val).acc.headFc = none ∧
          (tileAt n t.val).acc.fault = faultWord (csWord s t.val) 0 5 0))

/-- A line that the window unit fetched, read from scratch with its codes, becomes resident in place of the line with its
number. The first row of an MMT that needs a line whose ZRC row overran stops the tile there, and the rows before it stand (05,
R120, R121, R122; 09, R197). -/
def Obligations.WindowLines : Prop :=
  (∀ (s : State) (t : TileId) (oy ty iy : Nat) (c w : Word128),
    let x := tileAt s t.val
    x.win.wcf = some c → x.win.win = some w → winIy c w oy ty = some iy → winFrom x ≤ oy → oy < winFrom x + 4 → oy < wf w 47 36 + 1 →
    ty < wf c 106 103 + 1 → winLine x oy ty = none →
    let cnt := (wf w 71 60 + 1) * (wf w 59 48 + 1)
    let e := eltBits (wf c 119 115) / 8
    let bs := fun n => scrRead s t.val (32 * (wf w 119 100 + iy * wf w 99 84)) n
    let z := zrcDecode (cnt / 64) e (bs (32 * wf w 99 84))
    let len := if wf c 114 114 = 1 then 32 * wf w 99 84 else cnt * e
    let u := scrSee s t.val (32 * (wf w 119 100 + iy * wf w 99 84)) len
    ∃ n l, exec (.winLineArrive t oy ty) s = .next n ∧
      (tileAt n t.val).win.lines = x.win.lines.filter (fun k => k.line != 16 * (oy % 4) + ty) ++ [l] ∧
      l.oy = oy ∧ l.ty = ty ∧ l.elems = (if wf c 114 114 = 1 then z.1 else unpack (8 * e) cnt (bs (cnt * e))) ∧
      l.overrun = (decide (wf c 114 114 = 1) && z.2) ∧
      l.poison = ((poisoned u (winBase t.val + 32 * (wf w 119 100 + iy * wf w 99 84)) len).head?).map (· * 32) ∧
      Only [.tiles, .hearths] u n ∧ OnlyTile t.val u n) ∧
  (∀ (s : State) (t : TileId) (j : AnvJob) (k : MmtJob) (c w : Word128) (l : WinLine),
    let x := tileAt s t.val
    let wd := winWidth c w
    let oy := (k.win.1 * wd + k.win.2.1 + k.entered) / max 1 wd
    tileRuns s t.val = true → tileRole s t.val ≠ 2 → x.anv.replay = none → pipeHeld x 0 = false → x.anv.reenter = [] →
    nextMmt x = some (j, k) → wf k.w 109 109 = 1 → wf k.w 113 112 = 0 → (bufAt x (wf k.w 108 108)).ready = true →
    loadPending x (wf k.w 108 108) j.seq = false → (jobSlots j).any (fun sl => slotBusyForMmt x j.seq sl) = false →
    x.win.wcf = some c → x.win.win = some w → (∀ ty ∈ winNeeds c w oy, (winLine x oy ty).isSome = true) →
    ((winNeeds c w oy).map (fun ty => winLine x oy ty)).findSome? (fun q => q.bind (fun q => if q.overrun then some q else none)) = some l →
    let iy := (winIy c w l.oy l.ty).getD 0 % 256
    ∃ n, exec (.mmtRowEnter t) s = .next n ∧ Recorded s n 0 3 9 iy ∧ (csState s t.val = 1 → csState n t.val = 3) ∧
      (tileAt n t.val).win.fault = faultWord (idxOf x j.seq) k.entered 9 iy ∧ (tileAt n t.val).anv.array = x.anv.array ∧
      ∀ m, mmtOf (tileAt n t.val) j.seq = some m → m.m = k.entered)

/-- A row of a vector or special-function instruction, which reads scratch with its codes: the pipe keeps it until its last
row, when its flags join
`VEC_FLAG`, its captured mask is written and a strided ZRC store gives its length; VSTZ_FINISH ends a packed one, whose
address register then stands behind what was stored (06, R130, R147, R151, R152; 07, R158).
A hardware fault that makes a pair's vector or special-function rows differ is recorded with the unit, and retracts
(15, R357, R362). -/
def Obligations.VectorRowsAndPairs : Prop :=
  (∀ (s : State) (t : TileId),
    (∀ j s1 k0 mism, tileRuns s t.val = true → tileRole s t.val ≠ 2 → pipeHeld (tileAt s t.val) 3 = false →
      vecNext s t.val = some j → vecRowOf (vecSee s t.val j) t.val j = .ok (s1, k0) → (mism = true → tileRole s1 t.val ≠ 1) →
      let k := { k0 with done := k0.done + 1 }
      (k.done < vecRows k.w → exec (.vecRowComplete t mism) s = .next (setRun s1 t.val (some k) k.seq)) ∧
      (vecRows k.w ≤ k.done → ∃ n, exec (.vecRowComplete t mism) s = .next n ∧
        (vecOf n t.val).flag = (vecOf s1 t.val).flag ||| BitVec.ofNat 64 k.flags ∧
        (vecOf n t.val).run = (if isPacked k.w then some k else none) ∧
        (vecOf n t.val).queue = (vecOf s1 t.val).queue.filter (fun q => q.seq != k.seq) ∧
        (fdstOf k.w ≠ 0 → vget (vecOf n t.val).masks (fdstOf k.w) 0 = k.fmask) ∧
        (isZrc k.w = true → isPacked k.w = false → (vecOf n t.val).zlen = BitVec.ofNat 64 (k.zlen % 2 ^ 32)) ∧
        (vecOf n t.val).lanes = (vecOf s1 t.val).lanes ∧ Part.mem.same s1 n)) ∧
    (∀ j, (vecOf s t.val).run = some j → isPacked j.w = true → vecRows j.w ≤ j.done →
      ∃ n, exec (.vstzFinish t) s = .next n ∧ (vecOf n t.val).zlen = BitVec.ofNat 64 (j.zlen % 2 ^ 32) ∧ (vecOf n t.val).run = none ∧
        (∀ a, packedAr j.w = some a →
          fld (vget (vecOf n t.val).addr a 0) 19 0 = (fld (vget (vecOf s t.val).addr a 0) 19 0 + j.zlen / 32) % 2 ^ 20) ∧
        Only [.tiles] s n ∧ OnlyTile t.val s n)) ∧
  (∀ (s : State) (t : TileId) (j : VecJob) (s1 : State) (k : VecJob), tileRuns s t.val = true → pipeHeld (tileAt s t.val) 3 = false →
    tileRole s t.val = 1 → vecNext s t.val = some j → vecRowOf (vecSee s t.val j) t.val j = .ok (s1, k) → tileRole s1 t.val = 1 →
    k.oor = none →
    s1.recs = s.recs →
    ∃ n, exec (.vecRowComplete t true) s = .next n ∧ Recorded s n 0 0x0C 2 (if 0x60 ≤ wf j.w 127 120 then 2 else 1) ∧
      fld (tileAt n t.val).misc.chkTstat 15 0 = min 65535 (fld (tileAt s1 t.val).misc.chkTstat 15 0 + 1))

/-! ### Marks, landings, launches and the command stream -/

/-- DMK and SINC wait for the pipes they name and then count a mark or issue an increment, a DMK past a SINC that still
waits; DWT goes on once its landing count is reached; BLN launches one thread number on every core it names, with arguments
read from scratch (09, R197; 10, R228, R229, R231; 11, R254, R275).
A launch by register write on a tile of a hearth starts one thread, idle or stopped by a fault; a waiting tile whose pipes are
empty is late for its landing (01, R19; 10, R226, R228, R231, R245, R246). -/
def Obligations.MarksAndLaunches : Prop :=
  (∀ (s : State) (t : TileId) (w : Word128),
    let x := tileAt s t.val
    (Stands s t w 0x80 → wf w 119 115 ≠ 0 →
      exec (.dmk t w) s = .next (issuedAs s t { x with blw := { x.blw with
        marks := x.blw.marks ++ [{ seq := x.misc.seq, pipes := wf w 119 115, sinc := none }] } })) ∧
    (Stands s t w 0x81 → reached (landAt x (wf w 119 115)) (wf w 114 83) = true → exec (.dwt t w) s = .next (issuedAs s t x)) ∧
    (Stands s t w 0x82 → wf w 105 102 < 4 * 2 ^ fld x.blw.cfg 2 1 → wf w 119 113 + (wf w 112 106 + 1) ≤ 128 → wf w 69 66 ≠ 15 →
      (wf w 69 66 ≠ 0 → 32 * wf w 89 70 + 8 * wf w 69 66 ≤ scrSize s t.val) →
      (∀ i ≤ wf w 112 106, threadAt x (wf w 119 113 + i) (wf w 105 102) = none) →
      let u := scrSee s t.val (32 * wf w 89 70) (8 * wf w 69 66)
      ∃ n, exec (.bln t w) s = .next n ∧ csWord n t.val = (csWord s t.val + 1) % 2 ^ 32 ∧ Only [.tiles] u n ∧ OnlyTile t.val u n ∧
        ∀ i ≤ wf w 112 106, threadAt (tileAt n t.val) (wf w 119 113 + i) (wf w 105 102) = some (newThread (wf w 101 90)
          ((List.range (wf w 69 66)).map (fun k => leNat (scrRead s t.val (32 * wf w 89 70 + 8 * k) 8))) i)) ∧
    (Stands s t w 0x90 → (wf w 114 114 = 0 → tileCtr s t.val (wf w 93 78) = true) →
      (wf w 114 114 = 1 → wf w 113 94 ≠ 0xFFFFF ∧ wf w 113 94 ≠ devNo s ∧ admitted s (wf w 113 94) = true) →
      exec (.sinc t w) s = .next (issuedAs s t { x with blw := { x.blw with marks := x.blw.marks ++ [{
        seq := x.misc.seq, pipes := wf w 119 115
        sinc := some { remote := decide (wf w 114 114 = 1), dev := wf w 113 94, ctr := wf w 93 78, amt := wf w 77 46 } }] } })) ∧
    (∀ m rest d, x.blw.marks = m :: rest → (∃ p < 5, m.pipes.testBit p = true ∧ pipeDone x p m.seq = false) →
      x.blw.marks.find? (fun k => k.sinc.isNone) = some d → (∀ p < 5, d.pipes.testBit p = true → pipeDone x p d.seq = true) →
      exec (.dmkTakeEffect t) s = .next (putTile s t { x with blw := { x.blw with
        marks := x.blw.marks.erase d, mark := bumpMod x.blw.mark 31 0 1 } })) ∧
    (∀ m rest, x.blw.marks = m :: rest → (∀ p < 5, m.pipes.testBit p = true → pipeDone x p m.seq = true) →
      ∃ n, exec (.dmkTakeEffect t) s = .next n ∧ (tileAt n t.val).blw.marks = rest ∧
        (m.sinc = none → n = putTile s t { x with blw := { x.blw with marks := rest, mark := bumpMod x.blw.mark 31 0 1 } }) ∧
        (∀ c, m.sinc = some c → c.remote = false → Only [.tiles, .hearths, .flights] s n ∧
          n.flights = s.flights ++ [{ ctr := c.ctr, amt := c.amt, hearth := (tileHearth s t.val).bind toHid, remote := false }]) ∧
        (∀ c h, m.sinc = some c → c.remote = true → tileHearth s t.val = some h → h < 16 →
          (hearthAt n h).net.out = (hearthAt s h).net.out + BitVec.ofNat 64 c.amt ∨ admitted s (c.dev % 2 ^ 20) = false))) ∧
  (∀ (s : State) (t : TileId),
    (∀ a value, mayTile s a t.val = true → tileRole s t.val ≠ 2 → (tileHearth s t.val).isSome = true →
      (tileAt s t.val).blw.draining = none →
      let v := BitVec.ofNat 32 value
      fld v 24 21 < 4 * 2 ^ fld (tileAt s t.val).blw.cfg 2 1 →
      (∀ th, threadAt (tileAt s t.val) (fld v 31 25) (fld v 24 21) = some th → th.st = .fault) →
      exec (.blwLaunch a t value) s = .next (setThread s t.val (fld v 31 25) (fld v 24 21) (some (newThread (fld v 11 0) [] 0)))) ∧
    (∀ w (h : HearthId), (tileAt s t.val).blw.pend = some w → wf w 127 120 = 0x81 → csState s t.val = 1 → tileHearth s t.val = some h.val →
      (tileAt s t.val).blw.late = none → reached (landAt (tileAt s t.val) (wf w 119 115)) (wf w 114 83) = false →
      tileIdle (tileAt s t.val) = true →
      ∃ n, exec (.landLate t) s = .next n ∧ (tileAt n t.val).blw.late = some (wf w 119 115, wf w 114 83) ∧
        bit (hearthAt n h.val).mem.sched 40 = true ∧ (holdState s h.val = 0 → holdState n h.val = 1) ∧
        fld (hearthAt n h.val).mem.brch 15 8 = 1 ∧ fld (hearthAt n h.val).mem.brch 4 0 = t.val ∧
        Only ([.tiles, .hearths] ++ recParts) s n ∧ OnlyTile t.val s n))

/-- Starting, resuming, stopping and ending a command stream of a tile of a hearth. A fresh start zeroes the mark and landing counts; every
start clears the tile's fault registers and leads a stalled hearth out of STALLED (01, R19; 10, R232, R233). A phase window that the
stream left open ends with the stream, at its end or at the next fresh start (13, R331); that the stream is the command
whose end R331 means is a reading (log 51). -/
def Obligations.StreamControl : Prop :=
  ∀ (s : State) (a : Agent) (t : TileId) (word : Nat),
    let x := tileAt s t.val
    let clear := fun (y : Tile) => y.anv.fault = 0 ∧ y.acc.fault = 0 ∧ y.win.fault = 0 ∧ y.vec.fault = 0 ∧ y.vec.sfuFault = 0 ∧
      y.blw.fault = 0 ∧ y.misc.synFault = 0 ∧ y.misc.chkFault = 0
    (mayTile s a t.val = true → tileRole s t.val ≠ 2 →
      ((tileHearth s t.val).isSome = true → x.blw.draining = none → csState s t.val ≠ 1 → x.blw.threads = [] →
        ∃ n, exec (.csFreshStart a t word) s = .next n ∧ csState n t.val = 1 ∧ csWord n t.val = word % 2 ^ 32 ∧
          (tileAt n t.val).blw.mark = 0 ∧ (∀ k < 32, landAt (tileAt n t.val) k = 0) ∧ clear (tileAt n t.val) ∧
          (∀ h, tileHearth s t.val = some h → h < 16 → holdState n h ≠ 4) ∧ Only [.tiles, .hearths] (endTilePhase s t.val) n) ∧
      ((tileHearth s t.val).isSome = true → x.blw.draining = none → csState s t.val ≠ 1 → csState s t.val ≠ 2 →
        ∃ n, exec (.csResume a t word) s = .next n ∧ csState n t.val = 1 ∧ csWord n t.val = word % 2 ^ 32 ∧
          (tileAt n t.val).blw.mark = x.blw.mark ∧ (tileAt n t.val).blw.land = x.blw.land ∧ clear (tileAt n t.val) ∧
          (∀ h, tileHearth s t.val = some h → h < 16 → holdState n h ≠ 4) ∧ Only [.tiles, .hearths] s n) ∧
      (csState s t.val = 1 →
        exec (.csStop a t) s = .next (putTile s t { x with
          acc := { x.acc with headFc := none }
          blw := { x.blw with csCtl := setFld x.blw.csCtl 5 4 0, pend := none }, misc := { x.misc with wait := none } }))) ∧
    (csState s t.val = 1 → fld x.blw.csLim 31 0 ≤ csWord s t.val → tileIdle x = true →
      let n := putTile s t { x with blw := { x.blw with csCtl := setFld x.blw.csCtl 5 4 2 } }
      exec (.csDone t) s = .next (endTilePhase n t.val) ∧ (x.misc.ph = none → endTilePhase n t.val = n))

/-- CS_WORD_ISSUE fetches the 16 bytes at 16 × (`BASE` + `WORD`), or takes the word the stream holds at, and issues
it (10, R233).
A fetched word issues as the instruction its opcode names (03, Table 03-5; 04 to 08; 10; 11; 13; 15). -/
def Obligations.StreamsFetchAndIssue : Prop :=
  (∀ (s : State) (t : TileId), csState s t.val = 1 →
    let x := tileAt s t.val
    (∀ w, x.blw.pend = some w → exec (.csWordIssue t) s = .next (issueWord s t.val w)) ∧
    (∀ h s1 bs ps, x.blw.pend = none → csWord s t.val < fld x.blw.csLim 31 0 → tileRuns s t.val = true → tileRole s t.val ≠ 2 →
      tileHearth s t.val = some h →
      let a := 16 * (fld x.blw.csBase 39 0 + csWord s t.val)
      reach s (some h) a 16 = true → devRead s (some h) .alloc a 16 [] = some (s1, bs, ps) →
      exec (.csWordIssue t) s = .next (issueWord s1 t.val (BitVec.ofNat 128 (leNat bs))))) ∧
  (∀ (s : State) (t : TileId) (w : Word128),
    let named := fun (op : Nat) (c : Instr) => wf w 127 120 = op → exec c s = .next (issueWord s t.val w)
    named 0x10 (.mmt t w) ∧ named 0x11 (.ldp t w) ∧ named 0x12 (.bld t w) ∧ named 0x13 (.bkt t w) ∧ named 0x20 (.ageo t w) ∧
    named 0x21 (.aini t w) ∧ named 0x22 (.aadd t w) ∧ named 0x23 (.achn t w) ∧ named 0x24 (.asnd t w) ∧ named 0x30 (.wcf t w) ∧
    named 0x31 (.win t w) ∧ named 0x32 (.wcur t w) ∧ named 0x40 (.vlen t w) ∧ named 0x41 (.vadr t w) ∧ named 0x42 (.vidx t w) ∧
    named 0x43 (.vld t w) ∧ named 0x44 (.vst t w) ∧ named 0x45 (.vstz t w) ∧ named 0x46 (.epi t w) ∧ named 0x48 (.vfa t w) ∧
    named 0x49 (.via t w) ∧ named 0x4A (.vcmp t w) ∧ named 0x4B (.vsel t w) ∧ named 0x4C (.vcvt t w) ∧ named 0x4D (.vmsk t w) ∧
    named 0x4E (.vperm t w) ∧ named 0x4F (.vlsh t w) ∧ named 0x50 (.vcmpr t w) ∧ named 0x51 (.vexpd t w) ∧ named 0x52 (.vred t w) ∧
    named 0x60 (.sfn t w) ∧ named 0x61 (.smx t w) ∧ named 0x62 (.srs t w) ∧ named 0x63 (.rst t w) ∧ named 0x70 (.mgn t w) ∧
    named 0x71 (.mps t w) ∧ named 0x80 (.dmk t w) ∧ named 0x81 (.dwt t w) ∧ named 0x82 (.bln t w) ∧ named 0x90 (.sinc t w) ∧
    named 0x91 (.swat t w) ∧ named 0x92 (.sbas t w) ∧ named 0x93 (.sclm t w) ∧ named 0xA0 (.pht t w) ∧ named 0xB0 (.tsl t w))

/-- A word that fails a check of its instruction has no effect of its own: the fault register of its unit takes the word
index, the code and the detail, the stream is FAULTED at the word, and one record is made (03, R76; 10, R233). -/
def Obligations.FailedWordsFault : Prop :=
  ∀ (s : State) (t : TileId) (w : Word128) (sp c d : Nat), canIssue s t.val w = true →
    (∃ f, issueOf t.val w = some f ∧ f s = .fault sp c d) → sp ∈ [1, 2, 3, 4, 5, 7, 9] → c < 256 → d < 2 ^ 24 →
    let n := issueWord s t.val w
    let y := tileAt n t.val
    csState n t.val = 3 ∧ csWord n t.val = csWord s t.val ∧ Recorded s n 0 sp c (d % 256) ∧
    (if sp = 1 then y.anv.fault else if sp = 2 then y.acc.fault else if sp = 3 then y.win.fault else if sp = 4 then y.vec.fault
      else if sp = 5 then y.vec.sfuFault else if sp = 7 then y.blw.fault else y.misc.synFault) =
      BitVec.ofNat 64 (csWord s t.val * 2 ^ 32 + d / 256 * 2 ^ 16 + c * 2 ^ 8 + d % 256) ∧
    y.anv.queue = (tileAt s t.val).anv.queue ∧ y.vec.queue = (tileAt s t.val).vec.queue ∧
    Only ([.tiles] ++ recParts) s n ∧ OnlyTile t.val s n

/-! ### Bellows programs -/

/-- The arithmetic instructions, when it is the thread's turn, write b[RD] and go on at the next word; b0 stays zero (10, R223,
R224, Table 10-3). -/
def Obligations.ThreadArithmetic : Prop :=
  ∀ (s : State) (th : ThreadId) (h : Nat) (x : Thread) (w : BWord), AtWord s th h x w → x.pc < 4095 →
    let reg := fun (i : Nat) => if i = 0 then (0 : BitVec 64) else vget x.b i 0
    let rd := fld w 57 54
    let ra := reg (fld w 53 50)
    let rb := reg (fld w 49 46)
    let imm : BitVec 64 := (w.extractLsb' 0 32).signExtend 64
    let gives := fun (c : Instr) (v : BitVec 64) =>
      exec c s = .next (withThread (tookTurn s th) th (threadTo (x.pc + 1) (if rd = 0 then x else { x with b := vput x.b rd v })))
    (fld w 63 58 = 0x01 → gives (.li th) imm) ∧
    (fld w 63 58 = 0x02 → gives (.lih th) (setFld (reg rd) 63 32 (fld w 31 0))) ∧
    (fld w 63 58 = 0x03 → gives (.add th) (ra + rb)) ∧
    (fld w 63 58 = 0x04 → gives (.addi th) (ra + imm)) ∧
    (fld w 63 58 = 0x05 → gives (.sub th) (ra - rb)) ∧
    (fld w 63 58 = 0x06 → gives (.muli th) (ra * imm)) ∧
    (fld w 63 58 = 0x07 → gives (.shli th) (ra <<< fld w 5 0)) ∧
    (fld w 63 58 = 0x08 → gives (.shri th) (ra >>> fld w 5 0)) ∧
    (fld w 63 58 = 0x09 → gives (.andi th) (ra &&& imm)) ∧
    (fld w 63 58 = 0x0A → ∀ s1 bs, (ra + imm).toNat % 8 = 0 → lOk s h (ra + imm).toNat 8 = true →
      devRead (tookTurn s th) (some h) .alloc (gLoc (ra + imm).toNat) 8 [] = some (s1, bs, []) →
      exec (.ldw th) s = .next (withThread s1 th (threadTo (x.pc + 1)
        (if rd = 0 then x else { x with b := vput x.b rd (BitVec.ofNat 64 (leNat bs)) }))))

/-- Loops nest from level 0; a count of zero skips the body; ENDL returns to the first word while a count is left; BNZ
goes to its word; END makes the thread idle; MWT and FEN go on once their condition holds (10, R229, R234, R235). -/
def Obligations.ThreadControl : Prop :=
  ∀ (s : State) (th : ThreadId) (h : Nat) (x : Thread) (w : BWord), AtWord s th h x w →
    let reg := fun (i : Nat) => if i = 0 then (0 : BitVec 64) else vget x.b i 0
    let rd := fld w 57 54
    let cnt := fld (reg (fld w 53 50)) 31 0
    let now := tookTurn s th
    let quiet := reqsOf (tileAt s th.tile.val) th.core.val th.thr.val = false
    (fld w 63 58 = 0x10 → rd = x.loops.length → rd ≤ 5 →
      (cnt = 0 → target w 1 ≤ 4095 → exec (.loop th) s = .next (withThread now th (threadTo (target w 1) x))) ∧
      (cnt ≠ 0 → x.pc < 4095 →
        exec (.loop th) s = .next (withThread now th (threadTo (x.pc + 1) { x with loops := x.loops ++ [(x.pc + 1, cnt)] })))) ∧
    (∀ outer first n, fld w 63 58 = 0x11 → x.loops = outer ++ [(first, n)] → rd = outer.length →
      (1 < n → first ≤ 4095 → exec (.endl th) s = .next (withThread now th (threadTo first { x with loops := outer ++ [(first, n - 1)] }))) ∧
      (n ≤ 1 → x.pc < 4095 → exec (.endl th) s = .next (withThread now th (threadTo (x.pc + 1) { x with loops := outer })))) ∧
    (fld w 63 58 = 0x12 →
      (reg (fld w 53 50) ≠ 0 → target w 0 ≤ 4095 → exec (.bnz th) s = .next (withThread now th (threadTo (target w 0) x))) ∧
      (reg (fld w 53 50) = 0 → x.pc < 4095 → exec (.bnz th) s = .next (withThread now th (threadTo (x.pc + 1) x)))) ∧
    (fld w 63 58 = 0x13 → quiet → exec (.endT th) s = .next (setThread now th.tile.val th.core.val th.thr.val none)) ∧
    (∀ k, fld w 63 58 = 0x18 → x.pc < 4095 → tileNamed s h th.tile.val w (fld w 4 0) = some k →
      reached (fld (tileAt s k).blw.mark 31 0) cnt = true → exec (.mwt th) s = .next (withThread now th (threadTo (x.pc + 1) x))) ∧
    (fld w 63 58 = 0x19 → x.pc < 4095 → quiet → exec (.fen th) s = .next (withThread now th (threadTo (x.pc + 1) x)))

/-- With nothing of the thread in flight LND makes a landing increment and CINC an increment of a counter; ARS gives the
arena back down to a mark (10, R230, R243; 11, R252, R254, R273). -/
def Obligations.ThreadSignals : Prop :=
  ∀ (s : State) (th : ThreadId) (h : HearthId) (x : Thread) (w : BWord), AtWord s th h.val x w → x.pc < 4095 →
    let reg := fun (i : Nat) => if i = 0 then (0 : BitVec 64) else vget x.b i 0
    let ra := reg (fld w 53 50)
    let rb := reg (fld w 49 46)
    let quiet := reqsOf (tileAt s th.tile.val) th.core.val th.thr.val = false
    let goesOn := fun (n : State) => threadAt (tileAt n th.tile.val) th.core.val th.thr.val = some (threadTo (x.pc + 1) x)
    (∀ k, fld w 63 58 = 0x1A → quiet → tileNamed s h.val th.tile.val w (fld w 12 8) = some k → k < 32 →
      ∃ n, exec (.lnd th) s = .next n ∧ goesOn n ∧
        landAt (tileAt n k) (fld w 4 0) = (landAt (tileAt s k) (fld w 4 0) + 1) % 2 ^ 32 ∧ Only [.tiles, .hearths] s n) ∧
    (fld w 63 58 = 0x1B → quiet → fld ra 43 16 = 0 → rb.toNat < 2 ^ 32 →
      ((fld ra 63 44 = 0xFFFFF ∨ fld ra 63 44 = devNo s) → ctrIn s h.val (fld ra 15 0) = true →
        ∃ n, exec (.cinc th) s = .next n ∧ goesOn n ∧
          n.flights = s.flights ++ [{ ctr := fld ra 15 0, amt := rb.toNat, hearth := some h, remote := false }] ∧
          (hearthAt n h.val).net.issued = (hearthAt s h.val).net.issued + rb ∧
          (hearthAt n h.val).net.loc = (hearthAt s h.val).net.loc + rb ∧ Only [.tiles, .hearths, .flights] s n) ∧
      (fld ra 63 44 ≠ 0xFFFFF → fld ra 63 44 ≠ devNo s → admitted s (fld ra 63 44) = true →
        ∃ n, exec (.cinc th) s = .next n ∧ goesOn n ∧
          (hearthAt n h.val).net.issued = (hearthAt s h.val).net.issued + rb ∧
          (hearthAt n h.val).net.out = (hearthAt s h.val).net.out + rb ∧ n.flights = s.flights ∧ Only sendParts s n)) ∧
    (fld w 63 58 = 0x27 → ra.toNat ≤ (hearthAt s h.val).mem.actUsed.toNat → ra.toNat % 32 = 0 →
      ∃ n, exec (.ars th) s = .next n ∧ goesOn n ∧ (hearthAt n h.val).mem.actUsed = ra ∧
        Only [.tiles, .hearths] s n ∧ OnlyTile th.tile.val s n ∧ OnlyHearth h.val s n)

/-- MOVE, GATH, MCST and PFT whose checks pass and whose core has the tokens issue one request for each granule of every
row, post the landing when `LV` = 1, and go on. GATH is said of a table in a scratch window of its hearth that has no wrong
code word. A prefetch drops the rows it may not read (10, R225, R230, R236 to R239).
ZPK, its tables on this device and read, places rows back to back, writes their offsets and returns the end; ZUP fetches rows
from their offsets; in an arena ZPK moves the mark. Rows of length zero move nothing (10, R242, R243). -/
def Obligations.ThreadTransfers : Prop :=
  (∀ (s : State) (th : ThreadId) (h : Nat) (x : Thread) (w : BWord), AtWord s th h x w → x.pc < 4095 → x.going = false →
    let reg := fun (i : Nat) => if i = 0 then (0 : BitVec 64) else vget x.b i 0
    let b0 := reg (fld w 57 54)
    let b1 := reg (fld w 53 50)
    let b2 := reg (fld w 49 46)
    let b3 := reg (fld w 45 42)
    let n := fld w 41 33 + 1
    let len := 32 * (fld w 32 25 + 1)
    let g := (tileAt s th.tile.val).blw.nextGrp
    let hint := hintOf (fld w 24 23)
    let src := fun (r : Nat) => (b0 + BitVec.ofNat 64 r * b2).toNat
    let dst := fun (r : Nat) => (b1 + BitVec.ofNat 64 r * b3).toNat
    let even := fun (v : BitVec 64) => v.toNat % 32 = 0
    (∀ mism, fld w 63 58 = 0x20 → fld w 24 23 ≠ 3 → (mism = true → tileRole s th.tile.val ≠ 1) → even b0 → even b1 → even b2 → even b3 →
      (∀ r < n, gOk s h (src r) len = true ∧ gOk s h (dst r) len = true ∧ (isLocal s (src r) = true ∨ isLocal s (dst r) = true) ∧
        (fld w 17 17 = 1 → isLocal s (dst r) = true)) →
      let rs := (List.range n).flatMap (fun r => rowReqs s th g hint (src r) (dst r) len)
      TokensFor s th rs →
      ∃ m, exec (.move th mism) s = .next m ∧ Moved s m th x w rs (landMask s th.tile.val (dst 0)) ∧ Part.mem.same s m) ∧
    (∀ base t0, fld w 63 58 = 0x21 → fld w 24 23 ≠ 3 → 5 ≤ fld w 16 12 → fld w 16 12 ≤ 20 → b0.toNat % 4 = 0 → even b1 → even b2 → even b3 →
      lOk s h b0.toNat (4 * n) = true → place (gLoc b0.toNat) = .win t0 base → b0.toNat + 4 * n ≤ 2 ^ 64 →
      poisoned s (gLoc b0.toNat) (4 * n) = [] → s.codes.words = [] →
      let from' := fun (r : Nat) => (b2 + BitVec.ofNat 64 (leNat (readMem s.mem (gLoc b0.toNat + 4 * r) 4) * 2 ^ fld w 16 12)).toNat
      (∀ r < n, gOk s h (from' r) len = true ∧ gOk s h (dst r) len = true ∧
        (isLocal s (from' r) = true ∨ isLocal s (dst r) = true) ∧ (fld w 17 17 = 1 → isLocal s (dst r) = true)) →
      let rs := (List.range n).flatMap (fun r => rowReqs s th g hint (from' r) (dst r) len)
      TokensFor s th rs →
      ∃ m, exec (.gath th) s = .next m ∧ Moved s m th x w rs (landMask s th.tile.val (dst 0)) ∧ Part.mem.same s m) ∧
    (fld w 63 58 = 0x22 → fld w 24 23 ≠ 3 → even b0 → even b1 → even b2 → even b3 →
      let mask : BitVec 32 := BitVec.ofNat 32 (fld (vget (hearthAt s h).mem.mcg (fld w 16 12 % 16) 0) 31 0)
      mask ≠ 0 → (∀ k ∈ setBits mask, tileHearth s k = some h ∧ tileRole s k ≠ 2 ∧ ∀ r < n, inScratch s k (dst r) len = true) →
      (∀ r < n, gOk s h (src r) len = true) →
      let rs := (List.range n).flatMap (fun r => mcstReqs s th g hint (src r) (dst r) mask len)
      TokensFor s th rs →
      ∃ m, exec (.mcst th) s = .next m ∧ Moved s m th x w rs (some mask) ∧ Part.mem.same s m) ∧
    (fld w 63 58 = 0x23 →
      let bad := fun (r : Nat) => !decide (even b0) || !decide (even b2) || decide (fld w 24 23 = 3) || !lOk s h (src r) len
      let rs := (List.range n).flatMap (fun r => if bad r then [] else
        (rowReqs s th g .alloc (src r) (src r) len).map (fun q => { q with dst := .none }))
      TokensFor s th rs →
      ∃ m, exec (.pft th) s = .next m ∧ Moved s m th x w rs none ∧
        fld (tileAt m th.tile.val).blw.pfdrop 31 0 =
          min (2 ^ 32 - 1) (fld (tileAt s th.tile.val).blw.pfdrop 31 0 + ((List.range n).filter bad).length) ∧
        Only [.tiles] s m ∧ OnlyTile th.tile.val s m)) ∧
  (∀ (s : State) (th : ThreadId) (h : HearthId) (x : Thread) (w : BWord), AtWord s th h.val x w → x.pc < 4095 → x.going = false →
    fld w 24 23 ≠ 3 →
    let reg := fun (i : Nat) => if i = 0 then (0 : BitVec 64) else vget x.b i 0
    let b0 := reg (fld w 57 54)
    let b1 := reg (fld w 53 50)
    let lt := reg (fld w 49 46)
    let ot := reg (fld w 45 42)
    let n := fld w 41 33 + 1
    let len := 32 * (fld w 32 25 + 1)
    let g := (tileAt s th.tile.val).blw.nextGrp
    let hint := hintOf (fld w 24 23)
    let arena := fld w 16 12 % 2 = 1
    let ls := fun (i : Nat) => leNat (readMem s.mem (gLoc lt.toNat + 4 * i) 4)
    let os := fun (i : Nat) => leNat (readMem s.mem (gLoc ot.toNat + 4 * i) 4)
    let sum := fun (k : Nat) => ((List.range k).map ls).foldl (· + ·) 0
    let act := (hearthAt s h.val).mem
    lt.toNat % 32 = 0 → ot.toNat % 32 = 0 → lOk s h.val lt.toNat (4 * n) = true → lOk s h.val ot.toNat (4 * n) = true →
    (∀ i < n, ls i ≤ len ∧ ls i % 32 = 0) →
    (∀ s1 lb, fld w 63 58 = 0x25 → devRead (walkBegun s th) (some h.val) .alloc (gLoc lt.toNat) (4 * n) [] = some (s1, lb, []) → b0.toNat % 32 = 0 → (¬ arena → b1.toNat % 32 = 0) → (arena → act.actUsed.toNat + sum n ≤ act.actLim.toNat) →
      let src := fun (i : Nat) => (b0 + BitVec.ofNat 64 (i * len)).toNat
      let dst := if arena then ofLoc (act.actBase.toNat + act.actUsed.toNat) else b1.toNat
      let at' := fun (i : Nat) => (dst + sum i) % 2 ^ 64
      (∀ i < n, ls i ≠ 0 → gOk s h.val (src i) (ls i) = true ∧ gOk s h.val (at' i) (ls i) = true ∧
        (isLocal s (src i) = true ∨ isLocal s (at' i) = true)) →
      (fld w 17 17 = 1 → isLocal s dst = true) →
      let rs := (List.range n).flatMap (fun i => if ls i = 0 then [] else rowReqs s th g hint (src i) (at' i) (ls i)) ++
        dataReqs s th g ot.toNat ((List.range n).flatMap (fun i => leBytes 4 (sum i)))
      TokensFor s th rs →
      ∃ m y, exec (.zpk th) s = .next m ∧
        Moved s m th x w rs (landMask s th.tile.val (if arena then ofLoc act.actBase.toNat else b1.toNat)) ∧ m.mem = s.mem ∧
        threadAt (tileAt m th.tile.val) th.core.val th.thr.val = some y ∧
        (arena → (hearthAt m h.val).mem.actUsed = act.actUsed + BitVec.ofNat 64 (sum n) ∧ y.b = x.b) ∧
        (¬ arena → fld w 53 50 ≠ 0 → y.b = vput x.b (fld w 53 50) (b1 + BitVec.ofNat 64 (sum n)))) ∧
    (∀ s1 s2 lb ob, fld w 63 58 = 0x26 → devRead (walkBegun s th) (some h.val) .alloc (gLoc lt.toNat) (4 * n) [] = some (s1, lb, []) →
      devRead s1 (some h.val) .alloc (gLoc ot.toNat) (4 * n) [] = some (s2, ob, []) → (¬ arena → b0.toNat % 32 = 0) → b1.toNat % 32 = 0 → (∀ i < n, os i % 32 = 0) →
      let base := if arena then ofLoc act.actBase.toNat else b0.toNat
      let src := fun (i : Nat) => (base + os i) % 2 ^ 64
      let dst := fun (i : Nat) => (b1 + BitVec.ofNat 64 (i * len)).toNat
      (∀ i < n, ls i ≠ 0 → gOk s h.val (src i) (ls i) = true ∧ gOk s h.val (dst i) (ls i) = true ∧
        (isLocal s (src i) = true ∨ isLocal s (dst i) = true)) →
      (fld w 17 17 = 1 → ∀ i < n, isLocal s (dst i) = true) →
      let rs := (List.range n).flatMap (fun i => if ls i = 0 then [] else rowReqs s th g hint (src i) (dst i) (ls i))
      TokensFor s th rs →
      ∃ m, exec (.zup th) s = .next m ∧ Moved s m th x w rs (landMask s th.tile.val (dst 0)) ∧ m.mem = s.mem))

/-- READK and READV move the K or V rows of positions through the page table, whose entries go through without poison; the
rows of an invalid entry read zero. An entry is read once for the positions it serves in turn, and not at all while it is the
one that the thread read last (08, R179, R180; 10, R240, R241). -/
def Obligations.PageReads : Prop :=
  ∀ (s : State) (th : ThreadId) (h : Nat) (x : Thread) (w : BWord) (val : Bool), AtWord s th h x w → x.pc < 4095 → x.going = false →
    fld w 63 58 = 0x24 → fld w 16 12 = (if val then 1 else 0) → fld w 24 23 ≠ 3 → bit (hearthAt s h).mem.kvcfg 0 = true →
    let k := walkOf x w
    let g := (tileAt s th.tile.val).blw.nextGrp
    let hint := hintOf (fld w 24 23)
    let ea := fun (i : Nat) => entryAt k.dir (k.idx i)
    let kept := (x.entry.filter (fun q => q.1 == ea 0)).map (·.2)
    let e := fun (i : Nat) => let m := leNat (readMem s.mem (gLoc (ea i)) 8)
      if ea i = ea 0 then kept.getD m else m
    let reads := (List.range k.n).filter (fun i => if i = 0 then kept.isNone else decide (ea i ≠ ea (i - 1)))
    let dst := fun (i : Nat) => (k.dst + BitVec.ofNat 64 (i * k.row)).toNat
    let src := fun (i : Nat) => ofLoc (eFRAME (e i) * 65536 + ((if val then 256 else 0) + (k.pos + i) % 256) * k.row)
    EntriesRead h (reads.map ea) (walkBegun s th) → k.fmt ∈ [E4M3, E5M2, BF16, FP16] →
    k.rsl ≤ 4 → k.dir.toNat % 32 = 0 → k.dst.toNat % 32 = 0 → k.layer < k.layers → k.group < k.groups →
    (∀ i < k.n, k.page i < k.pages ∧ lOk s h (ea i) 8 = true ∧ gOk s h (dst i) k.row = true ∧
      (fld w 17 17 = 1 → isLocal s (dst i) = true) ∧
      (eV (e i) = true → lOk s h (src i) k.row = true ∧ frameOk s h k (eFRAME (e i)) = true)) →
    let rs := (List.range k.n).flatMap (fun i =>
      (if i ∈ reads then [entryReq th g (ea i) (e i)] else []) ++
      (if eV (e i) then rowReqs s th g hint (src i) (dst i) k.row
       else (rowReqs s th g hint (dst i) (dst i) k.row).map (fun q => { q with zero := true, srcDev := none })))
    TokensFor s th rs →
    ∃ m, exec (if val then .readv th else .readk th) s = .next m ∧ Moved s m th x w rs (landMask s th.tile.val (dst 0)) ∧
      m.mem = s.mem

/-- An APPEND of one position writes into its page; into a new zeroed page from the free ring when it has none; into a
private copy when the page is shared. Its entry takes its new value when the rows have committed (08, R181, R183, R184).
SHARE of one entry counts its frame once more and makes both entries copy on write; RELEASE of one entry uncounts its
frame, which goes to the release ring when nothing counts it any more (08, R182, R183). -/
def Obligations.PageAppendsAndSharing : Prop :=
  (∀ (s : State) (th : ThreadId) (h : Nat) (x : Thread) (w : BWord) (u : State), AtWord s th h x w → x.pc < 4095 → x.going = false →
    fld w 63 58 = 0x24 → fld w 16 12 = 2 → fld w 24 23 ≠ 3 → bit (hearthAt s h).mem.kvcfg 0 = true → fld w 41 33 = 0 → h < 16 →
    let k := walkOf x w
    let m0 := (hearthAt s h).mem
    let g := (tileAt s th.tile.val).blw.nextGrp
    let ea := entryAt k.dir (k.idx 0)
    let e := leNat (readMem s.mem (gLoc ea) 8)
    let r := k.pos % 256
    let src := fun (i : Nat) => (k.dst + BitVec.ofNat 64 (i * k.row)).toNat
    let rs := fun (f : Nat) => (if x.entry.any (fun q => q.1 == ea) then [] else [entryReq th g ea e]) ++
      (rowReqs s th g (hintOf (fld w 24 23)) (src 0) (ofLoc (f * 65536 + r * k.row)) k.row ++
        rowReqs s th g (hintOf (fld w 24 23)) (src 1) (ofLoc (f * 65536 + (256 + r) * k.row)) k.row).map
          (fun q => { q with ent := some (gLoc ea) })
    let count := fun (v : State) (f n : Nat) => store v (rcAddr s h f) (leBytes 2 n) []
    let countOf := fun (v : State) (f : Nat) => leNat (readMem v.mem (rcAddr s h f) 2)
    let copy := fun (v : State) (a b n : Nat) => if n = 0 then v else store v b (readMem v.mem a n) []
    let goes := fun (f entry : Nat) (mem : List Host.Cell) (m : State) =>
      Moved s m th x w (rs f) (some (1#32 <<< th.tile.val)) ∧ m.mem = mem ∧ look? (hearthAt m h).mem.kvLocks (gLoc ea) = some entry
    k.rsl ≤ 4 → k.fmt ∈ [E4M3, E5M2, BF16, FP16] → k.dir.toNat % 32 = 0 → k.dst.toNat % 32 = 0 → k.layer < k.layers → k.group < k.groups →
    k.page 0 < k.pages → lOk s h ea 8 = true → gOk s h (src 0) k.row = true → gOk s h (src 1) k.row = true →
    entryBusy s h ea = false → readEntry (walkBegun s th) h ea = .ok (e, u) →
    (eV e = true → eCOW e = false → r ≤ eFILL e → frameOk s h k (eFRAME e) = true → TokensFor s th (rs (eFRAME e)) →
      ∃ m, exec (.append th) s = .next m ∧
        goes (eFRAME e) (mkEntry false (if r = eFILL e then r + 1 else eFILL e) (eFRAME e)) s.mem m) ∧
    (∀ f, Calm s → s.codes = {} → s.poison = [] → freeEmpty s h = false →
      reach s (some h) (ringAddr m0.kvfree (fld m0.kvfptr 31 0)) 4 = true →
      f = leNat (readMem s.mem (ringAddr m0.kvfree (fld m0.kvfptr 31 0)) 4) % 2 ^ 25 → frameOk s h k f = true →
      reach s (some h) (rcAddr s h f) 2 = true → TokensFor s th (rs f) →
      let z := count (store s (f * 65536) (List.replicate (512 * k.row) 0) []) f 1
      let from' := eFRAME e
      let c := copy (copy z (from' * 65536) (f * 65536) (r * k.row)) (from' * 65536 + 256 * k.row) (f * 65536 + 256 * k.row) (r * k.row)
      (eV e = false → r = 0 →
        ∃ m, exec (.append th) s = .next m ∧ goes f (mkEntry false 1 f) z.mem m ∧
          fld (hearthAt m h).mem.kvfptr 31 0 = (fld m0.kvfptr 31 0 + 1) % 2 ^ 32) ∧
      (eV e = true → eCOW e = true → r = eFILL e → frameOk s h k from' = true → reach s (some h) (rcAddr s h from') 2 = true →
        1 < countOf c from' →
        ∃ m, exec (.append th) s = .next m ∧ goes f (mkEntry false (r + 1) f) (count c from' (countOf c from' - 1)).mem m ∧
          fld (hearthAt m h).mem.kvfptr 31 0 = (fld m0.kvfptr 31 0 + 1) % 2 ^ 32 ∧
          fld (hearthAt m h).mem.kvcnt 31 0 = (fld m0.kvcnt 31 0 + 1) % 2 ^ 32))) ∧
  (∀ (s : State) (th : ThreadId) (h : Nat) (x : Thread) (w : BWord) (u : State), AtWord s th h x w → x.pc < 4095 → x.going = false →
    fld w 63 58 = 0x24 → fld w 24 23 ≠ 3 → bit (hearthAt s h).mem.kvcfg 0 = true → h < 16 →
    let k := walkOf x w
    let m0 := (hearthAt s h).mem
    let g := (tileAt s th.tile.val).blw.nextGrp
    let ea := entryAt k.dir (k.idx' 0)
    let da := entryAt k.dst (k.idx' 0)
    let e := leNat (readMem s.mem (gLoc ea) 8)
    let f := eFRAME e
    let rc := leNat (readMem s.mem (rcAddr s h f) 2)
    let put := fun (v : State) (a n b : Nat) => store v a (leBytes n b) []
    k.n * (k.layers * k.groups) = 1 → k.rsl ≤ 4 → k.fmt ∈ [E4M3, E5M2, BF16, FP16] → k.dir.toNat % 32 = 0 → k.layer < k.layers →
    k.group < k.groups → k.page' 0 < k.pages → lOk s h ea 8 = true → entryBusy s h ea = false →
    readEntry (walkBegun s th) h ea = .ok (e, u) → eV e = true → reach s (some h) (rcAddr s h f) 2 = true →
    Calm s → s.codes = {} → s.poison = [] →
    (∀ u2 u3 u4 d, fld w 16 12 = 3 → k.dst.toNat % 32 = 0 → lOk s h da 8 = true → entryBusy s h da = false → rc < 65535 →
      let both := mkEntry true (eFILL e) f
      incFrame u h f ea = .ok u2 → writeEntry u2 h ea both = .ok u3 → readEntry u3 h da = .ok (d, u4) → eV d = false →
      TokensFor s th [entryReq th g ea e, entryReq th g da d] →
      ∃ m, exec (.share th) s = .next m ∧ Moved s m th x w [entryReq th g ea e, entryReq th g da d] (some (1#32 <<< th.tile.val)) ∧
        m.mem = (put (put (put s (rcAddr s h f) 2 (rc + 1)) (gLoc ea) 8 both) (gLoc da) 8 both).mem) ∧
    (fld w 16 12 = 4 → TokensFor s th [entryReq th g ea e] →
      (1 < rc →
        ∃ m, exec (.releasePages th) s = .next m ∧ Moved s m th x w [entryReq th g ea e] (some (1#32 <<< th.tile.val)) ∧
          m.mem = (put (put s (rcAddr s h f) 2 (rc - 1)) (gLoc ea) 8 0).mem) ∧
      (rc = 1 → relFull s h = false → reach s (some h) (ringAddr m0.kvrel (fld m0.kvrptr 63 32)) 4 = true →
        ∃ m, exec (.releasePages th) s = .next m ∧ Moved s m th x w [entryReq th g ea e] (some (1#32 <<< th.tile.val)) ∧
          m.mem = (put (put (put s (rcAddr s h f) 2 0) (ringAddr m0.kvrel (fld m0.kvrptr 63 32)) 4 f) (gLoc ea) 8 0).mem ∧
          fld (hearthAt m h).mem.kvrptr 63 32 = (fld m0.kvrptr 63 32 + 1) % 2 ^ 32)))

/-- Requests commit their bytes and landings follow when nothing of their group is in flight; stalled and waiting threads
go on; a stall that outlasts 2^RTMO fc faults the thread (08, R185; 09, R214; 10, R225, R230, Table 10-1). -/
def Obligations.RequestsAndResumes : Prop :=
  ∀ (s : State) (t : TileId) (h i : Nat), tileHearth s t.val = some h → (tileAt s t.val).blw.draining = none →
    (∀ r ecc s1 bs rel, (tileAt s t.val).blw.reqs[i]? = some r → r.sent = false → r.ent = none →
      reqBytes s h r ecc = some (s1, bs, rel) →
      let left := (tileAt s t.val).blw.reqs.eraseIdx i
      (r.zero = true → bs = List.replicate r.len 0) ∧
      (r.zero = false → r.data = [] → bs = readMem s.mem r.src r.len) ∧
      (∀ b s2, r.dst = .loc b → deliver s1 h t.val r 0 bs rel = some s2 →
        ∃ n, exec (.requestCommit t i ecc) s = .next n ∧ n.mem = (store s b bs []).mem ∧ (tileAt n t.val).blw.reqs = left) ∧
      (∀ mask off, r.dst = .tiles mask off → off + bs.length ≤ 0x2000000 →
        ∃ n, exec (.requestCommit t i ecc) s = .next n ∧ (tileAt n t.val).blw.reqs = left ∧
          ∀ k ∈ setBits mask, ∀ j < bs.length, readByte n.mem (winBase k + off + j) = bs.getD j 0) ∧
      (r.dst = .none → ∃ n, exec (.requestCommit t i ecc) s = .next n ∧ (tileAt n t.val).blw.reqs = left ∧ n.mem = s.mem) ∧
      (∀ d a, r.dst = .dev d a → firstUnsent (tileAt s t.val).blw.reqs i r = true →
        exec (.requestCommit t i ecc) s = .next (sendWrite
          (modBlw s1 t.val (fun b => { b with reqs := lmod b.reqs i (fun q => { q with sent := true }) }))
          (0x100000 + t.val) (some h) d.toNat a bs rel (.req t r.core r.grp)))) ∧
    (∀ l, (tileAt s t.val).blw.landings[i]? = some l → (∀ r ∈ (tileAt s t.val).blw.reqs, r.grp ≠ l.grp) → l.land < 32 →
      ∃ n, exec (.landingIncrement t i) s = .next n ∧ (tileAt n t.val).blw.landings = (tileAt s t.val).blw.landings.eraseIdx i ∧
        (∀ k ∈ setBits l.mask, landAt (tileAt n k) l.land = (landAt (tileAt s k) l.land + 1) % 2 ^ 32) ∧
        Only [.tiles, .hearths] s n) ∧
    (∀ th x, th.tile = t → threadAt (tileAt s t.val) th.core.val th.thr.val = some x →
      (x.st = .wait → thReady s th h x = true → exec (.threadResume th) s = .next (withThread s th { x with st := .run })) ∧
      (∀ rel since, x.stall = some (rel, since) →
        ((if rel then relFull s h else freeEmpty s h) = false → exec (.kvpRingResume th) s = .next (withThread s th { x with stall := none })) ∧
        ((if rel then relFull s h else freeEmpty s h) = true → since + 2 ^ fld (hearthAt s h).mem.kvcfg 13 8 ≤ fc s →
          ∃ n y, exec (if rel then .kvpRelfull th else .kvpNofree th) s = .next n ∧ Recorded s n 0 7 (if rel then 0xC4 else 0xC3) 0 ∧
            threadAt (tileAt n t.val) th.core.val th.thr.val = some y ∧ y.st = .fault ∧ y.pc = x.pc)))

/-! ### Hold states of a hearth -/

/-- The hold states: a requested hold; HELD once every tile has stopped, with the books of the hold; RESUMING once no
cause is left; RUN 32 fc later; STALLED after 2^HTMO fc, where the running streams stop FAULTED (10, R245 to R247, R490,
Table 10-9; 16, R403). -/
def Obligations.HoldStates : Prop :=
  ∀ (s : State) (h : HearthId),
    let x := hearthAt s h.val
    let entered := fun (st : Nat) => putHearth s h { x with
      mem := { x.mem with sched := setFld x.mem.sched 34 32 st }, run := { x.run with since := fc s } }
    let cause := fun (u : State) (i : Nat) => bit (hearthAt u h.val).mem.sched (39 + i)
    (∀ a, mayHearth s a h.val = true →
      (cause s 8 = false → ∃ n, exec (.hreq a h false) s = .next n ∧ cause n 8 = true ∧ fld (hearthAt n h.val).mem.brch 15 8 = 8 ∧
        ((holdState s h.val = 0 ∨ holdState s h.val = 3) → holdState n h.val = 1) ∧
        (holdState s h.val ≠ 0 → holdState s h.val ≠ 3 → holdState n h.val = holdState s h.val) ∧
        Only ([.hearths, .fresh] ++ recParts) s n ∧ OnlyHearth h.val s n) ∧
      (cause s 8 = true → exec (.hrel a h false) s = .next (putHearth s h { x with
        mem := { x.mem with sched := setFld x.mem.sched 47 47 0 } }))) ∧
    (holdState s h.val = 1 → tilesStopped s h.val = true →
      ∃ n, exec (.hearthHeld h) s = .next n ∧ holdState n h.val = 2 ∧ (hearthAt n h.val).run.since = fc s ∧
        (∀ i < 6, (vget (hearthAt n h.val).chk.audit 0 0).getLsbD i = (books s h.val).getD i true) ∧
        ((∀ i < 6, (books s h.val).getD i true = true) → n.recs = s.recs) ∧
        (∀ i < 6, (books s h.val).getD i true = false → (∀ j < i, (books s h.val).getD j true = true) → Recorded s n 0 0x0D 5 i) ∧
        Only ([.hearths, .fresh] ++ recParts) s n ∧ OnlyHearth h.val s n) ∧
    (holdState s h.val = 2 → holdCauses s h.val = 0 → exec (.hearthCausesClear h) s = .next (entered 3)) ∧
    (holdState s h.val = 3 → x.run.since + 32 ≤ fc s → exec (.hearthResume h) s = .next (entered 0)) ∧
    (holdState s h.val = 2 → x.run.since + 2 ^ fld x.mem.sched 13 8 ≤ fc s →
      ∃ n, exec (.schedStall h) s = .next n ∧ holdState n h.val = 4 ∧ Recorded s n 0 8 0x10 0 ∧
        ∀ t ∈ hTiles s h.val, csState s t = 1 → csState n t = 3)

/-! ### Counters -/

/-- SBAS keeps a counter's value, SCLM claims or releases a counter, holding the stream while claims of an unowned one are
decided between at the end of the fc, SWAT posts a wait and holds the stream until the wait
is satisfied, whether a target is absolute or counted from a base (11, R256, R257, R260, R263, R276). -/
def Obligations.CounterWords : Prop :=
  ∀ (s : State) (t : TileId) (h : Nat) (w : Word128), tileHearth s t.val = some h →
    let x := tileAt s t.val
    let code := 0x100000 + t.val
    (Stands s t w 0x92 → ctrIn s h (wf w 116 101) = true →
      exec (.sbas t w) s = .next (issuedAs s t { x with misc := { x.misc with
        synTb := vput x.misc.synTb (wf w 119 117) (BitVec.ofNat 64 (wf w 116 101 * 2 ^ 48 + (ctrAt s (wf w 116 101)).value.toNat))
        synTbW := vput x.misc.synTbW (wf w 119 117) true } })) ∧
    (Stands s t w 0x93 → ctrIn s h (wf w 118 103) = true →
      (wf w 119 119 = 0 → (ctrAt s (wf w 118 103)).owner ≠ 0 ∧ ((ctrAt s (wf w 118 103)).lost = true ∨
        (ctrAt s (wf w 118 103)).owner.toNat = code)) →
      (wf w 119 119 = 1 → (ctrAt s (wf w 118 103)).owner.toNat = code) →
      ∃ n, exec (.sclm t w) s = .next n ∧ csWord n t.val = (csWord s t.val + 1) % 2 ^ 32 ∧
        ctrAt n (wf w 118 103) = { ctrAt s (wf w 118 103) with
          owner := if wf w 119 119 = 1 then 0 else BitVec.ofNat 24 code, lost := false } ∧
        (∀ c, c ≠ wf w 118 103 → ctrAt n c = ctrAt s c) ∧ Only [.tiles, .counters] s n ∧ OnlyTile t.val s n) ∧
    (Stands s t w 0x93 → ctrIn s h (wf w 118 103) = true → wf w 119 119 = 0 → (ctrAt s (wf w 118 103)).owner = 0 →
      exec (.sclm t w) s = .next (putTile { s with claims := s.claims.filter (· != (wf w 118 103, code)) ++ [(wf w 118 103, code)] } t
        { x with blw := { x.blw with pend := some w, pendFc := if x.blw.pend = none then fc s else x.blw.pendFc } })) ∧
    (Stands s t w 0x91 → x.misc.wait = none → wf w 115 110 ≤ 40 → (wf w 119 119 = 1 → vget x.misc.synTbW (wf w 118 116) false = true) →
      let b := vget x.misc.synTb (wf w 118 116) 0
      let c := if wf w 119 119 = 1 then fld b 63 48 else wf w 109 94
      let tgt := if wf w 119 119 = 1 then min (fld b 47 0 + wf w 93 46) (2 ^ 48 - 1) else wf w 93 46
      ctrIn s h c = true →
      exec (.swat t w) s = .next (putTile s t { x with
        misc := { x.misc with wait := some {
          ctr := c, tgt := tgt, fc := fc s, held := (hearthAt s h).mem.held.toNat
          k := if wf w 115 110 = 0 then fld (hearthAt s h).net.synCfg 29 24 else wf w 115 110
          endFc := fc s, owner := (ctrAt s c).owner.toNat
          ended := if tgt ≤ (ctrAt s c).value.toNat then some .satisfied else if (ctrAt s c).lost then some .ownerLost else none } }
        blw := { x.blw with pend := some w, pendFc := if x.blw.pend = none then fc s else x.blw.pendFc } })) ∧
    (∀ q, x.misc.wait = some q → q.ended = some .satisfied → q.lent = false → csState s t.val = 1 → tileRuns s t.val = true →
      exec (.waitSatisfied (.tile t)) s = .next (issuedAs s t { x with misc := { x.misc with wait := none } }))

/-- Increments, which follow the writes of their agent that still wait, claims, releases, armed and cancelled wait slots by
register write; the claims of an unowned counter are decided at the end of the fc (11, R252, R254, R257, R261, R263). -/
def Obligations.CounterRegisterWrites : Prop :=
  ∀ (s : State) (a : Agent),
    (∀ (c : CtrId), mayCtr s a c.val = true →
      let x := ctrAt s c.val
      (∀ v : BitVec 64, v.toNat < 2 ^ 32 →
        ∃ n, exec (.synInc a c v) s = .next n ∧ Only [.hearths, .flights] s n ∧
          n.flights = s.flights ++ [{ ctr := c.val, amt := v.toNat, hearth := (agentHearth s a).bind toHid, remote := false,
                                       after := waitingWrites s a }]) ∧
      (x.owner = 0 → exec (.claim a c false) s = .next
        { s with claims := s.claims.filter (· != (c.val, a.code)) ++ [(c.val, a.code)] }) ∧
      (x.owner ≠ 0 → x.lost = true ∨ x.owner.toNat = a.code →
        exec (.claim a c false) s = .next (modCtr s c.val (fun y => { y with owner := BitVec.ofNat 24 a.code, lost := false }))) ∧
      (x.owner.toNat = a.code →
        exec (.releaseOwner a c false) s = .next (modCtr s c.val (fun y => { y with owner := 0, lost := false })))) ∧
    (∀ (h : HearthId) (i : Fin 32), mayHearth s a h.val = true →
      let x := hearthAt s h.val
      let c := wsCtr x i.val
      (∀ value, wsSt x i.val ≠ 1 → ctrIn s h.val c = true →
        let v := BitVec.ofNat 64 value
        fld v 7 2 ≤ 40 →
        ∃ n, exec (.arm a h i value) s = .next n ∧ wsSt (hearthAt n h.val) i.val = 1 ∧ Only [.hearths] s n ∧ OnlyHearth h.val s n ∧
          let w1 := vget (hearthAt n h.val).net.ws1 i.val 0
          fld w1 63 40 = a.code % 2 ^ 24 ∧ fld w1 26 16 = fld v 26 16 ∧ fld w1 7 2 = fld v 7 2 ∧
          vget (hearthAt n h.val).run.wsFc i.val 0 = fc s ∧
          vget (hearthAt n h.val).run.wsEnd i.val none =
            (if wsTgt x i.val ≤ (ctrAt s c).value.toNat then some .satisfied else if (ctrAt s c).lost then some .ownerLost else none)) ∧
      (wsSt x i.val = 1 →
        ∃ n, exec (.cancel a h i) s = .next n ∧ wsSt (hearthAt n h.val) i.val = 5 ∧ Only [.hearths] s n ∧ OnlyHearth h.val s n))

/-- Waits of slots end SATISFIED and are told; a wait not met in 2^K fc of RUN times out, and at the end of the fc, unless an
outcome that precedes it arose there, the tile stops at its word, the slot is TIMED_OUT; a lost owner ends the waits of its
counter (11, R257 to R259, R261, R265).
The increments on their way to a counter whose writes have committed are added at once, up to 2^48 - 1, where a first overflow
is recorded; every wait that the value reaches is satisfied; no other counter changes (11, R251, R254 to R256, R258). -/
def Obligations.IncrementsAndWaits : Prop :=
  (∀ (s : State),
    (∀ (t : TileId) w, (tileAt s t.val).misc.wait = some w →
      (w.ended = none → 2 ^ w.k ≤ waited s t.val w →
        ∃ n w', exec (.synTmo (.tile t)) s = .next n ∧ (tileAt n t.val).misc.wait = some w' ∧ w'.ended = some .timeout ∧
          w'.endFc = fc s ∧ w'.ctr = w.ctr ∧ w'.tgt = w.tgt ∧ Only [.tiles] s n ∧ OnlyTile t.val s n) ∧
      (w.ended = some .timeout → csState s t.val = 1 →
        let n := tileTmo s t.val
        csState n t.val = 3 ∧ csWord n t.val = csWord s t.val ∧ (tileAt n t.val).misc.wait = none ∧
          fld (tileAt n t.val).misc.synFault 15 8 = 4 ∧ Recorded s n 0 9 4 (ownDetail (ctrAt s w.ctr).owner.toNat))) ∧
    (∀ (h : HearthId) (i : Fin 32), wsSt (hearthAt s h.val) i.val = 1 →
      let x := hearthAt s h.val
      let k := fld (vget x.net.ws1 i.val 0) 7 2
      (vget x.run.wsEnd i.val none = some .satisfied →
        ∃ n, exec (.waitSatisfied (.slot h i)) s = .next n ∧ wsSt (hearthAt n h.val) i.val = 2 ∧ vget (hearthAt n h.val).run.wsEnd i.val none = none) ∧
      (vget x.run.wsEnd i.val none = none →
        vget x.run.wsFc i.val 0 + 2 ^ (if k = 0 then fld x.net.synCfg 29 24 else k) ≤ fc s →
        ∃ n, exec (.synTmo (.slot h i)) s = .next n ∧ vget (hearthAt n h.val).run.wsEnd i.val none = some .timeout ∧
          vget (hearthAt n h.val).run.wsEndFc i.val 0 = fc s ∧ Only [.hearths] s n ∧ OnlyHearth h.val s n) ∧
      (vget x.run.wsEnd i.val none = some .timeout →
        let n := slotTmo s h.val i.val
        wsSt (hearthAt n h.val) i.val = 3 ∧ Recorded s n 0 9 4 (ownDetail (ctrAt s (wsCtr x i.val)).owner.toNat))) ∧
    (∀ (c : CtrId), ∃ n, exec (.ownerLost c) s = .next n ∧ n.counters = s.counters ∧
      (∀ (t : TileId) w, (tileAt s t.val).misc.wait = some w → w.ctr = c.val → w.ended = some .ownerLost → w.endFc < fc s →
        fld (tileAt n t.val).misc.synFault 15 8 = 5 ∧ (csState s t.val = 1 → csState n t.val = 3)) ∧
      (∀ (h : HearthId) (i : Fin 32), wsSt (hearthAt s h.val) i.val = 1 → wsCtr (hearthAt s h.val) i.val = c.val →
        vget (hearthAt s h.val).run.wsEnd i.val none = some .ownerLost → vget (hearthAt s h.val).run.wsEndFc i.val 0 < fc s → wsSt (hearthAt n h.val) i.val = 4))) ∧
  (∀ (s : State) (c : CtrId),
    let now := fun (f : Flight) => f.ctr == c.val && f.after.all (fun m => s.msys.pool.toList.all (fun p => !p.waiting.contains m))
    (∃ f ∈ s.flights, now f = true) → (∀ f ∈ s.flights, now f = true → f.phase = none) →
    let x := ctrAt s c.val
    let v := x.value.toNat + ((s.flights.filter now).map (·.amt)).foldl (· + ·) 0
    ∃ n, exec (.incrementApply c) s = .next n ∧ n.flights = s.flights.filter (fun f => !now f) ∧
      (ctrAt n c.val).value.toNat = (if x.sat then x.value.toNat else min v (2 ^ 48 - 1)) ∧
      (ctrAt n c.val).sat = (x.sat || decide (2 ^ 48 - 1 < v)) ∧ (ctrAt n c.val).owner = x.owner ∧
      (∀ k, k ≠ c.val → ctrAt n k = ctrAt s k) ∧
      (x.sat = false → 2 ^ 48 - 1 < v → Recorded s n 0 9 9 0) ∧ ((x.sat = true ∨ v < 2 ^ 48) → n.recs = s.recs) ∧
      (∀ (t : TileId) w, (tileAt s t.val).misc.wait = some w → w.ctr = c.val →
        (w.ended = none ∨ w.ended ≠ some .satisfied ∧ w.endFc = fc s) → w.tgt ≤ (ctrAt n c.val).value.toNat → ∃ w', (tileAt n t.val).misc.wait = some w' ∧ w'.ended = some .satisfied) ∧
      (∀ (t : TileId) w, (tileAt s t.val).misc.wait = some w → (w.ctr ≠ c.val ∨ (ctrAt n c.val).value.toNat < w.tgt ∨
          w.ended = some .satisfied ∨ w.ended ≠ none ∧ w.endFc ≠ fc s) →
        (tileAt n t.val).misc.wait = some w))

/-! ### Links -/

/-- A well-formed frame of an open session passes its checks, its session has been used, and its credits are to be returned
when it leaves the receive buffer (12, R286, R302, R305).
What no window grants is refused, what is over the rate is not applied, and what has been accepted before is only
acknowledged again (12, R291, R303, R304). -/
def Obligations.FramesCheckedAndTurnedAway : Prop :=
  (∀ (s : State) (p : PortId) (f : Frame) (ty : Nat), Arrives s p f ty →
    (∃ u, rxFront s p.val f ty = .ok u ∧ Only [.lnk] s u ∧ u.lnk.send = s.lnk.send ∧
      ∀ x, sessOf s f.sdev = some x → ∃ y, sessOf u f.sdev = some y ∧ y.rxFrames = x.rxFrames + 1 ∧ y.used = fc s ∧ y.rx = x.rx) ∧
    let n := freeRx s p.val f
    Only [.ports] s n ∧ OnlyPort p.val s n ∧
      fld (portAt n p.val).crd 31 16 = (fld (portAt s p.val).crd 31 16 + frameCredits f) % 2 ^ 16 ∧
      fld (portAt n p.val).crd 47 32 = fld (portAt s p.val).crd 47 32 - frameCredits f ∧
      (f.ch < 8 → vget (portAt n p.val).ll.retq f.ch 0 = vget (portAt s p.val).ll.retq f.ch 0 + frameCredits f)) ∧
  (∀ (s : State) (p : PortId) (f : Frame) (u : State), rxFront s p.val f 0x10 = .ok u →
    let n := f.payload.length
    let a := frameAddr f
    let leaves := fun (m : State) (status : Nat) => exec (.write p f) s = .next (freeRx (sendAck m f.sdev f.fnum status) p.val f)
    (isDup u f = true → ∃ m, leaves m 4 ∧ Only [.hearths] u m) ∧
    (isDup u f = false → memWindow u f.sdev 0 a n = none →
      ∃ m, leaves m 1 ∧ Part.mem.same s m ∧ isDup m f = true ∧
        fld (portAt m p.val).rx0 31 0 = min (2 ^ 32 - 1) (fld (portAt u p.val).rx0 31 0 + 1)) ∧
    (∀ h, isDup u f = false → memWindow u f.sdev 0 a n = some h → discard u h f = none → rateTake u h f.sdev n 0 = none →
      ∃ m, leaves m 2 ∧ Part.mem.same s m ∧ isDup m f = false ∧
        fld (hearthAt m h).net.lnkRateCnt 63 32 = min (2 ^ 32 - 1) (fld (hearthAt u h).net.lnkRateCnt 63 32 + 1)))

/-- WRITE, READ and CHAIN of a source that a window admits within its rate: the bytes are stored, or read and sent, and
the frame number is not accepted again. A WRITE whose access must wait stays in the receive buffer with its credits (12, R285,
R286, R290, R291, R303, R304; 04, R107). -/
def Obligations.WindowFramesCommit : Prop :=
  ∀ (s : State) (p : PortId) (f : Frame) (u : State) (h : Nat),
    let n := f.payload.length
    let a := frameAddr f
    (∀ v, rxFront s p.val f 0x10 = .ok u → isDup u f = false → memWindow u f.sdev 0 a n = some h → discard u h f = none →
      rateTake u h f.sdev n 0 = some v →
      (∀ v', devWrite v (some h) .noalloc a f.payload (f.poison.map (· + a / 32)) = some v' →
        ∃ m, exec (.write p f) s = .next (freeRx (sendAck m f.sdev f.fnum 0) p.val f) ∧ m.mem = (store s a f.payload []).mem ∧
          (rxChan m f.sdev f.ch).com = (rxChan u f.sdev f.ch).com + n ∧ isDup m f = true) ∧
      (devWrite v (some h) .noalloc a f.payload (f.poison.map (· + a / 32)) = none →
        exec (.write p f) s = .next (putPort u p { portAt u p.val with held := (portAt u p.val).held ++ [f] }))) ∧
    (∀ v bs ps x, rxFront s p.val f 0x11 = .ok u → sessOf u f.sdev = some x → x.fnumHigh < f.fnum + 16384 →
      memWindow u f.sdev 1 a (32 * fld f.opx 79 72) = some h →
      devRead u (some h) .noalloc a (32 * fld f.opx 79 72) [] = some (v, bs, ps) →
      let ok := acceptNum v f.sdev f.fnum
      let rel := ps.map (fun k => k - a / 32)
      ((fld f.opx 79 72 ≤ 127 ∨ ps = []) → exec (.read p f) s = .next (freeRx (rdataFrame ok f.sdev f.fnum 0 bs rel true) p.val f)) ∧
      (127 < fld f.opx 79 72 → ps ≠ [] → exec (.read p f) s = .next (freeRx (rdataFrame
        (rdataFrame ok f.sdev f.fnum 0 (bs.take 2048) (rel.filter (fun k => decide (k < 64))) false)
        f.sdev f.fnum 64 (bs.drop 2048) ((rel.filter (fun k => decide (64 ≤ k))).map (· - 64)) true) p.val f))) ∧
    (∀ v, rxFront s p.val f 0x21 = .ok u → isDup u f = false → memWindow u f.sdev 0 (accBase (fld f.opx 4 0)) 32 = some h →
      discard u h f = none → rateTake u h f.sdev n 0 = some v → chainFull (tileAt s (fld f.opx 4 0)) = false →
      chainHeld s (fld f.opx 4 0) f = false →
      let x := tileAt s (fld f.opx 4 0)
      ∃ m, exec (.chain p f) s = .next (freeRx (sendAck m f.sdev f.fnum 0) p.val f) ∧ isDup m f = true ∧
        tileAt m (fld f.opx 4 0) = { x with acc := { x.acc with
          rxPsn := x.acc.rxPsn ++ f.poison.map (· + x.acc.rx.length / 32), rx := x.acc.rx ++ f.payload } })

/-- An increment is taken in sequence, applied once the bytes it announces have committed, and acknowledged; one that must
wait keeps the credits of its frame and is applied in its turn (11, R251, R266 to R269, R273). -/
def Obligations.RemoteIncrements : Prop :=
  ∀ (s : State),
    (∀ (p : PortId) (f : Frame) (u v : State) (k : Nat),
      let c := leAt f.payload 4 2
      let i : PendInc := { fnum := f.fnum, ctr := c, bytes := leAt f.payload 16 6, amt := leAt f.payload 24 4
                           port := p.val, ch := f.ch, cred := frameCredits f, book := some k }
      rxFront s p.val f 0x20 = .ok u → isDup u f = false → leAt f.payload 8 8 = (rxChan u f.sdev f.ch).hwm + 1 →
      ctrHearth u c = some k → winGrants u k f.sdev 2 (ctrInside c) = true → (ctrAt u c).rem = true → pendTotal u < 4096 →
      rateTake u k f.sdev 32 1 = some v → (ctrAt u c).sat = false → k < 16 →
      let old := rxChan u f.sdev f.ch
      (old.pend = [] → old.ann + i.bytes ≤ old.com →
        ∃ m, exec (.inc p f) s = .next (freeRx (sendAck m f.sdev f.fnum 0) p.val f) ∧
          (ctrAt m c).value.toNat = min ((ctrAt s c).value.toNat + i.amt) (2 ^ 48 - 1) ∧
          (rxChan m f.sdev f.ch).hwm = old.hwm + 1 ∧ (rxChan m f.sdev f.ch).ann = old.ann + i.bytes ∧
          (hearthAt m k).net.rxapp = (hearthAt u k).net.rxapp + BitVec.ofNat 64 i.amt ∧
          (hearthAt m k).net.rxacc = (hearthAt u k).net.rxacc + BitVec.ofNat 64 i.amt) ∧
      ((old.pend ≠ [] ∨ old.com < old.ann + i.bytes) →
        ∃ m, exec (.inc p f) s = .next m ∧ ctrAt m c = ctrAt s c ∧ (rxChan m f.sdev f.ch).pend = old.pend ++ [i] ∧
          (rxChan m f.sdev f.ch).hwm = old.hwm + 1 ∧ (hearthAt m k).net.pend = (hearthAt u k).net.pend + BitVec.ofNat 64 i.amt ∧
          m.ports = u.ports)) ∧
    (∀ (dev : BitVec 20) (ch : Fin 8) i rest, (rxChan s dev.toNat ch.val).pend = i :: rest →
      (rxChan s dev.toNat ch.val).ann + i.bytes ≤ (rxChan s dev.toNat ch.val).com → (ctrAt s i.ctr).sat = false →
      ∃ m, exec (.pendingIncrementApply dev ch) s = .next (freeCr (sendAck m dev.toNat i.fnum 0) i.port i.ch i.cred) ∧
        (ctrAt m i.ctr).value.toNat = min ((ctrAt s i.ctr).value.toNat + i.amt) (2 ^ 48 - 1) ∧
        (rxChan m dev.toNat ch.val).pend = rest ∧
        (rxChan m dev.toNat ch.val).ann = (rxChan s dev.toNat ch.val).ann + i.bytes)

/-- An acknowledgement ends its entry: a request commits and gives its token back, an increment is booked as done; RATE
and BUSY defer it. READ data goes to its destination, and ends the entry with its last unit (10, R225; 11, R270, R273; 12,
R290). -/
def Obligations.EntriesEnd : Prop :=
  ∀ (s : State),
    (∀ (p : PortId) (f : Frame) u, rxFront s p.val f 0x18 = .ok u → isDup u f = false →
      exec (.ack p f) s = .next (freeRx (gotAck (acceptNum u f.sdev f.fnum) f.sdev (fld f.opx 63 0) (fld f.opx 71 64)) p.val f)) ∧
    (∀ (dev : BitVec 20) fnum st e, findEntry s dev.toNat fnum = some e → e.frame.ftype = 0x20 →
      exec (.incrementAck dev fnum st) s = .next (gotAck s dev.toNat fnum st)) ∧
    (∀ dev fnum st e, findEntry s dev fnum = some e →
      ((st = 2 ∨ st = 3) → ∃ e', findEntry (gotAck s dev fnum st) dev fnum = some e' ∧ e'.deferred = some (fc s) ∧ e'.resends = 0) ∧
      (∀ h amt, (st = 0 ∨ st = 4) → e.use = .inc h amt →
        ∃ m, gotAck s dev fnum st = afterEntry m e.dev.toNat ∧ m.lnk.send = s.lnk.send.erase e ∧
          (hearthAt m h.val).net.done = (hearthAt s h.val).net.done + BitVec.ofNat 64 amt ∧
          (hearthAt m h.val).net.out = (hearthAt s h.val).net.out - BitVec.ofNat 64 amt) ∧
      (∀ (t : TileId) core grp i r, (st = 0 ∨ st = 4) → e.use = .req t core grp → reqIdx s t.val core grp e.frame.fnum e.dev = some i →
        (tileAt s t.val).blw.reqs[i]? = some r → r.ent = none → (tileAt s t.val).blw.draining = none →
        ∃ m, gotAck s dev fnum st = afterEntry m e.dev.toNat ∧ m.lnk.send = s.lnk.send.erase e ∧
          (tileAt m t.val).blw.reqs = (tileAt s t.val).blw.reqs.eraseIdx i)) ∧
    (∀ (p : PortId) (f : Frame) u v e (t : TileId) core grp i r a h, rxFront s p.val f 0x12 = .ok u → isDup u f = false →
      findEntry u f.sdev (fld f.opx 63 0) = some e → e.use = .req t core grp →
      reqIdx s t.val core grp e.frame.fnum e.dev = some i → (tileAt s t.val).blw.reqs[i]? = some r → r.ent = none →
      (tileAt s t.val).blw.draining = none → tileHearth s t.val = some h →
      r.dst = .loc a → e.frame.fnum = fld f.opx 63 0 →
      let off := fld f.opx 70 64
      deliver u h t.val { r with hint := .noalloc } (32 * off) f.payload f.poison = some v →
      let mem := (store s (a + 32 * off) f.payload []).mem
      let n := fld e.frame.opx 79 72
      let units := e.units ++ ((List.range (f.payload.length / 32)).map (· + off)).filter (fun k => decide (k < n) && !e.units.contains k)
      (n ≤ units.length →
        ∃ m, exec (.rdata p f) s = .next (freeRx (afterEntry m f.sdev) p.val f) ∧ m.mem = mem ∧
          (tileAt m t.val).blw.reqs = (tileAt s t.val).blw.reqs.eraseIdx i) ∧
      (units.length < n →
        ∃ m e', exec (.rdata p f) s = .next m ∧ m.mem = mem ∧ findEntry m f.sdev (fld f.opx 63 0) = some e' ∧ e'.units = units))

/-- Sessions open for waiting frames after their handshake's checks, take a new key after 2^32 frames, and end with
everything in their tables; frames are due to be sent again after the time-out, four times at most, and enter the table as
places come free (11, R264; 12, R290, R300 to R302). -/
def Obligations.SessionsAndResends : Prop :=
  ∀ (s : State),
    (∀ (dev : BitVec 20) (x : SessHs), sessOf s dev.toNat = none →
      (∃ r ∈ s.tmp.cur.dev.ranges, r.1 ≤ dev.toNat ∧ dev.toNat ≤ r.2) →
      (hsFault s dev.toNat x = none → s.lnk.sessions.length < 4096 →
        ∃ n y, exec (.sessionOpen ⟨dev, x⟩) s = .next n ∧ sessOf n dev.toNat = some y ∧ y.idHash = x.cert.idHash ∧
          (y.keyTx, y.keyRx) = hsKeys s dev.toNat x) ∧
      (∀ code, hsFault s dev.toNat x = some code → ∃ n, exec (.sessionOpen ⟨dev, x⟩) s = .next (colPeerLost n dev.toNat) ∧
        Recorded s n 0 0x0A code 0 ∧ sessOf n dev.toNat = none)) ∧
    (∀ (dev : BitVec 20) (x : SessHs) y, sessOf s dev.toNat = some y → (2 ^ 32 ≤ y.txFrames ∨ 2 ^ 32 ≤ y.rxFrames) →
      x.signOk = true → x.confirmOk = true →
      exec (.sessionRekey ⟨dev, x⟩) s = .next (modSess (ownSteps s dev.toNat 3) dev.toNat (fun y =>
        { y with keyid := (y.keyid + 1) % 256, oldKey := true, oldRx := y.keyRx, keyTx := (hsKeys s dev.toNat x).1
                 keyRx := (hsKeys s dev.toNat x).2, txFrames := 0, rxFrames := 0 }))) ∧
    (∀ (dev : BitVec 20), ∃ n, exec (.sessionEnd dev) s = .next (colPeerLost n dev.toNat) ∧ sessOf n dev.toNat = none ∧
      (∀ e ∈ n.lnk.send, e.dev ≠ dev) ∧
      ∀ c, (ctrAt s c).owner.toNat = 0x500000 + dev.toNat → (ctrAt n c).lost = true) ∧
    (∀ (p : PortId) (f : Frame) u, rxFront s p.val f 0x2F = .ok u → isDup u f = false →
      ∃ n, exec (.close p f) s = .next (freeRx (colPeerLost n f.sdev) p.val f) ∧ sessOf n f.sdev = none) ∧
    (∀ (dev : BitVec 20) fnum e, findEntry s dev.toNat fnum = some e → e.due = false → e.deferred = none →
      e.sent + 2 ^ fld s.lnk.topo 57 52 ≤ fc s →
      (e.resends < 4 → exec (.sendResend dev fnum) s = .next (modEntry s dev.toNat fnum (fun q =>
        { q with sent := fc s, resends := e.resends + 1, deferred := none, due := true }))) ∧
      (4 ≤ e.resends → ∃ n, exec (.sendResend dev fnum) s = .next (colPeerLost n dev.toNat) ∧ Recorded s n 0 0x0A 0x0D 0 ∧
        sessOf n dev.toNat = none ∧ n.lnk.ended = min (2 ^ 32 - 1) (s.lnk.ended + 1))) ∧
    (∀ e, s.lnk.waiting.find? (fun q => mayEnter s q && decide (s.lnk.waiting.find? (fun w => w.dev == q.dev) = some q)) = some e →
      let n := enterSend { s with lnk := { s.lnk with waiting := s.lnk.waiting.erase e } } e
      exec .sendTableSlotFree s = .next (pumpAll n) ∧ ∃ q ∈ n.lnk.send, q.dev = e.dev ∧ q.use = e.use ∧ q.sent = fc s)

/-- A frame for another device goes to the port of its route with a hop less and the class of its way, and leaves in its turn
while its channel and class, or the shared pool, has credits; a detour is counted (12, R286, R288, R295 to R298). -/
def Obligations.FramesAreForwarded : Prop :=
  ∀ (s : State) (p : PortId) (f : Frame),
    ((portUp s p.val = true ∨ portState s p.val = 6) → f.ddev ≠ devNo s → typeKnown f.ftype = true → f.plen ≤ 128 → f.hops ≠ 0 →
      let u := freeRx s p.val f
      (∀ q, route u f.ddev f.ch = .port q → exec (.frameForward p f) s = .next (putOut u q p.val { f with
        hops := f.hops - 1, clsB := classAfter u q f (p.val % 6 == q % 6) false })) ∧
      (∀ q, route u f.ddev f.ch = .detour q → f.dtr < 2 → exec (.frameForward p f) s = .next (putOut u q p.val { f with
        hops := f.hops - 1, dtr := f.dtr + 1, clsB := true }))) ∧
    (∀ grp < 13, portUp s p.val = true → (portAt s p.val).outq = [] → f.ch < 7 →
      let n := putOut s p.val grp f
      (crOk (portAt s p.val) f = true →
        n.out.drop (flitsOf f) = .frame p.val f :: s.out ∧ (portAt n p.val).outq = [] ∧
        (portAt n p.val).ll.crOut = (portAt s p.val).ll.crOut ++ [(crKey f, frameCredits f)] ∧
        (portAt n p.val).rrGrp = grp ∧ Only [.ports, .out] s n ∧ OnlyPort p.val s n) ∧
      (crOk (portAt s p.val) f = false →
        n.out = s.out ∧ (portAt n p.val).outq = [(grp, f)] ∧ (portAt n p.val).ll = (portAt s p.val).ll ∧
        (portAt n p.val).waitFc = some ((portAt s p.val).waitFc.getD (fc s))))

/-- Flits in order are counted and taken; a bad or unexpected one is discarded, and the next flit sent asks for a replay; the
flits sent are sent again when asked, or 2^RTMO fc after the last acknowledgement (12, R282 to R284, R286). -/
def Obligations.FlitsAndReplays : Prop :=
  ∀ (s : State) (p : PortId), (portUp s p.val = true ∨ portState s p.val = 2) →
    let x := portAt s p.val
    (∀ f : Flit,
      (f.uncorrectable = false → f.fcrcOk = true → f.lane = f.fseq % 8 → f.ft < 2 → f.fseq = x.ll.rxNext → f.ackValid = false →
        (∀ c ∈ f.cret, c = 0) →
        ∃ n, exec (.flitReceive p f) s = .next n ∧ (portAt n p.val).ll.rxNext = (x.ll.rxNext + 1) % 32768 ∧
          (portAt n p.val).ll.discarding = false ∧
          fld (portAt n p.val).crd 47 32 = (if f.ft = 0 then (fld x.crd 47 32 + f.takes) % 2 ^ 16 else fld x.crd 47 32) ∧
          fld (portAt n p.val).fec 63 32 = (fld x.fec 63 32 + (if f.corrected then 1 else 0)) % 2 ^ 32 ∧ Only [.ports] s n ∧ OnlyPort p.val s n) ∧
      ((f.uncorrectable = true ∨ f.fcrcOk = false) → vget x.ll.lane (f.phys % 8) 0 < 16 →
        ∃ n, exec (.flitReceive p f) s = .next n ∧ (portAt n p.val).ll.rxNext = x.ll.rxNext ∧ (portAt n p.val).ll.discarding = true ∧
          (portAt n p.val).ll.ask = (x.ll.ask || !x.ll.discarding) ∧
          fld (portAt n p.val).fec 31 0 = (fld x.fec 31 0 + (if f.uncorrectable then 1 else 0)) % 2 ^ 32 ∧
          Only [.ports] s n ∧ OnlyPort p.val s n)) ∧
    (∀ fseq, let back := (x.ll.txNext + 32768 - fseq) % 32768
      0 < back → back ≤ 16384 → (fseq ≠ x.ll.repFrom ∨ x.ll.repCount < 7) →
      let replays := fun (c : Instr) => ∃ n, exec c s = .next n ∧ n.out = .link p.val 1 fseq :: s.out ∧ (portAt n p.val).ll.repFrom = fseq ∧
        (portAt n p.val).ll.repCount = (if x.ll.repFrom = fseq then x.ll.repCount + 1 else 1) ∧
        fld (portAt n p.val).retry 31 0 = (fld x.retry 31 0 + 1) % 2 ^ 32 ∧ Only [.ports, .out] s n ∧ OnlyPort p.val s n
      replays (.flitReplay p fseq) ∧
      (x.ll.kept.head? = some fseq → x.ll.ackFc + 2 ^ fld x.cfg 5 0 ≤ fc s → replays (.replayTimeout p))) ∧
    (portUp s p.val = true →
      let down := fun (c : Instr) (code : Nat) => ∃ n, exec c s = .next (reroute n p.val) ∧ portState n p.val = 4 ∧
        fld (portAt n p.val).state 15 8 = code ∧ Recorded s n 0 0x0A code 0 ∧ (portAt n p.val).outq = x.outq
      down (.lnkLane p) 2 ∧ ∀ w, x.waitFc = some w → max w x.ll.credFc + 2 ^ fld x.cfg 11 6 ≤ fc s → down (.lnkCredit p) 4)

/-- The port states of Table 12-9: a port with the role of the device's mode trains, admits its partner, comes UP, and leaves
by DRAINING; what fails goes DOWN or is REJECTED and tries again after its time (12, R281, R293, R300, R301, R306, R307). -/
def Obligations.PortStates : Prop :=
  ∀ (s : State) (p : PortId),
    let x := portAt s p.val
    let st := portState s p.val
    let entered := fun (v : Nat) => putPort s p { x with state := setFld x.state 2 0 v, since := fc s }
    let late := fun (k : Nat) => x.since + 2 ^ k ≤ fc s
    (st = 0 → fld x.cfg 15 14 = (if bit s.lnk.topo 63 then 2 else 1) → bit s.recs.excl1 p.val = false →
      exec (.portEnable p) s = .next (entered 1)) ∧
    (st = 3 → ∃ n, exec (.portDisable p) s = .next (reroute n p.val) ∧ portState n p.val = 6 ∧ (portAt n p.val).outq = x.outq) ∧
    (st = 1 ∨ st = 2 → exec (.portDisable p) s = .next (entered 6)) ∧
    (st = 1 → ∃ n, exec (.lanesLocked p) s = .next n ∧ portState n p.val = 2 ∧ (portAt n p.val).hello = none ∧
      (portAt n p.val).ll.rxNext = 0 ∧ (portAt n p.val).ll.txNext = 1 ∧ (portAt n p.val).ll.kept = [0] ∧
      fld (portAt n p.val).crd 63 48 = 2048 ∧ n.out.drop 1 = .link p.val 2 0 :: s.out ∧ Only [.ports, .lnk, .out] s n ∧ OnlyPort p.val s n) ∧
    (st = 1 → late 27 → ∃ n, exec (.lnkTrain p) s = .next n ∧ portState n p.val = 4 ∧
      (x.trainSeen ≠ some (fc s / 2 ^ 30) → Recorded s n 0 0x0A 1 0) ∧ (x.trainSeen = some (fc s / 2 ^ 30) → n.recs = s.recs)) ∧
    (st = 4 → late 27 → exec (.downRetry p) s = .next (entered 1)) ∧
    (st = 2 → late 24 → exec (.admitTimeout p) s = .next (entered 4)) ∧
    (st = 5 → late 30 → exec (.rejectRetry p) s = .next (entered 1)) ∧
    (st = 6 → ((x.outq = [] ∧ fld x.crd 47 32 = 0) ∨ late 20) →
      ∃ n, exec (.drainEnd p) s = .next n ∧ portState n p.val = 0 ∧ (portAt n p.val).outq = [] ∧ (portAt n p.val).held = [] ∧
        Only [.ports] s n ∧ OnlyPort p.val s n) ∧
    (∀ f : Hello, st = 2 →
      (f.loMaj ≤ 1 → 1 ≤ f.hiMaj → ∃ n, exec (.hello p f) s = .next n ∧ portState n p.val = 2 ∧
        (portAt n p.val).hello = some (1, 0, f.dev) ∧ Output.certificate p.val s.stk.identity s.stk.serial ∈ n.out ∧ Only [.ports, .out] s n) ∧
      ((1 < f.loMaj ∨ f.hiMaj < 1) → ∃ n, exec (.hello p f) s = .next n ∧ portState n p.val = 5 ∧ Recorded s n 0 0x0A 5 0)) ∧
    (∀ (f : Handshake) maj min dev, st = 2 → x.hello = some (maj, min, dev) →
      (f.hstep = 2 → certFault s p.val dev f = none → exec (.hsk p f) s = .next (putPort
        { s with lnk := { s.lnk with ids := put s.lnk.ids dev f.idHash } } p { x with certOk := true, sigWant := true })) ∧
      (∀ c, f.hstep = 2 → certFault s p.val dev f = some c →
        ∃ n, exec (.hsk p f) s = .next n ∧ portState n p.val = 5 ∧ Recorded s n 0 0x0A c 0 ∧ fld (portAt n p.val).state 15 8 = c) ∧
      (f.hstep = 5 → x.certOk = true → f.sigOk = true → x.sigMade = false →
        exec (.hsk p f) s = .next (putPort s p { x with sigSeen := true })) ∧
      (f.hstep = 5 → x.certOk = true → f.sigOk = true → x.sigMade = true →
        ∃ n, exec (.hsk p f) s = .next n ∧ portState n p.val = 3 ∧ fld (portAt n p.val).state 63 44 = dev % 2 ^ 20) ∧
      (s.stk.up = true → x.sigWant = true → x.sigMade = false →
        ∃ n, exec (.handshakeSignature p) s = .next n ∧ (portAt n p.val).sigMade = true ∧
          portState n p.val = (if x.sigSeen then 3 else 2)))

/-! ### Registers, memory and the host -/

/-- A register answers an agent that may reach it: a read gives its word, a write changes the fields that take it, RWL
fields until the hearth's commit, fields of the Stoker from the Stoker alone; a flag set in the same cycle stays set, and what
the spec forbids software is refused (00, R2, R11, R12, R14; 08, R185; 09, R200, R201; 15, R376). -/
def Obligations.RegisterAccesses : Prop :=
  ∀ (s : State) (a : Agent) (addr size value : Nat), s.pwr.off = false → ctlBase ≤ addr → addr < 2 ^ 44 →
    let l := locOf ((addr - ctlBase) / 8 * 8)
    let en := enBits addr size
    let v : BitVec 64 := BitVec.ofNat 64 (value * 256 ^ (addr % 8)) &&& en
    let old : BitVec 64 := BitVec.ofNat 64 (readLoc s l)
    let after := fun (m : BitVec 64) => ((old &&& ~~~(m &&& en)) ||| (v &&& m)).toNat
    let write := exec (.registerWrite a addr size value) s
    let lands := fun (ps : List Part) (k : State → Prop) (w : Nat) => ∃ n, write = .next n ∧ readLoc n l = w ∧ Only ps s n ∧ k n
    (mayLoc s a l = false → write = .next (misuse s 1 a addr)) ∧
    (mayLoc s a l = true → alignedReg addr size = false → write = .next (misuse s 2 a addr)) ∧
    (mayLoc s a l = true → alignedReg addr size = true → v &&& rsvdBits l ≠ 0 → write = .next (misuse s 6 a addr)) ∧
    (mayLoc s a l = true → alignedReg addr size = true →
      (∀ d hint ecc, exec (.memoryAccess a addr size false d hint ecc) s =
        .next (emit s (.readData a (leBytes size (readLoc s l / 256 ^ (addr % 8))) []))) ∧
      (v &&& rsvdBits l = 0 → ∀ (h : HearthId) o, l = .hearth h.val o →
        (o ∈ [0x100, 0x108, 0x110, 0x118, 0x228, 0x310, 0x318] →
          lands [.hearths] (OnlyHearth h.val s) (after (bitsOf (maskHearth o).rw))) ∧
        (o = 0x218 → bit en 32 = true →
          let room := (fld v 63 32 + 2 ^ 32 - fld old 31 0) % 2 ^ 32 ≤ 2 ^ fld (hearthAt s h.val).mem.kvfree 4 0
          (room → lands [.hearths] (OnlyHearth h.val s) (setFld old 63 32 (fld v 63 32)).toNat) ∧
          (¬room → write = .next (misuse s 6 a (hearthReg h.val 0x218)))) ∧
        (o = 0x1108 → readLoc s l = (hearthAt s h.val).chk.epoch.toNat ∧ lands [.hearths] (fun n => OnlyHearth h.val s n ∧
          (hearthAt n h.val).chk.epochReq = ((hearthAt s h.val).chk.epochReq &&& ~~~en) ||| v) (readLoc s l)) ∧
        (o ∈ [0x200, 0x208, 0x210, 0x220, 0x480, 0x488, 0x500, 0xB00, 0xB08, 0x1000, 0x1100, 0x1118, 0x1120, 0x1128, 0x1130, 0x1138] →
          let m := bitsOf (maskHearth o).rwl
          ((hearthAt s h.val).run.locked = false → lands [.hearths] (OnlyHearth h.val s) (after m)) ∧
          ((hearthAt s h.val).run.locked = true → m &&& en ≠ 0 → write = .next (misuse s 3 a addr)))) ∧
      (v &&& rsvdBits l = 0 → ∀ (t : TileId), tileRole s t.val ≠ 2 →
        (l = .tile t.val 0x10 → lands [.tiles] (OnlyTile t.val s)
          (old &&& ~~~(v &&& 0xF &&& ~~~(BitVec.ofNat 64 ((tileAt s t.val).anv.flagNow.held s.cyc)))).toNat) ∧
        (∀ k < 4096, l = .blw t.val (0x8000 + 8 * k) → lands [.tiles] (OnlyTile t.val s) (after (BitVec.allOnes 64)))) ∧
      (v &&& rsvdBits l = 0 → ∀ o, l = .plat o → o ∈ [0x100010, 0x100018, 0x100020, 0x100028, 0x80018] →
        let m := bitsOf (stokerMask l)
        (a = .stoker → lands [.recs, .pwr] (fun _ => True) (after m)) ∧ (a ≠ .stoker → m &&& en ≠ 0 → write = .next (misuse s 3 a addr))))

/-- An access to memory within an agent's reach stores its bytes or delivers them; beyond it, it changes no byte; one
that needs a mantel tile waits. A sector of deep memory found uncorrectable is delivered poisoned, counted and recorded, and a
mantel tile that the read fills keeps it poisoned. A BAR leads to the same (09, R201, R207, R209, R213, R214; 20, R463, R465,
R466, R472). -/
def Obligations.MemoryAccesses : Prop :=
  ∀ (s : State),
    (∀ (a : Agent) (addr len : Nat) hint, s.pwr.off = false → (∀ o, place addr ≠ .ctl o) → 0 < len →
      (mayMem s a addr len = false →
        (∀ d ecc, exec (.memoryAccess a addr len false d hint ecc) s =
          .next (emit (misuse s 1 a addr) (.readData a (List.replicate len 0) (sectors addr len)))) ∧
        ∀ d ecc, d.length = len → exec (.memoryAccess a addr len true d hint ecc) s = .next (misuse s 1 a addr)) ∧
      (mayMem s a addr len = true → Settled s [] → hint ≠ .alloc →
        (∀ d ecc, d.length = len → ∃ n, exec (.memoryAccess a addr len true d hint ecc) s = .next n ∧
          n.mem = (store s addr d []).mem ∧ (ecc = [] → n.poison = (store s addr d []).poison ∧ Only [.mem, .hearths, .msys] s n)) ∧
        (∀ d, ∃ n, exec (.memoryAccess a addr len false d hint []) s = .next n ∧
          n.out = .readData a (readMem s.mem addr len) (poisoned s addr len) :: s.out ∧ Only [.hearths, .msys, .hif, .out] s n) ∧
        ∀ d k, 32 * k < deepTop → place addr = .deep addr → inBytes addr len k = true → fromDeep s (32 * k) 32 = true →
          ∃ n ps, exec (.memoryAccess a addr len false d hint [(k - addr / 256 * 8, .uncorrectable)]) s = .next n ∧
            n.out.head? = some (.readData a (readMem s.mem addr len) ps) ∧ k ∈ ps ∧ Recorded s n 0 6 2 0 ∧ n.mem = s.mem ∧
            fld n.msys.ecc0 63 32 = min (2 ^ 32 - 1) (fld s.msys.ecc0 63 32 + 1) ∧
            (fromDeep n (32 * k) 32 = false → k ∈ n.poison)) ∧
      (∀ (t : TileId) d ecc, a = .tile t → mayMem s a addr len = true → d.length = len →
        devWrite s (tileHearth s t.val) hint addr d [] none ecc = none →
        ∃ n, exec (.memoryAccess a addr len true d hint ecc) s = .next n ∧ Only [.msys] s n ∧
          ∃ m, m.addr = addr ∧ m.data = d ∧ m.wr = true ∧ m ∈ (poolAt n (waitPool s m)).waiting) ∧
      ∀ value, exec (.registerWrite a addr len value) s = exec (.memoryAccess a addr len true (leBytes len value) .noalloc []) s) ∧
    (∀ (f : FnId) (off size value : Nat) (ide : Bool),
      ((barOk s f.val ide).1 = true → s.pwr.bootWarm = false →
        (off < 2 ^ 30 →
          exec (.barAccess f 0 off size true value ide) s = exec (.registerWrite (.host f) (ctlBase + off) size value) s ∧
          exec (.barAccess f 0 off size false value ide) s = exec (.memoryAccess (.host f) (ctlBase + off) size false [] .noalloc []) s) ∧
        (∀ wr, off < 2 ^ 36 →
          let addr := fld (vget (vget s.hif.fns f.val {}).ap (off / 2 ^ 34) 0) 43 34 * 2 ^ 34 + off % 2 ^ 34
          (∀ o, place addr ≠ .ctl o) →
          exec (.barAccess f 2 off size wr value ide) s = exec (.memoryAccess (.host f) addr size wr (leBytes size value) .noalloc []) s) ∧
        (off < 2 ^ 16 → ∃ n, exec (.barAccess f 4 off size true value ide) s = .next n ∧ Only [.hif] s n ∧
          ∀ i < size, off + i < 0x8000 → look (vget n.hif.fns f.val {}).msix (off + i) 0 = (leBytes size value).getD i 0)) ∧
      (∀ bar wr, (barOk s f.val ide).1 = false →
        ∃ n, exec (.barAccess f bar off size wr value ide) s = .next n ∧ Only [.hif] s n) ∧
      (∀ bar, (barOk s f.val ide).1 = true → s.pwr.bootWarm = true →
        exec (.barAccess f bar off size true value ide) s = .next s ∧
        exec (.barAccess f bar off size false value ide) s =
          .next (emit s (.readData (.host f) (List.replicate size 0) (sectors off size)))))

/-- The host's link, which reports the module's serial number, its functions and their resets, IDE streams and the Temper
mailbox (20, R462 to R464, R471 to R474; 21, R487). -/
def Obligations.HostInterface : Prop :=
  ∀ (s : State),
    let lost := fun (n : State) (f : Nat) => ∀ c, (ctrAt s c).owner.toNat = 0x400000 + f → (ctrAt n c).lost = true
    (fld s.hif.link 1 0 ≠ 0 → ∃ n k, exec .perst s = .next n ∧ fld n.hif.link 1 0 = 0 ∧ fld n.hif.link 63 48 = fld s.hif.link 63 48 ∧
      n.hif.vfEn = false ∧ n.tmp.mbx = none ∧ (∀ f < 17, lost n f) ∧ Recorded s n k 0x11 1 0) ∧
    (∀ speed width, s.pwr.off = false → bit s.pwr.rails 7 = true → 1 ≤ speed → speed ≤ 6 → width ∈ [1, 4, 8] →
      ∃ n, exec (.hostLinkUp speed width) s = .next n ∧ fld n.hif.link 1 0 = 2 ∧ fld n.hif.link 14 12 = speed ∧
        fld n.hif.link 11 8 = width ∧ (speed = 6 → bit n.hif.link 15 = true) ∧ (speed < 4 → bit n.hif.link 15 = false) ∧
        fld n.hif.link 63 48 = (if fld s.hif.link 1 0 = 2 then min 65535 (fld s.hif.link 63 48 + 1) else fld s.hif.link 63 48) ∧
        .deviceSerial s.stk.serial ∈ n.out ∧ (speed < 4 ∨ width < 8 → Recorded s n 0 0x11 2 speed) ∧ (¬(speed < 4 ∨ width < 8) → n.recs = s.recs)) ∧
    (fld s.hif.link 1 0 = 2 → ∃ n, exec .vfEnable s = .next n ∧ n.hif.vfEn = true ∧ Only [.hif] s n ∧
      ∀ f : FnId, bit (vget n.hif.fns f.val {}).fn 0 = decide (f.val ≤ s.tmp.cur.dev.nvf ∨ f.val = 0)) ∧
    (s.hif.vfEn = true → ∃ n, exec .vfEnableClear s = .next n ∧ n.hif.vfEn = false ∧
      (∀ f < 17, f ≠ 0 → lost n f ∧ { vget n.hif.fns f {} with fn := 0 } = ({} : HostFn) ∧ bit (vget n.hif.fns f {}).fn 0 = false)) ∧
    (∀ f : FnId, fnEnabled s f.val = true →
      (∀ e, exec (.d3hot f e) s = .next (modFn s f.val (fun x => { x with d3 := e }))) ∧
      let m := endFn s f.val
      vget m.hif.fns f.val {} = {} ∧ lost m f.val ∧ m.tmp.mbx ≠ some f.val ∧
      exec (.flr f) s = .next (raise (temperFns (match fnHearth s f.val with
        | some h => hearthReset m h true
        | none => m)) 0x11 6 f.val (fnHearth s f.val) (0x400000 + f.val))) ∧
    (∀ (i : Fin 32) (f : FnId),
      (fld s.hif.link 1 0 = 2 → exec (.ideKm i f) s = .next { s with
        hif := { s.hif with ide := vput s.hif.ide i.val { fn := some f.val, insecure := false } } }) ∧
      (vget s.hif.ide i.val {} = { fn := some f.val, insecure := false } → ∃ n, exec (.hifIde i) s = .next n ∧
        vget n.hif.ide i.val {} = { fn := some f.val, insecure := true } ∧ Recorded s n 0 0x11 4 i.val)) ∧
    (∀ (f : FnId) image, fnAlive s f.val = true →
      let x := vget s.hif.fns f.val {}
      let b := image.take (fld x.mbx1 31 0)
      ((bit x.mbx2 1 = true ∨ 2 ^ 22 < fld x.mbx1 31 0) →
        ∃ n, exec (.go f image) s = .next n ∧ Recorded s n 0 0x11 5 f.val ∧ n.tmp = s.tmp ∧ n.stk = s.stk) ∧
      (bit x.mbx2 1 = false → fld x.mbx1 31 0 ≤ 2 ^ 22 → ideOk s f.val = true →
        (maySubmit s f.val b = true → s.tmp.st = .idle → ∃ n, exec (.go f image) s = .next n ∧ n.tmp.st = .verify ∧
          n.tmp.image = b ∧ n.tmp.mbx = some f.val ∧ (vget n.hif.fns f.val {}).mbx2 = 2 ∧ n.stk.auditSeq = s.stk.auditSeq + 1 ∧
          Only [.tmp, .hif, .stk] s n) ∧
        (maySubmit s f.val b = false → ∃ n, exec (.go f image) s = .next n ∧ n.tmp.st = s.tmp.st ∧ n.tmp.image = s.tmp.image ∧
          n.stk.auditSeq = s.stk.auditSeq + 1 ∧ Recorded s n 0 0x0E tTARGET 0)))

/-- Mantel maintenance, victims and ages; corrected and uncorrectable sectors; the damper's duty (09, R209 to R213,
R216 to R219). -/
def Obligations.MemoryTiers : Prop :=
  ∀ (s : State),
    (∀ (a : Agent) (h : HearthId), mayHearth s a h.val = true → (hearthAt s h.val).run.mtl = none →
      let x := (hearthAt s h.val).mem
      let base := fld x.mtlOpadr 43 8 * 256
      let len := fld x.mtlOplen 43 8 * 256
      let inRange := len = 0 ∨ (base + len ≤ deepTop ∧ reach s (some h.val) base len = true)
      let begins := fun (c : Instr) (inv : Bool) => ∃ n, exec c s = .next n ∧ (hearthAt n h.val).run.mtl = some ⟨inv, base, len⟩ ∧
        fld (hearthAt n h.val).mem.mtlOp 15 8 = 0 ∧ Only [.hearths, .msys] s n ∧ OnlyHearth h.val s n ∧
        ∀ p < 2, (poolAt n p).tiles = (poolAt s p).tiles.map (fun m =>
          let k := granuleMask m.block base len
          { m with marked := (m.marked &&& ~~~k) ||| (m.dirty &&& k) })
      let turnedAway := fun (c : Instr) => ∃ n, exec c s = .next n ∧ (hearthAt n h.val).run.mtl = none ∧
        fld (hearthAt n h.val).mem.mtlOp 15 8 = 1 ∧ bit (hearthAt n h.val).mem.mtlOp 2 = true ∧ Recorded s n 0 6 1 0
      (inRange → begins (.writeback a h) false ∧ begins (.wbinv a h) true) ∧
      (¬inRange → turnedAway (.writeback a h) ∧ turnedAway (.wbinv a h))) ∧
    (∀ (h : HearthId) j, (hearthAt s h.val).run.mtl = some j → backBlocked s j.base j.len j.inv = true →
      exec (.mtlOpDone h) s = .next s) ∧
    (∀ (h : HearthId) j, (hearthAt s h.val).run.mtl = some j → backBlocked s j.base j.len j.inv = false →
      (∀ p < 2, (poolAt s p).waiting = []) → ∃ n, exec (.mtlOpDone h) s = .next n ∧
      (hearthAt n h.val).run.mtl = none ∧ bit (hearthAt n h.val).mem.mtlOp 2 = true ∧
      (∀ p < 2, (poolAt n p).tiles = ((poolAt s p).tiles.filter (fun m => !(j.inv && !m.busy && wholly m j.base j.len))).map (fun m =>
        let k := granuleMask m.block j.base j.len
        { m with dirty := if m.busy then m.dirty else m.dirty &&& ~~~(m.marked &&& k), marked := m.marked &&& ~~~k })) ∧
      n.mem = s.mem ∧ (j.inv = false → n.poison = s.poison) ∧ (∀ k ∈ n.poison, k ∈ s.poison) ∧
      Only [.mem, .hearths, .msys] s n ∧ OnlyHearth h.val s n) ∧
    (∀ (p : Fin 2), tilesWanted s p.val = [] → exec (.mantelVictimFound p) s = .next (serveWaiting s p.val)) ∧
    (∀ (p : Fin 2) m, (poolAt s p.val).waiting = [m] → ∀ u, serveAccess s m = some u →
      (poolAt (serveWaiting s p.val) p.val).waiting = [] ∧ (serveWaiting s p.val).mem = u.mem) ∧
    (∀ (p : Fin 2) g rest, tilesWanted s p.val = g :: rest →
      ((freeTile (poolAt s p.val) g).isSome = true → exec (.mantelVictimFound p) s = .next (serveWaiting s p.val)) ∧
      (freeTile (poolAt s p.val) g = none → ∀ v, victim s p.val g = some v →
        let u := mtlStat s (some v.owner) 1 31 0 1
        (v.dirty = 0 → exec (.mantelVictimFound p) s = .next (serveWaiting (leavePool u p.val v.idx) p.val)) ∧
        (v.dirty ≠ 0 → ∃ n, exec (.mantelVictimFound p) s = .next n ∧ Only [.hearths, .msys] s n ∧
          ∃ k ∈ (poolAt n p.val).tiles, k.idx = v.idx ∧ k.block = v.block ∧ k.busy = true ∧ k.hobs = []))) ∧
    (∃ n, exec .mantelAgeTick s = .next n ∧ Only [.msys] s n ∧
      ∀ p < 2, (poolAt n p).tiles = (poolAt s p).tiles.map (fun m => { m with age := min 65535 (m.age + 1) })) ∧
    (∀ (p : Fin 2) i m, (poolAt s p.val).tiles.find? (fun m => m.idx == i) = some m → m.busy = true → backWaits s m m.dirty = false →
      exec (.evictionWritebackEnd p i) s =
        .next (serveWaiting (leavePool (mtlStat s (some m.owner) 1 63 32 (dirtyCount m)) p.val i) p.val)) ∧
    (∀ sector, 32 * sector < deepTop → tripped s (stackOf s (32 * sector)) = false → s.codes = {} →
      exec (.patrolScrub sector .clean) s = .next s ∧
      (∃ n, exec (.patrolScrub sector .corrected) s = .next n ∧ Only [.msys] s n ∧
        fld n.msys.ecc0 31 0 = min (2 ^ 32 - 1) (fld s.msys.ecc0 31 0 + 1)) ∧
      ∃ n, exec (.patrolScrub sector .uncorrectable) s = .next n ∧ Recorded s n 0 6 2 0 ∧ n.mem = s.mem ∧ n.poison = s.poison ∧
        fld n.msys.ecc0 63 32 = min (2 ^ 32 - 1) (fld s.msys.ecc0 63 32 + 1) ∧ fld n.msys.ecc1 43 0 = 32 * sector) ∧
    (∀ k ch, exec (.refreshWindow k ch) s = .next s) ∧
    (∀ k : StackId,
      let r := vget s.msys.stk k.val 0
      (∀ ch : Fin 256,
        (recalDue s k.val ch.val = true →
          (∃ n, exec (.recalibration ⟨k, ch⟩ true) s = .next n ∧ look? n.msys.recal (256 * k.val + ch.val) = some (fld r 47 36, fc s) ∧
            recalDue n k.val ch.val = false ∧ Only [.msys] s n) ∧
          (∃ n, exec (.recalibration ⟨k, ch⟩ false) s = .next n ∧ bit (vget n.msys.stk k.val 0) 2 = true ∧ Recorded s n 0 6 5 0)) ∧
        (recalDue s k.val ch.val = false → ∀ ok, exec (.recalibration ⟨k, ch⟩ ok) s = .next s)) ∧
      ∀ temp < 4096, ∃ n, exec (.damperSample k temp) s = .next n ∧
        let q := vget n.msys.stk k.val 0
        let duty := fld r 27 24
        fld q 47 36 = temp ∧ fld q 23 20 = stackFloor s k.val % 16 ∧
        (bit r 1 = false → fld q 27 24 = (if 800 ≤ temp then max 2 (duty - 1) else if temp ≤ 776 then min 8 (duty + 1) else duty) ∧
          bit q 1 = decide (864 ≤ temp) ∧ (864 ≤ temp → ∃ j, Recorded s n j 6 4 0)) ∧
        (bit r 1 = true → fld q 27 24 = (if temp ≤ 776 then 2 else duty) ∧ bit q 1 = decide (776 < temp)))

/-! ### Power, functions, boot and resets -/

/-- The power manager: budgets and steps, emergencies, lending, and the input and heat that power the device down (19, R446,
R449 to R456; 21, R479, R480, R482, R483). -/
def Obligations.PowerAndClocks : Prop :=
  ∀ (s : State),
    let down := fun (c : Instr) (code detail : Nat) => ∃ n, exec c s = .next n ∧ n.pwr.off = true ∧
      (∃ r ∈ n.recs.ring ++ n.recs.overflow, r.space = 0x10 ∧ r.code = code ∧ r.detail = detail) ∧
      (s.pwr.off = false → n.pwr.rails = 1 ∧ n.mem = [])
    let declared := fun (c : Instr) (code : Nat) => ∃ n, exec c s = .next n ∧ look? n.pwr.emerg code = some (fc s) ∧ inEmergency n = true ∧
      (look? s.pwr.emerg code = none → Recorded s n 0 0x10 code 0)
    (∃ n, exec .powerRecompute s = .next n ∧ n.pwr.base = BitVec.ofNat 64 (basePower s % 2 ^ 32) ∧
      ∀ (t : TileId) h, tileHearth s t.val = some h → hctlState s h ≠ 2 → (∀ k, t.val ∈ hTiles s k → k = h) → bit s.pwr.lentTiles t.val = false →
        ∃ st, vget n.pwr.nextStep t.val none = some st ∧ (inEmergency n = true → st = 3) ∧
          (inEmergency n = false → clkMax s h ≤ clkMin s h → clkMin s h ≤ 3 → clkMax s h ≤ st ∧ st ≤ clkMin s h)) ∧
    (∀ t : TileId, fc s % 15 = 0 → ∀ st < 4, vget s.pwr.nextStep t.val none = some st →
      ∃ n, exec (.coreStepChange t) s = .next n ∧ fld (vget n.pwr.clkTile t.val 0) 5 4 = st ∧ vget n.pwr.nextStep t.val none = none ∧
        Only [.pwr] s n) ∧
    (∀ (t : TileId) w, (tileAt s t.val).misc.wait = some w →
      (w.ended = none → w.lent = false → 2500 ≤ waited s t.val w → tileRuns s t.val = true →
        ∃ n, exec (.budgetLend t) s = .next n ∧ bit n.pwr.lentTiles t.val = true ∧ bit (vget n.pwr.clkTile t.val 0) 7 = true) ∧
      (w.ended.isSome = true → bit (vget s.pwr.clkTile t.val 0) 7 = true →
        ∃ n, exec (.budgetReclaim t) s = .next n ∧ bit n.pwr.lentTiles t.val = false ∧
          ((∀ k < 32, k ≠ t.val → ∀ st, vget n.pwr.nextStep k none = some st → st ≤ fld (vget n.pwr.clkTile k 0) 5 4) →
            bit (vget n.pwr.clkTile t.val 0) 7 = false))) ∧
    (∀ v, (v < 4700 → down (.pwrInput v) 4 0) ∧ (5600 < v → down (.pwrInput v) 4 1) ∧
      (4700 ≤ v → v ≤ 5600 → exec (.pwrInput v) s = .next (setVin s v))) ∧
    (∀ v,
      (5100 ≤ v → s.pwr.sagged = false → exec (.inputSag v) s = .next (setVin s v)) ∧
      (5100 ≤ v → s.pwr.sagged = true → ∃ n, exec (.inputSag v) s = .next n ∧ n.pwr.sagged = false) ∧
      (v < 5100 → 2550 < fld s.pwr.dev 15 0 → s.pwr.sagged = false →
        ∃ n, exec (.inputSag v) s = .next n ∧ n.pwr.sagged = true ∧ capNow n = 25500 ∧ Recorded s n 0 0x10 4 0)) ∧
    (∀ watts < 65536,
      (105 * fld s.pwr.dev 15 0 < 100 * watts → declared (.pwrOver watts) 6) ∧
      (100 * watts ≤ 105 * fld s.pwr.dev 15 0 → ∃ n, exec (.pwrOver watts) s = .next n ∧ fld n.pwr.dev 31 16 = watts ∧ Only [.pwr] s n)) ∧
    (∀ tj < 4096,
      (920 ≤ tj → down (.pwrTherm tj) 5 1) ∧ (840 ≤ tj → tj < 920 → declared (.pwrTherm tj) 5) ∧
      (tj < 840 → ∃ n, exec (.pwrTherm tj) s = .next n ∧ fld n.pwr.tj 11 0 = tj ∧ Only [.pwr] s n)) ∧
    (∀ code f, look? s.pwr.emerg code = some f →
      (f + 2 ^ 20 ≤ fc s → code ≠ 4 → ∃ n, exec (.emergencyEnd code) s = .next n ∧ look? n.pwr.emerg code = none) ∧
      (fc s < f + 2 ^ 20 → exec (.emergencyEnd code) s = .next s)) ∧
    (down .pwrLeak 0x0B 0) ∧
    (∀ rail : Fin 8, rail.val ≠ 0 → s.pwr.off = false → bootBegun s 2 = true → down (.pwrRail rail) 1 rail.val) ∧
    (∀ i, 1 ≤ i → i ≤ 7 → s.pwr.off = false → bootBegun s 2 = true → (∀ j, 1 ≤ j → j < i → bit s.pwr.rails j = true) →
      bit s.pwr.rails i = false → exec .railPowerGood s = .next (modPwr s (fun p => { p with rails := setBit p.rails i true }))) ∧
    (s.pwr.off = false → bit s.pwr.clkStat 0 = true →
      ∃ n, exec .pwrPll s = .next n ∧ n.mem = [] ∧ ∃ r ∈ n.recs.ring ++ n.recs.overflow, r.space = 0x10 ∧ r.code = 3) ∧
    (∀ absent, s.pwr.off = false → bootBegun s 3 = false → s.pwr.bootStop = none →
      ∃ n, exec (.pwrRef absent) s = .next n ∧ n.pwr.bootStop = some 3 ∧ Recorded s n 0 0x10 (if absent then 2 else 3) 0) ∧
    (∀ tin tout : Nat, tin ≤ 1000 → tout ≤ 1000 →
      ∃ n, exec (.coolantSample tin tout) s = .next n ∧ fld n.pwr.cool 11 0 = tin ∧ fld n.pwr.cool 27 16 = tout ∧ bit n.pwr.cool 15 = true ∧
        bit n.pwr.cool 31 = true ∧ bit n.pwr.cool 32 = decide (320 < tin ∨ 480 < tout) ∧
        (bit s.pwr.cool 32 = false → 320 < tin → Recorded s n 0 0x10 0x0A 0) ∧
        (tin ≤ 320 → tout ≤ 480 → n.recs = s.recs)) ∧
    (∀ tin tout : Int, (tin < -160 ∨ 1000 < tin) → 0 ≤ tout → tout ≤ 480 →
      ∃ n, exec (.coolantSample tin tout) s = .next n ∧ bit n.pwr.cool 15 = false ∧ Recorded s n 0 0x10 0x0C 0)

/-- The functions' states, the steps of a boot, and what the resets of the device and of a hearth leave (09, R220, R221; 16,
R392, Table 16-8; 19, R457 to R459, Tables 19-6 and 19-8). -/
def Obligations.FunctionsBootAndResets : Prop :=
  ∀ (s : State),
    (∀ f : Fin 76,
      let st := fnSt s f.val
      let moves := fun (c : Instr) (v : Nat) => ∃ n, exec c s = .next n ∧ fnSt n f.val = v
      let was := fnBefore s f.val
      (enableDropped s f.val = true → exec (.functionEnable f) s = .next s) ∧
      (enableDropped s f.val = false → (st = 0 ∨ st = 5 → moves (.functionEnable f) 1) ∧ (st = 3 → moves (.functionEnable f) 4) ∧
        (st = 1 ∨ st = 2 ∨ st = 4 → moves (.functionEnable f) st)) ∧
      ((was = 1 ∨ was = 2 ∨ was = 4) → moves (.functionDisable f) 3) ∧ (was = 5 → moves (.functionDisable f) 0) ∧
      ((was = 0 ∨ was = 3) → moves (.functionDisable f) was) ∧
      (st = 1 → startReady s f.val = true → moves (.functionStartComplete f) 2) ∧
      (st = 1 → ∃ n, exec (.pwrFnfail f) s = .next n ∧ fnSt n f.val = 5 ∧ Recorded s n 0 0x10 8 f.val ∧
        fld (vget n.pwr.fn f.val 0) 63 48 = min 65535 (fld (vget s.pwr.fn f.val 0) 63 48 + 1)) ∧
      (stopReady s f.val = true → (st = 3 → moves (.functionShutdownComplete f) 0) ∧ (st = 4 → moves (.functionShutdownComplete f) 1))) ∧
    (s.pwr.off = false → s.pwr.bootStop = none →
      (∀ k, bootNext s = some k → (k = 9 → s.tmp.st = .idle) → ∃ n, exec (.boot true) s = .next n ∧ bootBegun n k = true ∧
        (k = 7 → n.mem = (zeroMem s.mem 0 deepTop))) ∧
      (∀ k, bootBegun s k = false → bootNext s = some k → (∀ j, 1 ≤ j → j ≤ 11 → bootBegun s j = true → bootEnded s j = true) →
        ∃ n, exec (.boot false) s = .next n ∧ n.pwr.bootStop = some k ∧ Recorded s n 0 0x10 9 k)) ∧
    (let kept := fun (n : State) => n.stk.audit = s.stk.audit ∧ n.stk.keys = s.stk.keys ∧ n.tmp.durable = s.tmp.durable ∧
      n.lgr.bytes = s.lgr.bytes ∧ n.pending = s.pending
    let cold := fun (n : State) => n.mem = [] ∧ n.poison = [] ∧ n.cyc = 0 ∧ n.tiles = State.reset.tiles ∧ n.hearths = State.reset.hearths ∧
      n.ports = State.reset.ports ∧ n.counters = [] ∧ n.lnk = State.reset.lnk ∧ n.hif = State.reset.hif ∧ n.msys = State.reset.msys ∧
      fld n.lgr.dev 63 40 = min (2 ^ 24 - 1) (fld s.lgr.dev 63 40 + 1) ∧ fld n.lgr.dev 11 8 = 3
    (∃ n, exec .deviceColdReset s = .next n ∧ cold n ∧ kept n) ∧
    (∀ f, s.pwr.warming = some f →
      (f + 2 ^ 20 ≤ fc s → ∃ n, exec .warmResetFallback s = .next n ∧ cold n ∧ kept n ∧ n.pwr.booted = 0xE) ∧
      (fc s < f + 2 ^ 20 → exec .warmResetFallback s = .next s)) ∧
    (s.pwr.off = false → bit s.pwr.booted 3 = true →
      ∃ n, exec .deviceWarmReset s = .next n ∧ kept n ∧ n.cyc = s.cyc ∧ n.lnk.sessions = [] ∧ n.recs.ring = [] ∧ n.claims = [] ∧
        n.pwr.warming = some (fc s) ∧
        (∀ h : HearthId, (hearthAt n h.val).chk.epoch = (hearthAt s h.val).chk.epoch ∧ (hearthAt n h.val).run.locked = false) ∧
        (s.flights = [] → s.lnk.sessions = [] → s.lnk.waiting = [] → (∀ p < 2, (poolAt s p).waiting = []) →
          (∀ h < 16, endWindows s h = s) → (∀ t : TileId, quiesce s t false = s) →
          s.tmp.cur = { s.tmp.durable with serDev := s.tmp.cur.serDev } → movedRegions s s = [] →
          (∀ t : TileId, tileAt n t.val = freshTile (tileAt s t.val) true) ∧
          (∀ c, (ctrAt s c).owner ≠ 0 → (ctrAt n c).lost = true ∧ (ctrAt n c).value = (ctrAt s c).value) ∧
          ∀ a, readByte n.mem a = if scrWin ≤ a ∧ a < scrWin + 32 * 0x2000000 then 0 else readByte s.mem a))) ∧
    (∀ h : HearthId, hOn s h.val = true → s.tmp.st = .idle → vget s.tmp.durable.hearths h.val {} = hsec s h.val →
      let ends := fun (c : Instr) (warm : Bool) => ∃ n, exec c s = .next n ∧ (hearthAt n h.val).run.locked = true ∧
        (∀ k, ctrIn s h.val k = true → (ctrAt s k).owner ≠ 0 → (ctrAt n k).lost = true) ∧
        (∀ q : QueueId, bit (hsec s h.val).h.queues q.val = true → qEn (queueAt s q.val) = true →
          qState (queueAt n q.val) = qRECOVERING ∧ (queueAt n q.val).items = []) ∧
        ((∀ t ∈ hTiles s h.val, (tileAt s t).blw.reqs = [] ∧ (tileAt s t).blw.draining = none) →
          ∀ t ∈ hTiles s h.val, ∀ o < 0x2000000, readByte n.mem (winBase t + o) = 0) ∧
        (warm = false → ∀ a < deepTop, regionHearth s (regionOf a) = some h.val → readByte n.mem a = 0) ∧
        fld n.lgr.dev 11 8 = (if warm then 0 else 1) ∧
        (warm = true → fld n.lgr.dev 39 16 = min (2 ^ 24 - 1) (fld s.lgr.dev 39 16 + 1)) ∧
        (warm = false → fld n.lgr.dev 63 40 = min (2 ^ 24 - 1) (fld s.lgr.dev 63 40 + 1))
      ends (.hearthWarmReset h) true ∧ ends (.hearthColdReset h) false)

/-! ### Checking -/

/-- Check epochs open, close, confirm, commit at the end of the fc in which the last member has confirmed, retract and stay
unresolved, and notices tell the other members (01, R24; 15, R360 to R367, Tables 15-4 to 15-6). -/
def Obligations.CheckEpochs : Prop :=
  ∀ (s : State) (h : HearthId),
    let x := hearthAt s h.val
    let st := ecState s h.val
    let becomes := fun (c : Instr) (v : Nat) (k : State → Prop) => ∃ n, exec c s = .next n ∧ ecState n h.val = v ∧ k n
    (∀ a, mayHearth s a h.val = true →
      (st ≠ 3 → x.run.epochHigh < x.chk.epochReq.toNat → becomes (.chkOpen a h) 1 (fun n =>
        (hearthAt n h.val).chk.epoch = x.chk.epochReq ∧ (hearthAt n h.val).run.epochHigh = x.chk.epochReq.toNat ∧
        ((st = 1 ∨ st = 2) → ∃ k, Recorded s n k 0x0C 6 8) ∧ ((st ≠ 1 ∧ st ≠ 2) → Only [.hearths] s n))) ∧
      ((st = 3 ∨ x.chk.epochReq.toNat ≤ x.run.epochHigh) →
        ∃ n, exec (.chkOpen a h) s = .next n ∧ Recorded s n 0 0x0C 0x13 0 ∧ n.hearths = s.hearths) ∧
      (st = 1 → exec (.chkClose a h) s = .next (setEc s h.val 2))) ∧
    (st = 2 → (chkLevel s h.val = 0 ∨ ((∀ t ∈ hTiles s h.val, rowsUnchecked (tileAt s t) = false ∧ (tileAt s t).anv.replay = none) ∧
        x.run.recovery = [])) →
      (chkEn s h.val = false → becomes (.epochConfirm h) 4 (fun n => Recorded s n 0 0x0C 8 0 ∧
        (ctrIn s h.val (chkCctr s h.val) = true →
          n.flights = s.flights ++ [{ ctr := chkCctr s h.val, amt := 1, hearth := none, remote := false }]))) ∧
      (chkEn s h.val = true → becomes (.epochConfirm h) 3 (fun n =>
        (hearthAt n h.val).run.confirmedFc = fc s ∧
        ∀ r ∈ otherRanks s h.val, ∃ m ∈ (hearthAt n h.val).run.notices, m.rank = r ∧ m.kind = 1 ∧ m.epoch = epochE s h.val))) ∧
    (st = 3 → allConfirmed s h.val = true → ecState (commitDue s) h.val = 4) ∧
    (∀ trig, 1 ≤ trig → trig ≤ 8 → hOn s h.val = true →
      ((st = 1 ∨ st = 2) → becomes (.chkRetract h trig) 5 (fun n => fld (hearthAt n h.val).chk.ectl 15 8 = trig ∧
        (∃ k, Recorded s n k 0x0C 6 trig) ∧ fld (hearthAt n h.val).chk.hstat 47 32 = min 65535 (fld x.chk.hstat 47 32 + 1) ∧
        (∀ t ∈ hTiles s h.val, (tileAt n t).acc.rx = [] ∧ ∀ r ∈ (tileAt n t).acc.fifo, r.remote = false) ∧
        ∀ q : QueueId, bit (hsec s h.val).h.queues q.val = true → ∀ i ∈ (queueAt n q.val).items, leAt i.desc 24 8 = epochE s h.val →
          isPending i = false ∧ isRunning i = false)) ∧
      (st ≠ 1 → st ≠ 2 → exec (.chkRetract h trig) s = .next s)) ∧
    (∀ rank k, chkEn s h.val = true → x.run.nctrRead < (ctrAt s (chkNctr s h.val)).value.toNat → rank ∈ otherRanks s h.val → k ∈ [1, 2, 3] →
      let entry := fun (j : Nat) => readMem s.mem (chkBoard s h.val + 96 * rank + 32 * (j - 1)) 32
      let isNew := fun (j : Nat) => leAt (entry j) 8 1 = j ∧ look? x.run.board (4 * rank + j) ≠ some (leAt (entry j) 0 8)
      let e := leAt (entry k) 0 8
      let trig := leAt (entry k) 9 1
      Settled s [] → isNew k → (∀ j ∈ [1, 2, 3], j ≠ k → ¬isNew j) → ∃ n, exec (.noticeReceive h rank) s = .next n ∧
        (hearthAt n h.val).run.nctrRead = x.run.nctrRead + 1 ∧ look? (hearthAt n h.val).run.board (4 * rank + k) = some e ∧
        (e ≠ epochE s h.val → ecState n h.val = st ∧ Recorded s n 0 0x0C 0x0A 0 ∧
          fld (hearthAt n h.val).chk.hstat 31 16 = min 65535 (fld x.chk.hstat 31 16 + 1)) ∧
        (e = epochE s h.val →
          (k = 2 → (st = 1 ∨ st = 2 ∨ st = 3) → ecState n h.val = 5 ∧ fld (hearthAt n h.val).chk.ectl 15 8 = trig % 256 ∧
            ∃ j, Recorded s n j 0x0C 7 (trig % 256)) ∧
          (k = 3 → (st = 3 ∨ st = 6) → ecState n h.val = 4 ∧ Recorded s n 0 0x0C 8 0) ∧
          (k = 1 → ecState n h.val = st ∧
            ((∀ r ∈ otherRanks s h.val, r ≠ rank → look? x.run.board (4 * r + 1) = some e) → allConfirmed n h.val = true)))) ∧
    (∀ rank m, (∀ k ∈ x.run.notices, k.rank = rank → k.sent = false) → x.run.notices.find? (fun k => k.rank == rank) = some m →
      ∃ n, exec (.noticeSendNext h rank) s = .next n ∧ ∃ k ∈ (hearthAt n h.val).run.notices, k.rank = rank ∧ k.kind = m.kind ∧
        k.epoch = m.epoch ∧ k.sent = true) ∧
    (st = 3 → x.run.confirmedFc + 2 ^ fld x.chk.chkCfg 47 42 ≤ fc s →
      becomes (.chkUnresolved h) 6 (fun n => ∃ k, Recorded s n k 0x0C 9 0)) ∧
    (∀ r rest, x.run.recovery = r :: rest →
      (∀ bs : List Byte, bs.length = 256 → Settled s [] → ∃ n, exec (.chkRefetch h bs) s = .next n ∧
        (∀ k ∈ (hearthAt n h.val).run.recovery, k.addr ≠ r.addr) ∧
        fld (hearthAt n h.val).chk.hstat 63 48 = min 65535 (fld x.chk.hstat 63 48 + 1)) ∧
      (r.since + 2 ^ fld x.chk.chkCfg 41 36 ≤ fc s → ∃ n, exec (.chkRefail h) s = .next n ∧
        (∀ k ∈ (hearthAt n h.val).run.recovery, k.addr ≠ r.addr) ∧ ((st = 1 ∨ st = 2) → ecState n h.val = 5)))

/-- Spark tests run in their slots, fall due and overdue, and are compared; units change class; records go to the collectors
(15, R368 to R374, Table 15-7; 16, R395; 18, R425). -/
def Obligations.TestsClassesAndRecords : Prop :=
  ∀ (s : State),
    (∀ (t : TileId) w, Stands s t w 0xB0 → inScratch s t.val (32 * wf w 103 84) 0x400000 = true → tileIdle (tileAt s t.val) = true →
      (∀ u ∈ pairOf s t.val, spkRunning s u = false) →
      ((spkSt s t.val = 0 ∨ wf w 119 104 * 1024 < 131072) → exec (.tsl t w) s = .next (issuedAs s t (tileAt s t.val))) ∧
      (1 ≤ spkSt s t.val → 131072 ≤ wf w 119 104 * 1024 → ∃ n, exec (.tsl t w) s = .next n ∧ Only [.tiles] s n ∧
        spkRunning n t.val = true ∧ (tileAt n t.val).blw.pend = some w ∧ csWord n t.val = csWord s t.val)) ∧
    (∀ (t : TileId) v kaOk digest, tileRole s t.val = 0 → csState s t.val = csRunning → tileRuns s t.val = true →
      (tileAt s t.val).blw.pend = some v → opOf v = 0xB0 → spkRunning s t.val = true →
      ∃ n, exec (.sparkRound t kaOk digest) s = .next n ∧ csWord n t.val = (csWord s t.val + 1) % 2 ^ 32 ∧
        let m := (tileAt n t.val).misc
        fld m.chkSpk0 3 0 = (if kaOk then 0 else 2) ∧ fld m.chkSpk0 63 32 = sroundNow s ∧ m.chkSpk1 = digest ∧ m.spkLast = fc s ∧
        (∀ k : Fin 2, vget (tileAt n t.val).anv.buf k.val {} = {}) ∧ (∀ o < 0x400000, readByte n.mem (winBase t.val + 32 * wf v 103 84 + o) = 0) ∧
        Recorded s n 0 0x0C 0x18 0 ∧ (kaOk = false → Recorded s n 1 0x0C 0x0E 0)) ∧
    (∀ (t : TileId) h, tileHearth s t.val = some h →
      let ivl := 2 ^ fld (hearthAt s h).chk.chkCfg 35 30
      let m := (tileAt s t.val).misc
      (spkSt s t.val = 0 → m.spkLast + (if (vget s.recs.tiles t.val {}).cls = .watch then ivl / 4 else ivl) ≤ fc s →
        ∃ n, exec (.sparkDue t) s = .next n ∧ spkSt n t.val = 1 ∧ (tileAt n t.val).misc.spkDue = fc s ∧ Only [.tiles] s n ∧ OnlyTile t.val s n) ∧
      (spkSt s t.val = 1 → m.spkDue + 2 ^ fld (hearthAt s h).chk.chkCfg 29 24 ≤ fc s →
        ∃ n, exec (.chkOverdue t) s = .next n ∧ spkSt n t.val = 2 ∧ Recorded s n 0 0x0C 0x10 0)) ∧
    (s.stk.up = true →
      (∀ round, ∃ n, exec (.sparkCompare round) s = .next n ∧ Only [.recs] s n ∧
        (sroundNow s = round → sroundNow n = (round + 1) % 2 ^ 32) ∧ (sroundNow s ≠ round → sroundNow n = sroundNow s) ∧
        ∀ d rest e, s.recs.digests.filter (fun d => d.1 == round) = d :: rest → rest.find? (fun e => e.2.2 != d.2.2) = some e →
          s.recs.dispute = none → n.recs.dispute = some (round, d.2.1, e.2.1)) ∧
      (∀ (p : PortId) pass, (∀ h : HearthId, vget (portAt s p.val).jobs h.val none = none) →
        ∃ n, exec (.quenchTest p pass) s = .next n ∧ (portAt n p.val).tested = (portAt s p.val).tested + 1 ∧
          (portAt n p.val).testFails = (portAt s p.val).testFails + (if pass then 0 else 1) ∧ Only [.ports] s n ∧ OnlyPort p.val s n) ∧
      (∀ u e, eventMet s u e = true → ∃ n, exec (.chkClass u e) s = .next n ∧ (histOf n u).cls = classNext s u e ∧
        (classNext s u e ≠ (histOf s u).cls → Recorded s n 0 0x0C 0x11 (classNo (classNext s u e)))) ∧
      (∀ u, ((histOf s u).cls = .good ∨ (histOf s u).cls = .watch → classNext s u .serious = .suspect) ∧
        ((histOf s u).cls = .suspect → classNext s u .serious = .permanent)) ∧
      (∀ (t : TileId), (histOf s (.tile t)).cls = .suspect → classNext s (.tile t) .roundsPass = .watch ∧
        ∃ n, exec (.chkClass (.tile t) .roundsFail) s = .next n ∧ bit n.recs.excl0 t.val = true) ∧
      (∀ r rest, s.recs.ring = r :: rest → ∃ n, exec .recordForward s = .next n ∧
        n.recs.ring = rest ++ s.recs.overflow.take 1 ∧ n.recs.overflow = s.recs.overflow.drop 1 ∧
        n.recs.head = (s.recs.head + 1) % 2 ^ 32 ∧ Only [.recs, .stk, .out] s n ∧
        ∀ i : Fin 2, (vget s.stk.collectors i.val {}).addr ≠ 0 → .syslog i.val { r with cal := calOf s r.cyc } ∈ n.out) ∧
      (∀ i : Fin 2, 0 < (vget s.stk.collectors i.val {}).dropped →
        ∃ n, exec (.stkFwdlost i) s = .next n ∧ (vget n.stk.collectors i.val {}).dropped = 0 ∧ Recorded s n 0 0x0F 9 0)) ∧
    (0 < s.recs.supp → s.recs.ring.length < 4096 → ∃ n, exec .chkLost s = .next n ∧ n.recs.supp = 0 ∧ Recorded s n 0 0x0C 0x17 0) ∧
    (s.recs.ring ≠ [] → s.recs.taken + 2 ^ 30 ≤ fc s → exec .stokerTakesNoRecord s = .next { s with recs := { s.recs with silent := true } })

/-! ### Work -/

/-- Work descriptors are posted, read, accepted into the ledger, started, completed, timed out, returned and recovered; a
hearth is pre-empted and resumed (16, R377 to R393, R397, R400, R401). -/
def Obligations.WorkItems : Prop :=
  ∀ (s : State),
    (∀ (q : QueueId),
      let w := queueAt s q.val
      let h := qHearth w
      let serves := qEn w = true ∧ qState w = qOPEN ∧ s.recs.silent = false ∧ prodLives s w = true
      (∀ (a : Agent) tail, tail < 2 ^ 32 →
        (qEn w = true → a.code = qProd w →
          ((tail + 2 ^ 32 - qHead w) % 2 ^ 32 ≤ 2 ^ qLogn w →
            exec (.queueTailWrite a q tail) s = .next (putQueue s q { w with ptr := setFld w.ptr 63 32 tail })) ∧
          (2 ^ qLogn w < (tail + 2 ^ 32 - qHead w) % 2 ^ 32 →
            exec (.queueTailWrite a q tail) s = .next (misuse s 6 a (queueReg q.val 0x18)))) ∧
        ((qEn w = false ∨ a.code ≠ qProd w) →
          ∃ n, exec (.queueTailWrite a q tail) s = .next n ∧ n.queues = s.queues ∧ Recorded s n 0 0x0D lgPROD 0)) ∧
      (let d := readMem s.mem (qBase w + 64 * (qHead w % 2 ^ qLogn w)) 64
      serves → Settled s [svcOf s h] → qHead w ≠ qTail w → w.read = none → reach s (some h) (qBase w + 64 * (qHead w % 2 ^ qLogn w)) 64 = true →
        (Wd.seq d = w.acc.toNat + 1 → ∃ n, exec (.descriptorRead q) s = .next n ∧ queueAt n q.val = { w with read := some d } ∧
          Only [.queues, .hearths, .msys] s n ∧ OnlyQueue q.val s n) ∧
        (Wd.seq d ≤ w.acc.toNat → ∃ n, exec (.descriptorRead q) s = .next n ∧ (queueAt n q.val).read = none ∧
          qHead (queueAt n q.val) = (qHead w + 1) % 2 ^ 32 ∧
          fld (queueAt n q.val).stat 63 32 = min (2 ^ 32 - 1) (fld w.stat 63 32 + 1) ∧ OnlyQueue q.val s n) ∧
        (w.acc.toNat + 1 < Wd.seq d → ∃ n, exec (.descriptorRead q) s = .next n ∧ qState (queueAt n q.val) = qSTOPPED ∧
          qCode (queueAt n q.val) = lgSEQGAP ∧ Recorded s n 0 0x0D lgSEQGAP 0)) ∧
      (∀ d, w.read = some d → serves → storeReady s = true → Wd.seq d ≤ w.ret.toNat + 2 ^ qLogn w →
        (∃ n, exec (.itemAccept q true) s = .next n ∧
          let v := queueAt n q.val
          v.acc = BitVec.ofNat 64 (Wd.seq d) ∧ qHead v = (qHead w + 1) % 2 ^ 32 ∧ v.read = none ∧
          (∃ i : Item, i.seq = Wd.seq d ∧ i.desc = d ∧ i.st = acceptedAs s h d ∧ v.items = w.items ++ [i]) ∧
          readMem n.lgr.bytes (recAddr w (Wd.seq d)) (acceptPart s q.val h d).length = acceptPart s q.val h d ∧
          fld n.lgr.lstat 63 32 = (fld s.lgr.lstat 63 32 + 1) % 2 ^ 32 ∧ OnlyQueue q.val s n) ∧
        (∃ n, exec (.itemAccept q false) s = .next n ∧ (queueAt n q.val).acc = w.acc ∧ n.lgr.bytes = s.lgr.bytes ∧
          fld n.lgr.lstat 31 16 = min 65535 (fld s.lgr.lstat 31 16 + 1) ∧
          (s.lgr.bad = 2 → fld n.lgr.dev 1 0 = 2 ∧ Recorded s n 0 0x0D lgSTORE 0 ∧ ∀ t < 32, csState n t ≠ csRunning))) ∧
      (∀ i, Settled s [svcOf s h] → (∀ k ∈ w.items, isRunning k = true → Wd.kind k.desc ≠ kCOLL) → w.items.find? isPending = some i → mayStart s q.val i = true →
        (∃ n j, exec (.itemStart q) s = .next n ∧ itemAt n q.val i.seq = some j ∧ isPending j = false ∧ j.began = true) ∧
        (Wd.kind i.desc = kFENCE → ∃ n j, exec (.itemStart q) s = .next n ∧ itemAt n q.val i.seq = some j ∧ j.st = .ended 0 0) ∧
        (Wd.kind i.desc = kSTREAM → (∀ t ∈ setBits (BitVec.ofNat 32 (Wd.a0 i.desc)), tileRole s t ≠ 2 ∧ csState s t ≠ csRunning ∧
            (tileAt s t).blw.threads = []) →
          ∃ n, exec (.itemStart q) s = .next n ∧ ∀ t ∈ setBits (BitVec.ofNat 32 (Wd.a0 i.desc)), csState n t = csRunning ∧ csWord n t = 0 ∧
            (tileAt n t).blw.csLim = BitVec.ofNat 64 (Wd.a1 i.desc))) ∧
      (∀ i, Settled s [svcOf s h] → itemAt s q.val i.seq = some i → storeReady s = true → w.done.toNat + 1 = i.seq → i.seq < 2 ^ 64 →
        let completes := ∃ n, exec (.itemComplete q i.seq true) s = .next n ∧ (queueAt n q.val).done.toNat = i.seq ∧
          itemAt n q.val i.seq = none ∧ fld n.lgr.lstat 63 32 = (fld s.lgr.lstat 63 32 + 1) % 2 ^ 32
        (∀ o det, i.st = .ended o det → completes ∧
          (∃ n, exec (.itemComplete q i.seq true) s = .next n ∧
            readMem n.lgr.bytes (recAddr w i.seq + 96) (donePart s i o det).length = donePart s i o det ∧
            (Wd.kind i.desc ≠ kCOMMIT → Wd.cen i.desc = true → ctrIn s h (Wd.ctr i.desc) = true →
              ∃ k : HearthId, k.val = h ∧ n.flights = s.flights ++ [{ ctr := Wd.ctr i.desc, amt := Wd.amt i.desc, hearth := some k, remote := false }]) ∧
            (Wd.kind i.desc = kCOMMIT → o = 0 → det < 2 → quenchActive s h = false → genOf n h = det))) ∧
        (∀ since, i.st = .running since → Wd.kind i.desc = kDATA → i.left = 0 → Wd.a4 i.desc = 0 → completes)) ∧
      (∀ i since, itemAt s q.val i.seq = some i → i.st = .running since →
        since + 2 ^ (if Wd.tmo i.desc = 0 then fld (hearthAt s h).chk.hcfg 39 34 else Wd.tmo i.desc) ≤ fc s →
        ∃ n j, exec (.lgrTimeout q i.seq) s = .next n ∧ itemAt n q.val i.seq = some j ∧ j.st = .ended 6 0 ∧ ∃ k, Recorded s n k 0x0D lgTIMEOUT 0) ∧
      (∀ a value, value < 2 ^ 64 → mayQueue s a q.val = true →
        (w.ret.toNat ≤ value → value ≤ w.done.toNat → ∃ n, exec (.retWrite a q value) s = .next n ∧
          (queueAt n q.val).ret = BitVec.ofNat 64 value ∧ (queueAt n q.val).items = w.items ∧ Only [.queues] s n ∧ OnlyQueue q.val s n) ∧
        ((value < w.ret.toNat ∨ w.done.toNat < value) →
          ∃ n, exec (.retWrite a q value) s = .next n ∧ n.queues = s.queues ∧ Recorded s n 0 0x0D lgRETBAD 0) ∧
        (qState w = qSTOPPED → qCode w = lgSEQGAP → ∃ n, exec (.queueResume a q) s = .next n ∧ qState (queueAt n q.val) = qOPEN ∧
          qCode (queueAt n q.val) = 0 ∧ Only [.queues] s n ∧ OnlyQueue q.val s n)) ∧
      (qState w = qRECOVERING → storeReady s = true → Settled s [svcOf s h] → ∃ n, exec (.queueRecovery q) s = .next n ∧ qState (queueAt n q.val) = qOPEN ∧
        (queueAt n q.val).acc = BitVec.ofNat 64 (accFound s w) ∧ qHead (queueAt n q.val) = accFound s w % 2 ^ 32 ∧
        qTail (queueAt n q.val) = accFound s w % 2 ^ 32)) ∧
    (∀ (h : HearthId),
      (∀ a, mayHearth s a h.val = true →
        (hctlState s h.val = 0 → exec (.hctlPreempt a h) s = .next (setHctl s h.val 1)) ∧
        (hctlState s h.val ≠ 0 → ∃ n, exec (.hctlResume a h) s = .next n ∧ hctlState n h.val = 0)) ∧
      (hctlState s h.val = 1 → ecState s h.val ∉ [1, 2, 3] → ∃ n, exec (.hearthPreempted h) s = .next n ∧ hctlState n h.val = 2 ∧
        (hearthAt n h.val).run.boundary = true ∧
        (∀ t ∈ hTiles s h.val, csState n t ≠ csRunning ∧ (tileAt n t).blw.threads = []) ∧
        (∀ p : PortId, activeAt n p.val h.val = none ∧ vget (portAt n p.val).jobs h.val none = none) ∧
        (∀ q : QueueId, bit (hsec s h.val).h.queues q.val = true → ∀ i ∈ (queueAt n q.val).items, isRunning i = false) ∧
        ∀ k, ctrIn s h.val k = true → (ctrAt s k).owner ≠ 0 → (ctrAt n k).lost = true))

/-! ### Collectives, phases and the quench unit -/

/-- Descriptors are posted, checked and taken, frames of a collective land or wait, and a descriptor completes, times out or
restarts; the quench unit takes its chunks and flips generations; phase windows and the anchor are kept (08, R191; 13, R308 to
R320, R329 to R331; 14, R337, R345 to R349). -/
def Obligations.CollectivesAndQuench : Prop :=
  ∀ (s : State) (p : PortId) (h : HearthId),
    let x := portAt s p.val
    let r1 := vget x.ring1 h.val 0
    let r2 := vget x.ring2 h.val 0
    let ported := fun (c : Instr) (k : Port → Prop) => ∃ n, exec c s = .next n ∧ k (portAt n p.val) ∧ Only [.ports] s n ∧ OnlyPort p.val s n
    (∀ a, mayHearth s a h.val = true →
      (∀ tail, tail < 2 ^ 32 → ported (.colRingPost a p h tail) (fun y => fld (vget y.ring1 h.val 0) 63 32 = tail ∧
        fld (vget y.ring1 h.val 0) 31 0 = fld r1 31 0)) ∧
      (fld r2 15 8 ≠ 0 →
        (vget x.active h.val none = none → ported (.restart a p h) (fun y => vget y.ring2 h.val 0 = 0 ∧ vget y.active h.val none = none ∧
          fld (vget y.ring1 h.val 0) 31 0 = (fld r1 31 0 + 1) % 2 ^ 32)) ∧
        (vget x.active h.val none ≠ none → ∃ n, exec (.restart a p h) s = .next n ∧ vget (portAt n p.val).ring2 h.val 0 = 0 ∧
          activeAt n p.val h.val = none ∧ vget (portAt n p.val).ring1 h.val 0 = r1 ∧
          (hearthAt n h.val).net.phPtr = (hearthAt s h.val).net.phPtr + 1)) ∧
      (∀ (g : Fin 64) (value : Nat), groupInUse s h.val g.val = false → value < 2 ^ 64 →
        (∃ n, exec (.colGrpWrite a h g 0 value) s = .next n ∧ vget (hearthAt n h.val).net.grp0 g.val 0 = BitVec.ofNat 64 value ∧
          Only [.hearths] s n ∧ OnlyHearth h.val s n) ∧
        (∃ n, exec (.colGrpWrite a h g 1 value) s = .next n ∧ Only [.hearths] s n ∧
          let v : BitVec 64 := BitVec.ofNat 64 value
          let w := vget (hearthAt n h.val).net.grp1 g.val 0
          fld w 63 44 = fld v 63 44 ∧ fld w 1 0 = fld v 1 0 ∧
          (bit v 0 = false → bit w 2 = false ∧ fld w 43 40 = 0 ∧ vget (hearthAt n h.val).run.dseq g.val 0 = 0))) ∧
      (∀ (g : Fin 64) word value, groupInUse s h.val g.val = true →
        exec (.colGrpWrite a h g word value) s = .next (misuse s 4 a (hearthReg h.val (0xC00 + 16 * g.val + 8 * word.val)))) ∧
      (quenchActive s h.val = false → ∃ n, exec (.flip a h) s = .next n ∧ genOf n h.val = 1 - genOf s h.val ∧
        fld (hearthAt n h.val).net.qchGen 63 32 = (fld (hearthAt s h.val).net.qchGen 63 32 + 1) % 2 ^ 32 ∧ Only [.hearths] s n ∧
        OnlyHearth h.val s n) ∧
      (quenchActive s h.val = true → ∃ n, exec (.flip a h) s = .next n ∧ n.hearths = s.hearths ∧ Recorded s n 0 0x0B qGENBUSY 0)) ∧
    (let adr := ringDesc s p.val h.val (fld r1 31 0)
    let d := readMem s.mem adr 64
    let g := Col.group d % 64
    let w := grpWord s h.val g
    let old := vget (hearthAt s h.val).run.dseq g 0
    let dseq := if bit w 0 = true ∧ ¬(bit w 2 = true ∧ fld w 43 40 ≠ p.val) then old + 1 else old
    Settled s [.port p] → EnginesIdle s → s.poison = [] → activeAt s p.val h.val = none → portState s p.val ≠ 0 → hOn s h.val = true → fld r2 15 8 = 0 → fld r1 63 32 ≠ fld r1 31 0 →
      reach s (some h.val) adr 64 = true →
      (∀ c < 256, descCheck s p.val h.val d = .error c → ∃ n, exec (.descriptorTake p h) s = .next n ∧ activeAt n p.val h.val = none ∧
        vget (portAt n p.val).ring1 h.val 0 = r1 ∧ fld (vget (portAt n p.val).ring2 h.val 0) 15 8 = c ∧
        fld (vget (portAt n p.val).ring2 h.val 0) 63 32 = dseq % 2 ^ 32 ∧ fld (vget (portAt n p.val).ring2 h.val 0) 7 0 = g ∧
        Recorded s n 0 0x0B c g) ∧
      (∀ segs, descCheck s p.val h.val d = .ok segs → ∃ n, exec (.descriptorTake p h) s = .next n ∧
        fld (vget (portAt n p.val).ring1 h.val 0) 31 0 = (fld r1 31 0 + 1) % 2 ^ 32 ∧ vget (hearthAt n h.val).run.dseq g 0 = dseq ∧
        (Col.opc d = oAG → Col.qch d = false → grpN s h.val g = 1 →
          n.mem = (store s (Col.dst d) (readMem s.mem (Col.src d) (Col.nelem d * eltBits (Col.lfmt d) / 8)) []).mem))) ∧
    (∀ a, activeAt s p.val h.val = some a → fld r2 15 8 = 0 →
      (colDone s p.val h.val a = true → ∃ n, exec (.collectiveComplete p h) s = .next n ∧ activeAt n p.val h.val = none ∧
        (a.incomplete = false → Col.opc a.desc ≠ oFLUE → ctrIn s h.val (Col.ctr a.desc) = true →
          n.flights = s.flights ++ [{ ctr := Col.ctr a.desc, amt := Col.amt a.desc, hearth := some h, remote := false,
                                      phase := some (a.cyc, Col.phase a.desc, portAgent p.val) }] ∧
          (hearthAt n h.val).net.phPtr = (hearthAt s h.val).net.phPtr) ∧
        ((a.incomplete = true ∨ Col.opc a.desc = oFLUE) →
          n.flights = s.flights ∧ (hearthAt n h.val).net.phPtr = (hearthAt s h.val).net.phPtr + 1)) ∧
      (Col.opc a.desc ≠ oFLUE → a.incomplete = false → a.waitFc = none → colWaits s a = true →
        a.lastFc + 2 ^ fld (hearthAt s h.val).net.colCfg 5 0 ≤ fc s → ∃ n, exec (.colTmo p h) s = .next n ∧
          fld (vget (portAt n p.val).ring2 h.val 0) 15 8 = lTMO ∧ Recorded s n 0 0x0B lTMO (Col.group a.desc % 64)) ∧
      (Col.opc a.desc = oFLUE → a.incomplete = false → a.n ≤ a.sent + 1 → a.released + 1 < a.n → flueFull a (a.released + 1) = true →
        (a.released + 2 = a.n ∨ (a.released + 1 < a.sent ∧ a.sendq = [])) → ∃ n, exec (.flueBufferRelease p h) s = .next n ∧
          activeAt n p.val h.val = some { a with released := a.released + 1 } ∧
          (hearthAt n h.val).net.issued = (hearthAt s h.val).net.issued + 1)) ∧
    (∀ (f : Frame) u, rxFront s p.val f 0x23 = .ok u → isDup u f = false →
      let c := if f.payload.isEmpty then Instr.free p f else Instr.coll p f
      let served := fun (m : State) => exec c s = .next (noteWithheld (retryHeld m) p.val f)
      let waits := served (putPort u p { portAt u p.val with held := (portAt u p.val).held ++ [f] })
      (∀ q k a addr len e b v, collTarget u f = some (q, k, a) → collFits u q k a f = .take addr len e →
        memWindow u f.sdev 0 addr len = some b → discard u b f = none → rateTake u b f.sdev f.payload.length 0 = some v →
        (∀ m, e (acceptNum v f.sdev f.fnum) = some m →
          served (freeRx (sendAck (comAdd m f f.payload.length) f.sdev f.fnum 0) p.val f) ∧
          (Col.opc a.desc = oPERM → f.payload ≠ [] → Calm s → m.mem = (store s addr f.payload []).mem)) ∧
        (e (acceptNum v f.sdev f.fnum) = none → waits)) ∧
      (∀ q k a, collTarget u f = some (q, k, a) → collFits u q k a f = .hold → waits) ∧
      (collTarget u f = none → collRetracted u f = none → (collNext u f).isSome = true → waits) ∧
      (collTarget u f = none → collRetracted u f = none → collNext u f = none → EnginesIdle s → ∃ n, exec c s = .next n ∧
        Part.mem.same s n ∧ fld (portAt n p.val).rx1 63 32 = min (2 ^ 32 - 1) (fld x.rx1 63 32 + 1))) ∧
    (∀ (f : Frame) u k v q a, rxFront s p.val f 0x22 = .ok u → isDup u f = false →
      memWindow u f.sdev 0 (frameAddr f) f.payload.length = some k → discard u k f = none →
      rateTake u k f.sdev f.payload.length 0 = some v → flueTarget u k f.sdev = some (q, a) → a.incomplete = false →
      ∀ st, (List.range a.n).find? (fun i => decide (0 < i) && !flueFull a i) = some st →
      let base := flueBuf a.desc st
      Calm s → EnginesIdle s → base < frameAddr f → frameAddr f + f.payload.length ≤ base + Col.nelem a.desc →
      ∃ n, exec (.flue p f) s = .next n ∧ n.mem = (store s (frameAddr f) f.payload []).mem) ∧
    (∀ c j, x.qchunks.find? (fun c => c.1 == h.val) = some (h.val, c) → vget x.jobs h.val none = some j → x.qheld = none →
      (c.mis = true → ∃ n, exec (.quenchChunk p h) s = .next n ∧ Recorded s n 0 0x0B qWITHHELD 0 ∧
        (ecState s h.val ≠ 1 → ecState s h.val ≠ 2 → Part.mem.same s n) ∧
        fld (hearthAt n h.val).net.qchStat1 63 32 = min (2 ^ 32 - 1) (fld (hearthAt s h.val).net.qchStat1 63 32 + c.vals.length)) ∧
      (c.mis = false → c.poison = false → s.poison = [] → Settled s [.port p] → bit (hearthAt s h.val).net.qchCfg 1 = false →
        ∃ n i, exec (.quenchChunk p h) s = .next n ∧ vget (portAt n p.val).jobs h.val none = some i ∧
          i.written = j.written ++ [(c.first, c.vals.length)] ∧ fld (portAt n p.val).qbuf 7 0 = (fld x.qbuf 7 0 + 1) % 256 ∧
          (portAt n p.val).qchunks = x.qchunks.erase (h.val, c))) ∧
    (∀ j, vget x.jobs h.val none = some j → (hearthAt s h.val).run.retracted.contains j.epoch = true →
      ∃ n, exec (.quenchRetract p h) s = .next n ∧ vget (portAt n p.val).jobs h.val none = none ∧
        (activeAt s p.val h.val = none → Only [.ports] s n ∧ OnlyPort p.val s n)) ∧
    (x.withhold = true → fld x.qbuf 7 0 ≠ 0 → EnginesIdle s →
      exec (.quenchBufferFree p) s = .next (putPort s p { x with withhold := false })) ∧
    (∀ (t : TileId) w, Stands s t w 0xA0 →
      let y := tileAt s t.val
      let opens := fun (z : Tile) => { z with misc := { z.misc with ph := some (wf w 119 104, s.cyc) } }
      (y.misc.ph = none → exec (.pht t w) s = .next (issuedAs s t (opens y))) ∧
      (∀ tag start k, y.misc.ph = some (tag, start) → tileHearth s t.val = some k →
        let ptr := (hearthAt s k).net.phPtr.toNat
        let a := fld (hearthAt s k).net.phBase 43 17 * 131072 + 32 * (ptr % 4096)
        ∃ n, exec (.pht t w) s = .next n ∧ (tileAt n t.val).misc.ph = some (wf w 119 104, s.cyc) ∧
          (hearthAt n k).net.phPtr = (hearthAt s k).net.phPtr + 1 ∧
          (a + 32 ≤ deepTop → reach s (some k) a 32 = true → Calm s → n.mem = (store s a (leBytes 8 start ++ leBytes 8 s.cyc ++ leBytes 2 tag ++
            leBytes 3 (0x100000 + t.val) ++ leBytes 1 0 ++ leBytes 2 0 ++ leBytes 8 ptr) []).mem))) ∧
    (s.stk.up = true → ∃ n, exec .anchorWrite s = .next n ∧ n.anchor0 = BitVec.ofNat 64 s.cyc ∧
      n.anchor1 = BitVec.ofNat 64 (calNow s) ∧ Only [.anchors, .stk] s n)

/-! ### Temper images and the Stoker -/

/-- An image is verified, quiesces its units, is applied, waits staged, and is committed; a rejected one leaves the
configuration as it was (17, R413 to R418, Table 17-10, Table 17-16). -/
def Obligations.TemperImages : Prop :=
  ∀ s : State,
    let b := s.tmp.image
    let rejected := fun (c : Instr) (code : Nat) => ∃ n, exec c s = .next n ∧ n.tmp.st = .idle ∧ n.tmp.code = code ∧ n.tmp.next = none ∧
      n.tmp.image = [] ∧ n.tmp.cur = s.tmp.cur ∧ n.tmp.durable = s.tmp.durable ∧ n.tmp.rejects = min (2 ^ 32 - 1) (s.tmp.rejects + 1) ∧
      Recorded s n 0 0x0E code 0 ∧ Part.mem.same s n ∧ Part.queues.same s n ∧ Part.counters.same s n ∧ Part.lgr.same s n ∧
      Part.stk.same s n ∧ ∀ h ∈ s.tmp.preempted, h < 16 → hctlState n h = 0
    (s.tmp.st = .verify →
      (∀ e, checkImage s = .error e → rejected .temperVerify e.1) ∧
      (∀ c, checkImage s = .ok c → ∃ n, exec .temperVerify s = .next n ∧ n.tmp.st = .quiesce ∧ n.tmp.next = some c ∧ n.tmp.since = fc s ∧
        n.tmp.cur = s.tmp.cur ∧ (∀ h ∈ quiesceHearths s c, hctlState s h = 0 → hctlState n h = 1 ∧ h ∈ n.tmp.preempted))) ∧
    (∀ c, s.tmp.st = .quiesce → s.tmp.next = some c →
      ((∀ p ∈ quiescePorts s c, portState s p = 0) → quiesced s c = false → exec .temperQuiesced s = .next s) ∧
      (quiesced s c = true →
        (namesExcluded s c = true → rejected .temperQuiesced 7) ∧
        (namesExcluded s c = false → ctrBusy s c = true → rejected .temperQuiesced 0xB) ∧
        (namesExcluded s c = false → ctrBusy s c = false → ∃ n, exec .temperQuiesced s = .next n ∧
          n.tmp.st = (if iStage b then .staged else .committing) ∧ n.tmp.next = none ∧ n.tmp.since = fc s ∧
          n.tmp.cur = { c with serDev := s.tmp.cur.serDev, ser := s.tmp.cur.ser } ∧ n.tmp.durable = s.tmp.durable))) ∧
    (s.tmp.st = .quiesce → s.tmp.since + 2 ^ s.tmp.qtmo ≤ fc s → rejected .tmpQuiesce 0xA) ∧
    (s.tmp.st = .quiesce → fc s < s.tmp.since + 2 ^ s.tmp.qtmo → (∀ h ∈ s.tmp.preempted, hctlState s h ≠ 0) →
      exec .tmpQuiesce s = .next s) ∧
    (∀ ok, s.tmp.st = .committing → ∃ n, exec (.temperDurable ok) s = .next n ∧ n.tmp.st = .idle ∧ n.tmp.image = [] ∧
      n.tmp.code = (if ok then 0xE else 0xD) ∧ Recorded s n 0 0x0E 0xE 0 ∧ (ok = false → Recorded s n 1 0x0E 0xD 0) ∧
      n.tmp.cur.serDev = (if iScope b = 1 then s.tmp.cur.serDev else iSerial b) ∧
      (∀ h : HearthId, vget n.tmp.cur.ser h.val 0 =
        (if iScope b = 0 ∨ (iScope b = 1 ∧ h.val = iHearth b) then iSerial b else vget s.tmp.cur.ser h.val 0) ∧
        ((iScope b = 0 ∨ (iScope b = 1 ∧ h.val = iHearth b)) → vget n.stk.meas (7 + h.val) 0 = leNat (shake256 b 32) ∧
          (hOn s h.val = true → (hearthAt n h.val).run.locked = true))) ∧
      (ok = false → n.tmp.durable = s.tmp.durable) ∧ (ok = true → iScope b = 0 → n.tmp.durable = n.tmp.cur) ∧
      (ok = true → iScope b = 1 → vget n.tmp.durable.hearths (iHearth b) {} = vget s.tmp.cur.hearths (iHearth b) {})) ∧
    (let staged := s.tmp.st = .staged
    let goesOn := fun (c : Instr) => exec c s = .next { s with tmp := { s.tmp with st := .committing, since := fc s } }
    staged → goesOn (.tmpCtlCommit .stoker) ∧
      (∀ h : HearthId, imageOf s h.val = true → hOn s h.val = true → goesOn (.tmpCtlCommit (.hob ⟨(hsec s h.val).h.svc % 16, Nat.mod_lt _ (by decide)⟩)) ∨
        16 ≤ (hsec s h.val).h.svc) ∧
      exec (.tmpCtlCommit (.host 0)) s = .next s ∧
      (s.tmp.since + 2 ^ 30 ≤ fc s → goesOn .stagedTimeout) ∧ (fc s < s.tmp.since + 2 ^ 30 → exec .stagedTimeout s = .next s))

/-- The Stoker's actions: who may ask for each, the audit entry and the record that each leaves, and its effect; a quote, a
read, a restart (18, R426 to R443, Tables 18-3, 18-4, 18-6 and 18-9). -/
def Obligations.StokerActions : Prop :=
  ∀ (s : State) (r : Request),
    let role := keyRole s r.keyid
    let logged := fun (n : State) (no result keyid role : Nat) => n.stk.auditSeq = s.stk.auditSeq + 1 ∧ ∃ e, n.stk.audit.head? = some e ∧
      e.seq = s.stk.auditSeq ∧ e.action = no ∧ e.result = result ∧ e.keyid = keyid ∧ e.role = role ∧
      (∀ p, s.stk.audit.head? = some p → e.prev = leNat (shake256 p.bytes 32))
    let did := fun (c : Instr) (no result : Nat) (k : State → Prop) => ∃ n, exec c s = .next n ∧ logged n no result r.keyid role ∧ k n
    let own : State → Prop := fun n => Only (.stk :: recParts) s n
    let turned := fun (c : Instr) (no : Nat) => ∃ n, exec c s = .next n ∧ logged n no 1 r.keyid role ∧ own n ∧
      n.stk.keys = s.stk.keys ∧ n.stk.slots = s.stk.slots ∧ n.stk.stat = s.stk.stat ∧ Recorded s n 0 0x0F 4 (if role = 0 then 1 else 0)
    (r.console = false → r.auditOk = true → s.stk.up = true →
      (∀ img kind b keyid op mask cal u a0 a1 a2 a3 a4 rk, role ≠ 2 →
        ∀ e ∈ [(Instr.fwLoad r img, 1), (.fwActivate r kind b, 2), (.keyEnrol r keyid op mask, 4), (.keyRevoke r keyid, 5), (.calSet r cal, 6),
          (.classReset r u, 7), (.settings r a0 a1 a2 a3 a4, 8), (.resetDevice r rk, 9), (.release r, 0x0C)], turned e.1 e.2) ∧
      (∀ image, role = 0 → turned (.temperSubmit r image) 3) ∧
      (∀ (h : HearthId) rk b, role ≠ 2 → keyMask s r.keyid h.val = false → turned (.resetHearth r h rk) 0xA ∧ turned (.preempt r h b) 0xB) ∧
      (∀ image, role ≠ 0 →
        (s.tmp.st = .idle → did (.temperSubmit r image) 3 0 (fun n => n.tmp.st = .verify ∧ n.tmp.image = image ∧ n.tmp.since = fc s)) ∧
        (s.tmp.st ≠ .idle → did (.temperSubmit r image) 3 0 (fun n => n.tmp.st = s.tmp.st ∧ n.tmp.image = s.tmp.image ∧ Recorded s n 0 0x0E 9 0))) ∧
      (∀ h : HearthId, role = 2 ∨ keyMask s r.keyid h.val = true →
        (∀ rk, did (.resetHearth r h rk) 0xA 0 (fun n => .next n = exec (if rk = .warm then .hearthWarmReset h else .hearthColdReset h)
          (auditAdd s r.keyid role 0xA 0 (some h.val) r.reqHash 0))) ∧
        did (.preempt r h true) 0xB 0 (fun n => hctlState n h.val = 0) ∧
        did (.preempt r h false) 0xB 0 (fun n => hctlState n h.val = (if hctlState s h.val = 0 then 1 else hctlState s h.val))) ∧
      (role = 2 →
        (∀ img, 1 ≤ img.kind → img.kind ≤ 5 →
          let other := !slotB s img.kind
          (img.sigOk = true → img.bodyOk = true → vget s.stk.minVer (img.kind - 1) 0 ≤ img.version → did (.fwLoad r img) 1 0 (fun n => own n ∧
            slotOf n img.kind other = { accepted := true, version := img.version, minVersion := img.minVersion, hash := img.hash } ∧
            slotOf n img.kind (!other) = slotOf s img.kind (!other) ∧ n.stk.stat = s.stk.stat)) ∧
          ((img.sigOk = false ∨ img.bodyOk = false ∨ img.version < vget s.stk.minVer (img.kind - 1) 0) → did (.fwLoad r img) 1 2 (fun n => own n ∧
            (slotOf n img.kind other).accepted = false ∧ n.stk.stat = s.stk.stat ∧ Recorded s n 0 0x0F 2 img.kind))) ∧
        (∀ kind b, 1 ≤ kind → kind ≤ 5 →
          ((slotOf s kind b).accepted = true → did (.fwActivate r kind b) 2 0 (fun n => own n ∧ slotB n kind = b ∧
            vget n.stk.minVer (kind - 1) 0 = max (vget s.stk.minVer (kind - 1) 0) (slotOf s kind b).minVersion ∧
            vget n.stk.meas kind 0 = (slotOf s kind b).hash ∧ n.stk.up = decide (kind ≠ 1) ∧ Recorded s n 0 0x0F 3 kind)) ∧
          ((slotOf s kind b).accepted = false → did (.fwActivate r kind b) 2 1 (fun n => own n ∧ n.stk.slots = s.stk.slots ∧
            n.stk.stat = s.stk.stat))) ∧
        (∀ keyid op mask, factory s = false → (∀ k ∈ s.stk.keys, k.keyid = keyid → k.operator = op) →
          (s.stk.keys.filter (fun k => k.operator == op)).length < (if op then 64 else 4) →
          let maker := Config.makerKey keyid
          did (.keyEnrol r keyid op mask) 4 (b2n maker) (fun n => own n ∧ n.stk.keys = (if maker then s.stk.keys else
            s.stk.keys.filter (fun k => k.keyid != keyid) ++ [{ keyid := keyid, operator := op, mask := if op then mask else 0 }]) ∧
            Recorded s n 0 0x0F 8 (b2n maker))) ∧
        (∀ keyid, keyRole s keyid ≠ 0 →
          ((keyRole s keyid = 3 ∨ (s.stk.keys.filter (fun k => !k.operator)).length ≠ 1) → did (.keyRevoke r keyid) 5 0 (fun n => own n ∧
            n.stk.keys = s.stk.keys.filter (fun k => k.keyid != keyid) ∧ Recorded s n 0 0x0F 8 0)) ∧
          (keyRole s keyid = 2 → (s.stk.keys.filter (fun k => !k.operator)).length = 1 → did (.keyRevoke r keyid) 5 1 (fun n => own n ∧
            n.stk.keys = s.stk.keys ∧ Recorded s n 0 0x0F 8 2))) ∧
        (∀ cal : BitVec 64, did (.calSet r cal) 6 0 (fun n => calValid n = true ∧ n.stk.cal = cal.toNat ∧ n.stk.calCyc = s.cyc ∧
          n.anchor0 = BitVec.ofNat 64 s.cyc ∧ Recorded s n 0 0x0F 5 0)) ∧
        (∀ u, ((histOf s u).cls = .permanent → did (.classReset r u) 7 0 (fun n => (histOf n u).cls = .good)) ∧
          ((histOf s u).cls ≠ .permanent → did (.classReset r u) 7 1 own)) ∧
        (∀ a0 a1 a2 a3 a4, did (.settings r a0 a1 a2 a3 a4) 8 0 (fun n => own n ∧ n.stk.addr = a0 ∧ (vget n.stk.collectors 0 {}).addr = a1 ∧
          (vget n.stk.collectors 1 {}).addr = a2 ∧ n.stk.trw = a3 ∧ n.stk.ueth = a4)) ∧
        did (.resetDevice r .cold) 9 0 (fun n => n.mem = [] ∧ n.cyc = 0 ∧ n.pwr.off = false) ∧
        (s.pwr.off = false → bit s.pwr.booted 3 = true → did (.resetDevice r .warm) 9 0 (fun n => n.cyc = s.cyc ∧ n.pwr.warming = some (fc s))) ∧
        (s.pwr.off = true → did (.resetDevice r .warm) 9 0 (fun n => n.mem = [] ∧ n.cyc = 0 ∧ n.pwr.off = false)) ∧
        did (.release r) 0x0C 0 (fun n => n.stk.keys = [] ∧ n.stk.addr = 0 ∧ n.tmp.durable = {} ∧ factory n = true ∧ n.mem = [] ∧
          n.stk.slots = s.stk.slots ∧ n.recs.tiles = s.recs.tiles ∧ ∃ e ∈ n.recs.ring, e.space = 0x0F ∧ e.code = 0x0A))) ∧
    (r.console = true → r.auditOk = true → s.stk.up = true → factory s = true → s.stk.keys = [] →
      ∀ keyid mask, let maker := Config.makerKey keyid
        ∃ n, exec (.keyEnrol r keyid false mask) s = .next n ∧ logged n 4 (b2n maker) 0 0 ∧ factory n = maker ∧
          n.stk.keys = (if maker then [] else [{ keyid := keyid, operator := false, mask := 0 }])) ∧
    (r.auditOk = false → s.stk.up = true → ∀ keyid op mask, ∃ n, exec (.keyEnrol r keyid op mask) s = .next n ∧ Only recParts s n ∧
      Recorded s n 0 0x0F 4 3) ∧
    (s.stk.up = false → (∀ keyid op mask, exec (.keyEnrol r keyid op mask) s = .next s) ∧ (∀ img, r.console = false → exec (.fwLoad r img) s = .next s)) ∧
    (∃ n, exec .debugOpen s = .next n ∧ logged n 0x0D 0 0 0 ∧ own n ∧ bit n.stk.dbg 0 = true ∧ bit n.stk.dbg 1 = true ∧
      fld n.stk.dbg 63 32 = min (2 ^ 32 - 1) (fld s.stk.dbg 63 32 + 1) ∧ Recorded s n 0 0x0F 7 0) ∧
    (exec .dbgnowClear s = .next { s with stk := { s.stk with dbg := setBit s.stk.dbg 1 false } }) ∧
    (∀ e l, s.stk.audit = e :: l → s.stk.up = true → 0 < s.stk.unsigned → exec .auditCheckpoint s =
      .next { s with stk := { s.stk with checkpoints := (e.seq, leNat (shake256 e.bytes 32)) :: s.stk.checkpoints, unsigned := 0 } }) ∧
    (s.stk.up = true →
      (∀ nonce, ∃ q, exec (.quote nonce) s = .next { s with out := .reply q :: s.out } ∧ q.head? = some nonce ∧
        (q.drop 7).take 23 = (List.range 23).map (fun i => vget s.stk.meas i 0)) ∧
      exec (.smbusRead .status) s = .next { s with out := .reply [s.stk.stat.toNat, s.stk.dbg.toNat] :: s.out } ∧
      exec (.smbusRead .auditLog) s = .next { s with out := .reply (s.stk.audit.reverse.map (fun a => leNat a.bytes)) :: s.out } ∧
      (∀ nonce, ∃ n, exec (.smbusRead (.quote nonce)) s = .next n ∧ exec (.quote nonce) s = .next n)) ∧
    (∀ sa : Fin 8, ∃ n, exec (.stkRestart sa) s = .next n ∧ n.stk.up = true ∧ n.stk.sa = sa.val ∧ fld n.stk.stat 9 8 = 2 ∧ own n ∧
      Recorded s n 0 0x0F 1 (b2n (slotB s 1))) ∧
    (s.stk.up = false → let o := !slotB s 1
      ((slotOf s 1 o).accepted = true → ∃ n, exec .stokerSlotFallback s = .next n ∧ slotB n 1 = o ∧ n.stk.up = true ∧ own n ∧
        Recorded s n 0 0x0F 1 (b2n o) ∧ Recorded s n 1 0x0F 2 0x81) ∧
      ((slotOf s 1 o).accepted = false → ∃ n, exec .stokerSlotFallback s = .next n ∧ n.stk.up = false ∧ fld n.stk.stat 9 8 = 1 ∧ Only [.stk] s n))

/-! ### Where they complete -/

/-- Where the pipe's rows, a packed store's end, and the link layer's events complete: a vector row of any instruction once no
poison stands in the way, a register form with the row that its function makes, VSTZ_FINISH, a good flit in order, a replay
that is asked for or due, a lane that loses lock, a port without credits (06, R130, R147, R151, R154; 12, R282, R283, R284,
R286, R307). -/
def Obligations.PipeRowsAndLinkEventsComplete : Prop :=
  (∀ (s : State) (t : TileId),
    (∀ j mism, tileRuns s t.val = true → tileRole s t.val ≠ 2 → pipeHeld (tileAt s t.val) 3 = false →
      vecNext s t.val = some j → s.poison = [] → s.codes = {} →
      ∃ u k, vecRowOf s t.val j = .ok (u, k) ∧
        (0x48 ≤ opOf j.w → opOf j.w ≤ 0x52 →
          u = modVec s t.val (fun _ => (regRow (vecOf s t.val) j).1) ∧ k = (regRow (vecOf s t.val) j).2) ∧
        let d := { k with done := k.done + 1 }
        exec (.vecRowComplete t mism) s = .next (vecPair (if d.done < vecRows d.w then setRun u t.val (some d) d.seq
          else vecEnd u t.val d) t.val j mism)) ∧
    (∀ j, (vecOf s t.val).run = some j → isPacked j.w = true → vecRows j.w ≤ j.done →
      ∃ n, exec (.vstzFinish t) s = .next n ∧ (vecOf n t.val).run = none ∧
        (vecOf n t.val).zlen = BitVec.ofNat 64 (j.zlen % 2 ^ 32))) ∧
  (∀ (s : State) (p : PortId), portUp s p.val = true →
    let l := (portAt s p.val).ll
    (∀ f : Flit, f.uncorrectable = false → f.fcrcOk = true → f.lane = f.fseq % 8 → f.ft = 1 → f.fseq = l.rxNext →
      f.ackValid = false → (∀ c ∈ f.cret, c = 0) →
      ∃ n, exec (.flitReceive p f) s = .next n ∧ (portAt n p.val).ll.rxNext = (l.rxNext + 1) % 32768) ∧
    (∀ fseq, 0 < (l.txNext + 32768 - fseq) % 32768 → (l.txNext + 32768 - fseq) % 32768 ≤ 16384 → fseq ≠ l.repFrom →
      (∃ n, exec (.flitReplay p fseq) s = .next n ∧ n.out = .link p.val 1 fseq :: s.out ∧ (portAt n p.val).ll.repFrom = fseq) ∧
      (l.kept.head? = some fseq → l.ackFc + 2 ^ fld (portAt s p.val).cfg 5 0 ≤ fc s →
        ∃ n, exec (.replayTimeout p) s = .next n ∧ n.out = .link p.val 1 fseq :: s.out ∧ (portAt n p.val).ll.repFrom = fseq)) ∧
    (∃ n, exec (.lnkLane p) s = .next n ∧ portState n p.val = 4) ∧
    (∀ w, (portAt s p.val).waitFc = some w → max w l.credFc + 2 ^ fld (portAt s p.val).cfg 11 6 ≤ fc s →
      ∃ n, exec (.lnkCredit p) s = .next n ∧ portState n p.val = 4))

/-- Where the commands of a port and of a work queue complete: each with the state it leaves its port, its queue, its item or its
hearth in (12, R281, R293, R300, R301, R306; 16, R376, R379, R381, R387, R388, R389, R390, R393, R401; 18, R435). -/
def Obligations.PortAndQueueCommandsComplete : Prop :=
  (∀ (s : State) (p : PortId),
    let x := portAt s p.val
    let st := portState s p.val
    let moves := fun (c : Instr) (v : Nat) => ∃ n, exec c s = .next n ∧ portState n p.val = v
    let late := fun (k : Nat) => x.since + 2 ^ k ≤ fc s
    (st = 0 → fld x.cfg 15 14 = (if bit s.lnk.topo 63 then 2 else 1) → bit s.recs.excl1 p.val = false → moves (.portEnable p) 1) ∧
    ((st = 1 ∨ st = 2 ∨ st = 3) → moves (.portDisable p) 6) ∧
    (st = 1 → moves (.lanesLocked p) 2) ∧
    (st = 1 → late 27 → moves (.lnkTrain p) 4) ∧
    (st = 4 → late 27 → moves (.downRetry p) 1) ∧
    (st = 2 → late 24 → moves (.admitTimeout p) 4) ∧
    (st = 5 → late 30 → moves (.rejectRetry p) 1) ∧
    (st = 6 → late 20 → moves (.drainEnd p) 0) ∧
    (∀ f : Hello, st = 2 → f.loMaj ≤ 1 → 1 ≤ f.hiMaj →
      ∃ n, exec (.hello p f) s = .next n ∧ (portAt n p.val).hello = some (1, 0, f.dev)) ∧
    (∀ (f : Handshake) maj min dev, st = 2 → x.hello = some (maj, min, dev) → f.hstep = 2 → certFault s p.val dev f = none →
      ∃ n, exec (.hsk p f) s = .next n ∧ (portAt n p.val).certOk = true) ∧
    (st = 2 → s.stk.up = true → x.sigWant = true → x.sigMade = false →
      ∃ n, exec (.handshakeSignature p) s = .next n ∧ (portAt n p.val).sigMade = true)) ∧
  (∀ (s : State) (q : QueueId),
    let w := queueAt s q.val
    let h := qHearth w
    let at' := qBase w + 64 * (qHead w % 2 ^ qLogn w)
    (∀ (a : Agent) tail, tail < 2 ^ 32 → qEn w = true → a.code = qProd w → (tail + 2 ^ 32 - qHead w) % 2 ^ 32 ≤ 2 ^ qLogn w →
      ∃ n, exec (.queueTailWrite a q tail) s = .next n ∧ qTail (queueAt n q.val) = tail) ∧
    (qEn w = true → qState w = qOPEN → s.recs.silent = false → prodLives s w = true →
      (Settled s [svcOf s h] → qHead w ≠ qTail w → w.read = none → reach s (some h) at' 64 = true →
        Wd.seq (readMem s.mem at' 64) = w.acc.toNat + 1 →
        ∃ n, exec (.descriptorRead q) s = .next n ∧ (queueAt n q.val).read = some (readMem s.mem at' 64)) ∧
      (∀ d, w.read = some d → storeReady s = true → Wd.seq d ≤ w.ret.toNat + 2 ^ qLogn w →
        ∃ n, exec (.itemAccept q true) s = .next n ∧ (queueAt n q.val).acc = BitVec.ofNat 64 (Wd.seq d))) ∧
    (∀ i, w.items.head? = some i → isPending i = true → Wd.kind i.desc = kFENCE → (∀ k ∈ w.items, isRunning k = false) →
      mayStart s q.val i = true →
      ∃ n j, exec (.itemStart q) s = .next n ∧ itemAt n q.val i.seq = some j ∧ j.st = .ended 0 0) ∧
    (∀ i o det, itemAt s q.val i.seq = some i → i.st = .ended o det → storeReady s = true → w.done.toNat + 1 = i.seq →
      Wd.kind i.desc ≠ kCOMMIT →
      ∃ n, exec (.itemComplete q i.seq true) s = .next n ∧ (queueAt n q.val).done = BitVec.ofNat 64 i.seq ∧ itemAt n q.val i.seq = none) ∧
    (∀ i since, itemAt s q.val i.seq = some i → i.st = .running since →
      since + 2 ^ (if Wd.tmo i.desc = 0 then fld (hearthAt s h).chk.hcfg 39 34 else Wd.tmo i.desc) ≤ fc s →
      ∃ n j, exec (.lgrTimeout q i.seq) s = .next n ∧ itemAt n q.val i.seq = some j ∧ j.st = .ended 6 0) ∧
    (∀ (a : Agent) value, value < 2 ^ 64 → mayQueue s a q.val = true →
      (w.ret.toNat ≤ value → value ≤ w.done.toNat →
        ∃ n, exec (.retWrite a q value) s = .next n ∧ (queueAt n q.val).ret = BitVec.ofNat 64 value) ∧
      (qState w = qSTOPPED → qCode w = lgSEQGAP → ∃ n, exec (.queueResume a q) s = .next n ∧ qState (queueAt n q.val) = qOPEN)) ∧
    (qState w = qRECOVERING → storeReady s = true → accFound s w ≤ w.hdrRet →
      ∃ n, exec (.queueRecovery q) s = .next n ∧ qState (queueAt n q.val) = qOPEN)) ∧
  (∀ (s : State) (h : HearthId),
    (∀ a : Agent, mayHearth s a h.val = true →
      (hctlState s h.val = 0 → ∃ n, exec (.hctlPreempt a h) s = .next n ∧ hctlState n h.val = 1) ∧
      (hctlState s h.val ≠ 0 → ∃ n, exec (.hctlResume a h) s = .next n ∧ hctlState n h.val = 0)) ∧
    (hctlState s h.val = 1 → ecState s h.val ∉ [1, 2, 3] →
      ∃ n, exec (.hearthPreempted h) s = .next n ∧ hctlState n h.val = 2))

/-! ### Accesses that go nowhere, ZRC, and the block as a whole -/

/-- An access to an unmapped local range has no effect; a record of class MISUSE with code SYS_UNMAPPED names the address, and
a read returns zero-filled, poisoned data (00, R9). -/
def Obligations.UnmappedAccesses : Prop :=
  ∀ (s : State) (a : Agent) (addr len : Nat) (d : List Byte) (hint : Hint) (ecc : EccHits), s.pwr.off = false → 0 < len →
    (place addr = .unmapped ∨ ∃ o, place addr = .ctl o ∧ locOf (o / 8 * 8) = .gap) →
    let recorded := fun (n : State) => ∃ r ∈ n.recs.ring ++ n.recs.overflow, r.seq = s.recs.seq ∧ r.cls = 1 ∧ r.space = 0x12 ∧ r.code = 1 ∧
      r.agent = a.code ∧ r.arg0 = addr
    (d.length = len → ∃ n, exec (.memoryAccess a addr len true d hint ecc) s = .next n ∧ Only recParts s n ∧ recorded n) ∧
    (∃ n, exec (.memoryAccess a addr len false d hint ecc) s = .next n ∧ Only recParts s n ∧ recorded n ∧
      n.out.head? = some (.readData a (List.replicate len 0) (sectors addr len))) ∧
    (∀ value, ∃ n, exec (.registerWrite a addr len value) s = .next n ∧ Only recParts s n ∧ recorded n)

/-- An access to a control register, by an agent that may reach it, that is not naturally aligned or not of 32 or 64 bits has no
effect; a read returns all ones, and a record of class MISUSE carries the code SYS_ALIGN (00, R14). -/
def Obligations.MisalignedRegisterAccesses : Prop :=
  ∀ (s : State) (a : Agent) (addr len : Nat) (d : List Byte) (hint : Hint) (ecc : EccHits), s.pwr.off = false →
    ctlBase ≤ addr → addr < 2 ^ 44 → mayLoc s a (locOf ((addr - ctlBase) / 8 * 8)) = true → ¬ ((len = 4 ∨ len = 8) ∧ addr % len = 0) →
    let recorded := fun (n : State) => ∃ r ∈ n.recs.ring ++ n.recs.overflow, r.seq = s.recs.seq ∧ r.cls = 1 ∧ r.space = 0x12 ∧ r.code = 2 ∧
      r.agent = a.code ∧ r.arg0 = addr
    (∃ n, exec (.memoryAccess a addr len true d hint ecc) s = .next n ∧ Only recParts s n ∧ recorded n) ∧
    (∃ n, exec (.memoryAccess a addr len false d hint ecc) s = .next n ∧ Only recParts s n ∧ recorded n ∧
      n.out.head? = some (.readData a (List.replicate len 0xFF) [])) ∧
    (∀ value, ∃ n, exec (.registerWrite a addr len value) s = .next n ∧ Only recParts s n ∧ recorded n)

/-- The writer of a ZRC region omits +0 and -0 and stores every other element; the reader restores the omitted ones as +0
(02, R53): what is written reads back, with every zero as +0. -/
def Obligations.ZrcRestoresElements : Prop :=
  ∀ f ∈ [FP32, BF16, FP16, E4M3, E5M2, INT8], ∀ (g : Nat) (es : List Nat), es.length = 64 * g → (∀ c ∈ es, c < 2 ^ eltBits f) →
    let zero := fun (c : Nat) => c % 2 ^ (if f = INT8 then 8 else eltBits f - 1) == 0
    zrcDecode g (eltBits f / 8) (zrcRow f g es) = (es.map (fun c => if zero c then 0 else c), false) ∧
    (g = 1 → (zrcRow f g es).length = 32 * cdiv (8 + (es.filter (fun c => !zero c)).length * (eltBits f / 8)) 32 ∧
      ∀ i, i < 64 → (leAt (zrcRow f g es) 0 8).testBit i = !zero (es.getD i 0))

/-- A leak powers the device down, every rail off but the Stoker's own, with a PWR_LEAK record of severity DEVICE; one that
coincides with another power-down only adds its record: the device is powered down once and each cause is raised (21, R483). -/
def Obligations.LeakPowersDown : Prop :=
  ∀ s : State, ∃ n, exec .pwrLeak s = .next n ∧ n.pwr.off = true ∧
    (∃ r ∈ n.recs.ring ++ n.recs.overflow, r.space = 0x10 ∧ r.code = 0x0B ∧ r.sev = 5) ∧
    (s.pwr.off = false → n.pwr.rails = 1 ∧ n.mem = [] ∧ n.tiles = State.reset.tiles) ∧
    (s.pwr.off = true → Only (.pwr :: recParts) s n ∧ n.pwr.rails = s.pwr.rails ∧ n.pwr.booted = s.pwr.booted ∧
      ∀ r ∈ s.recs.ring ++ s.recs.overflow, r ∈ n.recs.ring ++ n.recs.overflow)

/-- What reset leaves: the values that the spec gives (the reset values of the register tables; 09, R220; 11, R250; 18, R430; 19,
Table 19-5), and no command waits. -/
def Obligations.ResetState : Prop :=
  let s := State.reset
  Inv s ∧ s.pending = [] ∧ s.cyc = 0 ∧ s.stk.keys = [] ∧ factory s = true ∧ fld s.pwr.dev 15 0 = 2200 ∧ fld s.lnk.topo 57 52 = 18 ∧
  (∀ a, readByte s.mem a = 0) ∧ s.poison = [] ∧
  (∀ c, (ctrAt s c).value = 0 ∧ (ctrAt s c).owner = 0 ∧ (ctrAt s c).sat = false) ∧
  (∀ t : TileId, fld (vget s.pwr.clkTile t.val 0) 5 4 = 3 ∧ bit (vget s.pwr.clkTile t.val 0) 0 = true ∧
    fld (tileAt s t.val).acc.cfg 14 9 = 30 ∧ csState s t.val = csStopped ∧ tileHearth s t.val = none) ∧
  (∀ h : HearthId, fld (hearthAt s h.val).net.synCfg 29 24 = 28 ∧ fld (hearthAt s h.val).net.colCfg 5 0 = 30 ∧ hOn s h.val = false ∧
    ecState s h.val = 0) ∧
  (∀ p : PortId, portState s p.val = 0 ∧ fld (portAt s p.val).cfg 11 6 = 22 ∧ fld (portAt s p.val).cfg 5 0 = 14 ∧
    fld (portAt s p.val).crd 15 0 = 2048 ∧ fld (portAt s p.val).qbuf 7 0 = 64) ∧
  (∀ q : QueueId, fld (queueAt s q.val).cfg 20 17 = 4 ∧ qState (queueAt s q.val) = qCLOSED ∧ (queueAt s q.val).items = []) ∧
  (∀ k < 2, vget s.msys.cfg k 0 = 2048) ∧ (∀ f : Fin 76, fnSt s f.val = 0) ∧ s.recs.ring = [] ∧ s.lnk.sessions = []

/-- With no command waiting a step is one cycle of the fabric clock: what is due at the end of an fc happens, `SYS_CYC` counts 2,
and the fc of a hearth outside RUN count in `BLW_HELD`; where nothing is due nothing else changes, and a device that is powered
down has no clock. The tick on an empty queue is the model's choice (log 1); that `SYS_CYC` counts twice the fabric clock is the
spec's (13, R330; 19, Table 19-1; 10, Table 10-21). -/
def Obligations.EmptyQueueTicks : Prop :=
  ∀ s : State, s.pending = [] →
    (s.pwr.off = true → step s = .next s) ∧
    (s.pwr.off = false → step s = .next (count (endFc s)) ∧
      (s.claims = [] → (∀ t < 32, (tileAt s t).misc.wait = none) → (∀ h < 16, ∀ i < 32, wsSt (hearthAt s h) i ≠ 1) →
        (∀ h < 16, ecState s h ≠ 3) → (∀ e ∈ s.lnk.send, e.due = false) → EnginesIdle s →
        (∀ q < 12, ∀ h < 16, activeAt s q h = none) → (∀ q < 12, linked s q = false) → endFc s = s)) ∧
    (∀ n, n = count s →
      n.cyc = (s.cyc + 2) % 2 ^ 64 ∧ Only [.cyc, .hearths] s n ∧
      ∀ h : HearthId, hearthAt n h.val = (let x := hearthAt s h.val
        if fld x.mem.sched 34 32 = 0 then x else { x with mem := { x.mem with held := x.mem.held + 1 } }))

/-- Every command is carried out: none faults and none is refused, and no command touches the queue of those that wait (00,
R2). -/
def Obligations.EveryCommandAnswersNext : Prop :=
  ∀ (c : Instr) (s : State), ∃ n, exec c s = .next n ∧ n.pending = s.pending

/-- Every step keeps the memory in its canonical form and the poisoned sectors listed once each in rising order, whatever the
command. -/
def Obligations.StepsKeepInv : Prop :=
  ∀ s n : State, Inv s → step s = .next n → Inv n
end

