-- ==== Sys2Proof/Laws/State.lean ====
section
/-! SUPPORT. Every field of the state after every named update: the updates change one field each. -/

namespace Sys2Proof.Machine

variable (s : State)

@[simp] theorem modTile_pending (t : Nat) (f : Tile → Tile) : (modTile s t f).pending = s.pending := rfl
@[simp] theorem modTile_cyc (t : Nat) (f : Tile → Tile) : (modTile s t f).cyc = s.cyc := rfl
@[simp] theorem modTile_anchor0 (t : Nat) (f : Tile → Tile) : (modTile s t f).anchor0 = s.anchor0 := rfl
@[simp] theorem modTile_anchor1 (t : Nat) (f : Tile → Tile) : (modTile s t f).anchor1 = s.anchor1 := rfl
@[simp] theorem modTile_hearths (t : Nat) (f : Tile → Tile) : (modTile s t f).hearths = s.hearths := rfl
@[simp] theorem modTile_ports (t : Nat) (f : Tile → Tile) : (modTile s t f).ports = s.ports := rfl
@[simp] theorem modTile_queues (t : Nat) (f : Tile → Tile) : (modTile s t f).queues = s.queues := rfl
@[simp] theorem modTile_hobs (t : Nat) (f : Tile → Tile) : (modTile s t f).hobs = s.hobs := rfl
@[simp] theorem modTile_counters (t : Nat) (f : Tile → Tile) : (modTile s t f).counters = s.counters := rfl
@[simp] theorem modTile_flights (t : Nat) (f : Tile → Tile) : (modTile s t f).flights = s.flights := rfl
@[simp] theorem modTile_claims (t : Nat) (f : Tile → Tile) : (modTile s t f).claims = s.claims := rfl
@[simp] theorem modTile_lnk (t : Nat) (f : Tile → Tile) : (modTile s t f).lnk = s.lnk := rfl
@[simp] theorem modTile_tmp (t : Nat) (f : Tile → Tile) : (modTile s t f).tmp = s.tmp := rfl
@[simp] theorem modTile_lgr (t : Nat) (f : Tile → Tile) : (modTile s t f).lgr = s.lgr := rfl
@[simp] theorem modTile_mem (t : Nat) (f : Tile → Tile) : (modTile s t f).mem = s.mem := rfl
@[simp] theorem modTile_poison (t : Nat) (f : Tile → Tile) : (modTile s t f).poison = s.poison := rfl
@[simp] theorem modTile_codes (t : Nat) (f : Tile → Tile) : (modTile s t f).codes = s.codes := rfl
@[simp] theorem modTile_msys (t : Nat) (f : Tile → Tile) : (modTile s t f).msys = s.msys := rfl
@[simp] theorem modTile_recs (t : Nat) (f : Tile → Tile) : (modTile s t f).recs = s.recs := rfl
@[simp] theorem modTile_stk (t : Nat) (f : Tile → Tile) : (modTile s t f).stk = s.stk := rfl
@[simp] theorem modTile_pwr (t : Nat) (f : Tile → Tile) : (modTile s t f).pwr = s.pwr := rfl
@[simp] theorem modTile_hif (t : Nat) (f : Tile → Tile) : (modTile s t f).hif = s.hif := rfl
@[simp] theorem modTile_out (t : Nat) (f : Tile → Tile) : (modTile s t f).out = s.out := rfl
@[simp] theorem modTile_fresh (t : Nat) (f : Tile → Tile) : (modTile s t f).fresh = s.fresh := rfl
@[simp] theorem modHearth_pending (h : Nat) (f : Hearth → Hearth) : (modHearth s h f).pending = s.pending := rfl
@[simp] theorem modHearth_cyc (h : Nat) (f : Hearth → Hearth) : (modHearth s h f).cyc = s.cyc := rfl
@[simp] theorem modHearth_anchor0 (h : Nat) (f : Hearth → Hearth) : (modHearth s h f).anchor0 = s.anchor0 := rfl
@[simp] theorem modHearth_anchor1 (h : Nat) (f : Hearth → Hearth) : (modHearth s h f).anchor1 = s.anchor1 := rfl
@[simp] theorem modHearth_tiles (h : Nat) (f : Hearth → Hearth) : (modHearth s h f).tiles = s.tiles := rfl
@[simp] theorem modHearth_ports (h : Nat) (f : Hearth → Hearth) : (modHearth s h f).ports = s.ports := rfl
@[simp] theorem modHearth_queues (h : Nat) (f : Hearth → Hearth) : (modHearth s h f).queues = s.queues := rfl
@[simp] theorem modHearth_hobs (h : Nat) (f : Hearth → Hearth) : (modHearth s h f).hobs = s.hobs := rfl
@[simp] theorem modHearth_counters (h : Nat) (f : Hearth → Hearth) : (modHearth s h f).counters = s.counters := rfl
@[simp] theorem modHearth_flights (h : Nat) (f : Hearth → Hearth) : (modHearth s h f).flights = s.flights := rfl
@[simp] theorem modHearth_claims (h : Nat) (f : Hearth → Hearth) : (modHearth s h f).claims = s.claims := rfl
@[simp] theorem modHearth_lnk (h : Nat) (f : Hearth → Hearth) : (modHearth s h f).lnk = s.lnk := rfl
@[simp] theorem modHearth_tmp (h : Nat) (f : Hearth → Hearth) : (modHearth s h f).tmp = s.tmp := rfl
@[simp] theorem modHearth_lgr (h : Nat) (f : Hearth → Hearth) : (modHearth s h f).lgr = s.lgr := rfl
@[simp] theorem modHearth_mem (h : Nat) (f : Hearth → Hearth) : (modHearth s h f).mem = s.mem := rfl
@[simp] theorem modHearth_poison (h : Nat) (f : Hearth → Hearth) : (modHearth s h f).poison = s.poison := rfl
@[simp] theorem modHearth_codes (h : Nat) (f : Hearth → Hearth) : (modHearth s h f).codes = s.codes := rfl
@[simp] theorem modHearth_msys (h : Nat) (f : Hearth → Hearth) : (modHearth s h f).msys = s.msys := rfl
@[simp] theorem modHearth_recs (h : Nat) (f : Hearth → Hearth) : (modHearth s h f).recs = s.recs := rfl
@[simp] theorem modHearth_stk (h : Nat) (f : Hearth → Hearth) : (modHearth s h f).stk = s.stk := rfl
@[simp] theorem modHearth_pwr (h : Nat) (f : Hearth → Hearth) : (modHearth s h f).pwr = s.pwr := rfl
@[simp] theorem modHearth_hif (h : Nat) (f : Hearth → Hearth) : (modHearth s h f).hif = s.hif := rfl
@[simp] theorem modHearth_out (h : Nat) (f : Hearth → Hearth) : (modHearth s h f).out = s.out := rfl
@[simp] theorem modHearth_fresh (h : Nat) (f : Hearth → Hearth) : (modHearth s h f).fresh = s.fresh := rfl
@[simp] theorem modPort_pending (p : Nat) (f : Port → Port) : (modPort s p f).pending = s.pending := rfl
@[simp] theorem modPort_cyc (p : Nat) (f : Port → Port) : (modPort s p f).cyc = s.cyc := rfl
@[simp] theorem modPort_anchor0 (p : Nat) (f : Port → Port) : (modPort s p f).anchor0 = s.anchor0 := rfl
@[simp] theorem modPort_anchor1 (p : Nat) (f : Port → Port) : (modPort s p f).anchor1 = s.anchor1 := rfl
@[simp] theorem modPort_tiles (p : Nat) (f : Port → Port) : (modPort s p f).tiles = s.tiles := rfl
@[simp] theorem modPort_hearths (p : Nat) (f : Port → Port) : (modPort s p f).hearths = s.hearths := rfl
@[simp] theorem modPort_queues (p : Nat) (f : Port → Port) : (modPort s p f).queues = s.queues := rfl
@[simp] theorem modPort_hobs (p : Nat) (f : Port → Port) : (modPort s p f).hobs = s.hobs := rfl
@[simp] theorem modPort_counters (p : Nat) (f : Port → Port) : (modPort s p f).counters = s.counters := rfl
@[simp] theorem modPort_flights (p : Nat) (f : Port → Port) : (modPort s p f).flights = s.flights := rfl
@[simp] theorem modPort_claims (p : Nat) (f : Port → Port) : (modPort s p f).claims = s.claims := rfl
@[simp] theorem modPort_lnk (p : Nat) (f : Port → Port) : (modPort s p f).lnk = s.lnk := rfl
@[simp] theorem modPort_tmp (p : Nat) (f : Port → Port) : (modPort s p f).tmp = s.tmp := rfl
@[simp] theorem modPort_lgr (p : Nat) (f : Port → Port) : (modPort s p f).lgr = s.lgr := rfl
@[simp] theorem modPort_mem (p : Nat) (f : Port → Port) : (modPort s p f).mem = s.mem := rfl
@[simp] theorem modPort_poison (p : Nat) (f : Port → Port) : (modPort s p f).poison = s.poison := rfl
@[simp] theorem modPort_codes (p : Nat) (f : Port → Port) : (modPort s p f).codes = s.codes := rfl
@[simp] theorem modPort_msys (p : Nat) (f : Port → Port) : (modPort s p f).msys = s.msys := rfl
@[simp] theorem modPort_recs (p : Nat) (f : Port → Port) : (modPort s p f).recs = s.recs := rfl
@[simp] theorem modPort_stk (p : Nat) (f : Port → Port) : (modPort s p f).stk = s.stk := rfl
@[simp] theorem modPort_pwr (p : Nat) (f : Port → Port) : (modPort s p f).pwr = s.pwr := rfl
@[simp] theorem modPort_hif (p : Nat) (f : Port → Port) : (modPort s p f).hif = s.hif := rfl
@[simp] theorem modPort_out (p : Nat) (f : Port → Port) : (modPort s p f).out = s.out := rfl
@[simp] theorem modPort_fresh (p : Nat) (f : Port → Port) : (modPort s p f).fresh = s.fresh := rfl
@[simp] theorem modQueue_pending (q : Nat) (f : WorkQ → WorkQ) : (modQueue s q f).pending = s.pending := rfl
@[simp] theorem modQueue_cyc (q : Nat) (f : WorkQ → WorkQ) : (modQueue s q f).cyc = s.cyc := rfl
@[simp] theorem modQueue_anchor0 (q : Nat) (f : WorkQ → WorkQ) : (modQueue s q f).anchor0 = s.anchor0 := rfl
@[simp] theorem modQueue_anchor1 (q : Nat) (f : WorkQ → WorkQ) : (modQueue s q f).anchor1 = s.anchor1 := rfl
@[simp] theorem modQueue_tiles (q : Nat) (f : WorkQ → WorkQ) : (modQueue s q f).tiles = s.tiles := rfl
@[simp] theorem modQueue_hearths (q : Nat) (f : WorkQ → WorkQ) : (modQueue s q f).hearths = s.hearths := rfl
@[simp] theorem modQueue_ports (q : Nat) (f : WorkQ → WorkQ) : (modQueue s q f).ports = s.ports := rfl
@[simp] theorem modQueue_hobs (q : Nat) (f : WorkQ → WorkQ) : (modQueue s q f).hobs = s.hobs := rfl
@[simp] theorem modQueue_counters (q : Nat) (f : WorkQ → WorkQ) : (modQueue s q f).counters = s.counters := rfl
@[simp] theorem modQueue_flights (q : Nat) (f : WorkQ → WorkQ) : (modQueue s q f).flights = s.flights := rfl
@[simp] theorem modQueue_claims (q : Nat) (f : WorkQ → WorkQ) : (modQueue s q f).claims = s.claims := rfl
@[simp] theorem modQueue_lnk (q : Nat) (f : WorkQ → WorkQ) : (modQueue s q f).lnk = s.lnk := rfl
@[simp] theorem modQueue_tmp (q : Nat) (f : WorkQ → WorkQ) : (modQueue s q f).tmp = s.tmp := rfl
@[simp] theorem modQueue_lgr (q : Nat) (f : WorkQ → WorkQ) : (modQueue s q f).lgr = s.lgr := rfl
@[simp] theorem modQueue_mem (q : Nat) (f : WorkQ → WorkQ) : (modQueue s q f).mem = s.mem := rfl
@[simp] theorem modQueue_poison (q : Nat) (f : WorkQ → WorkQ) : (modQueue s q f).poison = s.poison := rfl
@[simp] theorem modQueue_codes (q : Nat) (f : WorkQ → WorkQ) : (modQueue s q f).codes = s.codes := rfl
@[simp] theorem modQueue_msys (q : Nat) (f : WorkQ → WorkQ) : (modQueue s q f).msys = s.msys := rfl
@[simp] theorem modQueue_recs (q : Nat) (f : WorkQ → WorkQ) : (modQueue s q f).recs = s.recs := rfl
@[simp] theorem modQueue_stk (q : Nat) (f : WorkQ → WorkQ) : (modQueue s q f).stk = s.stk := rfl
@[simp] theorem modQueue_pwr (q : Nat) (f : WorkQ → WorkQ) : (modQueue s q f).pwr = s.pwr := rfl
@[simp] theorem modQueue_hif (q : Nat) (f : WorkQ → WorkQ) : (modQueue s q f).hif = s.hif := rfl
@[simp] theorem modQueue_out (q : Nat) (f : WorkQ → WorkQ) : (modQueue s q f).out = s.out := rfl
@[simp] theorem modQueue_fresh (q : Nat) (f : WorkQ → WorkQ) : (modQueue s q f).fresh = s.fresh := rfl
@[simp] theorem emit_pending (o : Output) : (emit s o).pending = s.pending := rfl
@[simp] theorem emit_cyc (o : Output) : (emit s o).cyc = s.cyc := rfl
@[simp] theorem emit_anchor0 (o : Output) : (emit s o).anchor0 = s.anchor0 := rfl
@[simp] theorem emit_anchor1 (o : Output) : (emit s o).anchor1 = s.anchor1 := rfl
@[simp] theorem emit_tiles (o : Output) : (emit s o).tiles = s.tiles := rfl
@[simp] theorem emit_hearths (o : Output) : (emit s o).hearths = s.hearths := rfl
@[simp] theorem emit_ports (o : Output) : (emit s o).ports = s.ports := rfl
@[simp] theorem emit_queues (o : Output) : (emit s o).queues = s.queues := rfl
@[simp] theorem emit_hobs (o : Output) : (emit s o).hobs = s.hobs := rfl
@[simp] theorem emit_counters (o : Output) : (emit s o).counters = s.counters := rfl
@[simp] theorem emit_flights (o : Output) : (emit s o).flights = s.flights := rfl
@[simp] theorem emit_claims (o : Output) : (emit s o).claims = s.claims := rfl
@[simp] theorem emit_lnk (o : Output) : (emit s o).lnk = s.lnk := rfl
@[simp] theorem emit_tmp (o : Output) : (emit s o).tmp = s.tmp := rfl
@[simp] theorem emit_lgr (o : Output) : (emit s o).lgr = s.lgr := rfl
@[simp] theorem emit_mem (o : Output) : (emit s o).mem = s.mem := rfl
@[simp] theorem emit_poison (o : Output) : (emit s o).poison = s.poison := rfl
@[simp] theorem emit_codes (o : Output) : (emit s o).codes = s.codes := rfl
@[simp] theorem emit_msys (o : Output) : (emit s o).msys = s.msys := rfl
@[simp] theorem emit_recs (o : Output) : (emit s o).recs = s.recs := rfl
@[simp] theorem emit_stk (o : Output) : (emit s o).stk = s.stk := rfl
@[simp] theorem emit_pwr (o : Output) : (emit s o).pwr = s.pwr := rfl
@[simp] theorem emit_hif (o : Output) : (emit s o).hif = s.hif := rfl
@[simp] theorem emit_fresh (o : Output) : (emit s o).fresh = s.fresh := rfl
@[simp] theorem modCtr_pending (c : Nat) (f : Counter → Counter) : (modCtr s c f).pending = s.pending := rfl
@[simp] theorem modCtr_cyc (c : Nat) (f : Counter → Counter) : (modCtr s c f).cyc = s.cyc := rfl
@[simp] theorem modCtr_anchor0 (c : Nat) (f : Counter → Counter) : (modCtr s c f).anchor0 = s.anchor0 := rfl
@[simp] theorem modCtr_anchor1 (c : Nat) (f : Counter → Counter) : (modCtr s c f).anchor1 = s.anchor1 := rfl
@[simp] theorem modCtr_tiles (c : Nat) (f : Counter → Counter) : (modCtr s c f).tiles = s.tiles := rfl
@[simp] theorem modCtr_hearths (c : Nat) (f : Counter → Counter) : (modCtr s c f).hearths = s.hearths := rfl
@[simp] theorem modCtr_ports (c : Nat) (f : Counter → Counter) : (modCtr s c f).ports = s.ports := rfl
@[simp] theorem modCtr_queues (c : Nat) (f : Counter → Counter) : (modCtr s c f).queues = s.queues := rfl
@[simp] theorem modCtr_hobs (c : Nat) (f : Counter → Counter) : (modCtr s c f).hobs = s.hobs := rfl
@[simp] theorem modCtr_flights (c : Nat) (f : Counter → Counter) : (modCtr s c f).flights = s.flights := rfl
@[simp] theorem modCtr_claims (c : Nat) (f : Counter → Counter) : (modCtr s c f).claims = s.claims := rfl
@[simp] theorem modCtr_lnk (c : Nat) (f : Counter → Counter) : (modCtr s c f).lnk = s.lnk := rfl
@[simp] theorem modCtr_tmp (c : Nat) (f : Counter → Counter) : (modCtr s c f).tmp = s.tmp := rfl
@[simp] theorem modCtr_lgr (c : Nat) (f : Counter → Counter) : (modCtr s c f).lgr = s.lgr := rfl
@[simp] theorem modCtr_mem (c : Nat) (f : Counter → Counter) : (modCtr s c f).mem = s.mem := rfl
@[simp] theorem modCtr_poison (c : Nat) (f : Counter → Counter) : (modCtr s c f).poison = s.poison := rfl
@[simp] theorem modCtr_codes (c : Nat) (f : Counter → Counter) : (modCtr s c f).codes = s.codes := rfl
@[simp] theorem modCtr_msys (c : Nat) (f : Counter → Counter) : (modCtr s c f).msys = s.msys := rfl
@[simp] theorem modCtr_recs (c : Nat) (f : Counter → Counter) : (modCtr s c f).recs = s.recs := rfl
@[simp] theorem modCtr_stk (c : Nat) (f : Counter → Counter) : (modCtr s c f).stk = s.stk := rfl
@[simp] theorem modCtr_pwr (c : Nat) (f : Counter → Counter) : (modCtr s c f).pwr = s.pwr := rfl
@[simp] theorem modCtr_hif (c : Nat) (f : Counter → Counter) : (modCtr s c f).hif = s.hif := rfl
@[simp] theorem modCtr_out (c : Nat) (f : Counter → Counter) : (modCtr s c f).out = s.out := rfl
@[simp] theorem modCtr_fresh (c : Nat) (f : Counter → Counter) : (modCtr s c f).fresh = s.fresh := rfl
@[simp] theorem modFn_pending (k : Nat) (f : HostFn → HostFn) : (modFn s k f).pending = s.pending := rfl
@[simp] theorem modFn_cyc (k : Nat) (f : HostFn → HostFn) : (modFn s k f).cyc = s.cyc := rfl
@[simp] theorem modFn_anchor0 (k : Nat) (f : HostFn → HostFn) : (modFn s k f).anchor0 = s.anchor0 := rfl
@[simp] theorem modFn_anchor1 (k : Nat) (f : HostFn → HostFn) : (modFn s k f).anchor1 = s.anchor1 := rfl
@[simp] theorem modFn_tiles (k : Nat) (f : HostFn → HostFn) : (modFn s k f).tiles = s.tiles := rfl
@[simp] theorem modFn_hearths (k : Nat) (f : HostFn → HostFn) : (modFn s k f).hearths = s.hearths := rfl
@[simp] theorem modFn_ports (k : Nat) (f : HostFn → HostFn) : (modFn s k f).ports = s.ports := rfl
@[simp] theorem modFn_queues (k : Nat) (f : HostFn → HostFn) : (modFn s k f).queues = s.queues := rfl
@[simp] theorem modFn_hobs (k : Nat) (f : HostFn → HostFn) : (modFn s k f).hobs = s.hobs := rfl
@[simp] theorem modFn_counters (k : Nat) (f : HostFn → HostFn) : (modFn s k f).counters = s.counters := rfl
@[simp] theorem modFn_flights (k : Nat) (f : HostFn → HostFn) : (modFn s k f).flights = s.flights := rfl
@[simp] theorem modFn_claims (k : Nat) (f : HostFn → HostFn) : (modFn s k f).claims = s.claims := rfl
@[simp] theorem modFn_lnk (k : Nat) (f : HostFn → HostFn) : (modFn s k f).lnk = s.lnk := rfl
@[simp] theorem modFn_tmp (k : Nat) (f : HostFn → HostFn) : (modFn s k f).tmp = s.tmp := rfl
@[simp] theorem modFn_lgr (k : Nat) (f : HostFn → HostFn) : (modFn s k f).lgr = s.lgr := rfl
@[simp] theorem modFn_mem (k : Nat) (f : HostFn → HostFn) : (modFn s k f).mem = s.mem := rfl
@[simp] theorem modFn_poison (k : Nat) (f : HostFn → HostFn) : (modFn s k f).poison = s.poison := rfl
@[simp] theorem modFn_codes (k : Nat) (f : HostFn → HostFn) : (modFn s k f).codes = s.codes := rfl
@[simp] theorem modFn_msys (k : Nat) (f : HostFn → HostFn) : (modFn s k f).msys = s.msys := rfl
@[simp] theorem modFn_recs (k : Nat) (f : HostFn → HostFn) : (modFn s k f).recs = s.recs := rfl
@[simp] theorem modFn_stk (k : Nat) (f : HostFn → HostFn) : (modFn s k f).stk = s.stk := rfl
@[simp] theorem modFn_pwr (k : Nat) (f : HostFn → HostFn) : (modFn s k f).pwr = s.pwr := rfl
@[simp] theorem modFn_out (k : Nat) (f : HostFn → HostFn) : (modFn s k f).out = s.out := rfl
@[simp] theorem modFn_fresh (k : Nat) (f : HostFn → HostFn) : (modFn s k f).fresh = s.fresh := rfl
@[simp] theorem modPwr_pending (f : Power → Power) : (modPwr s f).pending = s.pending := rfl
@[simp] theorem modPwr_cyc (f : Power → Power) : (modPwr s f).cyc = s.cyc := rfl
@[simp] theorem modPwr_anchor0 (f : Power → Power) : (modPwr s f).anchor0 = s.anchor0 := rfl
@[simp] theorem modPwr_anchor1 (f : Power → Power) : (modPwr s f).anchor1 = s.anchor1 := rfl
@[simp] theorem modPwr_tiles (f : Power → Power) : (modPwr s f).tiles = s.tiles := rfl
@[simp] theorem modPwr_hearths (f : Power → Power) : (modPwr s f).hearths = s.hearths := rfl
@[simp] theorem modPwr_ports (f : Power → Power) : (modPwr s f).ports = s.ports := rfl
@[simp] theorem modPwr_queues (f : Power → Power) : (modPwr s f).queues = s.queues := rfl
@[simp] theorem modPwr_hobs (f : Power → Power) : (modPwr s f).hobs = s.hobs := rfl
@[simp] theorem modPwr_counters (f : Power → Power) : (modPwr s f).counters = s.counters := rfl
@[simp] theorem modPwr_flights (f : Power → Power) : (modPwr s f).flights = s.flights := rfl
@[simp] theorem modPwr_claims (f : Power → Power) : (modPwr s f).claims = s.claims := rfl
@[simp] theorem modPwr_lnk (f : Power → Power) : (modPwr s f).lnk = s.lnk := rfl
@[simp] theorem modPwr_tmp (f : Power → Power) : (modPwr s f).tmp = s.tmp := rfl
@[simp] theorem modPwr_lgr (f : Power → Power) : (modPwr s f).lgr = s.lgr := rfl
@[simp] theorem modPwr_mem (f : Power → Power) : (modPwr s f).mem = s.mem := rfl
@[simp] theorem modPwr_poison (f : Power → Power) : (modPwr s f).poison = s.poison := rfl
@[simp] theorem modPwr_codes (f : Power → Power) : (modPwr s f).codes = s.codes := rfl
@[simp] theorem modPwr_msys (f : Power → Power) : (modPwr s f).msys = s.msys := rfl
@[simp] theorem modPwr_recs (f : Power → Power) : (modPwr s f).recs = s.recs := rfl
@[simp] theorem modPwr_stk (f : Power → Power) : (modPwr s f).stk = s.stk := rfl
@[simp] theorem modPwr_hif (f : Power → Power) : (modPwr s f).hif = s.hif := rfl
@[simp] theorem modPwr_out (f : Power → Power) : (modPwr s f).out = s.out := rfl
@[simp] theorem modPwr_fresh (f : Power → Power) : (modPwr s f).fresh = s.fresh := rfl
@[simp] theorem modLgr_pending (f : Ledger → Ledger) : (modLgr s f).pending = s.pending := rfl
@[simp] theorem modLgr_cyc (f : Ledger → Ledger) : (modLgr s f).cyc = s.cyc := rfl
@[simp] theorem modLgr_anchor0 (f : Ledger → Ledger) : (modLgr s f).anchor0 = s.anchor0 := rfl
@[simp] theorem modLgr_anchor1 (f : Ledger → Ledger) : (modLgr s f).anchor1 = s.anchor1 := rfl
@[simp] theorem modLgr_tiles (f : Ledger → Ledger) : (modLgr s f).tiles = s.tiles := rfl
@[simp] theorem modLgr_hearths (f : Ledger → Ledger) : (modLgr s f).hearths = s.hearths := rfl
@[simp] theorem modLgr_ports (f : Ledger → Ledger) : (modLgr s f).ports = s.ports := rfl
@[simp] theorem modLgr_queues (f : Ledger → Ledger) : (modLgr s f).queues = s.queues := rfl
@[simp] theorem modLgr_hobs (f : Ledger → Ledger) : (modLgr s f).hobs = s.hobs := rfl
@[simp] theorem modLgr_counters (f : Ledger → Ledger) : (modLgr s f).counters = s.counters := rfl
@[simp] theorem modLgr_flights (f : Ledger → Ledger) : (modLgr s f).flights = s.flights := rfl
@[simp] theorem modLgr_claims (f : Ledger → Ledger) : (modLgr s f).claims = s.claims := rfl
@[simp] theorem modLgr_lnk (f : Ledger → Ledger) : (modLgr s f).lnk = s.lnk := rfl
@[simp] theorem modLgr_tmp (f : Ledger → Ledger) : (modLgr s f).tmp = s.tmp := rfl
@[simp] theorem modLgr_mem (f : Ledger → Ledger) : (modLgr s f).mem = s.mem := rfl
@[simp] theorem modLgr_poison (f : Ledger → Ledger) : (modLgr s f).poison = s.poison := rfl
@[simp] theorem modLgr_codes (f : Ledger → Ledger) : (modLgr s f).codes = s.codes := rfl
@[simp] theorem modLgr_msys (f : Ledger → Ledger) : (modLgr s f).msys = s.msys := rfl
@[simp] theorem modLgr_recs (f : Ledger → Ledger) : (modLgr s f).recs = s.recs := rfl
@[simp] theorem modLgr_stk (f : Ledger → Ledger) : (modLgr s f).stk = s.stk := rfl
@[simp] theorem modLgr_pwr (f : Ledger → Ledger) : (modLgr s f).pwr = s.pwr := rfl
@[simp] theorem modLgr_hif (f : Ledger → Ledger) : (modLgr s f).hif = s.hif := rfl
@[simp] theorem modLgr_out (f : Ledger → Ledger) : (modLgr s f).out = s.out := rfl
@[simp] theorem modLgr_fresh (f : Ledger → Ledger) : (modLgr s f).fresh = s.fresh := rfl
@[simp] theorem modStoker_pending (f : Stoker → Stoker) : (modStoker s f).pending = s.pending := rfl
@[simp] theorem modStoker_cyc (f : Stoker → Stoker) : (modStoker s f).cyc = s.cyc := rfl
@[simp] theorem modStoker_anchor0 (f : Stoker → Stoker) : (modStoker s f).anchor0 = s.anchor0 := rfl
@[simp] theorem modStoker_anchor1 (f : Stoker → Stoker) : (modStoker s f).anchor1 = s.anchor1 := rfl
@[simp] theorem modStoker_tiles (f : Stoker → Stoker) : (modStoker s f).tiles = s.tiles := rfl
@[simp] theorem modStoker_hearths (f : Stoker → Stoker) : (modStoker s f).hearths = s.hearths := rfl
@[simp] theorem modStoker_ports (f : Stoker → Stoker) : (modStoker s f).ports = s.ports := rfl
@[simp] theorem modStoker_queues (f : Stoker → Stoker) : (modStoker s f).queues = s.queues := rfl
@[simp] theorem modStoker_hobs (f : Stoker → Stoker) : (modStoker s f).hobs = s.hobs := rfl
@[simp] theorem modStoker_counters (f : Stoker → Stoker) : (modStoker s f).counters = s.counters := rfl
@[simp] theorem modStoker_flights (f : Stoker → Stoker) : (modStoker s f).flights = s.flights := rfl
@[simp] theorem modStoker_claims (f : Stoker → Stoker) : (modStoker s f).claims = s.claims := rfl
@[simp] theorem modStoker_lnk (f : Stoker → Stoker) : (modStoker s f).lnk = s.lnk := rfl
@[simp] theorem modStoker_tmp (f : Stoker → Stoker) : (modStoker s f).tmp = s.tmp := rfl
@[simp] theorem modStoker_lgr (f : Stoker → Stoker) : (modStoker s f).lgr = s.lgr := rfl
@[simp] theorem modStoker_mem (f : Stoker → Stoker) : (modStoker s f).mem = s.mem := rfl
@[simp] theorem modStoker_poison (f : Stoker → Stoker) : (modStoker s f).poison = s.poison := rfl
@[simp] theorem modStoker_codes (f : Stoker → Stoker) : (modStoker s f).codes = s.codes := rfl
@[simp] theorem modStoker_msys (f : Stoker → Stoker) : (modStoker s f).msys = s.msys := rfl
@[simp] theorem modStoker_recs (f : Stoker → Stoker) : (modStoker s f).recs = s.recs := rfl
@[simp] theorem modStoker_pwr (f : Stoker → Stoker) : (modStoker s f).pwr = s.pwr := rfl
@[simp] theorem modStoker_hif (f : Stoker → Stoker) : (modStoker s f).hif = s.hif := rfl
@[simp] theorem modStoker_out (f : Stoker → Stoker) : (modStoker s f).out = s.out := rfl
@[simp] theorem modStoker_fresh (f : Stoker → Stoker) : (modStoker s f).fresh = s.fresh := rfl
@[simp] theorem setTmp_pending (f : Temper → Temper) : (setTmp s f).pending = s.pending := rfl
@[simp] theorem setTmp_cyc (f : Temper → Temper) : (setTmp s f).cyc = s.cyc := rfl
@[simp] theorem setTmp_anchor0 (f : Temper → Temper) : (setTmp s f).anchor0 = s.anchor0 := rfl
@[simp] theorem setTmp_anchor1 (f : Temper → Temper) : (setTmp s f).anchor1 = s.anchor1 := rfl
@[simp] theorem setTmp_tiles (f : Temper → Temper) : (setTmp s f).tiles = s.tiles := rfl
@[simp] theorem setTmp_hearths (f : Temper → Temper) : (setTmp s f).hearths = s.hearths := rfl
@[simp] theorem setTmp_ports (f : Temper → Temper) : (setTmp s f).ports = s.ports := rfl
@[simp] theorem setTmp_queues (f : Temper → Temper) : (setTmp s f).queues = s.queues := rfl
@[simp] theorem setTmp_hobs (f : Temper → Temper) : (setTmp s f).hobs = s.hobs := rfl
@[simp] theorem setTmp_counters (f : Temper → Temper) : (setTmp s f).counters = s.counters := rfl
@[simp] theorem setTmp_flights (f : Temper → Temper) : (setTmp s f).flights = s.flights := rfl
@[simp] theorem setTmp_claims (f : Temper → Temper) : (setTmp s f).claims = s.claims := rfl
@[simp] theorem setTmp_lnk (f : Temper → Temper) : (setTmp s f).lnk = s.lnk := rfl
@[simp] theorem setTmp_lgr (f : Temper → Temper) : (setTmp s f).lgr = s.lgr := rfl
@[simp] theorem setTmp_mem (f : Temper → Temper) : (setTmp s f).mem = s.mem := rfl
@[simp] theorem setTmp_poison (f : Temper → Temper) : (setTmp s f).poison = s.poison := rfl
@[simp] theorem setTmp_codes (f : Temper → Temper) : (setTmp s f).codes = s.codes := rfl
@[simp] theorem setTmp_msys (f : Temper → Temper) : (setTmp s f).msys = s.msys := rfl
@[simp] theorem setTmp_recs (f : Temper → Temper) : (setTmp s f).recs = s.recs := rfl
@[simp] theorem setTmp_stk (f : Temper → Temper) : (setTmp s f).stk = s.stk := rfl
@[simp] theorem setTmp_pwr (f : Temper → Temper) : (setTmp s f).pwr = s.pwr := rfl
@[simp] theorem setTmp_hif (f : Temper → Temper) : (setTmp s f).hif = s.hif := rfl
@[simp] theorem setTmp_out (f : Temper → Temper) : (setTmp s f).out = s.out := rfl
@[simp] theorem setTmp_fresh (f : Temper → Temper) : (setTmp s f).fresh = s.fresh := rfl
@[simp] theorem modPool_pending (p : Nat) (f : Pool → Pool) : (modPool s p f).pending = s.pending := rfl
@[simp] theorem modPool_cyc (p : Nat) (f : Pool → Pool) : (modPool s p f).cyc = s.cyc := rfl
@[simp] theorem modPool_anchor0 (p : Nat) (f : Pool → Pool) : (modPool s p f).anchor0 = s.anchor0 := rfl
@[simp] theorem modPool_anchor1 (p : Nat) (f : Pool → Pool) : (modPool s p f).anchor1 = s.anchor1 := rfl
@[simp] theorem modPool_tiles (p : Nat) (f : Pool → Pool) : (modPool s p f).tiles = s.tiles := rfl
@[simp] theorem modPool_hearths (p : Nat) (f : Pool → Pool) : (modPool s p f).hearths = s.hearths := rfl
@[simp] theorem modPool_ports (p : Nat) (f : Pool → Pool) : (modPool s p f).ports = s.ports := rfl
@[simp] theorem modPool_queues (p : Nat) (f : Pool → Pool) : (modPool s p f).queues = s.queues := rfl
@[simp] theorem modPool_hobs (p : Nat) (f : Pool → Pool) : (modPool s p f).hobs = s.hobs := rfl
@[simp] theorem modPool_counters (p : Nat) (f : Pool → Pool) : (modPool s p f).counters = s.counters := rfl
@[simp] theorem modPool_flights (p : Nat) (f : Pool → Pool) : (modPool s p f).flights = s.flights := rfl
@[simp] theorem modPool_claims (p : Nat) (f : Pool → Pool) : (modPool s p f).claims = s.claims := rfl
@[simp] theorem modPool_lnk (p : Nat) (f : Pool → Pool) : (modPool s p f).lnk = s.lnk := rfl
@[simp] theorem modPool_tmp (p : Nat) (f : Pool → Pool) : (modPool s p f).tmp = s.tmp := rfl
@[simp] theorem modPool_lgr (p : Nat) (f : Pool → Pool) : (modPool s p f).lgr = s.lgr := rfl
@[simp] theorem modPool_mem (p : Nat) (f : Pool → Pool) : (modPool s p f).mem = s.mem := rfl
@[simp] theorem modPool_poison (p : Nat) (f : Pool → Pool) : (modPool s p f).poison = s.poison := rfl
@[simp] theorem modPool_codes (p : Nat) (f : Pool → Pool) : (modPool s p f).codes = s.codes := rfl
@[simp] theorem modPool_recs (p : Nat) (f : Pool → Pool) : (modPool s p f).recs = s.recs := rfl
@[simp] theorem modPool_stk (p : Nat) (f : Pool → Pool) : (modPool s p f).stk = s.stk := rfl
@[simp] theorem modPool_pwr (p : Nat) (f : Pool → Pool) : (modPool s p f).pwr = s.pwr := rfl
@[simp] theorem modPool_hif (p : Nat) (f : Pool → Pool) : (modPool s p f).hif = s.hif := rfl
@[simp] theorem modPool_out (p : Nat) (f : Pool → Pool) : (modPool s p f).out = s.out := rfl
@[simp] theorem modPool_fresh (p : Nat) (f : Pool → Pool) : (modPool s p f).fresh = s.fresh := rfl
@[simp] theorem modStk_pending (k : Nat) (f : Reg → Reg) : (modStk s k f).pending = s.pending := rfl
@[simp] theorem modStk_cyc (k : Nat) (f : Reg → Reg) : (modStk s k f).cyc = s.cyc := rfl
@[simp] theorem modStk_anchor0 (k : Nat) (f : Reg → Reg) : (modStk s k f).anchor0 = s.anchor0 := rfl
@[simp] theorem modStk_anchor1 (k : Nat) (f : Reg → Reg) : (modStk s k f).anchor1 = s.anchor1 := rfl
@[simp] theorem modStk_tiles (k : Nat) (f : Reg → Reg) : (modStk s k f).tiles = s.tiles := rfl
@[simp] theorem modStk_hearths (k : Nat) (f : Reg → Reg) : (modStk s k f).hearths = s.hearths := rfl
@[simp] theorem modStk_ports (k : Nat) (f : Reg → Reg) : (modStk s k f).ports = s.ports := rfl
@[simp] theorem modStk_queues (k : Nat) (f : Reg → Reg) : (modStk s k f).queues = s.queues := rfl
@[simp] theorem modStk_hobs (k : Nat) (f : Reg → Reg) : (modStk s k f).hobs = s.hobs := rfl
@[simp] theorem modStk_counters (k : Nat) (f : Reg → Reg) : (modStk s k f).counters = s.counters := rfl
@[simp] theorem modStk_flights (k : Nat) (f : Reg → Reg) : (modStk s k f).flights = s.flights := rfl
@[simp] theorem modStk_claims (k : Nat) (f : Reg → Reg) : (modStk s k f).claims = s.claims := rfl
@[simp] theorem modStk_lnk (k : Nat) (f : Reg → Reg) : (modStk s k f).lnk = s.lnk := rfl
@[simp] theorem modStk_tmp (k : Nat) (f : Reg → Reg) : (modStk s k f).tmp = s.tmp := rfl
@[simp] theorem modStk_lgr (k : Nat) (f : Reg → Reg) : (modStk s k f).lgr = s.lgr := rfl
@[simp] theorem modStk_mem (k : Nat) (f : Reg → Reg) : (modStk s k f).mem = s.mem := rfl
@[simp] theorem modStk_poison (k : Nat) (f : Reg → Reg) : (modStk s k f).poison = s.poison := rfl
@[simp] theorem modStk_codes (k : Nat) (f : Reg → Reg) : (modStk s k f).codes = s.codes := rfl
@[simp] theorem modStk_recs (k : Nat) (f : Reg → Reg) : (modStk s k f).recs = s.recs := rfl
@[simp] theorem modStk_stk (k : Nat) (f : Reg → Reg) : (modStk s k f).stk = s.stk := rfl
@[simp] theorem modStk_pwr (k : Nat) (f : Reg → Reg) : (modStk s k f).pwr = s.pwr := rfl
@[simp] theorem modStk_hif (k : Nat) (f : Reg → Reg) : (modStk s k f).hif = s.hif := rfl
@[simp] theorem modStk_out (k : Nat) (f : Reg → Reg) : (modStk s k f).out = s.out := rfl
@[simp] theorem modStk_fresh (k : Nat) (f : Reg → Reg) : (modStk s k f).fresh = s.fresh := rfl
@[simp] theorem modNet_pending (h : Nat) (f : HNet → HNet) : (modNet s h f).pending = s.pending := rfl
@[simp] theorem modNet_cyc (h : Nat) (f : HNet → HNet) : (modNet s h f).cyc = s.cyc := rfl
@[simp] theorem modNet_anchor0 (h : Nat) (f : HNet → HNet) : (modNet s h f).anchor0 = s.anchor0 := rfl
@[simp] theorem modNet_anchor1 (h : Nat) (f : HNet → HNet) : (modNet s h f).anchor1 = s.anchor1 := rfl
@[simp] theorem modNet_tiles (h : Nat) (f : HNet → HNet) : (modNet s h f).tiles = s.tiles := rfl
@[simp] theorem modNet_ports (h : Nat) (f : HNet → HNet) : (modNet s h f).ports = s.ports := rfl
@[simp] theorem modNet_queues (h : Nat) (f : HNet → HNet) : (modNet s h f).queues = s.queues := rfl
@[simp] theorem modNet_hobs (h : Nat) (f : HNet → HNet) : (modNet s h f).hobs = s.hobs := rfl
@[simp] theorem modNet_counters (h : Nat) (f : HNet → HNet) : (modNet s h f).counters = s.counters := rfl
@[simp] theorem modNet_flights (h : Nat) (f : HNet → HNet) : (modNet s h f).flights = s.flights := rfl
@[simp] theorem modNet_claims (h : Nat) (f : HNet → HNet) : (modNet s h f).claims = s.claims := rfl
@[simp] theorem modNet_lnk (h : Nat) (f : HNet → HNet) : (modNet s h f).lnk = s.lnk := rfl
@[simp] theorem modNet_tmp (h : Nat) (f : HNet → HNet) : (modNet s h f).tmp = s.tmp := rfl
@[simp] theorem modNet_lgr (h : Nat) (f : HNet → HNet) : (modNet s h f).lgr = s.lgr := rfl
@[simp] theorem modNet_mem (h : Nat) (f : HNet → HNet) : (modNet s h f).mem = s.mem := rfl
@[simp] theorem modNet_poison (h : Nat) (f : HNet → HNet) : (modNet s h f).poison = s.poison := rfl
@[simp] theorem modNet_codes (h : Nat) (f : HNet → HNet) : (modNet s h f).codes = s.codes := rfl
@[simp] theorem modNet_msys (h : Nat) (f : HNet → HNet) : (modNet s h f).msys = s.msys := rfl
@[simp] theorem modNet_recs (h : Nat) (f : HNet → HNet) : (modNet s h f).recs = s.recs := rfl
@[simp] theorem modNet_stk (h : Nat) (f : HNet → HNet) : (modNet s h f).stk = s.stk := rfl
@[simp] theorem modNet_pwr (h : Nat) (f : HNet → HNet) : (modNet s h f).pwr = s.pwr := rfl
@[simp] theorem modNet_hif (h : Nat) (f : HNet → HNet) : (modNet s h f).hif = s.hif := rfl
@[simp] theorem modNet_out (h : Nat) (f : HNet → HNet) : (modNet s h f).out = s.out := rfl
@[simp] theorem modNet_fresh (h : Nat) (f : HNet → HNet) : (modNet s h f).fresh = s.fresh := rfl
@[simp] theorem modRun_pending (h : Nat) (f : HRun → HRun) : (modRun s h f).pending = s.pending := rfl
@[simp] theorem modRun_cyc (h : Nat) (f : HRun → HRun) : (modRun s h f).cyc = s.cyc := rfl
@[simp] theorem modRun_anchor0 (h : Nat) (f : HRun → HRun) : (modRun s h f).anchor0 = s.anchor0 := rfl
@[simp] theorem modRun_anchor1 (h : Nat) (f : HRun → HRun) : (modRun s h f).anchor1 = s.anchor1 := rfl
@[simp] theorem modRun_tiles (h : Nat) (f : HRun → HRun) : (modRun s h f).tiles = s.tiles := rfl
@[simp] theorem modRun_ports (h : Nat) (f : HRun → HRun) : (modRun s h f).ports = s.ports := rfl
@[simp] theorem modRun_queues (h : Nat) (f : HRun → HRun) : (modRun s h f).queues = s.queues := rfl
@[simp] theorem modRun_hobs (h : Nat) (f : HRun → HRun) : (modRun s h f).hobs = s.hobs := rfl
@[simp] theorem modRun_counters (h : Nat) (f : HRun → HRun) : (modRun s h f).counters = s.counters := rfl
@[simp] theorem modRun_flights (h : Nat) (f : HRun → HRun) : (modRun s h f).flights = s.flights := rfl
@[simp] theorem modRun_claims (h : Nat) (f : HRun → HRun) : (modRun s h f).claims = s.claims := rfl
@[simp] theorem modRun_lnk (h : Nat) (f : HRun → HRun) : (modRun s h f).lnk = s.lnk := rfl
@[simp] theorem modRun_tmp (h : Nat) (f : HRun → HRun) : (modRun s h f).tmp = s.tmp := rfl
@[simp] theorem modRun_lgr (h : Nat) (f : HRun → HRun) : (modRun s h f).lgr = s.lgr := rfl
@[simp] theorem modRun_mem (h : Nat) (f : HRun → HRun) : (modRun s h f).mem = s.mem := rfl
@[simp] theorem modRun_poison (h : Nat) (f : HRun → HRun) : (modRun s h f).poison = s.poison := rfl
@[simp] theorem modRun_codes (h : Nat) (f : HRun → HRun) : (modRun s h f).codes = s.codes := rfl
@[simp] theorem modRun_msys (h : Nat) (f : HRun → HRun) : (modRun s h f).msys = s.msys := rfl
@[simp] theorem modRun_recs (h : Nat) (f : HRun → HRun) : (modRun s h f).recs = s.recs := rfl
@[simp] theorem modRun_stk (h : Nat) (f : HRun → HRun) : (modRun s h f).stk = s.stk := rfl
@[simp] theorem modRun_pwr (h : Nat) (f : HRun → HRun) : (modRun s h f).pwr = s.pwr := rfl
@[simp] theorem modRun_hif (h : Nat) (f : HRun → HRun) : (modRun s h f).hif = s.hif := rfl
@[simp] theorem modRun_out (h : Nat) (f : HRun → HRun) : (modRun s h f).out = s.out := rfl
@[simp] theorem modRun_fresh (h : Nat) (f : HRun → HRun) : (modRun s h f).fresh = s.fresh := rfl
@[simp] theorem modChk_pending (h : Nat) (f : HChk → HChk) : (modChk s h f).pending = s.pending := rfl
@[simp] theorem modChk_cyc (h : Nat) (f : HChk → HChk) : (modChk s h f).cyc = s.cyc := rfl
@[simp] theorem modChk_anchor0 (h : Nat) (f : HChk → HChk) : (modChk s h f).anchor0 = s.anchor0 := rfl
@[simp] theorem modChk_anchor1 (h : Nat) (f : HChk → HChk) : (modChk s h f).anchor1 = s.anchor1 := rfl
@[simp] theorem modChk_tiles (h : Nat) (f : HChk → HChk) : (modChk s h f).tiles = s.tiles := rfl
@[simp] theorem modChk_ports (h : Nat) (f : HChk → HChk) : (modChk s h f).ports = s.ports := rfl
@[simp] theorem modChk_queues (h : Nat) (f : HChk → HChk) : (modChk s h f).queues = s.queues := rfl
@[simp] theorem modChk_hobs (h : Nat) (f : HChk → HChk) : (modChk s h f).hobs = s.hobs := rfl
@[simp] theorem modChk_counters (h : Nat) (f : HChk → HChk) : (modChk s h f).counters = s.counters := rfl
@[simp] theorem modChk_flights (h : Nat) (f : HChk → HChk) : (modChk s h f).flights = s.flights := rfl
@[simp] theorem modChk_claims (h : Nat) (f : HChk → HChk) : (modChk s h f).claims = s.claims := rfl
@[simp] theorem modChk_lnk (h : Nat) (f : HChk → HChk) : (modChk s h f).lnk = s.lnk := rfl
@[simp] theorem modChk_tmp (h : Nat) (f : HChk → HChk) : (modChk s h f).tmp = s.tmp := rfl
@[simp] theorem modChk_lgr (h : Nat) (f : HChk → HChk) : (modChk s h f).lgr = s.lgr := rfl
@[simp] theorem modChk_mem (h : Nat) (f : HChk → HChk) : (modChk s h f).mem = s.mem := rfl
@[simp] theorem modChk_poison (h : Nat) (f : HChk → HChk) : (modChk s h f).poison = s.poison := rfl
@[simp] theorem modChk_codes (h : Nat) (f : HChk → HChk) : (modChk s h f).codes = s.codes := rfl
@[simp] theorem modChk_msys (h : Nat) (f : HChk → HChk) : (modChk s h f).msys = s.msys := rfl
@[simp] theorem modChk_recs (h : Nat) (f : HChk → HChk) : (modChk s h f).recs = s.recs := rfl
@[simp] theorem modChk_stk (h : Nat) (f : HChk → HChk) : (modChk s h f).stk = s.stk := rfl
@[simp] theorem modChk_pwr (h : Nat) (f : HChk → HChk) : (modChk s h f).pwr = s.pwr := rfl
@[simp] theorem modChk_hif (h : Nat) (f : HChk → HChk) : (modChk s h f).hif = s.hif := rfl
@[simp] theorem modChk_out (h : Nat) (f : HChk → HChk) : (modChk s h f).out = s.out := rfl
@[simp] theorem modChk_fresh (h : Nat) (f : HChk → HChk) : (modChk s h f).fresh = s.fresh := rfl
@[simp] theorem modMem_pending (h : Nat) (f : HMem → HMem) : (modMem s h f).pending = s.pending := rfl
@[simp] theorem modMem_cyc (h : Nat) (f : HMem → HMem) : (modMem s h f).cyc = s.cyc := rfl
@[simp] theorem modMem_anchor0 (h : Nat) (f : HMem → HMem) : (modMem s h f).anchor0 = s.anchor0 := rfl
@[simp] theorem modMem_anchor1 (h : Nat) (f : HMem → HMem) : (modMem s h f).anchor1 = s.anchor1 := rfl
@[simp] theorem modMem_tiles (h : Nat) (f : HMem → HMem) : (modMem s h f).tiles = s.tiles := rfl
@[simp] theorem modMem_ports (h : Nat) (f : HMem → HMem) : (modMem s h f).ports = s.ports := rfl
@[simp] theorem modMem_queues (h : Nat) (f : HMem → HMem) : (modMem s h f).queues = s.queues := rfl
@[simp] theorem modMem_hobs (h : Nat) (f : HMem → HMem) : (modMem s h f).hobs = s.hobs := rfl
@[simp] theorem modMem_counters (h : Nat) (f : HMem → HMem) : (modMem s h f).counters = s.counters := rfl
@[simp] theorem modMem_flights (h : Nat) (f : HMem → HMem) : (modMem s h f).flights = s.flights := rfl
@[simp] theorem modMem_claims (h : Nat) (f : HMem → HMem) : (modMem s h f).claims = s.claims := rfl
@[simp] theorem modMem_lnk (h : Nat) (f : HMem → HMem) : (modMem s h f).lnk = s.lnk := rfl
@[simp] theorem modMem_tmp (h : Nat) (f : HMem → HMem) : (modMem s h f).tmp = s.tmp := rfl
@[simp] theorem modMem_lgr (h : Nat) (f : HMem → HMem) : (modMem s h f).lgr = s.lgr := rfl
@[simp] theorem modMem_mem (h : Nat) (f : HMem → HMem) : (modMem s h f).mem = s.mem := rfl
@[simp] theorem modMem_poison (h : Nat) (f : HMem → HMem) : (modMem s h f).poison = s.poison := rfl
@[simp] theorem modMem_codes (h : Nat) (f : HMem → HMem) : (modMem s h f).codes = s.codes := rfl
@[simp] theorem modMem_msys (h : Nat) (f : HMem → HMem) : (modMem s h f).msys = s.msys := rfl
@[simp] theorem modMem_recs (h : Nat) (f : HMem → HMem) : (modMem s h f).recs = s.recs := rfl
@[simp] theorem modMem_stk (h : Nat) (f : HMem → HMem) : (modMem s h f).stk = s.stk := rfl
@[simp] theorem modMem_pwr (h : Nat) (f : HMem → HMem) : (modMem s h f).pwr = s.pwr := rfl
@[simp] theorem modMem_hif (h : Nat) (f : HMem → HMem) : (modMem s h f).hif = s.hif := rfl
@[simp] theorem modMem_out (h : Nat) (f : HMem → HMem) : (modMem s h f).out = s.out := rfl
@[simp] theorem modMem_fresh (h : Nat) (f : HMem → HMem) : (modMem s h f).fresh = s.fresh := rfl
@[simp] theorem modBlw_pending (t : Nat) (f : Bellows → Bellows) : (modBlw s t f).pending = s.pending := rfl
@[simp] theorem modBlw_cyc (t : Nat) (f : Bellows → Bellows) : (modBlw s t f).cyc = s.cyc := rfl
@[simp] theorem modBlw_anchor0 (t : Nat) (f : Bellows → Bellows) : (modBlw s t f).anchor0 = s.anchor0 := rfl
@[simp] theorem modBlw_anchor1 (t : Nat) (f : Bellows → Bellows) : (modBlw s t f).anchor1 = s.anchor1 := rfl
@[simp] theorem modBlw_hearths (t : Nat) (f : Bellows → Bellows) : (modBlw s t f).hearths = s.hearths := rfl
@[simp] theorem modBlw_ports (t : Nat) (f : Bellows → Bellows) : (modBlw s t f).ports = s.ports := rfl
@[simp] theorem modBlw_queues (t : Nat) (f : Bellows → Bellows) : (modBlw s t f).queues = s.queues := rfl
@[simp] theorem modBlw_hobs (t : Nat) (f : Bellows → Bellows) : (modBlw s t f).hobs = s.hobs := rfl
@[simp] theorem modBlw_counters (t : Nat) (f : Bellows → Bellows) : (modBlw s t f).counters = s.counters := rfl
@[simp] theorem modBlw_flights (t : Nat) (f : Bellows → Bellows) : (modBlw s t f).flights = s.flights := rfl
@[simp] theorem modBlw_claims (t : Nat) (f : Bellows → Bellows) : (modBlw s t f).claims = s.claims := rfl
@[simp] theorem modBlw_lnk (t : Nat) (f : Bellows → Bellows) : (modBlw s t f).lnk = s.lnk := rfl
@[simp] theorem modBlw_tmp (t : Nat) (f : Bellows → Bellows) : (modBlw s t f).tmp = s.tmp := rfl
@[simp] theorem modBlw_lgr (t : Nat) (f : Bellows → Bellows) : (modBlw s t f).lgr = s.lgr := rfl
@[simp] theorem modBlw_mem (t : Nat) (f : Bellows → Bellows) : (modBlw s t f).mem = s.mem := rfl
@[simp] theorem modBlw_poison (t : Nat) (f : Bellows → Bellows) : (modBlw s t f).poison = s.poison := rfl
@[simp] theorem modBlw_codes (t : Nat) (f : Bellows → Bellows) : (modBlw s t f).codes = s.codes := rfl
@[simp] theorem modBlw_msys (t : Nat) (f : Bellows → Bellows) : (modBlw s t f).msys = s.msys := rfl
@[simp] theorem modBlw_recs (t : Nat) (f : Bellows → Bellows) : (modBlw s t f).recs = s.recs := rfl
@[simp] theorem modBlw_stk (t : Nat) (f : Bellows → Bellows) : (modBlw s t f).stk = s.stk := rfl
@[simp] theorem modBlw_pwr (t : Nat) (f : Bellows → Bellows) : (modBlw s t f).pwr = s.pwr := rfl
@[simp] theorem modBlw_hif (t : Nat) (f : Bellows → Bellows) : (modBlw s t f).hif = s.hif := rfl
@[simp] theorem modBlw_out (t : Nat) (f : Bellows → Bellows) : (modBlw s t f).out = s.out := rfl
@[simp] theorem modBlw_fresh (t : Nat) (f : Bellows → Bellows) : (modBlw s t f).fresh = s.fresh := rfl
@[simp] theorem modVec_pending (t : Nat) (f : Vec → Vec) : (modVec s t f).pending = s.pending := rfl
@[simp] theorem modVec_cyc (t : Nat) (f : Vec → Vec) : (modVec s t f).cyc = s.cyc := rfl
@[simp] theorem modVec_anchor0 (t : Nat) (f : Vec → Vec) : (modVec s t f).anchor0 = s.anchor0 := rfl
@[simp] theorem modVec_anchor1 (t : Nat) (f : Vec → Vec) : (modVec s t f).anchor1 = s.anchor1 := rfl
@[simp] theorem modVec_hearths (t : Nat) (f : Vec → Vec) : (modVec s t f).hearths = s.hearths := rfl
@[simp] theorem modVec_ports (t : Nat) (f : Vec → Vec) : (modVec s t f).ports = s.ports := rfl
@[simp] theorem modVec_queues (t : Nat) (f : Vec → Vec) : (modVec s t f).queues = s.queues := rfl
@[simp] theorem modVec_hobs (t : Nat) (f : Vec → Vec) : (modVec s t f).hobs = s.hobs := rfl
@[simp] theorem modVec_counters (t : Nat) (f : Vec → Vec) : (modVec s t f).counters = s.counters := rfl
@[simp] theorem modVec_flights (t : Nat) (f : Vec → Vec) : (modVec s t f).flights = s.flights := rfl
@[simp] theorem modVec_claims (t : Nat) (f : Vec → Vec) : (modVec s t f).claims = s.claims := rfl
@[simp] theorem modVec_lnk (t : Nat) (f : Vec → Vec) : (modVec s t f).lnk = s.lnk := rfl
@[simp] theorem modVec_tmp (t : Nat) (f : Vec → Vec) : (modVec s t f).tmp = s.tmp := rfl
@[simp] theorem modVec_lgr (t : Nat) (f : Vec → Vec) : (modVec s t f).lgr = s.lgr := rfl
@[simp] theorem modVec_mem (t : Nat) (f : Vec → Vec) : (modVec s t f).mem = s.mem := rfl
@[simp] theorem modVec_poison (t : Nat) (f : Vec → Vec) : (modVec s t f).poison = s.poison := rfl
@[simp] theorem modVec_codes (t : Nat) (f : Vec → Vec) : (modVec s t f).codes = s.codes := rfl
@[simp] theorem modVec_msys (t : Nat) (f : Vec → Vec) : (modVec s t f).msys = s.msys := rfl
@[simp] theorem modVec_recs (t : Nat) (f : Vec → Vec) : (modVec s t f).recs = s.recs := rfl
@[simp] theorem modVec_stk (t : Nat) (f : Vec → Vec) : (modVec s t f).stk = s.stk := rfl
@[simp] theorem modVec_pwr (t : Nat) (f : Vec → Vec) : (modVec s t f).pwr = s.pwr := rfl
@[simp] theorem modVec_hif (t : Nat) (f : Vec → Vec) : (modVec s t f).hif = s.hif := rfl
@[simp] theorem modVec_out (t : Nat) (f : Vec → Vec) : (modVec s t f).out = s.out := rfl
@[simp] theorem modVec_fresh (t : Nat) (f : Vec → Vec) : (modVec s t f).fresh = s.fresh := rfl
@[simp] theorem modMisc_pending (t : Nat) (f : TileMisc → TileMisc) : (modMisc s t f).pending = s.pending := rfl
@[simp] theorem modMisc_cyc (t : Nat) (f : TileMisc → TileMisc) : (modMisc s t f).cyc = s.cyc := rfl
@[simp] theorem modMisc_anchor0 (t : Nat) (f : TileMisc → TileMisc) : (modMisc s t f).anchor0 = s.anchor0 := rfl
@[simp] theorem modMisc_anchor1 (t : Nat) (f : TileMisc → TileMisc) : (modMisc s t f).anchor1 = s.anchor1 := rfl
@[simp] theorem modMisc_hearths (t : Nat) (f : TileMisc → TileMisc) : (modMisc s t f).hearths = s.hearths := rfl
@[simp] theorem modMisc_ports (t : Nat) (f : TileMisc → TileMisc) : (modMisc s t f).ports = s.ports := rfl
@[simp] theorem modMisc_queues (t : Nat) (f : TileMisc → TileMisc) : (modMisc s t f).queues = s.queues := rfl
@[simp] theorem modMisc_hobs (t : Nat) (f : TileMisc → TileMisc) : (modMisc s t f).hobs = s.hobs := rfl
@[simp] theorem modMisc_counters (t : Nat) (f : TileMisc → TileMisc) : (modMisc s t f).counters = s.counters := rfl
@[simp] theorem modMisc_flights (t : Nat) (f : TileMisc → TileMisc) : (modMisc s t f).flights = s.flights := rfl
@[simp] theorem modMisc_claims (t : Nat) (f : TileMisc → TileMisc) : (modMisc s t f).claims = s.claims := rfl
@[simp] theorem modMisc_lnk (t : Nat) (f : TileMisc → TileMisc) : (modMisc s t f).lnk = s.lnk := rfl
@[simp] theorem modMisc_tmp (t : Nat) (f : TileMisc → TileMisc) : (modMisc s t f).tmp = s.tmp := rfl
@[simp] theorem modMisc_lgr (t : Nat) (f : TileMisc → TileMisc) : (modMisc s t f).lgr = s.lgr := rfl
@[simp] theorem modMisc_mem (t : Nat) (f : TileMisc → TileMisc) : (modMisc s t f).mem = s.mem := rfl
@[simp] theorem modMisc_poison (t : Nat) (f : TileMisc → TileMisc) : (modMisc s t f).poison = s.poison := rfl
@[simp] theorem modMisc_codes (t : Nat) (f : TileMisc → TileMisc) : (modMisc s t f).codes = s.codes := rfl
@[simp] theorem modMisc_msys (t : Nat) (f : TileMisc → TileMisc) : (modMisc s t f).msys = s.msys := rfl
@[simp] theorem modMisc_recs (t : Nat) (f : TileMisc → TileMisc) : (modMisc s t f).recs = s.recs := rfl
@[simp] theorem modMisc_stk (t : Nat) (f : TileMisc → TileMisc) : (modMisc s t f).stk = s.stk := rfl
@[simp] theorem modMisc_pwr (t : Nat) (f : TileMisc → TileMisc) : (modMisc s t f).pwr = s.pwr := rfl
@[simp] theorem modMisc_hif (t : Nat) (f : TileMisc → TileMisc) : (modMisc s t f).hif = s.hif := rfl
@[simp] theorem modMisc_out (t : Nat) (f : TileMisc → TileMisc) : (modMisc s t f).out = s.out := rfl
@[simp] theorem modMisc_fresh (t : Nat) (f : TileMisc → TileMisc) : (modMisc s t f).fresh = s.fresh := rfl
@[simp] theorem setFn_pending (k st : Nat) : (setFn s k st).pending = s.pending := rfl
@[simp] theorem setFn_cyc (k st : Nat) : (setFn s k st).cyc = s.cyc := rfl
@[simp] theorem setFn_anchor0 (k st : Nat) : (setFn s k st).anchor0 = s.anchor0 := rfl
@[simp] theorem setFn_anchor1 (k st : Nat) : (setFn s k st).anchor1 = s.anchor1 := rfl
@[simp] theorem setFn_tiles (k st : Nat) : (setFn s k st).tiles = s.tiles := rfl
@[simp] theorem setFn_hearths (k st : Nat) : (setFn s k st).hearths = s.hearths := rfl
@[simp] theorem setFn_ports (k st : Nat) : (setFn s k st).ports = s.ports := rfl
@[simp] theorem setFn_queues (k st : Nat) : (setFn s k st).queues = s.queues := rfl
@[simp] theorem setFn_hobs (k st : Nat) : (setFn s k st).hobs = s.hobs := rfl
@[simp] theorem setFn_counters (k st : Nat) : (setFn s k st).counters = s.counters := rfl
@[simp] theorem setFn_flights (k st : Nat) : (setFn s k st).flights = s.flights := rfl
@[simp] theorem setFn_claims (k st : Nat) : (setFn s k st).claims = s.claims := rfl
@[simp] theorem setFn_lnk (k st : Nat) : (setFn s k st).lnk = s.lnk := rfl
@[simp] theorem setFn_tmp (k st : Nat) : (setFn s k st).tmp = s.tmp := rfl
@[simp] theorem setFn_lgr (k st : Nat) : (setFn s k st).lgr = s.lgr := rfl
@[simp] theorem setFn_mem (k st : Nat) : (setFn s k st).mem = s.mem := rfl
@[simp] theorem setFn_poison (k st : Nat) : (setFn s k st).poison = s.poison := rfl
@[simp] theorem setFn_codes (k st : Nat) : (setFn s k st).codes = s.codes := rfl
@[simp] theorem setFn_msys (k st : Nat) : (setFn s k st).msys = s.msys := rfl
@[simp] theorem setFn_recs (k st : Nat) : (setFn s k st).recs = s.recs := rfl
@[simp] theorem setFn_stk (k st : Nat) : (setFn s k st).stk = s.stk := rfl
@[simp] theorem setFn_hif (k st : Nat) : (setFn s k st).hif = s.hif := rfl
@[simp] theorem setFn_out (k st : Nat) : (setFn s k st).out = s.out := rfl
@[simp] theorem setFn_fresh (k st : Nat) : (setFn s k st).fresh = s.fresh := rfl
@[simp] theorem modTile_tiles (t : Nat) (f : Tile → Tile) : (modTile s t f).tiles = vmod s.tiles t f := rfl
@[simp] theorem modHearth_hearths (h : Nat) (f : Hearth → Hearth) : (modHearth s h f).hearths = vmod s.hearths h f := rfl
@[simp] theorem modPort_ports (p : Nat) (f : Port → Port) : (modPort s p f).ports = vmod s.ports p f := rfl
@[simp] theorem modQueue_queues (q : Nat) (f : WorkQ → WorkQ) : (modQueue s q f).queues = vmod s.queues q f := rfl
@[simp] theorem emit_out (o : Output) : (emit s o).out = o :: s.out := rfl
@[simp] theorem modPwr_pwr (f : Power → Power) : (modPwr s f).pwr = f s.pwr := rfl
@[simp] theorem modLgr_lgr (f : Ledger → Ledger) : (modLgr s f).lgr = f s.lgr := rfl
@[simp] theorem modStoker_stk (f : Stoker → Stoker) : (modStoker s f).stk = f s.stk := rfl
@[simp] theorem setTmp_tmp (f : Temper → Temper) : (setTmp s f).tmp = f s.tmp := rfl

end Sys2Proof.Machine
end

