-- ==== Sys2Proof/Laws/Memory.lean ====
section
/-! SUPPORT. Memory: reading after writing, and that every memory operation keeps the canonical form. -/

namespace Sys2Proof.Machine

/-- The cells of bytes lie in their range and hold no zero. -/
theorem cellsOf_bounds (bs : List Byte) : ∀ (a : Nat) (c : Host.Cell), c ∈ cellsOf a bs → a ≤ c.1 ∧ c.1 < a + bs.length ∧ c.2 ≠ 0 := by
  induction bs with
  | nil => intro a c h; simp [cellsOf] at h
  | cons b bs ih =>
    intro a c h
    unfold cellsOf at h
    split at h
    · have := ih (a + 1) c h
      simp only [List.length_cons]; exact ⟨by omega, by omega, this.2.2⟩
    · rcases List.mem_cons.1 h with rfl | h
      · simp only [List.length_cons]; exact ⟨le_refl _, by omega, by assumption⟩
      · have := ih (a + 1) c h
        simp only [List.length_cons]; exact ⟨by omega, by omega, this.2.2⟩

theorem cellsOf_sorted (bs : List Byte) : ∀ a, (cellsOf a bs).Pairwise (fun x y => x.1 < y.1) := by
  induction bs with
  | nil => intro a; simp [cellsOf]
  | cons b bs ih =>
    intro a
    unfold cellsOf
    split
    · exact ih _
    · refine List.pairwise_cons.2 ⟨fun c hc => ?_, ih _⟩
      have := cellsOf_bounds bs (a + 1) c hc
      show a < c.1; omega

/-- Every memory operation keeps the canonical form. -/
theorem writeMem_wf {m : List Host.Cell} (h : memWf m) (a : Nat) (bs : List Byte) : memWf (writeMem m a bs) := by
  refine ⟨?_, ?_⟩
  · unfold writeMem
    refine List.pairwise_append.2 ⟨List.pairwise_append.2 ⟨h.1.filter _, cellsOf_sorted bs a, ?_⟩, h.1.filter _, ?_⟩
    · intro x hx y hy
      have h1 := of_decide_eq_true (List.mem_filter.1 hx).2
      have h2 := cellsOf_bounds bs a y hy
      omega
    · intro x hx y hy
      have h2 := of_decide_eq_true (List.mem_filter.1 hy).2
      rcases List.mem_append.1 hx with hx | hx
      · have h1 := of_decide_eq_true (List.mem_filter.1 hx).2; omega
      · have h1 := cellsOf_bounds bs a x hx; omega
  · intro c hc
    unfold writeMem at hc
    rcases List.mem_append.1 hc with hc | hc
    · rcases List.mem_append.1 hc with hc | hc
      · exact h.2 c (List.mem_filter.1 hc).1
      · exact (cellsOf_bounds bs a c hc).2.2
    · exact h.2 c (List.mem_filter.1 hc).1

theorem zeroMem_wf {m : List Host.Cell} (h : memWf m) (a n : Nat) : memWf (zeroMem m a n) :=
  ⟨h.1.filter _, fun c hc => h.2 c (List.mem_filter.1 hc).1⟩

/-- An address that no cell has reads as the default. -/
theorem look_none {α : Type} (l : List (Nat × α)) (k : Nat) (d : α) (h : ∀ c ∈ l, c.1 ≠ k) : look l k d = d := by
  induction l with
  | nil => rfl
  | cons x l ih =>
    obtain ⟨j, y⟩ := x
    have hj : j ≠ k := h (j, y) (by simp)
    simp only [look, hj, if_false]
    exact ih (fun c hc => h c (by simp [hc]))

theorem look_append {α : Type} (l r : List (Nat × α)) (k : Nat) (d : α) : look (l ++ r) k d = look l k (look r k d) := by
  induction l with
  | nil => rfl
  | cons x l ih =>
    obtain ⟨j, y⟩ := x
    simp only [List.cons_append, look]
    split
    · rfl
    · exact ih

/-- A filter on keys changes no key that it keeps. -/
theorem look_filter {α : Type} (p : Nat → Bool) (l : List (Nat × α)) (k : Nat) (d : α) (h : p k = true) :
    look (l.filter (fun c => p c.1)) k d = look l k d := by
  induction l with
  | nil => rfl
  | cons x l ih =>
    obtain ⟨j, y⟩ := x
    by_cases hp : p j = true
    · simp only [List.filter_cons, hp, if_true, look]; split
      · rfl
      · exact ih
    · have hj : j ≠ k := fun e => hp (e ▸ h)
      simp only [List.filter_cons, hp, look, hj, if_false, Bool.false_eq_true]
      exact ih

theorem look_cellsOf (bs : List Byte) : ∀ (a b : Nat), a ≤ b → b < a + bs.length → look (cellsOf a bs) b 0 = bs.getD (b - a) 0 := by
  induction bs with
  | nil => intro a b h1 h2; simp at h2; omega
  | cons x bs ih =>
    intro a b h1 h2
    simp only [List.length_cons] at h2
    unfold cellsOf
    by_cases e : a = b
    · subst e
      split
      · rename_i hx
        rw [look_none]
        · simp [hx]
        · intro c hc; have := cellsOf_bounds bs (a + 1) c hc; omega
      · simp [look]
    · have hb : b - a = (b - (a + 1)) + 1 := by omega
      rw [hb, List.getD_cons_succ, ← ih (a + 1) b (by omega) (by omega)]
      split
      · rfl
      · simp [look, e]

/-- A byte read after bytes were written. -/
theorem readByte_writeMem (m : List Host.Cell) (a : Nat) (bs : List Byte) (b : Nat) :
    readByte (writeMem m a bs) b = if a ≤ b ∧ b < a + bs.length then bs.getD (b - a) 0 else readByte m b := by
  unfold readByte writeMem
  rw [look_append, look_append]
  split
  · rename_i h
    rw [look_none (m.filter _) b]
    · rw [look_none (m.filter _) b]
      · exact look_cellsOf bs a b h.1 h.2
      · intro c hc; have := of_decide_eq_true (List.mem_filter.1 hc).2; omega
    · intro c hc; have := of_decide_eq_true (List.mem_filter.1 hc).2; omega
  · rename_i h
    rcases Nat.lt_or_ge b a with hb | hb
    · rw [look_none (cellsOf a bs) b, look_none (m.filter (fun c => decide (a + bs.length ≤ c.1))) b]
      · exact look_filter (fun k => decide (k < a)) m b 0 (by simpa using hb)
      · intro c hc; have := of_decide_eq_true (List.mem_filter.1 hc).2; omega
      · intro c hc; have := cellsOf_bounds bs a c hc; omega
    · rw [look_none (m.filter _) b, look_none (cellsOf a bs) b]
      · exact look_filter (fun k => decide (a + bs.length ≤ k)) m b 0 (by simp; omega)
      · intro c hc; have := cellsOf_bounds bs a c hc; omega
      · intro c hc; have := of_decide_eq_true (List.mem_filter.1 hc).2; omega

theorem readByte_zeroMem (m : List Host.Cell) (a n b : Nat) :
    readByte (zeroMem m a n) b = if a ≤ b ∧ b < a + n then 0 else readByte m b := by
  unfold readByte zeroMem
  split
  · rename_i h
    apply look_none
    intro c hc
    have := (List.mem_filter.1 hc).2
    simp at this; omega
  · rename_i h
    exact look_filter (fun k => decide (k < a) || decide (a + n ≤ k)) m b 0 (by simp; omega)

/-! ### Poison -/

theorem insSet_sorted (k : Nat) (l : List Nat) (h : l.Pairwise (· < ·)) : (insSet k l).Pairwise (· < ·) ∧ ∀ x ∈ insSet k l, x = k ∨ x ∈ l := by
  induction l with
  | nil => simp [insSet]
  | cons x l ih =>
    have hx := List.pairwise_cons.1 h
    unfold insSet
    split
    · rename_i hk
      refine ⟨List.pairwise_cons.2 ⟨fun y hy => ?_, h⟩, by simp⟩
      rcases List.mem_cons.1 hy with rfl | hy
      · exact hk
      · exact Nat.lt_trans hk (hx.1 y hy)
    · split
      · exact ⟨h, fun y hy => Or.inr hy⟩
      · rename_i h1 h2
        obtain ⟨i1, i2⟩ := ih hx.2
        refine ⟨List.pairwise_cons.2 ⟨fun y hy => ?_, i1⟩, fun y hy => ?_⟩
        · rcases i2 y hy with rfl | hy
          · omega
          · exact hx.1 y hy
        · rcases List.mem_cons.1 hy with rfl | hy
          · simp
          · rcases i2 y hy with rfl | hy <;> simp [*]

theorem insAll_sorted (ks : List Nat) : ∀ l : List Nat, l.Pairwise (· < ·) → (ks.foldl (fun p k => insSet k p) l).Pairwise (· < ·) := by
  induction ks with
  | nil => intro l h; exact h
  | cons k ks ih => intro l h; exact ih _ (insSet_sorted k l h).1

/-! ### The operations that write memory keep the invariant -/

theorem storeAt_inv {s : State} (h : Inv s) (a : Nat) (bs : List Byte) (src : List Nat) : Inv (storeAt s a bs src) :=
  ⟨writeMem_wf h.1 a bs, insAll_sorted src _ (h.2.filter _)⟩

theorem store_inv {s : State} (h : Inv s) (a : Nat) (bs : List Byte) (src : List Nat) : Inv (store s a bs src) := by
  unfold store
  split
  · simp only
    split
    · exact storeAt_inv (storeAt_inv h _ _ _) _ _ _
    · exact storeAt_inv h _ _ _
  · exact storeAt_inv h _ _ _

theorem zeroRange_inv {s : State} (h : Inv s) (a n : Nat) : Inv (zeroRange s a n) :=
  ⟨zeroMem_wf h.1 a n, h.2.filter _⟩

/-- What is not memory or poison decides nothing about the invariant. -/
theorem inv_congr {s n : State} (hm : n.mem = s.mem) (hp : n.poison = s.poison) (h : Inv s) : Inv n := by
  unfold Inv at *; rw [hm, hp]; exact h

end Sys2Proof.Machine
end

