-- ==== Sys2Proof/Laws/Frame.lean ====
section
/-! SUPPORT. Frames: `Only` composes, and what the shared operations touch. -/

namespace Sys2Proof

open Machine

theorem Only.refl (ps : List Part) (s : State) : Only ps s s := by
  intro p _; cases p <;> simp [Part.same]

theorem Part.same_trans {p : Part} {s n m : State} (h : p.same s n) (k : p.same n m) : p.same s m := by
  cases p <;> simp_all [Part.same]

theorem Only.trans {ps : List Part} {s n m : State} (h : Only ps s n) (k : Only ps n m) : Only ps s m :=
  fun p hp => Part.same_trans (h p hp) (k p hp)

theorem Only.mono {ps qs : List Part} {s n : State} (h : Only ps s n) (hs : ∀ p ∈ ps, p ∈ qs) : Only qs s n :=
  fun p hp => h p (fun hq => hp (hs p hq))

/-- A loop touches what its body touches. -/
theorem Only.forEach {α : Type} {ps : List Part} (l : List α) (f : α → State → State)
    (h : ∀ x s, Only ps s (f x s)) : ∀ s, Only ps s (Machine.forEach l s f) := by
  induction l with
  | nil => intro s; exact Only.refl ps s
  | cons x l ih => intro s; exact (h x s).trans (ih _)

theorem Only.ite {ps : List Part} {s a b : State} {c : Prop} [Decidable c] (ha : Only ps s a) (hb : Only ps s b) :
    Only ps s (if c then a else b) := by split <;> assumption

/-- One update of one part. -/
theorem only_of_same {ps : List Part} {s n : State} (h : ∀ p, p ∉ ps → p.same s n) : Only ps s n := h

theorem modTile_only (s : State) (t : Nat) (f : Tile → Tile) : Only [.tiles] s (modTile s t f) := by
  intro p hp; cases p <;> simp_all [Part.same]
theorem modHearth_only (s : State) (h : Nat) (f : Hearth → Hearth) : Only [.hearths] s (modHearth s h f) := by
  intro p hp; cases p <;> simp_all [Part.same]
theorem modPort_only (s : State) (k : Nat) (f : Port → Port) : Only [.ports] s (modPort s k f) := by
  intro p hp; cases p <;> simp_all [Part.same]
theorem modQueue_only (s : State) (q : Nat) (f : WorkQ → WorkQ) : Only [.queues] s (modQueue s q f) := by
  intro p hp; cases p <;> simp_all [Part.same]
theorem emit_only (s : State) (o : Output) : Only [.out] s (emit s o) := by
  intro p hp; cases p <;> simp_all [Part.same]
theorem modFn_only (s : State) (k : Nat) (f : HostFn → HostFn) : Only [.hif] s (modFn s k f) := by
  intro p hp; cases p <;> simp_all [Part.same]
theorem modCtr_only (s : State) (c : Nat) (f : Counter → Counter) : Only [.counters] s (modCtr s c f) := by
  intro p hp; cases p <;> simp_all [Part.same]
theorem modPwr_only (s : State) (f : Power → Power) : Only [.pwr] s (modPwr s f) := by
  intro p hp; cases p <;> simp_all [Part.same]
theorem modStoker_only (s : State) (f : Stoker → Stoker) : Only [.stk] s (modStoker s f) := by
  intro p hp; cases p <;> simp_all [Part.same]
theorem setTmp_only (s : State) (f : Temper → Temper) : Only [.tmp] s (setTmp s f) := by
  intro p hp; cases p <;> simp_all [Part.same]
theorem modLgr_only (s : State) (f : Ledger → Ledger) : Only [.lgr] s (modLgr s f) := by
  intro p hp; cases p <;> simp_all [Part.same]

/-! ### Error records -/

theorem hostReq_only (s : State) (f : Nat) : Only [.hif] s (hostReq s f).2 := by
  unfold hostReq
  split
  · exact Only.refl _ _
  · split
    · exact Only.refl _ _
    · exact modFn_only s f _

theorem hostCopy_only (s : State) (f : Nat) (r : Rec) : Only [.hif, .out] s (hostCopy s f r) := by
  unfold hostCopy
  simp only
  split
  · exact Only.refl _ _
  · split
    · exact (hostReq_only s f).mono (by simp)
    · refine ((emit_only s _).mono (by simp)).trans (Only.trans ((modFn_only _ f _).mono (by simp)) ((emit_only _ _).mono (by simp)))

theorem tellHearth_only (s : State) (r : Rec) : Only [.hobs, .hif, .out] s (tellHearth s r) := by
  unfold tellHearth
  simp only
  split
  · refine Only.trans (Only.ite (Only.refl _ _) ((hostCopy_only _ _ _).mono (by simp))) (Only.forEach _ _ (fun c s => ?_) _)
    intro p hp; cases p <;> simp_all [Part.same]
  · exact Only.refl _ _

theorem placeRec_only (s : State) (r : Rec) : Only recParts s (placeRec s r) := by
  have h1 : ∀ q, Only recParts s ({ s with recs := q } : State) := by
    intro q p hp; cases p <;> simp_all [Part.same, recParts]
  exact (h1 _).trans (((hostCopy_only _ _ _).mono (by simp [recParts])).trans ((tellHearth_only _ _).mono (by simp [recParts])))

/-- Raising a record touches the records, what leaves the block, the host rings and the Hob cores' interrupts. -/
theorem raise_only (s : State) (space code detail : Nat) (h : Option Nat) (agent a0 a1 a2 : Nat) (alt : Bool) :
    Only recParts s (raise s space code detail h agent a0 a1 a2 alt) := placeRec_only _ _
theorem raiseWith_only (s : State) (cls sev space code detail : Nat) (h : Option Nat) (agent a0 a1 a2 : Nat) :
    Only recParts s (raiseWith s cls sev space code detail h agent a0 a1 a2) := placeRec_only _ _
theorem misuse_only (s : State) (code : Nat) (a : Agent) (arg : Nat) : Only recParts s (misuse s code a arg) := by
  unfold misuse
  simp only
  split
  · split
    · exact (raise_only s _ _ _ _ _ _ _ _ _).trans (Only.trans ((modFn_only _ _ _).mono (by simp [recParts])) (raise_only _ _ _ _ _ _ _ _ _ _))
    · exact raise_only s _ _ _ _ _ _ _ _ _
  · exact raise_only s _ _ _ _ _ _ _ _ _

end Sys2Proof
end

