-- ==== Sys2Proof/Laws/Units.lean ====
section
/-! SUPPORT. Bit fields after a field is written, vectors after an element is changed, and units after an update. -/

namespace Sys2Proof.Machine

/-! ### Vectors by number -/

theorem vget_vmod {α : Type} {n : Nat} (v : Vector α n) (i j : Nat) (f : α → α) (d : α) :
    vget (vmod v i f) j d = if j = i ∧ i < n then f (vget v i d) else vget v j d := by
  unfold vget vmod
  by_cases h : i < n
  · rw [Vector.getElem?_eq_getElem h]
    simp only [Option.getD_some]
    by_cases e : j = i
    · subst e; simp [h]
    · simp only [e, false_and, if_false, Vector.getElem?_setIfInBounds]
      have : ¬ i = j := fun q => e q.symm
      simp [this]
  · simp only [h, and_false, if_false]
    have : v[i]? = none := Vector.getElem?_eq_none (by omega)
    rw [this]

theorem vget_vput {α : Type} {n : Nat} (v : Vector α n) (i j : Nat) (x d : α) :
    vget (vput v i x) j d = if j = i ∧ i < n then x else vget v j d := by
  unfold vget vput
  rw [Vector.getElem?_setIfInBounds]
  by_cases e : j = i
  · subst e
    by_cases h : j < n
    · simp [h]
    · simp only [h, and_false, if_false, if_true]
      rw [Vector.getElem?_eq_none (by omega)]
  · have : ¬ i = j := fun q => e q.symm
    simp [this, e]

@[simp] theorem vget_vmod_self {α : Type} {n : Nat} (v : Vector α n) (i : Nat) (f : α → α) (d : α) (h : i < n) :
    vget (vmod v i f) i d = f (vget v i d) := by simp [vget_vmod, h]
theorem vget_vmod_ne {α : Type} {n : Nat} (v : Vector α n) (i j : Nat) (f : α → α) (d : α) (h : j ≠ i) :
    vget (vmod v i f) j d = vget v j d := by simp [vget_vmod, h]

/-! ### Units -/

theorem tileAt_modTile (s : State) (t u : Nat) (f : Tile → Tile) :
    tileAt (modTile s t f) u = if u = t ∧ t < 32 then f (tileAt s t) else tileAt s u := vget_vmod _ _ _ _ _
theorem hearthAt_modHearth (s : State) (h k : Nat) (f : Hearth → Hearth) :
    hearthAt (modHearth s h f) k = if k = h ∧ h < 16 then f (hearthAt s h) else hearthAt s k := vget_vmod _ _ _ _ _
theorem portAt_modPort (s : State) (p k : Nat) (f : Port → Port) :
    portAt (modPort s p f) k = if k = p ∧ p < 12 then f (portAt s p) else portAt s k := vget_vmod _ _ _ _ _
theorem queueAt_modQueue (s : State) (q k : Nat) (f : WorkQ → WorkQ) :
    queueAt (modQueue s q f) k = if k = q ∧ q < 256 then f (queueAt s q) else queueAt s k := vget_vmod _ _ _ _ _

@[simp] theorem tileAt_modTile_self (s : State) (t : TileId) (f : Tile → Tile) :
    tileAt (modTile s t.val f) t.val = f (tileAt s t.val) := by simp [tileAt_modTile]
@[simp] theorem hearthAt_modHearth_self (s : State) (h : HearthId) (f : Hearth → Hearth) :
    hearthAt (modHearth s h.val f) h.val = f (hearthAt s h.val) := by simp [hearthAt_modHearth]
@[simp] theorem portAt_modPort_self (s : State) (p : PortId) (f : Port → Port) :
    portAt (modPort s p.val f) p.val = f (portAt s p.val) := by simp [portAt_modPort]
@[simp] theorem queueAt_modQueue_self (s : State) (q : QueueId) (f : WorkQ → WorkQ) :
    queueAt (modQueue s q.val f) q.val = f (queueAt s q.val) := by simp [queueAt_modQueue]

theorem modTile_onlyTile (s : State) (t : Nat) (f : Tile → Tile) : OnlyTile t s (modTile s t f) := by
  intro u hu; simp [tileAt_modTile, hu]
theorem modHearth_onlyHearth (s : State) (h : Nat) (f : Hearth → Hearth) : OnlyHearth h s (modHearth s h f) := by
  intro u hu; simp [hearthAt_modHearth, hu]
theorem modPort_onlyPort (s : State) (p : Nat) (f : Port → Port) : OnlyPort p s (modPort s p f) := by
  intro u hu; simp [portAt_modPort, hu]
theorem modQueue_onlyQueue (s : State) (q : Nat) (f : WorkQ → WorkQ) : OnlyQueue q s (modQueue s q f) := by
  intro u hu; simp [queueAt_modQueue, hu]

theorem OnlyTile.trans {k : Nat} {s n m : State} (h : OnlyTile k s n) (g : OnlyTile k n m) : OnlyTile k s m :=
  fun u hu => (g u hu).trans (h u hu)
theorem OnlyHearth.trans {k : Nat} {s n m : State} (h : OnlyHearth k s n) (g : OnlyHearth k n m) : OnlyHearth k s m :=
  fun u hu => (g u hu).trans (h u hu)

/-! ### Fields -/

theorem fld_eq {n : Nat} (w : BitVec n) (hi lo : Nat) : fld w hi lo = w.toNat / 2 ^ lo % 2 ^ (hi + 1 - lo) := by
  simp [fld, BitVec.extractLsb'_toNat, Nat.shiftRight_eq_div_pow]

theorem ones_bit (n hi lo i : Nat) (hi' : i < n) : (ones n hi lo).getLsbD i = decide (lo ≤ i ∧ i < hi + 1) := by
  unfold ones
  simp only [BitVec.getLsbD_shiftLeft, BitVec.getLsbD_setWidth, BitVec.getLsbD_allOnes]
  by_cases h : lo ≤ i
  · simp only [hi', h, true_and, decide_true, Bool.true_and]
    have e1 : decide (i < lo) = false := by simp; omega
    have e2 : decide (i - lo < n) = true := by simp; omega
    rw [e1, e2]
    simp only [Bool.not_false, Bool.true_and]
    congr 1; simp; omega
  · simp [h]

theorem setFld_bit {n : Nat} (w : BitVec n) (hi lo v i : Nat) (h : i < n) :
    (setFld w hi lo v).getLsbD i = if lo ≤ i ∧ i < hi + 1 then v.testBit (i - lo) else w.getLsbD i := by
  unfold setFld
  simp only [BitVec.getLsbD_or, BitVec.getLsbD_and, BitVec.getLsbD_not, ones_bit n hi lo i h, h, decide_true, Bool.true_and,
    BitVec.getLsbD_shiftLeft, BitVec.getLsbD_ofNat]
  by_cases hl : lo ≤ i ∧ i < hi + 1
  · have e1 : decide (i < lo) = false := by simp; omega
    have e2 : decide (i - lo < n) = true := by simp; omega
    simp [hl, e1, e2]
  · have e : decide (lo ≤ i ∧ i < hi + 1) = false := decide_eq_false hl
    rw [e, if_neg hl]; simp

theorem fld_bit {n : Nat} (w : BitVec n) (hi lo i : Nat) :
    (fld w hi lo).testBit i = (decide (i < hi + 1 - lo) && w.getLsbD (lo + i)) := by
  unfold fld
  rw [← BitVec.getLsbD.eq_1, BitVec.getLsbD_extractLsb']

/-- A field reads as written. -/
theorem fld_setFld {n : Nat} (w : BitVec n) (hi lo v : Nat) (h : hi < n) :
    fld (setFld w hi lo v) hi lo = v % 2 ^ (hi + 1 - lo) := by
  apply Nat.eq_of_testBit_eq
  intro i
  rw [fld_bit, Nat.testBit_mod_two_pow]
  by_cases hi' : i < hi + 1 - lo
  · rw [setFld_bit _ _ _ _ _ (by omega)]
    rw [if_pos (by omega)]
    simp [hi']
  · simp [hi']

/-- Fields apart do not touch each other. -/
theorem fld_setFld_apart {n : Nat} (w : BitVec n) (hi lo h2 l2 v : Nat) (h : h2 < n) (ha : h2 < lo ∨ hi < l2) :
    fld (setFld w hi lo v) h2 l2 = fld w h2 l2 := by
  apply Nat.eq_of_testBit_eq
  intro i
  rw [fld_bit, fld_bit]
  by_cases hi' : i < h2 + 1 - l2
  · rw [setFld_bit _ _ _ _ _ (by omega)]
    rw [if_neg (by omega)]
  · simp [hi']

theorem fld_lt {n : Nat} (w : BitVec n) (hi lo : Nat) : fld w hi lo < 2 ^ (hi + 1 - lo) := by
  unfold fld; exact BitVec.isLt _

end Sys2Proof.Machine
end

