-- ==== Sys2Proof/Laws/Issue.lean ====
section
/-! SUPPORT. Issue of a tile instruction: what `issueCmd` answers when the word issues, faults or holds. -/

namespace Sys2Proof

open Machine

theorem vmod_eq {α : Type} {n : Nat} (v : Vector α n) (i : Nat) (h : i < n) (f : α → α) (d : α) :
    vmod v i f = vput v i (f (vget v i d)) := by
  unfold vmod vput vget
  rw [Vector.getElem?_eq_getElem h]; rfl

/-! ### One unit replaced -/

theorem modTile_put (s : State) (t : TileId) (f : Tile → Tile) : modTile s t.val f = putTile s t (f (tileAt s t.val)) := by
  unfold modTile putTile tileAt; rw [vmod_eq _ _ t.isLt f {}]
theorem modHearth_put (s : State) (h : HearthId) (f : Hearth → Hearth) :
    modHearth s h.val f = putHearth s h (f (hearthAt s h.val)) := by
  unfold modHearth putHearth hearthAt; rw [vmod_eq _ _ h.isLt f {}]
theorem modPort_put (s : State) (p : PortId) (f : Port → Port) : modPort s p.val f = putPort s p (f (portAt s p.val)) := by
  unfold modPort putPort portAt; rw [vmod_eq _ _ p.isLt f {}]
theorem modQueue_put (s : State) (q : QueueId) (f : WorkQ → WorkQ) : modQueue s q.val f = putQueue s q (f (queueAt s q.val)) := by
  unfold modQueue putQueue queueAt; rw [vmod_eq _ _ q.isLt f {}]

@[simp] theorem tileAt_put (s : State) (t : TileId) (x : Tile) : tileAt (putTile s t x) t.val = x := by
  unfold tileAt putTile; simp [vget_vput]
@[simp] theorem hearthAt_put (s : State) (h : HearthId) (x : Hearth) : hearthAt (putHearth s h x) h.val = x := by
  unfold hearthAt putHearth; simp [vget_vput]
@[simp] theorem portAt_put (s : State) (p : PortId) (x : Port) : portAt (putPort s p x) p.val = x := by
  unfold portAt putPort; simp [vget_vput]
@[simp] theorem queueAt_put (s : State) (q : QueueId) (x : WorkQ) : queueAt (putQueue s q x) q.val = x := by
  unfold queueAt putQueue; simp [vget_vput]

@[simp] theorem putTile_putTile (s : State) (t : TileId) (x y : Tile) : putTile (putTile s t x) t y = putTile s t y := by
  unfold putTile vput; simp
@[simp] theorem putHearth_putHearth (s : State) (h : HearthId) (x y : Hearth) : putHearth (putHearth s h x) h y = putHearth s h y := by
  unfold putHearth vput; simp
@[simp] theorem putPort_putPort (s : State) (p : PortId) (x y : Port) : putPort (putPort s p x) p y = putPort s p y := by
  unfold putPort vput; simp
@[simp] theorem putQueue_putQueue (s : State) (q : QueueId) (x y : WorkQ) : putQueue (putQueue s q x) q y = putQueue s q y := by
  unfold putQueue vput; simp

/-! ### Issue -/

theorem opOf_wf (w : Word128) : opOf w = wf w 127 120 := rfl

theorem csWord_put (s : State) (t : TileId) (x : Tile) : csWord (putTile s t x) t.val = fld x.blw.csCtl 63 32 := by
  unfold csWord; rw [tileAt_put]

theorem advance_put (s : State) (t : TileId) (x : Tile) (n : Nat) : advance (putTile s t x) t.val n = putTile s t (movedTo n x) := by
  unfold advance setCsWord; simp only [modTile_put, tileAt_put, putTile_putTile]; rfl

/-- A word that issues. -/
theorem issueCmd_done {s : State} {t : TileId} {w : Word128} {op : Nat} {f : State → Issue} {x : Tile} (h : Stands s t w op)
    (hf : f s = .done (putTile s t x)) (hx : x.blw.csCtl = (tileAt s t.val).blw.csCtl) :
    issueCmd op t.val w f s = .next (issuedAs s t x) := by
  unfold issueCmd issue
  rw [opOf_wf, if_pos h.1, if_pos h.2, hf]
  simp only [csWord_put, advance_put, hx]; rfl

/-- A word that issues and changes more than its tile. -/
theorem issueCmd_done' {s s' : State} {t : TileId} {w : Word128} {op : Nat} {f : State → Issue} (h : Stands s t w op)
    (hf : f s = .done s') : issueCmd op t.val w f s = .next (advance s' t.val (csWord s' t.val + 1)) := by
  unfold issueCmd issue
  rw [opOf_wf, if_pos h.1, if_pos h.2, hf]

/-- A word that faults at issue. -/
theorem issueCmd_fault {s : State} {t : TileId} {w : Word128} {op : Nat} {f : State → Issue} {sp c d : Nat} (h : Stands s t w op)
    (hf : f s = .fault sp c d) :
    issueCmd op t.val w f s = .next (tileFault s t.val sp c (d % 256) (csWord s t.val) (d / 256)) := by
  unfold issueCmd issue
  rw [opOf_wf, if_pos h.1, if_pos h.2, hf]

/-- A word that finds room in the vector queue. -/
theorem pushVec_put {s : State} {t : TileId} {w : Word128} (h : VecRoom s t) (f : Vec → Vec) :
    pushVec s t.val w f = .done (putTile s t (withVector s t w f)) := by
  unfold pushVec
  rw [if_neg (by unfold VecRoom at h; omega)]
  simp only [modVec, modTile_put]; rfl

end Sys2Proof
end

