-- ==== Sys2Proof/WellFormed.lean ====
section
/-! DEFINITION. Well-formed commands: every operand within the values that its source can give it. `exec` is
total and answers for the others too. -/

namespace Sys2Proof

/-- Columns of a row, and result bits, that a fault can touch (15, R353). -/
def rowErrOk (e : RowError) : Bool := e.all (fun x => decide (x.1 < 512) && decide (x.2 < 2 ^ 32))

/-- A flit whose fields fit their places (12, Tables 12-1, 12-2). -/
def Flit.wf (f : Flit) : Bool :=
  decide (f.fseq < 2 ^ 15) && decide (f.ack < 2 ^ 15) && f.cret.length == 8 && f.cret.all (fun c => decide (c ≤ 2048)) && decide (f.takes ≤ 19) && decide (f.phys < 8)

/-- A frame whose header fields fit their places and whose payload has the length it states (12, R285, Tables 12-3,
12-4). -/
def Frame.wf (f : Frame) : Bool :=
  decide (f.ftype < 256) && decide (f.ch < 8) && decide (f.hops < 256) && decide (f.dtr < 4) && decide (f.ddev < 2 ^ 20) &&
  decide (f.sdev < 2 ^ 20) && decide (f.plen ≤ 128) && decide (f.keyid < 256) && decide (f.fnum < 2 ^ 64) && decide (f.epoch < 2 ^ 64) &&
  (f.prov || f.epoch == 0) && decide (f.payload.length ≤ 4096) && (f.psn || f.poison.isEmpty)

/-- A HELLO frame (12, Table 12-7). -/
def Hello.wf (f : Hello) : Bool :=
  decide (f.loMaj < 16) && decide (f.hiMaj < 16) && decide (f.loMin < 16) && decide (f.hiMin < 16) && decide (f.dev < 2 ^ 20)

/-- A handshake frame (12, R300, Table 12-7): steps 2 to 6. -/
def Handshake.wf (f : Handshake) : Bool :=
  decide (2 ≤ f.hstep) && decide (f.hstep ≤ 6) && decide (f.dev < 2 ^ 20) && decide (f.topoid < 2 ^ 64)

/-- The handshake of a session: certificates, a 32-byte shared secret and a 32-byte hash (12, R301, Table 12-7). -/
def SessHs.wf (x : SessHs) : Bool :=
  x.cert.wf && decide (x.loMaj < 16) && decide (x.hiMaj < 16) && x.ss.length == 32 && x.th.length == 32

/-- A request names a key by its 64-bit `KEYID` and carries a 32-byte hash (18, R432). -/
def Request.wf (r : Request) : Bool := decide (r.keyid < 2 ^ 64) && decide (r.reqHash < 2 ^ 256)

/-- A quote answers a 32-byte nonce (18, R426). -/
def SmbusItem.wf (x : SmbusItem) : Bool :=
  match x with
  | .quote n => decide (n < 2 ^ 256)
  | .status | .sensors | .records _ | .auditLog => true

/-- A command is well formed. A tile instruction carries its own opcode (03, R77). -/
def Instr.wf (i : Instr) : Bool :=
  match i with
  | .registerWrite _ addr size value => decide (addr < 2 ^ 44) && (size == 4 || size == 8) && decide (value < 2 ^ (8 * size))
  | .memoryAccess _ addr len wr data _ _ => decide (addr + len ≤ 2 ^ 44) && decide (0 < len) && (!wr || data.length == len)
  | .mmt _ w => Sys2Proof.wf w 127 120 == 0x10
  | .ldp _ w => Sys2Proof.wf w 127 120 == 0x11
  | .bld _ w => Sys2Proof.wf w 127 120 == 0x12
  | .bkt _ w => Sys2Proof.wf w 127 120 == 0x13
  | .ldpLoadStart _ => true
  | .bufferReady _ => true
  | .mmtRowEnter _ => true
  | .mmtRowWrite _ err shadowErr => rowErrOk err && rowErrOk shadowErr
  | .ageo _ w => Sys2Proof.wf w 127 120 == 0x20
  | .ageoApply _ => true
  | .aini _ w => Sys2Proof.wf w 127 120 == 0x21
  | .aadd _ w => Sys2Proof.wf w 127 120 == 0x22
  | .achn _ w => Sys2Proof.wf w 127 120 == 0x23
  | .achnApply _ => true
  | .asnd _ w => Sys2Proof.wf w 127 120 == 0x24
  | .chainRowArrive _ => true
  | .chainSegmentHead _ => true
  | .chainRowReserved _ => true
  | .accChaintmo _ => true
  | .wcf _ w => Sys2Proof.wf w 127 120 == 0x30
  | .win _ w => Sys2Proof.wf w 127 120 == 0x31
  | .wcur _ w => Sys2Proof.wf w 127 120 == 0x32
  | .winLineArrive _ oy ty => decide (oy < 4096) && decide (ty < 16)
  | .vlen _ w => Sys2Proof.wf w 127 120 == 0x40
  | .vadr _ w => Sys2Proof.wf w 127 120 == 0x41
  | .vidx _ w => Sys2Proof.wf w 127 120 == 0x42
  | .vld _ w => Sys2Proof.wf w 127 120 == 0x43
  | .vst _ w => Sys2Proof.wf w 127 120 == 0x44
  | .vstz _ w => Sys2Proof.wf w 127 120 == 0x45
  | .epi _ w => Sys2Proof.wf w 127 120 == 0x46
  | .vfa _ w => Sys2Proof.wf w 127 120 == 0x48
  | .via _ w => Sys2Proof.wf w 127 120 == 0x49
  | .vcmp _ w => Sys2Proof.wf w 127 120 == 0x4A
  | .vsel _ w => Sys2Proof.wf w 127 120 == 0x4B
  | .vcvt _ w => Sys2Proof.wf w 127 120 == 0x4C
  | .vmsk _ w => Sys2Proof.wf w 127 120 == 0x4D
  | .vperm _ w => Sys2Proof.wf w 127 120 == 0x4E
  | .vlsh _ w => Sys2Proof.wf w 127 120 == 0x4F
  | .vcmpr _ w => Sys2Proof.wf w 127 120 == 0x50
  | .vexpd _ w => Sys2Proof.wf w 127 120 == 0x51
  | .vred _ w => Sys2Proof.wf w 127 120 == 0x52
  | .vecRowComplete _ _ => true
  | .vstzFinish _ => true
  | .sfn _ w => Sys2Proof.wf w 127 120 == 0x60
  | .smx _ w => Sys2Proof.wf w 127 120 == 0x61
  | .srs _ w => Sys2Proof.wf w 127 120 == 0x62
  | .rst _ w => Sys2Proof.wf w 127 120 == 0x63
  | .mgn _ w => Sys2Proof.wf w 127 120 == 0x70
  | .mps _ w => Sys2Proof.wf w 127 120 == 0x71
  | .dmk _ w => Sys2Proof.wf w 127 120 == 0x80
  | .dmkTakeEffect _ => true
  | .dwt _ w => Sys2Proof.wf w 127 120 == 0x81
  | .bln _ w => Sys2Proof.wf w 127 120 == 0x82
  | .blwLaunch _ _ value => decide (value < 2 ^ 32)
  | .landLate _ => true
  | .li _ => true
  | .lih _ => true
  | .add _ => true
  | .addi _ => true
  | .sub _ => true
  | .muli _ => true
  | .shli _ => true
  | .shri _ => true
  | .andi _ => true
  | .ldw _ => true
  | .loop _ => true
  | .endl _ => true
  | .bnz _ => true
  | .endT _ => true
  | .mwt _ => true
  | .fen _ => true
  | .lnd _ => true
  | .cinc _ => true
  | .move _ _ => true
  | .gath _ => true
  | .mcst _ => true
  | .pft _ => true
  | .readk _ => true
  | .readv _ => true
  | .append _ => true
  | .share _ => true
  | .releasePages _ => true
  | .kvpNofree _ => true
  | .kvpRelfull _ => true
  | .kvpRingResume _ => true
  | .zpk _ => true
  | .zup _ => true
  | .ars _ => true
  | .requestCommit _ _ _ => true
  | .landingIncrement _ _ => true
  | .threadResume _ => true
  | .csFreshStart _ _ word => decide (word < 2 ^ 32)
  | .csResume _ _ word => decide (word < 2 ^ 32)
  | .csStop _ _ => true
  | .csDone _ => true
  | .csWordIssue _ => true
  | .hearthHeld _ => true
  | .hearthCausesClear _ => true
  | .hearthResume _ => true
  | .schedStall _ => true
  | .hreq _ _ _ => true
  | .hrel _ _ _ => true
  | .sinc _ w => Sys2Proof.wf w 127 120 == 0x90
  | .swat _ w => Sys2Proof.wf w 127 120 == 0x91
  | .sbas _ w => Sys2Proof.wf w 127 120 == 0x92
  | .sclm _ w => Sys2Proof.wf w 127 120 == 0x93
  | .incrementApply _ => true
  | .synInc _ _ _ => true
  | .claim _ _ _ => true
  | .releaseOwner _ _ _ => true
  | .arm _ _ _ value => decide (value < 2 ^ 64)
  | .cancel _ _ _ => true
  | .waitSatisfied _ => true
  | .synTmo _ => true
  | .ownerLost _ => true
  | .budgetLend _ => true
  | .inc _ f => f.wf
  | .pendingIncrementApply _ _ => true
  | .incrementAck _ fnum status => decide (fnum < 2 ^ 64) && decide (status < 256)
  | .flitReceive _ f => f.wf
  | .flitReplay _ fseq => decide (fseq < 2 ^ 15)
  | .replayTimeout _ => true
  | .lnkLane _ => true
  | .lnkCredit _ => true
  | .portEnable _ => true
  | .portDisable _ => true
  | .lanesLocked _ => true
  | .lnkTrain _ => true
  | .downRetry _ => true
  | .admitTimeout _ => true
  | .rejectRetry _ => true
  | .drainEnd _ => true
  | .hello _ f => f.wf
  | .hsk _ f => f.wf
  | .handshakeSignature _ => true
  | .sessionOpen p => p.hs.wf
  | .sessionRekey p => p.hs.wf
  | .close _ f => f.wf
  | .sessionEnd _ => true
  | .write _ f => f.wf
  | .read _ f => f.wf
  | .rdata _ f => f.wf
  | .ack _ f => f.wf
  | .chain _ f => f.wf
  | .flue _ f => f.wf
  | .coll _ f => f.wf
  | .frameForward _ f => f.wf
  | .sendResend _ fnum => decide (fnum < 2 ^ 64)
  | .sendTableSlotFree => true
  | .colRingPost _ _ _ tail => decide (tail < 2 ^ 32)
  | .descriptorTake _ _ => true
  | .free _ f => f.wf
  | .restart _ _ _ => true
  | .colGrpWrite _ _ _ _ value => decide (value < 2 ^ 64)
  | .collectiveComplete _ _ => true
  | .colTmo _ _ => true
  | .flueBufferRelease _ _ => true
  | .pht _ w => Sys2Proof.wf w 127 120 == 0xA0
  | .anchorWrite => true
  | .quenchChunk _ _ => true
  | .quenchBufferFree _ => true
  | .flip _ _ => true
  | .quenchRetract _ _ => true
  | .replayRow _ => true
  | .replayEnd _ err shadowErr => rowErrOk err && rowErrOk shadowErr
  | .chkOpen _ _ => true
  | .chkClose _ _ => true
  | .epochConfirm _ => true
  | .chkRetract _ trig => decide (1 ≤ trig) && decide (trig ≤ 8)
  | .noticeReceive _ rank => decide (rank < 2 ^ 20)
  | .noticeSendNext _ rank => decide (rank < 2 ^ 20)
  | .chkUnresolved _ => true
  | .chkRefetch _ granule => granule.length == 256
  | .chkRefail _ => true
  | .tsl _ w => Sys2Proof.wf w 127 120 == 0xB0
  | .sparkRound _ _ _ => true
  | .sparkDue _ => true
  | .chkOverdue _ => true
  | .sparkCompare round => decide (round < 2 ^ 32)
  | .chkClass _ _ => true
  | .chkLost => true
  | .recordForward => true
  | .stkFwdlost _ => true
  | .queueTailWrite _ _ tail => decide (tail < 2 ^ 32)
  | .descriptorRead _ => true
  | .itemAccept _ _ => true
  | .itemStart _ => true
  | .itemComplete _ seq _ => decide (seq < 2 ^ 64)
  | .lgrTimeout _ seq => decide (seq < 2 ^ 64)
  | .retWrite _ _ value => decide (value < 2 ^ 64)
  | .queueResume _ _ => true
  | .queueRecovery _ => true
  | .hctlPreempt _ _ => true
  | .hearthPreempted _ => true
  | .hctlResume _ _ => true
  | .temperVerify => true
  | .temperQuiesced => true
  | .tmpQuiesce => true
  | .temperDurable _ => true
  | .tmpCtlCommit _ => true
  | .stagedTimeout => true
  | .fwLoad r img => r.wf && decide (img.kind < 256)
  | .fwActivate r kind _ => r.wf && decide (1 ≤ kind) && decide (kind ≤ 5)
  | .temperSubmit r image => r.wf && decide (image.length ≤ 2 ^ 32)
  | .keyEnrol r keyid _ _ => r.wf && decide (keyid < 2 ^ 64)
  | .keyRevoke r keyid => r.wf && decide (keyid < 2 ^ 64)
  | .calSet r _ => r.wf
  | .classReset r _ => r.wf
  | .settings r _ _ _ trw ueth => r.wf && decide (ueth < 2 ^ 32) && decide (trw < 2 ^ 32)
  | .resetDevice r _ => r.wf
  | .resetHearth r _ _ => r.wf
  | .preempt r _ _ => r.wf
  | .release r => r.wf
  | .debugOpen => true
  | .dbgnowClear => true
  | .auditCheckpoint => true
  | .quote nonce => decide (nonce < 2 ^ 256)
  | .smbusRead item => item.wf
  | .stkRestart _ => true
  | .stokerSlotFallback => true
  | .coreStepChange _ => true
  | .pwrPll => true
  | .pwrRef _ => true
  | .railPowerGood => true
  | .pwrRail _ => true
  | .pwrInput vin => decide (vin < 2 ^ 16)
  | .inputSag vin => decide (vin < 2 ^ 16)
  | .powerRecompute => true
  | .budgetReclaim _ => true
  | .pwrOver watts => decide (watts < 2 ^ 16)
  | .pwrTherm tj => decide (tj < 2 ^ 12)
  | .emergencyEnd code => decide (code < 256)
  | .functionEnable _ => true
  | .functionDisable _ => true
  | .functionStartComplete _ => true
  | .pwrFnfail _ => true
  | .functionShutdownComplete _ => true
  | .boot _ => true
  | .deviceColdReset => true
  | .deviceWarmReset => true
  | .warmResetFallback => true
  | .hearthWarmReset _ => true
  | .hearthColdReset _ => true
  | .writeback _ _ => true
  | .wbinv _ _ => true
  | .mtlOpDone _ => true
  | .mantelVictimFound _ => true
  | .mantelAgeTick => true
  | .evictionWritebackEnd _ i => decide (i < 4096)
  | .patrolScrub sector _ => decide (sector < 0xC00000000)
  | .refreshWindow _ _ => true
  | .recalibration _ _ => true
  | .damperSample _ temp => decide (temp < 2 ^ 12)
  | .perst => true
  | .hostLinkUp speed width => decide (1 ≤ speed) && decide (speed ≤ 6) && (width == 1 || width == 4 || width == 8)
  | .flr _ => true
  | .vfEnableClear => true
  | .barAccess _ bar off size _ value _ => ((bar == 0 && decide (off + size ≤ 2 ^ 30)) || (bar == 2 && decide (off + size ≤ 2 ^ 36)) || (bar == 4 && decide (off + size ≤ 2 ^ 16))) && decide (value < 256 ^ size)
  | .go _ image => decide (image.length ≤ 2 ^ 32)
  | .hifIde _ => true
  | .pwrLeak => true
  | .coolantSample _ _ => true
  | .accumulatorPipeRow _ => true
  | .stokerTakesNoRecord => true
  | .quenchTest _ _ => true
  | .vfEnable => true
  | .d3hot _ _ => true
  | .ideKm _ _ => true

end Sys2Proof
end

