-- ==== Sys2Proof/Tests/Slice0.lean ====
section
/-! SUPPORT. Tests: ill-formed terms, states that meet the hypotheses of each statement, a few results. -/

namespace Sys2Proof.Tests

set_option Elab.async false

open Sys2Proof.Machine

/-! ### Small states -/

/-- A word of a command stream: opcode, and fields as (lowest bit, value). -/
def wd (op : Nat) (fs : List (Nat × Nat)) : Word128 := BitVec.ofNat 128 (fs.foldl (fun a f => a + f.2 * 2 ^ f.1) (op * 2 ^ 120))
/-- A word of a bellows program. -/
def bw (op : Nat) (fs : List (Nat × Nat)) : BWord := BitVec.ofNat 64 (fs.foldl (fun a f => a + f.2 * 2 ^ f.1) (op * 2 ^ 58))

/-- Hearth 0 holds tiles 0 to 3, Hob core 0, region 0, counters 0 to 255 and queue 0; function 1 is its own. -/
def job : State :=
  let s := State.reset
  { s with tmp := { s.tmp with cur := { s.tmp.cur with
    hearths := vput s.tmp.cur.hearths 0 { h := { present := true, tiles := 15, hobs := 1, regions := 1, nblk := 1, queues := 1, vf := 1 } } } } }
/-- Tile 0 stands at word 3 of a stream of 100. -/
def run0 : State := modTile job 0 (fun x => { x with blw := { x.blw with csLim := 100, csCtl := BitVec.ofNat 64 (3 * 2 ^ 32 + 16) } })
def withTile (s : State) (f : Tile → Tile) : State := modTile s 0 f
def t0 : TileId := 0
/-- Buffer 0 of tile 0 holds a plane of zeros. -/
def withPlane (s : State) (p : PlaneInfo) : State := withTile s (fun x => { x with anv := { x.anv with
  buf := vmod x.anv.buf 0 (fun v => { v with issued := some p, ready := true, cols := List.replicate p.np (List.replicate p.kp 0)
                                             scales := List.replicate p.np [] }) } })
/-- Queue, row pipe and array of tile 0. -/
def withJobs (s : State) (q r : List AnvJob) (a : List ArrayRow) : State :=
  withTile s (fun x => { x with anv := { x.anv with queue := q, rowPipe := r, array := a } })
def p1 : PlaneInfo := { fmt := E4M3, kp := 32, np := 1, ck := false }
def mmt1 (w : Word128) (m : Nat) : MmtJob := { w := w, m := m, plane := p1, win := (0, 0, 0), seqOut := 1 }
def anvJob (op : AnvOp) : AnvJob := { seq := 0, idx := 2, op := op }
def row1 (r : Nat) : ArrayRow := { seq := 0, row := r, terms := [[.fin false 0 0]], flags := 0, init := [] }
def chain1 : ChainRow := { fmt := FP32, px := 0, m := 1, np := 1, seq := 1, row := 0, vals := [0], status := 0, remote := false }

/-! ### Hypotheses that are met -/

theorem test_meets_VectorSetUpWords :
    let w := wd 0x40 [(110, 1)]
    let w' := wd 0x40 [(110, 512)]
    let w2 := wd 0x41 [(117, 7)]
    VecRoom run0 t0 ∧ (Stands run0 t0 w 0x40 ∧ 1 ≤ wf w 119 110) ∧ (Stands run0 t0 w' 0x40 ∧ wf w' 119 110 ≤ 512) ∧
    (Stands run0 t0 w2 0x41 ∧ namesHeld (tileAt run0 0) [wf w2 119 117] = false) ∧ Stands run0 t0 (wd 0x42 []) 0x42 := by
  unfold VecRoom Stands; decide

theorem test_meets_VectorRegisterForms :
    let w := fun op fn => wd op [(90, 63), (84, fn)]
    let m := fun op fn => wd op [(114, 7), (84, fn)]
    let fits := fun (w : Word128) => RegsFit (wf w 95 90 + 1) [wf w 119 114, wf w 113 108, wf w 107 102, wf w 101 96]
    (∀ e ∈ [(0x48, 6), (0x49, 7), (0x4B, 0), (0x4E, 0), (0x4F, 2), (0x50, 0), (0x51, 0), (0x52, 2), (0x4C, 2)],
      Stands run0 t0 (w e.1 e.2) e.1 ∧ FormOk (w e.1 e.2) e.2 ∧ fits (w e.1 e.2)) ∧ wf (w 0x4B 0) 101 96 ≤ 7 ∧
    fmtRsvd (wf (w 0x4C 2) 72 68) = false ∧ wf (w 0x4C 2) 72 68 ≠ X96 ∧
    (∀ e ∈ [(0x4A, 4), (0x4D, 4)], Stands run0 t0 (m e.1 e.2) e.1 ∧ FormOk (m e.1 e.2) e.2 ∧ fits (m e.1 e.2) ∧
      1 ≤ wf (m e.1 e.2) 119 114 ∧ wf (m e.1 e.2) 119 114 ≤ 7 ∧ wf (m e.1 e.2) 95 90 + 1 = 1 ∧ wf (m e.1 e.2) 113 108 ≤ 7) := by
  unfold Stands FormOk RegsFit; decide

theorem test_meets_VectorMemoryForms :
    (∀ op ∈ [0x43, 0x44, 0x45], Stands run0 t0 (wd op []) op ∧ namesHeld (tileAt run0 0) (vmNames (wd op [])) = false) ∧
    vldFault run0 0 (wd 0x43 []) = none ∧ vstFault run0 0 (wd 0x44 []) = none ∧ vstWaits (tileAt run0 0) (wd 0x44 []) = false ∧
    vstLate run0 0 (wd 0x44 []) = none ∧ vstzFault run0 0 (wd 0x45 []) = none ∧ Stands run0 t0 (wd 0x46 []) 0x46 ∧
    namesHeld (tileAt run0 0) (epiNames (wd 0x46 [])) = false ∧ epiFault run0 0 (wd 0x46 []) = none := by
  unfold Stands; decide

theorem test_meets_SpecialFunctionWords :
    let x := tileAt run0 0
    let smx := wd 0x61 [(87, 1), (77, E4M3)]
    let g := wd 0x70 [(117, 4), (113, 9)]
    VecRoom run0 t0 ∧ (Stands run0 t0 (wd 0x60 []) 0x60 ∧ sfnFault (wd 0x60 []) = none) ∧
    (Stands run0 t0 smx 0x61 ∧ namesHeld x [wf smx 74 72] = false ∧ smxFault run0 0 smx = none) ∧
    (Stands run0 t0 (wd 0x62 [(87, 1)]) 0x62 ∧ srsFault run0 0 (wd 0x62 [(87, 1)]) = none) ∧
    (Stands run0 t0 (wd 0x63 []) 0x63 ∧ rstFault (wd 0x63 []) = none) ∧
    (Stands run0 t0 g 0x70 ∧ wf g 116 113 ≤ 9 ∧ genUsed x = false ∧ inWindow run0 0 (32 * wf g 88 69) (4 * 2 ^ wf g 116 113) = true ∧
      inWindow run0 0 (32 * wf g 68 49) 2048 = true) ∧ Stands run0 t0 (wd 0x71 []) 0x71 := by
  unfold Stands VecRoom; decide

theorem test_meets_AnvilWords :
    let a := withPlane run0 p1
    let b := withTile a (fun x => { x with acc := { x.acc with fifo := [chain1], chain := 1024 }, blw := { x.blw with pend := some (wd 0x10 [(115, 3), (112, 2)]) } })
    let k := withTile run0 (fun x => { x with anv := { x.anv with cfg := 8, bound := vput x.anv.bound 0 1, bkt := vput x.anv.bkt 63 2 } })
    let m := wd 0x10 [(115, 3)]
    let c := wd 0x10 [(115, 3), (112, 2)]
    let l := wd 0x11 [(115, 3), (87, 511)]
    let d := wd 0x12 [(116, 15)]
    (Stands a t0 m 0x10 ∧ mmtFault a 0 m = none ∧ (vget (tileAt a 0).anv.buf (wf m 108 108) {}).issued = some p1 ∧ (tileAt a 0).anv.queue.length < 16 ∧
      wf m 113 112 ≠ 2) ∧
    (Stands b t0 c 0x10 ∧ mmtFault b 0 c = none ∧ headTaken (tileAt b 0) = false ∧ (tileAt b 0).acc.fifo.head? = some chain1 ∧
      segFault (tileAt b 0) c p1.np chain1 = none ∧ (tileAt b 0).blw.pend = some c) ∧
    (Stands run0 t0 l 0x11 ∧ ldpFault run0 0 l = none) ∧
    (Stands run0 t0 d 0x12 ∧ wf d 119 116 + wf d 115 112 ≤ 15 ∧ 32 * wf d 111 92 + 4 * (wf d 115 112 + 1) ≤ scrSize run0 0) ∧
    (Stands k t0 (wd 0x13 [(110, 63)]) 0x13 ∧ fld (tileAt k 0).anv.cfg 3 2 = 2 ∧ wf (wd 0x13 [(110, 63)]) 115 110 + 0 ≤ 63 ∧ fld (vget (tileAt k 0).anv.bound 0 0) 19 0 ≠ 0 ∧
      fld (vget (tileAt k 0).anv.bound 0 0) 19 0 ≤ fld (vget (tileAt k 0).anv.bkt 63 0) 19 0) := by
  unfold Stands; decide

theorem test_meets_AccumulatorWords :
    let g := withTile run0 (fun x => { x with acc := { x.acc with cfg := x.acc.cfg ||| 256 } })
    let x96 := withTile run0 (fun x => { x with acc := { x.acc with geom := mkGeom 3 3 1, chain := 8192 } })
    let x := tileAt run0 0
    let i := wd 0x21 [(114, 7), (98, 511)]
    let a := wd 0x22 [(61, 1), (55, 7), (98, 511)]
    let o := wd 0x24 [(105, 100)]
    (Stands g t0 (wd 0x20 []) 0x20 ∧ bit (tileAt g 0).acc.cfg 8 = true) ∧
    (Stands run0 t0 i 0x21 ∧ x.anv.queue.length < 16 ∧ wf i 119 114 < geomN x ∧ wf i 106 98 + wf i 97 89 < geomSR x ∧ geomFmt x = 0) ∧
    (Stands run0 t0 a 0x22 ∧ wf a 119 114 < geomN x ∧ wf a 60 55 < geomN x ∧ wf a 106 98 < geomSR x) ∧
    (inWindow run0 0 (32 * (0 + 0 * 0)) (geomSC x * geomE x) = true) ∧
    (geomFmt (tileAt x96 0) = 1 ∧ vget (tileAt x96 0).acc.trackPX 7 64 = 64) ∧
    (Stands run0 t0 (wd 0x23 [(118, 1), (113, 1)]) 0x23 ∧ chainEnd run0 0 1 1 0 = none ∧ chainEnd run0 0 0 0 0 = none) ∧
    (Stands x96 t0 o 0x24 ∧ wf o 119 114 < geomN (tileAt x96 0) ∧ wf o 113 105 < geomSR (tileAt x96 0) ∧ geomFmt (tileAt x96 0) = 1 ∧
      fld (tileAt x96 0).acc.chain 13 12 = 2) := by
  unfold Stands; decide

theorem test_meets_WindowWords :
    let c := wd 0x30 [(115, 3), (103, 14), (107, 14), (47, 224)]
    let b := wd 0x30 [(115, 3), (113, 1)]
    let n := wd 0x31 [(60, 63), (48, 63), (84, 128)]
    let s := withTile run0 (fun x => { x with win := { x.win with wcf := some c, win := some n } })
    winPending (tileAt run0 0) = false ∧
    (Stands run0 t0 c 0x30 ∧ fmtRsvd (wf c 119 115) = false ∧ winFmtOk (wf c 119 115) = true ∧ wf c 106 103 + 1 ≠ 16 ∧ wf c 112 107 + 1 ≤ 15 ∧
      wf c 62 55 + (wf c 54 47 + 1) ≤ (wf c 106 103 + 1) * (wf c 112 107 + 1)) ∧ (Stands run0 t0 b 0x30 ∧ wf b 62 55 < wf b 106 103 + 1) ∧
    (Stands run0 t0 n 0x31 ∧ (wf n 71 60 + 1) * (wf n 59 48 + 1) ≤ 4096 ∧
      32 * (wf n 119 100 + (wf n 83 72 + 1) * wf n 99 84) ≤ scrSize run0 0 ∧ (tileAt run0 0).win.wcf = none) ∧
    (winPending (tileAt s 0) = false ∧ Stands s t0 (wd 0x32 [(108, 63)]) 0x32 ∧ (tileAt s 0).win.wcf = some c ∧ (tileAt s 0).win.win = some n ∧
      0 < wf n 47 36 + 1 ∧ 0 < winWidth c n ∧ 63 < wf n 59 48 + 1) := by
  unfold Stands; decide

theorem test_meets_PlaneLoads :
    let k : LdpJob := { w := wd 0x11 [(115, 3)], info := p1 }
    let a := withJobs run0 [anvJob (.ldp k)] [] []
    let b := withTile run0 (fun x => { x with anv := { x.anv with loadPipe := some (anvJob (.ldp k)) } })
    (tileRuns a 0 = true ∧ tileRole a 0 ≠ 2 ∧ (tileAt a 0).anv.loadPipe = none ∧ (tileAt a 0).anv.queue.find? isLdp = some (anvJob (.ldp k)) ∧
      bufReads (tileAt a 0) 0 0 (tileLevel a 0) = false) ∧
    (tileRuns b 0 = true ∧ (tileAt b 0).anv.loadPipe = some (anvJob (.ldp k)) ∧ pipeHeld (tileAt b 0) 1 = false ∧
      rangesPoison (seeRanges b 0 (ldpRows k ++ ldpScales k)) 0 (ldpRows k ++ ldpScales k) = none) := by
  decide

theorem test_meets_RowsCrossArray :
    let k := mmt1 (wd 0x10 [(115, 3)]) 2
    let a := withJobs (withPlane run0 p1) [anvJob (.mmt k)] [] []
    let e := withTile run0 (fun x => { x with anv := { x.anv with reenter := [row1 0] } })
    let b := withJobs run0 [] [anvJob (.mmt { k with entered := 2 })] [row1 0, row1 1]
    let o := rowResult b 0 { k with entered := 2 } (row1 0)
    let x := tileAt a 0
    (tileRuns e 0 = true ∧ tileRole e 0 ≠ 2 ∧ (tileAt e 0).anv.replay = none ∧ pipeHeld (tileAt e 0) 0 = false ∧
      (tileAt e 0).anv.reenter = row1 0 :: []) ∧
    (tileRuns a 0 = true ∧ x.anv.replay = none ∧ x.anv.reenter = [] ∧ nextMmt x = some (anvJob (.mmt k), k) ∧ (bufAt x 0).ready = true ∧
      loadPending x 0 0 = false ∧ (jobSlots (anvJob (.mmt k))).any (fun sl => slotBusyForMmt x 0 sl) = false ∧ wf k.w 113 112 = 0 ∧
      wf k.w 111 110 = 0 ∧ (match rowOperands (seeRanges a 0 (rowRanges k)) 0 0 k with | .go _ _ => true | _ => false) = true) ∧
    ((tileAt b 0).anv.array = row1 0 :: [row1 1] ∧ (tileAt b 0).anv.replay = none ∧
      mmtOf (tileAt b 0) (row1 0).seq = some { k with entered := 2 } ∧ k.plane.ck = false ∧ tileRole b 0 = 0 ∧ corrupt o.outs [] = [0]) := by
  decide

/-- Hearth 0 at check level 1, its tile 0 held for a replay of row 0. -/
def atLevel1 (s : State) : State := modChk s 0 (fun c => { c with chkCfg := c.chkCfg ||| 1 })
def held (s : State) (st : Nat) : State := modHearth s 0 (fun x => { x with mem := { x.mem with sched := setFld x.mem.sched 34 32 st } })

theorem test_meets_RowsFailAndReplay :
    let k : MmtJob := { mmt1 (wd 0x10 [(115, 3)]) 2 with plane := { p1 with ck := true }, entered := 2 }
    let b := atLevel1 (withJobs run0 [] [anvJob (.mmt k)] [row1 0, row1 1])
    let o := rowResult b 0 k (row1 0)
    let p : Replay := { row := row1 0, first := [1], firstShadow := [], entered := false, later := [row1 1] }
    let q : Replay := { p with entered := true }
    let r := fun (p : Replay) => held (withTile (withJobs run0 [] [anvJob (.mmt k)] []) (fun x => { x with anv := { x.anv with replay := some p } })) 2
    ((tileAt b 0).anv.array = row1 0 :: [row1 1] ∧ mmtOf (tileAt b 0) 0 = some k ∧ tileHearth b 0 = some 0 ∧ 1 ≤ chkLevel b 0 ∧
      k.plane.ck = true ∧ rowSkipped k (row1 0) o (corrupt o.outs [(0, 1)]) = false ∧
      rowPasses k (row1 0) (rowInit b 0 k (row1 0)) o (corrupt o.outs [(0, 1)]) [(0, 1)] = false) ∧
    ((tileAt (r p) 0).anv.replay = some p ∧ tileHearth (r p) 0 = some 0 ∧ holdState (r p) 0 = 2 ∧ p.entered = false) ∧
    ((tileAt (r q) 0).anv.replay = some q ∧ mmtOf (tileAt (r q) 0) 0 = some k ∧ tileRole (r q) 0 = 0 ∧
      rowPasses k (row1 0) (rowInit (r q) 0 k (row1 0)) o (corrupt o.outs []) [] = true) := by
  decide

theorem test_meets_AccumulatorPipeRows :
    let j := fun w => anvJob (.acc { w := w, rows := 1 })
    let s := fun w => withJobs run0 [j w] [] []
    let i := wd 0x21 []
    let a := wd 0x22 [(61, 1), (55, 1)]
    let o := wd 0x24 []
    (tileRuns (s i) 0 = true ∧ tileRole (s i) 0 ≠ 2 ∧ pipeHeld (tileAt (s i) 0) 2 = false ∧ accNext (tileAt (s i) 0) = some (j i)) ∧
    (accNext (tileAt (s a) 0) = some (j a) ∧ aaddPoison (s a) 0 { w := a, rows := 1 } = none) ∧
    (accNext (tileAt (s o) 0) = some (j o) ∧ asndWaits (s o) 0 = false ∧ (0 : Nat) ≠ 1) ∧
    (let d := anvJob (.acc { w := o, rows := 1, done := 1 })
     let z := withTile run0 (fun x => { x with anv := { x.anv with accPipe := some d } })
     accNext (tileAt z 0) = some d ∧ asndWaits z 0 = false) := by
  decide

theorem test_meets_AccumulatorEvents :
    let p := fun w => withTile run0 (fun x => { x with blw := { x.blw with pend := some w } })
    let hd := segHeader 64 1 1 0 1 5
    let c := withTile run0 (fun x => { x with acc := { x.acc with rxHdr := some hd, rx := List.replicate 44 0 } })
    let k : MmtJob := { mmt1 (wd 0x10 [(115, 3), (112, 2)]) 1 with waitFc := some 0 }
    let e := { withJobs run0 [anvJob (.mmt k)] [] [] with cyc := 2 ^ 31 }
    let l := withTile run0 (fun x => { x with acc := { x.acc with late := true, chain := 0x81000 } })
    (∀ op ∈ [0x20, 0x23], let s := p (wd op []); (tileAt s 0).blw.pend = some (wd op []) ∧ wf (wd op []) 127 120 = op ∧ csState s 0 = 1 ∧
      tileRuns s 0 = true ∧ (tileAt s 0).anv.queue = [] ∧ (tileAt s 0).anv.array = [] ∧ (anvJobs (tileAt s 0)).any chainJob = false ∧
      (tileAt s 0).acc.fifo = [] ∧ (tileAt s 0).acc.reserved = 0) ∧
    ((tileAt (withTile run0 (fun x => { x with acc := { x.acc with arriving := [chain1], reserved := 1 } })) 0).acc.arriving = [chain1]) ∧
    ((tileAt c 0).acc.arriving = [] ∧ (tileAt c 0).acc.rxHdr = some hd ∧ 0 < chainFree c 0 ∧
      12 * (leAt hd 4 2 + 1) + (if (tileAt c 0).acc.rxRow + 1 = leAt hd 2 2 + 1 then 32 else 0) ≤ (tileAt c 0).acc.rx.length) ∧
    ((tileAt l 0).acc.late = true ∧ 0 < chainFree l (chainOutTile (tileAt l 0))) ∧
    (chainExpired e 0 k.waitFc = true ∧ (tileAt e 0).anv.queue = [anvJob (.mmt k)]) ∧
    (let a : State := { withTile run0 (fun x => { x with anv := { x.anv with
        accPipe := some (anvJob (.acc { w := wd 0x24 [], rows := 1, done := 1, waitFc := some 0 })) } }) with cyc := 2 ^ 31 }
     chainExpired a 0 (some 0) = true ∧ (tileAt a 0).anv.rowPipe ++ (tileAt a 0).anv.queue = []) ∧
    (let m : State := { withTile (p (wd 0x10 [(115, 3), (112, 2)])) (fun x => { x with acc := { x.acc with headFc := some 0 } }) with cyc := 2 ^ 31 }
     chainExpired m 0 (tileAt m 0).acc.headFc = true ∧ (tileAt m 0).anv.accPipe = none ∧ (tileAt m 0).blw.pend ≠ none) ∧
    asndWaits (p (wd 0x23 [])) 0 = false := by
  decide

theorem test_meets_WindowLines :
    let c := wd 0x30 [(115, 3)]
    let n := wd 0x31 []
    let s := withTile run0 (fun x => { x with win := { x.win with wcf := some c, win := some n } })
    (tileAt s 0).win.wcf = some c ∧ (tileAt s 0).win.win = some n ∧ winIy c n 0 0 = some 0 ∧ winFrom (tileAt s 0) ≤ 0 ∧ 0 < winFrom (tileAt s 0) + 4 ∧
    0 < wf n 47 36 + 1 ∧ 0 < wf c 106 103 + 1 ∧ winLine (tileAt s 0) 0 0 = none ∧
    (let k := mmt1 (wd 0x10 [(115, 3), (109, 1)]) 1
     let j := anvJob (.mmt k)
     let l : WinLine := { line := 0, oy := 0, ty := 0, elems := [], poison := none, overrun := true }
     let z := withJobs (withPlane (withTile s (fun x => { x with win := { x.win with lines := [l] } })) p1) [j] [] []
     let x := tileAt z 0
     (tileRuns z 0 = true ∧ tileRole z 0 ≠ 2 ∧ x.anv.replay = none ∧ pipeHeld x 0 = false ∧ x.anv.reenter = [] ∧ nextMmt x = some (j, k) ∧
       wf k.w 109 109 = 1 ∧ wf k.w 113 112 = 0 ∧ (bufAt x (wf k.w 108 108)).ready = true ∧ loadPending x 0 j.seq = false ∧
       (jobSlots j).any (fun sl => slotBusyForMmt x j.seq sl) = false) ∧
     (∀ ty ∈ winNeeds c n 0, (winLine x 0 ty).isSome = true) ∧
     ((winNeeds c n 0).map (fun ty => winLine x 0 ty)).findSome? (fun q => q.bind (fun q => if q.overrun then some q else none)) = some l) := by
  decide

theorem test_meets_VectorRowsAndPairs :
    let v := fun (s : State) w => withTile s (fun x => { x with vec := { x.vec with queue := [vecJob s 0 w] } })
    let s := v run0 (wd 0x40 [(110, 1)])
    let z : VecJob := { vecJob run0 0 (wd 0x45 []) with done := 1 }
    let f := withTile run0 (fun x => { x with vec := { x.vec with run := some z } })
    let q := withTile s (fun x => { x with misc := { x.misc with chkTcfg := 0x41 } })
    let ok := fun (s : State) j => match vecRowOf (vecSee s 0 j) 0 j with | .ok (_, k) => k.oor == none | .error _ => false
    (tileRuns s 0 = true ∧ tileRole s 0 ≠ 2 ∧ pipeHeld (tileAt s 0) 3 = false ∧ vecNext s 0 = some (vecJob run0 0 (wd 0x40 [(110, 1)])) ∧
      ok s (vecJob run0 0 (wd 0x40 [(110, 1)])) = true) ∧
    ((vecOf f 0).run = some z ∧ isPacked z.w = true ∧ vecRows z.w ≤ z.done) ∧
    (tileRuns q 0 = true ∧ tileRole q 0 = 1 ∧ (vecNext q 0).isSome = true) := by
  decide +kernel

/-- Thread 0 of core 0 of tile 0 stands at word 0, which is w; b1 onwards hold the values of bs. -/
def th0 : ThreadId := { tile := 0, core := 0, thr := 0 }
def x0 (bs : List Nat) : Thread := newThread 0 bs 0
def runs (s : State) (w : BWord) (x : Thread) : State :=
  setThread (withTile s (fun x => { x with blw := { x.blw with prog := [(0, w)] } })) 0 0 0 (some x)

/-- Devices 0 to 100 are admitted. -/
def peers (s : State) : State := { s with tmp := { s.tmp with cur := { s.tmp.cur with dev := { s.tmp.cur.dev with ranges := [(0, 100)] } } } }

theorem test_meets_MarksAndLaunches :
    let b := wd 0x82 [(112, 3), (66, 14)]
    let si := wd 0x90 [(115, 1), (78, 5), (46, 1)]
    let sr := wd 0x90 [(115, 1), (114, 1), (94, 7)]
    let mk : MarkOp := { seq := 1, pipes := 31, sinc := none }
    let v := withTile run0 (fun x => { x with blw := { x.blw with marks := [mk] } })
    let l := wd 0x81 [(83, 1)]
    let s := withTile run0 (fun x => { x with blw := { x.blw with pend := some l } })
    (Stands run0 t0 (wd 0x80 [(115, 1)]) 0x80 ∧ wf (wd 0x80 [(115, 1)]) 119 115 ≠ 0) ∧
    (Stands run0 t0 (wd 0x81 []) 0x81 ∧ reached (landAt (tileAt run0 0) 0) 0 = true) ∧
    (Stands run0 t0 b 0x82 ∧ wf b 105 102 < 4 * 2 ^ fld (tileAt run0 0).blw.cfg 2 1 ∧ wf b 119 113 + (wf b 112 106 + 1) ≤ 128 ∧ wf b 69 66 = 14 ∧
      32 * wf b 89 70 + 8 * wf b 69 66 ≤ scrSize run0 0 ∧ ∀ i ≤ wf b 112 106, threadAt (tileAt run0 0) (wf b 119 113 + i) (wf b 105 102) = none) ∧
    (Stands run0 t0 si 0x90 ∧ wf si 114 114 = 0 ∧ tileCtr run0 0 (wf si 93 78) = true) ∧
    (Stands (peers run0) t0 sr 0x90 ∧ wf sr 114 114 = 1 ∧ wf sr 113 94 ≠ 0xFFFFF ∧ wf sr 113 94 ≠ devNo (peers run0) ∧
      admitted (peers run0) (wf sr 113 94) = true) ∧
    ((tileAt v 0).blw.marks = mk :: [] ∧ ∀ p < 5, mk.pipes.testBit p = true → pipeDone (tileAt v 0) p mk.seq = true) ∧
    (let sn : MarkOp := { seq := 2, pipes := 4, sinc := some ⟨false, 0, 5, 1⟩ }
     let z := withTile (withJobs run0 [] [] []) (fun x => { x with
       vec := { x.vec with queue := [{ vecJob run0 0 (wd 0x40 []) with seq := 1 }] }, blw := { x.blw with marks := [{ sn with pipes := 31 }, mk] } })
     (∃ p < 5, Nat.testBit 31 p = true ∧ pipeDone (tileAt z 0) p sn.seq = false) ∧
     (tileAt z 0).blw.marks.find? (fun k => k.sinc.isNone) = some mk ∧
     ∀ p < 5, mk.pipes.testBit p = true → pipeDone (tileAt z 0) p mk.seq = true) ∧
    (mayTile run0 (.hob 0) 0 = true ∧ tileRole run0 0 ≠ 2 ∧ (tileHearth run0 0).isSome = true ∧ (tileAt run0 0).blw.draining = none ∧ fld (7 : BitVec 32) 24 21 < 4 * 2 ^ fld (tileAt run0 0).blw.cfg 2 1 ∧
      threadAt (tileAt run0 0) 0 0 = none) ∧
    ((tileAt s 0).blw.pend = some l ∧ csState s 0 = 1 ∧ tileHearth s 0 = some 0 ∧ (tileAt s 0).blw.late = none ∧
      reached (landAt (tileAt s 0) (wf l 119 115)) (wf l 114 83) = false ∧ tileIdle (tileAt s 0) = true) := by
  unfold Stands; decide

theorem test_meets_StreamControl :
    let d := withTile run0 (fun x => { x with blw := { x.blw with csLim := 3 } })
    (mayTile job (.hob 0) 0 = true ∧ tileRole job 0 ≠ 2 ∧ csState job 0 ≠ 1 ∧ csState job 0 ≠ 2 ∧ (tileAt job 0).blw.threads = [] ∧
      (tileHearth job 0).isSome = true ∧ (tileAt job 0).blw.draining = none) ∧
    csState run0 0 = 1 ∧ (csState d 0 = 1 ∧ fld (tileAt d 0).blw.csLim 31 0 ≤ csWord d 0 ∧ tileIdle (tileAt d 0) = true) := by
  decide

theorem test_meets_StreamsFetchAndIssue :
    let a := 16 * (fld (tileAt run0 0).blw.csBase 39 0 + csWord run0 0)
    csState run0 0 = 1 ∧ (tileAt run0 0).blw.pend = none ∧ csWord run0 0 < fld (tileAt run0 0).blw.csLim 31 0 ∧ tileRuns run0 0 = true ∧
    tileRole run0 0 ≠ 2 ∧ tileHearth run0 0 = some 0 ∧ reach run0 (some 0) a 16 = true ∧ (devRead run0 (some 0) .alloc a 16 []).isSome = true := by
  decide +kernel

theorem test_meets_FailedWordsFault :
    canIssue run0 0 (wd 0x40 []) = true ∧ (match issueOf 0 (wd 0x40 []) with
      | some f => (match f run0 with | .fault sp c d => decide (sp ∈ [1, 2, 3, 4, 5, 7, 9] ∧ c < 256 ∧ d < 2 ^ 24) | _ => false)
      | none => false) = true := by
  decide

theorem test_meets_ThreadArithmetic :
    let w := bw 0x0A [(54, 3), (50, 1)]
    let s := runs job w (x0 [16])
    AtWord s th0 0 (x0 [16]) w ∧ (x0 [16]).pc < 4095 ∧ fld w 63 58 = 0x0A ∧ lOk s 0 16 8 = true ∧
    (match devRead (tookTurn s th0) (some 0) .alloc (gLoc 16) 8 [] with | some (_, _, ps) => ps == [] | none => false) = true ∧
    ∀ op ∈ [1, 2, 3, 4, 5, 6, 7, 8, 9], AtWord (runs job (bw op []) (x0 [])) th0 0 (x0 []) (bw op []) ∧ fld (bw op []) 63 58 = op := by
  unfold AtWord; decide +kernel

def go (w : BWord) (x : Thread) : Prop := AtWord (runs job w x) th0 0 x w

theorem test_meets_ThreadControl_loops :
    let x5 : Thread := { x0 [4] with loops := List.replicate 5 (0, 1) }
    let l := bw 0x10 [(54, 5), (50, 1)]
    go l x5 ∧ fld l 57 54 = x5.loops.length ∧ go (bw 0x10 []) (x0 []) ∧ target (bw 0x10 []) 1 ≤ 4095 ∧
    go (bw 0x11 []) { x0 [] with loops := [(7, 2)] } ∧ go (bw 0x11 []) { x0 [] with loops := [(7, 1)] } := by
  unfold go AtWord; decide

theorem test_meets_ThreadControl :
    go (bw 0x12 [(50, 1)]) (x0 [1]) ∧ go (bw 0x12 []) (x0 []) ∧ go (bw 0x13 []) (x0 []) ∧
    reqsOf (tileAt (runs job (bw 0x13 []) (x0 [])) 0) 0 0 = false ∧ go (bw 0x18 []) (x0 []) ∧
    tileNamed (runs job (bw 0x18 []) (x0 [])) 0 0 (bw 0x18 []) 0 = some 0 ∧
    reached (fld (tileAt (runs job (bw 0x18 []) (x0 [])) 0).blw.mark 31 0) 0 = true ∧ go (bw 0x19 []) (x0 []) := by
  unfold go AtWord; decide

theorem test_meets_ThreadSignals :
    let c := bw 0x1B [(50, 1), (46, 2)]
    let a := bw 0x27 [(50, 1)]
    let s := modHearth (runs job a (x0 [64])) 0 (fun y => { y with mem := { y.mem with actUsed := 64 } })
    (go (bw 0x1A [(8, 3), (0, 31)]) (x0 []) ∧ tileNamed (runs job (bw 0x1A []) (x0 [])) 0 0 (bw 0x1A [(8, 3)]) 3 = some 3) ∧
    (let s := runs (peers job) c (x0 [7 * 2 ^ 44])
     AtWord s th0 0 (x0 [7 * 2 ^ 44]) c ∧ 7 ≠ devNo s ∧ admitted s 7 = true) ∧
    (go c (x0 [0xFF, 2 ^ 32 - 1]) ∧ ctrIn (runs job c (x0 [0xFF, 2 ^ 32 - 1])) 0 0xFF = true) ∧
    (AtWord s th0 0 (x0 [64]) a ∧ (64 : BitVec 64).toNat ≤ (hearthAt s 0).mem.actUsed.toNat) := by
  unfold go AtWord; decide

/-- 32-bit values as bytes, in a list from an address on. -/
def words (s : State) (a : Nat) (vs : List Nat) : State := store s a (vs.flatMap (leBytes 4)) []

theorem test_meets_ThreadTransfers_moves :
    let x := x0 [0x1000, 0x80000000000, 64, 32]
    let w := bw 0x20 [(54, 1), (50, 2), (46, 3), (42, 4), (33, 1), (17, 1)]
    let s := runs job w x
    let rs := (List.range 2).flatMap (fun r => rowReqs s th0 0 .alloc (0x1000 + 64 * r) (0x80000000000 + 32 * r) 32)
    let v := bw 0x22 [(54, 1), (50, 2), (46, 3), (42, 4), (33, 1), (12, 5)]
    let y := x0 [0x1000, 0x40, 64, 32]
    let s2 := modHearth (runs job v y) 0 (fun h => { h with mem := { h.mem with mcg := vput h.mem.mcg 5 15 } })
    let rs2 := (List.range 2).flatMap (fun r => mcstReqs s2 th0 0 .alloc (0x1000 + 64 * r) (0x40 + 32 * r) 15 32)
    (AtWord s th0 0 x w ∧ x.going = false ∧ fld w 24 23 ≠ 3 ∧ (∀ r < 2, gOk s 0 (0x1000 + 64 * r) 32 = true ∧
      gOk s 0 (0x80000000000 + 32 * r) 32 = true ∧ isLocal s (0x80000000000 + 32 * r) = true) ∧ TokensFor s th0 rs) ∧
    (AtWord s2 th0 0 y v ∧ (∀ k ∈ setBits (15 : BitVec 32), tileHearth s2 k = some 0 ∧ tileRole s2 k ≠ 2 ∧
      ∀ r < 2, inScratch s2 k (0x40 + 32 * r) 32 = true) ∧ TokensFor s2 th0 rs2) := by
  unfold AtWord TokensFor; decide +kernel

theorem test_meets_ThreadTransfers_gathers :
    let x := x0 [0x80000000000, 0x80000001000, 0x20000, 32]
    let w := bw 0x21 [(54, 1), (50, 2), (46, 3), (42, 4), (33, 1), (12, 5)]
    let s := words (runs job w x) 0x80000000000 [3, 9]
    let from' := fun (r : Nat) => 0x20000 + leNat (readMem s.mem (0x80000000000 + 4 * r) 4) * 2 ^ 5
    let p := bw 0x23 [(54, 1), (50, 2), (33, 1)]
    (AtWord s th0 0 x w ∧ x.going = false ∧ lOk s 0 0x80000000000 8 = true ∧ place (gLoc 0x80000000000) = .win 0 0 ∧
      poisoned s (gLoc 0x80000000000) 8 = [] ∧ s.codes.words = [] ∧ (∀ r < 2, gOk s 0 (from' r) 32 = true ∧ gOk s 0 (0x80000001000 + 32 * r) 32 = true ∧
        isLocal s (from' r) = true) ∧
      TokensFor s th0 ((List.range 2).flatMap (fun r => rowReqs s th0 0 .alloc (from' r) (0x80000001000 + 32 * r) 32))) ∧
    (AtWord (runs job p (x0 [0x1000, 0])) th0 0 (x0 [0x1000, 0]) p ∧ lOk (runs job p (x0 [0x1000, 0])) 0 0x1000 32 = true) := by
  unfold AtWord TokensFor; decide +kernel

theorem test_meets_ThreadTransfers_packs :
    let w := fun (op f : Nat) => bw op [(54, 1), (50, 2), (46, 3), (42, 4), (33, 1), (12, f)]
    let x := x0 [0x1000, 0x80000000100, 0x80000001000, 0x80000002000]
    let y := x0 [0x1000, 0, 0x80000001000, 0x80000002000]
    let ready := fun (op f : Nat) (x : Thread) => modHearth (words (runs job (w op f) x) 0x80000001000 [32, 0]) 0
      (fun h => { h with mem := { h.mem with actBase := 0x4000, actLim := 32 } })
    (∀ op ∈ [0x25, 0x26], AtWord (ready op 0 x) th0 0 x (w op 0) ∧ ((List.range 2).map (fun i =>
        leNat (readMem (ready op 0 x).mem (0x80000001000 + 4 * i) 4))) = [32, 0] ∧
      (match devRead (walkBegun (ready op 0 x) th0) (some 0) .alloc (gLoc 0x80000001000) 8 [] with
       | some (s1, _, []) => (match devRead s1 (some 0) .alloc (gLoc 0x80000002000) 8 [] with | some (_, _, []) => true | _ => false)
       | _ => false) = true ∧
      lOk (ready op 0 x) 0 0x80000001000 8 = true ∧ lOk (ready op 0 x) 0 0x80000002000 8 = true ∧
      gOk (ready op 0 x) 0 0x1000 32 = true ∧ gOk (ready op 0 x) 0 0x80000000100 32 = true ∧
      TokensFor (ready op 0 x) th0 (rowReqs (ready op 0 x) th0 0 .alloc 0x1000 0x80000000100 32)) ∧
    (AtWord (ready 0x25 1 y) th0 0 y (w 0x25 1) ∧ (hearthAt (ready 0x25 1 y) 0).mem.actUsed.toNat + 32 ≤
        (hearthAt (ready 0x25 1 y) 0).mem.actLim.toNat ∧ gOk (ready 0x25 1 y) 0 (ofLoc 0x4000) 32 = true ∧
      isLocal (ready 0x25 1 y) (ofLoc 0x4000) = true) := by
  unfold AtWord TokensFor; decide +kernel

/-- Hearth 0 with a page table: one layer, one group, 16 pages; release counts at 0x100000, rings of 4. -/
def paged (s : State) : State := modHearth s 0 (fun h => { h with mem := { h.mem with
  kvcfg := h.mem.kvcfg ||| 1, kvrc := 0x100000, kvfree := 0x200002, kvfptr := 2 * 2 ^ 32, kvrel := 0x201002 } })
/-- Its registers: directory, data, geometry, first position. -/
def pageRegs (dir data pos : Nat) : Thread := x0 [dir, data, E4M3 * 2 ^ 48 + 16 * 2 ^ 24 + 1, pos]
def pw (f n : Nat) : BWord := bw 0x24 [(54, 1), (50, 2), (46, 3), (42, 4), (33, n), (12, f)]
def entry (s : State) (a v : Nat) : State := store s a (leBytes 8 v) []
/-- An entry as memory holds it, and whether the walker reads it as it stands. -/
def entryIn (s : State) (a : Nat) : Nat := leNat (readMem s.mem (gLoc a) 8)
def goesOn (s : State) (th : ThreadId) (a : Nat) : Bool :=
  match readEntry (walkBegun s th) 0 a with | .ok (e, _) => e == entryIn s a | .error _ => false
def rcIn (s : State) (f : Nat) : Nat := leNat (readMem s.mem (rcAddr s 0 f) 2)

theorem test_meets_PageReads :
    let x := pageRegs 0x1000 0x80000000000 255
    let s := entry (paged (runs job (pw 0 1) x)) 0x1008 (mkEntry false 5 3)
    let k := walkOf x (pw 0 1)
    AtWord s th0 0 x (pw 0 1) ∧ bit (hearthAt s 0).mem.kvcfg 0 = true ∧ k.n = 2 ∧ k.layer < k.layers ∧ k.group < k.groups ∧
    eV (entryIn s (entryAt k.dir (k.idx 0))) = false ∧ eV (entryIn s (entryAt k.dir (k.idx 1))) = true ∧ k.fmt ∈ [E4M3, E5M2, BF16, FP16] ∧
    (match devRead (walkBegun s th0) (some 0) .alloc (gLoc (entryAt k.dir (k.idx 0))) 8 [] with
      | some (n, _, []) => (match devRead n (some 0) .alloc (gLoc (entryAt k.dir (k.idx 1))) 8 [] with | some (_, _, []) => true | _ => false)
      | _ => false) = true ∧ frameOk s 0 k 3 = true ∧
    (∀ i < 2, k.page i < k.pages ∧ lOk s 0 (entryAt k.dir (k.idx i)) 8 = true ∧
      gOk s 0 (k.dst + BitVec.ofNat 64 (i * k.row)).toNat k.row = true) ∧ lOk s 0 (ofLoc (3 * 65536 + 0)) k.row = true ∧
    AtWord (paged (runs job (pw 1 1) x)) th0 0 x (pw 1 1) := by
  unfold AtWord; decide +kernel

theorem test_meets_PageAppendsAndSharing_appends :
    let x := pageRegs 0x1000 0x80000000000 5
    let z := pageRegs 0x1000 0x80000000000 0
    let at' := fun (x : Thread) (e : Nat) => words (entry (paged (runs job (pw 2 0) x)) 0x1000 e) 0x200000 [9, 0]
    let k := walkOf x (pw 2 0)
    let s := at' x (mkEntry false 5 3)
    let c := store (at' x (mkEntry true 5 3)) 0x100006 (leBytes 2 2) []
    AtWord s th0 0 x (pw 2 0) ∧ fld (pw 2 0) 41 33 = 0 ∧ lOk s 0 0x1000 8 = true ∧ gOk s 0 0x80000000000 k.row = true ∧
    gOk s 0 (0x80000000000 + k.row) k.row = true ∧ (eV (entryIn s 0x1000) = true ∧ eCOW (entryIn s 0x1000) = false ∧
      k.pos % 256 ≤ eFILL (entryIn s 0x1000) ∧ frameOk s 0 k 3 = true ∧ goesOn s th0 0x1000 = true ∧ entryBusy s 0 0x1000 = false) ∧ Calm s ∧
    s.codes = {} ∧ s.poison = [] ∧
    freeEmpty s 0 = false ∧ reach s (some 0) (ringAddr (hearthAt s 0).mem.kvfree 0) 4 = true ∧
    leNat (readMem s.mem (ringAddr (hearthAt s 0).mem.kvfree 0) 4) = 9 ∧ frameOk s 0 k 9 = true ∧ reach s (some 0) (rcAddr s 0 9) 2 = true ∧
    (AtWord (at' z 0) th0 0 z (pw 2 0) ∧ eV (entryIn (at' z 0) 0x1000) = false ∧ goesOn (at' z 0) th0 0x1000 = true ∧ (walkOf z (pw 2 0)).pos % 256 = 0) ∧
    (eCOW (entryIn c 0x1000) = true ∧ k.pos % 256 = eFILL (entryIn c 0x1000) ∧ 1 < rcIn c 3) := by
  unfold AtWord Calm; decide +kernel

theorem test_meets_PageAppendsAndSharing_counts :
    let x := pageRegs 0x1000 0x4000 0
    let at' := fun (f rc : Nat) => store (entry (paged (runs job (pw f 0) x)) 0x1000 (mkEntry false 5 3)) 0x100006 (leBytes 2 rc) []
    let k := walkOf x (pw 3 0)
    let u := entry (store (at' 3 1) 0x100006 (leBytes 2 2) []) 0x1000 (mkEntry true 5 3)
    (AtWord (at' 3 1) th0 0 x (pw 3 0) ∧ k.n * (k.layers * k.groups) = 1 ∧ k.page' 0 < k.pages ∧ lOk (at' 3 1) 0 (entryAt k.dir (k.idx' 0)) 8 = true ∧
      eV (entryIn (at' 3 1) 0x1000) = true ∧ lOk (at' 3 1) 0 (entryAt k.dst (k.idx' 0)) 8 = true ∧ rcIn (at' 3 1) 3 < 65535 ∧
      eV (entryIn u (entryAt k.dst (k.idx' 0))) = false ∧ entryBusy (at' 3 1) 0 0x1000 = false ∧ goesOn (at' 3 1) th0 0x1000 = true ∧
      (match (do let (_, u) ← readEntry (walkBegun (at' 3 1) th0) 0 0x1000
                 let u ← incFrame u 0 3 0x1000
                 let u ← writeEntry u 0 0x1000 (mkEntry true 5 3)
                 readEntry u 0 (entryAt k.dst (k.idx' 0)) : Except RowPlan (Nat × State)) with
       | .ok (d, _) => !eV d
       | .error _ => false) = true) ∧
    (AtWord (at' 4 2) th0 0 x (pw 4 0) ∧ 1 < rcIn (at' 4 2) 3 ∧ goesOn (at' 4 2) th0 0x1000 = true) ∧ (rcIn (at' 4 1) 3 = 1 ∧ goesOn (at' 4 1) th0 0x1000 = true ∧ relFull (at' 4 1) 0 = false ∧
      reach (at' 4 1) (some 0) (ringAddr (hearthAt (at' 4 1) 0).mem.kvrel 0) 4 = true) := by
  unfold AtWord; decide +kernel

def rq (dst : ReqDst) : Req := { core := 0, thr := 0, src := 0x1000, srcDev := none, len := 32, dst := dst, hint := .alloc, grp := 0 }
def withReq (r : Req) : State := withTile job (fun x => { x with blw := { x.blw with reqs := [r] } })

theorem test_meets_RequestsAndResumes :
    let r := rq (.loc 0x2000)
    let s := withReq r
    let l := withTile job (fun x => { x with blw := { x.blw with landings := [{ grp := 1, land := 31, mask := 15 }] } })
    let w := runs job (bw 0x18 []) { x0 [] with st := .wait }
    let q := runs (paged job) (pw 2 0) { x0 [] with stall := some (false, 0) }
    let e := runs (modHearth (paged job) 0 (fun h => { h with mem := { h.mem with kvfptr := 0 } })) (pw 2 0) { x0 [] with stall := some (false, 0) }
    let late : State := { e with cyc := 2 ^ 63 }
    ((tileAt s 0).blw.reqs[0]? = some r ∧ r.sent = false ∧ tileHearth s 0 = some 0 ∧
      (tileAt s 0).blw.draining = none ∧ r.ent = none ∧ (match reqBytes s 0 r [] with
       | some (s1, bs, ps) => (deliver s1 0 0 r 0 bs ps).isSome && ps.isEmpty
       | none => false) = true) ∧
    (0x1FFFFE0 + 32 ≤ 0x2000000) ∧ firstUnsent (tileAt (withReq (rq (.dev 7 0))) 0).blw.reqs 0 (rq (.dev 7 0)) = true ∧
    (tileAt l 0).blw.landings[0]? = some { grp := 1, land := 31, mask := 15 } ∧
    (threadAt (tileAt w 0) 0 0 = some { x0 [] with st := .wait } ∧ thReady w th0 0 { x0 [] with st := .wait } = true) ∧
    freeEmpty q 0 = false ∧ (freeEmpty late 0 = true ∧ 0 + 2 ^ fld (hearthAt late 0).mem.kvcfg 13 8 ≤ fc late) := by
  decide +kernel

theorem test_meets_HoldStates :
    let at' := fun (st : Nat) => { held job st with cyc := 2 ^ 40 }
    mayHearth job (.hob 0) 0 = true ∧ bit (hearthAt job 0).mem.sched 47 = false ∧
    bit (hearthAt (modHearth job 0 (fun h => { h with mem := { h.mem with sched := setFld h.mem.sched 47 47 1 } })) 0).mem.sched 47 = true ∧
    (holdState (at' 1) 0 = 1 ∧ tilesStopped (at' 1) 0 = true) ∧ (holdState (at' 2) 0 = 2 ∧ holdCauses (at' 2) 0 = 0) ∧
    (holdState (at' 3) 0 = 3 ∧ (hearthAt (at' 3) 0).run.since + 32 ≤ fc (at' 3)) ∧
    (hearthAt (at' 2) 0).run.since + 2 ^ fld (hearthAt (at' 2) 0).mem.sched 13 8 ≤ fc (at' 2) := by
  decide

/-- Tile 0 waits on counter 5 for the value 9. -/
def wt (e : Option WaitEnd) : TileWait := { ctr := 5, tgt := 9, fc := 0, held := 0, k := 10, ended := e }
def waits (e : Option WaitEnd) : State :=
  { withTile run0 (fun x => { x with misc := { x.misc with wait := some (wt e) } }) with cyc := 2 ^ 40 }

theorem test_meets_CounterWords :
    let base := withTile run0 (fun x => { x with misc := { x.misc with synTbW := vput x.misc.synTbW 3 true } })
    let w := wd 0x91 [(119, 1), (116, 3), (110, 40)]
    let rel := wd 0x93 [(119, 1), (103, 255)]
    let own : State := modCtr run0 255 (fun c => { c with owner := BitVec.ofNat 24 0x100000 })
    (Stands run0 t0 (wd 0x92 [(101, 255)]) 0x92 ∧ ctrIn run0 0 255 = true) ∧ (Stands run0 t0 (wd 0x93 [(103, 255)]) 0x93 ∧ (ctrAt run0 255).owner = 0) ∧
    (Stands own t0 rel 0x93 ∧ ctrIn own 0 255 = true ∧ (ctrAt own 255).owner.toNat = 0x100000) ∧
    (Stands own t0 (wd 0x93 [(103, 255)]) 0x93 ∧ (ctrAt own 255).owner ≠ 0) ∧
    (Stands base t0 w 0x91 ∧ (tileAt base 0).misc.wait = none ∧ vget (tileAt base 0).misc.synTbW 3 false = true ∧ ctrIn base 0 0 = true) ∧
    (Stands run0 t0 (wd 0x91 [(94, 255)]) 0x91 ∧ ctrIn run0 0 255 = true) ∧
    ((tileAt (waits (some .satisfied)) 0).misc.wait = some (wt (some .satisfied)) ∧ csState (waits (some .satisfied)) 0 = 1 ∧
      tileRuns (waits (some .satisfied)) 0 = true) := by
  unfold Stands; decide

/-- Wait slot 31 of hearth 0: word 0 and word 1. -/
def slot (st : Nat) (e : Option WaitEnd) : State :=
  { modHearth job 0 (fun h => { h with
      net := { h.net with ws1 := vput h.net.ws1 31 (BitVec.ofNat 64 (10 * 4 + st * 2 ^ 8)) }
      run := { h.run with wsEnd := vput h.run.wsEnd 31 e } }) with cyc := 2 ^ 40 }

theorem test_meets_CounterRegisterWrites :
    let own := modCtr job 255 (fun c => { c with owner := BitVec.ofNat 24 0x200000 })
    mayCtr job (.hob 0) 255 = true ∧ (ctrAt job 255).owner = 0 ∧ (ctrAt own 255).owner ≠ 0 ∧ (mayCtr own (.hob 0) 255 = true ∧ (ctrAt own 255).owner.toNat = (Agent.hob 0).code) ∧
    (mayHearth job (.hob 0) 0 = true ∧ wsSt (hearthAt job 0) 31 ≠ 1 ∧ ctrIn job 0 (wsCtr (hearthAt job 0) 31) = true ∧
      fld (0 : BitVec 64) 7 2 ≤ 40) := by
  decide

theorem test_meets_IncrementsAndWaits :
    let c : State := modHearth (modCtr run0 5 (fun c => { c with lost := true })) 0 (fun h => h)
    let fl : State := { waits none with flights := [{ ctr := 5, amt := 9, hearth := none, remote := false }] }
    ((tileAt (waits none) 0).misc.wait = some (wt none) ∧ 2 ^ 10 ≤ waited (waits none) 0 (wt none) ∧ csState (waits none) 0 = 1) ∧
    (wsSt (hearthAt (slot 1 (some .satisfied)) 0) 31 = 1 ∧ vget (hearthAt (slot 1 (some .satisfied)) 0).run.wsEnd 31 none = some .satisfied) ∧
    (wsSt (hearthAt (slot 1 none) 0) 31 = 1 ∧ vget (hearthAt (slot 1 none) 0).run.wsFc 31 0 + 2 ^ 10 ≤ fc (slot 1 none)) ∧
    ((tileAt (waits (some .ownerLost)) 0).misc.wait = some (wt (some .ownerLost)) ∧ csState (waits (some .ownerLost)) 0 = 1) ∧
    (wsSt (hearthAt (slot 1 (some .ownerLost)) 0) 31 = 1 ∧ wsCtr (hearthAt (slot 1 (some .ownerLost)) 0) 31 = 0) ∧
    (ctrAt c 5).lost = true ∧ ((∃ f ∈ fl.flights, f.ctr = 5) ∧ (ctrAt fl 5).sat = false ∧ (tileAt fl 0).misc.wait = some (wt none) ∧
      (wt none).tgt ≤ 0 + 9) ∧ (∀ f ∈ fl.flights, f.phase = none ∧ f.after = []) ∧
    ((tileAt (waits (some .timeout)) 0).misc.wait = some (wt (some .timeout)) ∧ csState (waits (some .timeout)) 0 = 1 ∧
      (wt (some .ownerLost)).endFc < fc (waits none)) ∧
    (wsSt (hearthAt (slot 1 (some .timeout)) 0) 31 = 1 ∧ vget (hearthAt (slot 1 (some .timeout)) 0).run.wsEnd 31 none = some .timeout ∧
      vget (hearthAt (slot 1 none) 0).run.wsEndFc 31 0 < fc (slot 1 none)) := by
  decide

/-- Port 0 is UP to device 7, which has a session and to which window 0 of hearth 0 opens everything. -/
def sess7 : Session := { dev := 7 }
def linkOf (st : Nat) : State :=
  let s := peers run0
  { modHearth (modPort s 0 (fun x => { x with cfg := x.cfg ||| 0x8000, state := BitVec.ofNat 64 st })) 0 (fun h => { h with
      net := { h.net with lnkWin := vput h.net.lnkWin 0 #v[BitVec.ofNat 64 (100 * 2 ^ 24 + 15), 0, BitVec.ofNat 64 (2 ^ 44 - 1), BitVec.ofNat 64 (255 * 2 ^ 32)] } })
    with lnk := { s.lnk with sessions := [sess7] }, cyc := 2 ^ 40 }
def linked : State := linkOf 3
def fr (ty ch : Nat) (opx : Nat) (bs : List Byte) : Frame :=
  { ftype := ty, ch := ch, ddev := 0, sdev := 7, plen := bs.length / 32, fnum := 1, opx := BitVec.ofNat 128 opx, payload := bs }
def z32 : List Byte := List.replicate 32 0
def wrF : Frame := fr 0x10 0 (0x1000 + 0x100000 * 2 ^ 48) z32
def rdF : Frame := fr 0x11 0 (0x1000 + 0x100000 * 2 ^ 48 + 2 ^ 72) []
def incF (seq bytes : Nat) : Frame := fr 0x20 0 0 (incPayload 7 0 5 seq bytes 3)
def rxOk (s : State) (f : Frame) (ty : Nat) (k : State → Bool) : Bool := match rxFront s 0 f ty with | .ok u => k u | .error _ => false

theorem test_meets_FramesCheckedAndTurnedAway :
    let twice := acceptNum linked 7 1
    let shut := modHearth linked 0 (fun h => { h with net := { h.net with lnkWin := Vector.replicate 16 (Vector.replicate 4 0) } })
    let tight := modHearth linked 0 (fun h => { h with net := { h.net with lnkRate := 31 } })
    Arrives linked 0 wrF 0x10 ∧ rxOk twice wrF 0x10 (fun u => isDup u wrF) = true ∧
    rxOk shut wrF 0x10 (fun u => !isDup u wrF && memWindow u 7 0 0x1000 32 == none) = true ∧
    rxOk tight wrF 0x10 (fun u => !isDup u wrF && memWindow u 7 0 0x1000 32 == some 0 && discard u 0 wrF == none &&
      (rateTake u 0 7 32 0).isNone) = true := by
  refine ⟨⟨by decide, by decide, by decide, by decide, by decide, by decide, sess7, by decide, by decide, by decide⟩, ?_⟩
  decide +kernel

theorem test_meets_WindowFramesCommit :
    let ch := fr 0x21 0 0 z32
    let long := { rdF with opx := BitVec.ofNat 128 (0x1000 + 0x100000 * 2 ^ 48 + 128 * 2 ^ 72) }
    let bad : State := { linked with poison := [0x80] }
    let busy := modPool linked 0 (fun _ => { tiles := [{ idx := 0, block := 4096 / 8192, owner := 0, busy := true }] })
    rxOk linked wrF 0x10 (fun u => memWindow u 7 0 0x1000 32 == some 0 && (match rateTake u 0 7 32 0 with
      | some v => (devWrite v (some 0) .noalloc 0x1000 z32 []).isSome
      | none => false)) = true ∧
    rxOk busy wrF 0x10 (fun u => match rateTake u 0 7 32 0 with
      | some v => (devWrite v (some 0) .noalloc 0x1000 z32 []).isNone
      | none => false) = true ∧
    sess7.fnumHigh < rdF.fnum + 16384 ∧ chainFull (tileAt linked 0) = false ∧ chainHeld linked 0 ch = false ∧
    rxOk linked rdF 0x11 (fun u => (sessOf u 7).isSome && memWindow u 7 1 0x1000 32 == some 0 && (devRead u (some 0) .noalloc 0x1000 32 []).isSome) = true ∧
    rxOk bad long 0x11 (fun u => memWindow u 7 1 0x1000 4096 == some 0 && (match devRead u (some 0) .noalloc 0x1000 4096 [] with
      | some (_, _, ps) => !ps.isEmpty
      | none => false)) = true ∧
    rxOk linked ch 0x21 (fun u => memWindow u 7 0 (accBase 0) 32 == some 0 && discard u 0 ch == none && (rateTake u 0 7 32 0).isSome) = true := by
  decide +kernel

theorem test_meets_RemoteIncrements :
    let rem := modCtr linked 5 (fun c => { c with rem := true })
    let wait := modSess rem 7 (fun x => { x with rx := vput x.rx 0 { com := 64, hwm := 1, pend := [{ fnum := 1, ctr := 5, bytes := 64, amt := 3 }] } })
    let ok := fun (u : State) => ctrHearth u 5 == some 0 && winGrants u 0 7 2 (ctrInside 5) && (ctrAt u 5).rem && decide (pendTotal u < 4096) &&
      (rateTake u 0 7 32 1).isSome
    rxOk rem (incF 1 0) 0x20 (fun u => ok u && (rxChan u 7 0).pend == []) = true ∧ rxOk rem (incF 1 32) 0x20 ok = true ∧
    leAt (incF 1 32).payload 8 8 = (rxChan rem 7 0).hwm + 1 ∧ leAt (incF 1 32).payload 16 6 = 32 ∧
    (rxChan wait 7 0).pend = { fnum := 1, ctr := 5, bytes := 64, amt := 3 } :: [] ∧ (rxChan wait 7 0).ann + 64 ≤ (rxChan wait 7 0).com ∧
    (ctrAt wait 5).sat = false := by
  decide +kernel

def sentE (f : Frame) (u : SendUse) : SendEntry := { dev := 7, frame := { f with ddev := 7, sdev := 0 }, sent := 0, use := u }
def withSend (l : List SendEntry) : State := { linked with lnk := { linked.lnk with send := l } }

theorem test_meets_EntriesEnd :
    let i := sentE (incF 1 0) (.inc 0 3)
    let r := sentE { rdF with opx := BitVec.ofNat 128 (2 * 2 ^ 72) } (.req 0 0 0)
    let q : Req := { rq (.loc 0x2000) with srcDev := some 7, fnum := some 1, sent := true }
    let s := withTile (withSend [r]) (fun x => { x with blw := { x.blw with reqs := [q] } })
    let ak := fr 0x18 7 1 []
    let d := fr 0x12 6 1 z32
    let d2 := fr 0x12 6 1 (z32 ++ z32)
    rxOk (withSend [i]) ak 0x18 (fun u => !isDup u ak) = true ∧ findEntry (withSend [i]) 7 1 = some i ∧ i.frame.ftype = 0x20 ∧ i.use = .inc 0 3 ∧
    findEntry s 7 1 = some r ∧ r.use = .req 0 0 0 ∧ rxOk s d 0x12 (fun u => !isDup u d && findEntry u 7 1 == some r) = true ∧
    (reqIdx s 0 0 0 1 7 = some 0 ∧ (tileAt s 0).blw.reqs[0]? = some q ∧ q.dst = .loc 0x2000 ∧ q.ent = none ∧
      (tileAt s 0).blw.draining = none ∧ tileHearth s 0 = some 0) ∧ r.units = [] ∧ fld r.frame.opx 79 72 = 2 ∧
    rxOk s d 0x12 (fun u => (deliver u 0 0 { q with hint := .noalloc } 0 d.payload d.poison).isSome) = true ∧
    rxOk s d2 0x12 (fun u => !isDup u d2 && (deliver u 0 0 { q with hint := .noalloc } 0 d2.payload d2.poison).isSome) = true := by
  decide +kernel

theorem test_meets_SessionsAndResends :
    let e := sentE wrF .other
    let w : State := { peers run0 with lnk := { run0.lnk with waiting := [e] } }
    let o : State := { linked with lnk := { linked.lnk with waiting := [e] } }
    let cl := fr 0x2F 7 0 []
    let old : State := { linked with lnk := { linked.lnk with sessions := [{ sess7 with txFrames := 2 ^ 32 }] } }
    let hs : Handshake := { hstep := 2, sigOk := true, dev := 7, topoid := 0, idHash := 1, firstSec := 0, lastSec := 2 ^ 34 }
    let x : SessHs := { loMaj := 1, hiMaj := 1, cert := hs, signOk := true, confirmOk := true, ss := [], th := [] }
    let cal : State := { w with stk := { w.stk with stat := setFld w.stk.stat 14 14 1, calCyc := w.cyc } }
    (sessOf cal 7 = none ∧ (∃ r ∈ cal.tmp.cur.dev.ranges, r.1 ≤ 7 ∧ 7 ≤ r.2) ∧ cal.lnk.sessions.length < 4096 ∧ hsFault cal 7 x = none ∧
      hsFault cal 7 { x with loMaj := 2 } = some 5 ∧ hsFault cal 7 { x with signOk := false } = some 6 ∧
      hsFault cal 7 { x with cert := { hs with dev := 8 } } = some 7 ∧ hsFault cal 7 { x with confirmOk := false } = some 9) ∧
    sessOf old 7 = some { sess7 with txFrames := 2 ^ 32 } ∧ rxOk linked cl 0x2F (fun u => !isDup u cl) = true ∧
    (findEntry (withSend [e]) 7 1 = some e ∧ e.deferred = none ∧ e.due = false ∧ e.sent + 2 ^ fld linked.lnk.topo 57 52 ≤ fc linked) ∧
    findEntry (withSend [{ e with resends := 4 }]) 7 1 = some { e with resends := 4 } ∧
    o.lnk.waiting.find? (fun q => mayEnter o q && decide (o.lnk.waiting.find? (fun v => v.dev == q.dev) = some q)) = some e := by
  decide

theorem test_meets_FramesAreForwarded :
    let f := { wrF with ddev := 9 }
    let sw : State := { linked with lnk := { linked.lnk with topo := setFld linked.lnk.topo 63 63 1 } }
    let tor : State := modPort { linked with lnk := { linked.lnk with topo := 0x120000000010000, dtr := vput linked.lnk.dtr 0 0x81 } } 1
      (fun x => { x with state := 3, cfg := setFld x.cfg 15 14 1 })
    let dim := modPort tor 0 (fun x => { x with state := 4 })
    let poor := modPort sw 0 (fun x => { x with ll := { x.ll with crOut := [(0, 64 + 1024)] } })
    (portUp sw 0 = true ∧ f.ddev ≠ devNo sw ∧ typeKnown f.ftype = true ∧ route (freeRx sw 0 f) 9 0 = .port 0) ∧
    (portUp dim 1 = true ∧ f.ddev ≠ devNo dim ∧ (route (freeRx dim 1 { f with ddev := 1 }) 1 0 = .detour 1)) ∧
    (portUp poor 0 = true ∧ (portAt poor 0).outq = [] ∧ f.ch < 7 ∧ crOk (portAt poor 0) f = false) ∧
    ((portAt sw 0).outq = [] ∧ crOk (portAt sw 0) f = true) := by
  decide

theorem test_meets_FlitsAndReplays :
    let ok : Flit := { uncorrectable := false, corrected := true, fcrcOk := true, ft := 0, lane := 0, fseq := 0, ackValid := false, ack := 0,
                       replay := false, cret := List.replicate 8 0, takes := 2 }
    let s := modPort linked 0 (fun x => { x with ll := { x.ll with kept := [32767], txNext := 0, repFrom := 5 }, waitFc := some 0 })
    (portUp linked 0 = true ∧ ok.lane = ok.fseq % 8 ∧ ok.fseq = (portAt linked 0).ll.rxNext ∧ ∀ c ∈ ok.cret, c = 0) ∧
    (∀ k < 8, vget (portAt linked 0).ll.lane k 0 < 16) ∧
    (((portAt s 0).ll.txNext + 32768 - 32767) % 32768 = 1 ∧ 32767 ≠ (portAt s 0).ll.repFrom ∧ (portAt s 0).ll.kept.head? = some 32767 ∧
      (portAt s 0).ll.ackFc + 2 ^ fld (portAt s 0).cfg 5 0 ≤ fc s) ∧
    ((portAt s 0).waitFc = some 0 ∧ max 0 (portAt s 0).ll.credFc + 2 ^ fld (portAt s 0).cfg 11 6 ≤ fc s) := by
  decide

theorem test_meets_PortStates :
    let hs := fun (step : Nat) => ({ hstep := step, sigOk := true, dev := 7, topoid := 0, idHash := 1, firstSec := 0, lastSec := 2 ^ 34 } : Handshake)
    let adm : State := let s := modPort (linkOf 2) 0 (fun x => { x with hello := some (1, 0, 7), certOk := true })
      { s with stk := { s.stk with stat := setFld s.stk.stat 14 14 1, calCyc := s.cyc, up := true } }
    (portState (linkOf 0) 0 = 0 ∧ fld (portAt (linkOf 0) 0).cfg 15 14 = 2 ∧
      fld (portAt (modPort (linkOf 0) 0 (fun x => { x with cfg := 0x4000 })) 0).cfg 15 14 = (if bit (linkOf 0).lnk.topo 63 then 2 else 1) ∧
      bit (linkOf 0).recs.excl1 0 = false) ∧ portState linked 0 = 3 ∧
    (∀ k ∈ [1, 2, 4, 5, 6], portState (linkOf k) 0 = k ∧ (portAt (linkOf k) 0).since + 2 ^ 30 ≤ fc (linkOf k)) ∧
    ((portAt (linkOf 6) 0).outq = [] ∧ fld (portAt (linkOf 6) 0).crd 47 32 = 0) ∧
    (portState adm 0 = 2 ∧ (portAt adm 0).hello = some (1, 0, 7) ∧ certFault adm 0 7 (hs 2) = none ∧
      certFault adm 0 7 { hs 2 with sigOk := false } = some 6 ∧ (portAt adm 0).certOk = true ∧ (portAt adm 0).sigMade = false ∧ adm.stk.up = true) := by
  decide

theorem test_meets_RegisterAccesses :
    let own : Agent := .hob 0
    let at' := fun (a : Nat) => locOf ((ctlBase + a - ctlBase) / 8 * 8)
    let lock := modHearth job 0 (fun h => { h with run := { h.run with locked := true } })
    job.pwr.off = false ∧ mayLoc job own (at' 0x1010100) = false ∧ (mayLoc job own (at' 0x1000104) = true ∧ alignedReg (ctlBase + 0x1000104) 4 = true ∧
      alignedReg (ctlBase + 0x1000104) 8 = false) ∧
    (rsvdBits (.hearth 0 0x218) = 0 ∧ rsvdBits (.hearth 0 0x200) ≠ 0 ∧
      (let s := modHearth job 0 (fun h => { h with mem := { h.mem with kvfree := 2, kvfptr := 7 } })
       (11 + 2 ^ 32 - fld (BitVec.ofNat 64 (readLoc s (.hearth 0 0x218))) 31 0) % 2 ^ 32 ≤ 2 ^ fld (hearthAt s 0).mem.kvfree 4 0 ∧
       2 ^ fld (hearthAt s 0).mem.kvfree 4 0 < (12 + 2 ^ 32 - fld (BitVec.ofNat 64 (readLoc s (.hearth 0 0x218))) 31 0) % 2 ^ 32)) ∧
    (∀ o ∈ [0x100, 0x1108, 0x200, 0x1138], at' (0x1000000 + o) = .hearth 0 o ∧ mayLoc job own (.hearth 0 o) = true) ∧
    (hearthAt job 0).run.locked = false ∧ (hearthAt lock 0).run.locked = true ∧ bitsOf (maskHearth 0x200).rwl ≠ 0 ∧
    (at' 0x10 = .tile 0 0x10 ∧ tileRole job 0 ≠ 2 ∧ mayLoc job own (.tile 0 0x10) = true) ∧
    (at' (0x3000000 + 0x8000 + 8 * 4095) = .blw 0 (0x8000 + 8 * 4095) ∧ mayLoc job own (at' (0x3000000 + 0x8000)) = true) ∧
    (∀ o ∈ [0x100010, 0x80018], at' (0x30000000 + o) = .plat o ∧ mayLoc job .stoker (.plat o) = true ∧ mayLoc job (.host 0) (.plat o) = true) := by
  decide

/-- The host link is UP, virtual functions are enabled, 16 of them, and booting has ended. -/
def hosted : State :=
  let s := { job with hif := { job.hif with link := 2, vfEn := true }, tmp := { job.tmp with cur := { job.tmp.cur with dev := { job.tmp.cur.dev with nvf := 16 } } } }
  temperFns { s with pwr := { s.pwr with booted := 0xFFE, rails := 0xFF } }
def poolAccess : MAccess :=
  { agent := .hob 0, hearth := 0, addr := 0x20000000, len := 8, wr := true, data := [1, 2, 3, 4, 5, 6, 7, 8], poison := [] }
/-- Every tile of pool 0 holds a block of hearth 0, all but the first are being written back, and an access waits. -/
def fullPool (dirty : BitVec 256) : Pool :=
  { tiles := { idx := 0, block := 0, dirty := dirty, owner := 0 } ::
      (List.range 2047).map (fun i => { idx := i + 1, block := i + 1, dirty := dirty, owner := 0, busy := true })
    waiting := [poolAccess] }

theorem test_meets_MemoryAccesses :
    let t := modPool job 0 (fun _ => { tiles := [{ idx := 0, block := 0, owner := 0, busy := true }] })
    (job.pwr.off = false ∧ mayMem job (.hob 0) 0x600000000 8 = false ∧ mayMem job (.hob 0) 0x5FFFFFFF8 8 = true ∧ Settled job []) ∧
    (place 0x5FFFFFFF8 = .deep 0x5FFFFFFF8 ∧ inBytes 0x5FFFFFFF8 8 0x2FFFFFFF = true ∧ fromDeep job (32 * 0x2FFFFFFF) 32 = true) ∧
    (mayMem t (.tile 0) 0 8 = true ∧ devWrite t (tileHearth t 0) .alloc 0 (List.replicate 8 1) [] = none) ∧
    ((barOk hosted 16 false).1 = true ∧ hosted.pwr.bootWarm = false) ∧ (barOk job 0 false).1 = false ∧
    (barOk { hosted with pwr := { hosted.pwr with bootWarm := true } } 0 false).1 = true := by
  unfold Settled Calm; decide +kernel

theorem test_meets_HostInterface :
    let im := List.replicate 32 (0 : Byte)
    let m := modFn hosted 0 (fun x => { x with mbx1 := 32 })
    let ide : State := { hosted with hif := { hosted.hif with ide := vput hosted.hif.ide 31 { fn := some 1, insecure := false } } }
    fld hosted.hif.link 1 0 ≠ 0 ∧ (hosted.pwr.off = false ∧ bit hosted.pwr.rails 7 = true) ∧ fld hosted.hif.link 1 0 = 2 ∧ hosted.hif.vfEn = true ∧
    fnEnabled hosted 16 = true ∧ vget ide.hif.ide 31 {} = { fn := some 1, insecure := false } ∧
    (fnAlive hosted 0 = true ∧ bit (vget (modFn hosted 0 (fun x => { x with mbx2 := 2 })).hif.fns 0 {}).mbx2 1 = true) ∧
    (fnAlive m 0 = true ∧ bit (vget m.hif.fns 0 {}).mbx2 1 = false ∧ ideOk m 0 = true ∧ maySubmit m 0 im = true ∧ m.tmp.st = .idle) ∧
    (fnAlive hosted 1 = true ∧ maySubmit hosted 1 [] = false) := by
  decide

theorem test_fullPool_none_free (d : BitVec 256) : freeTile (fullPool d) 0 = none := by
  simp only [freeTile, fullPool, List.find?_eq_none, List.mem_range, List.length_nil, Nat.add_zero]
  intro i hi
  cases i with
  | zero => simp
  | succ i => simpa using fun h => absurd rfl (h i (by omega))

theorem foldl_keeps (f : Option MTile → MTile → Option MTile) (hf : ∀ b m, (f b m).isSome = true) :
    ∀ (l : List MTile) (b : Option MTile), b.isSome = true → (l.foldl f b).isSome = true
  | [], _, h => h
  | m :: l, b, _ => foldl_keeps f hf l (f b m) (hf b m)

theorem test_fullPool_victim (d : BitVec 256) : (victim (modPool job 0 (fun _ => fullPool d)) 0 0).isSome = true := by
  have h : ∀ (p : MTile → Bool) (m : MTile) (l : List MTile) (f : Option MTile → MTile → Option MTile), p m = true →
      (∀ b m, (f b m).isSome = true) → (((m :: l).filter p).foldl f none).isSome = true := by
    intro p m l f hm hf
    rw [List.filter_cons_of_pos hm, List.foldl_cons]
    exact foldl_keeps f hf _ _ (hf none m)
  refine h _ _ _ _ rfl ?_
  intro b m
  cases b with
  | none => rfl
  | some v => by_cases hv : v.age < m.age <;> simp [hv]

theorem test_meets_MemoryTiers :
    let f := fun d => modPool job 0 (fun _ => fullPool d)
    let w := modPool job 0 (fun _ => { tiles := [{ idx := 9, block := 0, owner := 0, busy := true }], waiting := (fullPool 0).waiting })
    let op := modHearth job 0 (fun h => { h with mem := { h.mem with mtlOpadr := 0x5FFFFFF00, mtlOplen := 0x100 } })
    let bad := modHearth job 0 (fun h => { h with mem := { h.mem with mtlOpadr := 0x600000000, mtlOplen := 0x100 } })
    (let hot := { vput job.msys.stk 0 (BitVec.ofNat 64 (2 + 8 * 2 ^ 24)) with }
     let t : State := { modPool job 0 (fun _ => { tiles := [{ idx := 0, block := 0, dirty := 1, marked := 1, owner := 0 }] }) with msys := {
       (modPool job 0 (fun _ => { tiles := [{ idx := 0, block := 0, dirty := 1, marked := 1, owner := 0 }] })).msys with stk := hot } }
     backBlocked t 0 256 false = true ∧ backBlocked job 0 deepTop false = false ∧ (∀ p < 2, (poolAt job p).waiting = []) ∧
     tilesWanted job 0 = [] ∧ recalDue job 0 0 = false ∧ recalDue { job with cyc := 2 ^ 26 } 0 255 = true) ∧
    (mayHearth op (.hob 0) 0 = true ∧ (hearthAt op 0).run.mtl = none ∧ reach op (some 0) 0x5FFFFFF00 0x100 = true) ∧
    reach bad (some 0) 0x600000000 0x100 = false ∧ (hearthAt (modRun job 0 (fun r => { r with mtl := some ⟨true, 0, deepTop⟩ })) 0).run.mtl.isSome = true ∧
    (∀ d, poolAt (f d) 0 = fullPool d) ∧ (∀ d, (victim (f d) 0 0).isSome = true) ∧
    ((freeTile (poolAt w 0) 0).isSome = true ∧ (serveAccess w poolAccess).isSome = true) ∧
    (poolAt w 0).tiles.find? (fun m => m.idx == 9) = some { idx := 9, block := 0, owner := 0, busy := true } ∧ (∀ k < 12, tripped w k = false) ∧
    32 * (deepTop / 32 - 1) < deepTop := by
  refine ⟨by decide +kernel, by decide, by decide, by decide, fun d => rfl, test_fullPool_victim, ?_⟩
  decide +kernel

/-- Rails up, every boot step begun and ended, at count c. -/
def powered (c : Nat) : State := { job with cyc := 2 * c, pwr := { job.pwr with rails := 0xFF, booted := 0xFFE, clkStat := 1 } }

theorem test_meets_PowerAndClocks :
    let s := powered (2 ^ 21)
    let low : State := { s with pwr := { s.pwr with nextStep := vput s.pwr.nextStep 0 (some 3) }, cyc := 30 }
    let lend : State := { withTile run0 (fun x => { x with misc := { x.misc with wait := some (wt none) } }) with cyc := 2 ^ 20 }
    let back : State := let u := withTile run0 (fun x => { x with misc := { x.misc with wait := some (wt (some .satisfied)) } })
      { u with pwr := { u.pwr with clkTile := vput u.pwr.clkTile 0 0x80 } }
    let sag : State := { s with pwr := { s.pwr with sagged := true } }
    let big : State := { s with pwr := { s.pwr with dev := 3000 } }
    let em : State := { s with pwr := { s.pwr with emerg := [(6, 0)] } }
    let rail : State := { s with pwr := { s.pwr with rails := 0x7F } }
    (tileHearth s 0 = some 0 ∧ hctlState s 0 ≠ 2 ∧ (∀ k < 16, (0 : Nat) ∈ hTiles s k → k = 0) ∧ bit s.pwr.lentTiles 0 = false ∧
      clkMax s 0 ≤ clkMin s 0 ∧ clkMin s 0 ≤ 3) ∧
    (fc low % 15 = 0 ∧ vget low.pwr.nextStep 0 none = some 3) ∧
    ((tileAt lend 0).misc.wait = some (wt none) ∧ 2500 ≤ waited lend 0 (wt none) ∧ tileRuns lend 0 = true) ∧
    ((tileAt back 0).misc.wait = some (wt (some .satisfied)) ∧ bit (vget back.pwr.clkTile 0 0) 7 = true ∧
      ∀ k < 32, vget back.pwr.nextStep k none = none) ∧
    sag.pwr.sagged = true ∧ 2550 < fld big.pwr.dev 15 0 ∧ 105 * fld s.pwr.dev 15 0 < 100 * 65535 ∧
    (look? em.pwr.emerg 6 = some 0 ∧ 0 + 2 ^ 20 ≤ fc em) ∧ fc { em with cyc := 0 } < 0 + 2 ^ 20 ∧
    (s.pwr.off = false ∧ bootBegun s 2 = true ∧ bit s.pwr.clkStat 0 = true) ∧ ((∀ j < 7, bit rail.pwr.rails j = true) ∧ bit rail.pwr.rails 7 = false) ∧
    (job.pwr.off = false ∧ bootBegun job 3 = false ∧ job.pwr.bootStop = none) ∧ bit s.pwr.cool 32 = false := by
  decide

theorem test_meets_FunctionsBootAndResets :
    let fn := fun (k : Nat) => setFn job 75 k
    let booted := powered 0
    let warm : State := { booted with pwr := { booted.pwr with warming := some 0 }, cyc := 2 ^ 21 }
    let stuck : State := { booted with pwr := { booted.pwr with booted := 0x7FE } }
    let d : State := { job with tmp := { job.tmp with durable := job.tmp.cur } }
    let q := modQueue d 0 (fun w => { w with cfg := w.cfg ||| 1 })
    (∀ k < 6, fnSt (fn k) 75 = k ∧ fnBefore (fn k) 75 = k ∧ enableDropped (fn k) 75 = false ∧ startReady (fn k) 75 = true ∧ stopReady (fn k) 75 = true) ∧
    (enableDropped { job with pwr := { job.pwr with disAt := [(75, 0)] } } 75 = true) ∧
    (d.flights = [] ∧ d.lnk.sessions = [] ∧ d.lnk.waiting = [] ∧ (∀ p < 2, (poolAt d p).waiting = []) ∧ (∀ t < 32, (tileAt d t).blw.reqs = [] ∧ (tileAt d t).blw.draining = none) ∧
      d.tmp.cur = { d.tmp.durable with serDev := d.tmp.cur.serDev } ∧ movedRegions d d = []) ∧
    (job.pwr.off = false ∧ job.pwr.bootStop = none ∧ bootNext job = some 1 ∧ bootBegun job 1 = false ∧ ∀ j ≤ 11, bootBegun job j = false) ∧
    bootNext { stuck with pwr := { stuck.pwr with booted := 0x17E } } = some 7 ∧
    (warm.pwr.warming = some 0 ∧ 0 + 2 ^ 20 ≤ fc warm) ∧ fc { warm with cyc := 0 } < 2 ^ 20 ∧
    (bit booted.pwr.booted 3 = true ∧ ∀ t < 32, (tileAt booted t).misc.ph = none) ∧
    (hOn q 0 = true ∧ q.tmp.st = .idle ∧ vget q.tmp.durable.hearths 0 {} = hsec q 0 ∧ qEn (queueAt q 0) = true) := by
  decide +kernel

/-- Hearth 0 with epoch 5 in this state, epoch 6 asked for. -/
def epoch (st : Nat) : State := modHearth job 0 (fun h => { h with
  chk := { h.chk with ectl := BitVec.ofNat 64 (4 * st), epoch := 5, epochReq := 6 }, run := { h.run with epochHigh := 5 } })
/-- The same, rank 0 of a check group of two; counter 10 announces one new board entry of rank 1. -/
def grouped (st kind e : Nat) : State :=
  let s := modHearth (epoch st) 0 (fun h => { h with
    chk := { h.chk with chkGrp0 := 0x300000, chkGrp1 := BitVec.ofNat 64 (10 * 2 ^ 48 + 11 * 2 ^ 32 + 1) }
    net := { h.net with grp0 := vput h.net.grp0 0 1 } })
  modCtr (store s (0x300000 + 96 + 32 * (kind - 1)) (boardEntry e kind 4 1 7) []) 10 (fun c => { c with value := 1 })

theorem test_meets_CheckEpochs_states :
    (mayHearth job (.hob 0) 0 = true ∧ ecState (epoch 0) 0 ≠ 3 ∧ (hearthAt (epoch 0) 0).run.epochHigh < (hearthAt (epoch 0) 0).chk.epochReq.toNat) ∧
    (∀ k ∈ [1, 2, 3, 6], ecState (epoch k) 0 = k) ∧ (hearthAt job 0).chk.epochReq.toNat ≤ (hearthAt job 0).run.epochHigh ∧
    (chkLevel (epoch 2) 0 = 0 ∧ chkEn (epoch 2) 0 = false ∧ ctrIn (epoch 2) 0 (chkCctr (epoch 2) 0) = true) ∧
    (chkEn (grouped 2 1 4) 0 = true ∧ allConfirmed (grouped 2 1 4) 0 = false ∧ otherRanks (grouped 2 1 4) 0 = [1]) ∧ hOn (epoch 1) 0 = true ∧
    (let c := modRun (grouped 3 1 5) 0 (fun r => { r with board := [(5, 5)] }); ecState c 0 = 3 ∧ allConfirmed c 0 = true) := by
  decide +kernel

theorem test_meets_CheckEpochs_notices :
    let entry := fun (s : State) (j : Nat) => readMem s.mem (chkBoard s 0 + 96 * 1 + 32 * (j - 1)) 32
    let isNew := fun (s : State) (j : Nat) => leAt (entry s j) 8 1 == j && look? (hearthAt s 0).run.board (4 * 1 + j) != some (leAt (entry s j) 0 8)
    let m : Notice := { rank := 1, kind := 1, epoch := 5, trig := 0 }
    let q := modRun (grouped 3 1 5) 0 (fun r => { r with notices := [m], recovery := [{ addr := 0x1000, dst := 0, agent := 0, since := 0 }] })
    (∀ e ∈ [(1, 3), (2, 1), (3, 6)], let s := grouped e.2 e.1 5
      (hearthAt s 0).run.nctrRead < (ctrAt s (chkNctr s 0)).value.toNat ∧ isNew s e.1 = true ∧ (∀ j ∈ [1, 2, 3], j ≠ e.1 → isNew s j = false) ∧
      ecState s 0 = e.2 ∧ epochE s 0 = 5) ∧
    (∀ k ∈ (hearthAt q 0).run.notices, k.rank = 1 → k.sent = false) ∧ (hearthAt q 0).run.notices.find? (fun k => k.rank == 1) = some m ∧
    ((hearthAt { q with cyc := 2 ^ 63 } 0).run.confirmedFc + 2 ^ fld (hearthAt q 0).chk.chkCfg 47 42 ≤ fc { q with cyc := 2 ^ 63 }) ∧
    (0 + 2 ^ fld (hearthAt q 0).chk.chkCfg 41 36 ≤ fc { q with cyc := 2 ^ 63 } ∧ (hearthAt q 0).run.recovery.length = 1) := by
  decide +kernel

theorem test_meets_TestsClassesAndRecords :
    let w := wd 0xB0 [(104, 128)]
    let ok := withTile run0 (fun x => { x with misc := { x.misc with chkSpk0 := 0 } })
    let due := withTile run0 (fun x => { x with misc := { x.misc with chkSpk0 := 4 } })
    let inRun := withTile run0 (fun x => { x with blw := { x.blw with pend := some w }, misc := { x.misc with chkSpk0 := 5 } })
    let late : State := { due with cyc := 2 ^ 63 }
    let u : State := { run0 with stk := { run0.stk with collectors := Vector.replicate 2 { addr := 9, dropped := 1 } } }
    let r : Rec := { seq := 0, cyc := 0, cls := 1, sev := 1, space := 0, code := 0, agent := 0 }
    let v : State := { u with recs := { u.recs with ring := [r], supp := 1, digests := [(3, 0, 1), (3, 4, 2)] }, cyc := 2 ^ 63 }
    let sus : State := { u with recs := { u.recs with tiles := vput u.recs.tiles 0 { cls := .suspect } } }
    (Stands ok t0 w 0xB0 ∧ inScratch ok 0 (32 * wf w 103 84) 0x400000 = true ∧ tileIdle (tileAt ok 0) = true ∧
      (∀ k ∈ pairOf ok 0, spkRunning ok k = false) ∧ spkSt ok 0 = 0) ∧
    (Stands due t0 w 0xB0 ∧ 1 ≤ spkSt due 0 ∧ 131072 ≤ wf w 119 104 * 1024) ∧
    (tileRole inRun 0 = 0 ∧ csState inRun 0 = csRunning ∧ tileRuns inRun 0 = true ∧ (tileAt inRun 0).blw.pend = some w ∧ opOf w = 0xB0 ∧
      spkRunning inRun 0 = true) ∧
    (tileHearth late 0 = some 0 ∧ spkSt late 0 = 1 ∧ (tileAt late 0).misc.spkDue + 2 ^ fld (hearthAt late 0).chk.chkCfg 29 24 ≤ fc late) ∧
    (spkSt { ok with cyc := 2 ^ 63 } 0 = 0 ∧ 0 + 2 ^ fld (hearthAt ok 0).chk.chkCfg 35 30 ≤ fc { ok with cyc := 2 ^ 63 }) ∧
    (v.stk.up = true ∧ v.recs.digests.filter (fun d => d.1 == 3) = (3, 0, 1) :: [(3, 4, 2)] ∧ v.recs.dispute = none ∧ sroundNow v = 0 ∧
      (∀ h < 16, vget (portAt v 0).jobs h none = none) ∧ v.recs.ring = r :: [] ∧ 0 < (vget v.stk.collectors 1 {}).dropped ∧
      0 < v.recs.supp ∧ v.recs.ring.length < 4096 ∧ v.recs.taken + 2 ^ 30 ≤ fc v) ∧
    (histOf sus (.tile 0)).cls = .suspect ∧ (histOf v (.tile 0)).cls = .good := by
  unfold Stands; decide +kernel

/-- Queue 0 of hearth 0, OPEN, its producer Hob core 0, its ring at 0x1000, with a ready store. -/
def queued (kind : Nat) (seq : Nat) (it : List Item) : State :=
  let s := modQueue job 0 (fun w => { w with
    cfg := setFld w.cfg 63 40 0x200000 ||| 1, ring := 0x1000, stat := 1, ptr := BitVec.ofNat 64 (2 ^ 32), items := it })
  { store s 0x1000 (leBytes 8 seq ++ leBytes 1 kind ++ List.replicate 55 0) [] with
      lgr := { s.lgr with dev := setFld s.lgr.dev 1 0 1 }, cyc := 2 ^ 62 }
def itemOf (kind : Nat) (st : ItemSt) : Item := { seq := 1, desc := leBytes 8 1 ++ leBytes 1 kind ++ List.replicate 55 0, st := st }

theorem test_meets_WorkItems_posted :
    let serves := fun (s : State) => qEn (queueAt s 0) && decide (qState (queueAt s 0) = qOPEN) && !s.recs.silent && prodLives s (queueAt s 0)
    let s := queued 8 1 []
    let d := readMem s.mem (qBase (queueAt s 0) + 64 * (qHead (queueAt s 0) % 2 ^ qLogn (queueAt s 0))) 64
    let r := modQueue s 0 (fun w => { w with read := some d })
    (qEn (queueAt s 0) = true ∧ (Agent.hob 0).code = qProd (queueAt s 0) ∧ (16 + 2 ^ 32 - qHead (queueAt s 0)) % 2 ^ 32 ≤ 2 ^ qLogn (queueAt s 0) ∧
      2 ^ qLogn (queueAt s 0) < (17 + 2 ^ 32 - qHead (queueAt s 0)) % 2 ^ 32) ∧
    (serves s = true ∧ qHead (queueAt s 0) ≠ qTail (queueAt s 0) ∧ (queueAt s 0).read = none ∧
      reach s (some 0) (qBase (queueAt s 0) + 64 * (qHead (queueAt s 0) % 2 ^ qLogn (queueAt s 0))) 64 = true ∧
      Wd.seq d = (queueAt s 0).acc.toNat + 1) ∧
    (∀ k ∈ [0, 1, 2], leNat (readMem (queued 8 k []).mem 0x1000 8) = k) ∧
    ((queueAt r 0).read = some d ∧ serves r = true ∧ storeReady r = true ∧ Wd.seq d ≤ (queueAt r 0).ret.toNat + 2 ^ qLogn (queueAt r 0)) := by
  decide +kernel

theorem test_meets_WorkItems_run :
    let q := fun (k : Nat) (st : ItemSt) => queued 8 1 [itemOf k st]
    let gap := modQueue (queued 8 1 []) 0 (fun w => { w with stat := BitVec.ofNat 64 (lgSEQGAP * 2 ^ 8 + 2) })
    let done := modQueue (queued 8 1 []) 0 (fun w => { w with done := 4, ret := 2 })
    let rec' := modQueue (queued 8 1 []) 0 (fun w => { w with stat := 3 })
    let pre := modHearth job 0 (fun h => { h with chk := { h.chk with hctl := 4 } })
    (∀ k ∈ [1, 8], (queueAt (q k .pending) 0).items.find? isPending = some (itemOf k .pending) ∧ mayStart (q k .pending) 0 (itemOf k .pending) = true) ∧
    Wd.kind (itemOf 1 .pending).desc = kSTREAM ∧ Wd.kind (itemOf 8 .pending).desc = kFENCE ∧
    (∀ st ∈ [ItemSt.ended 0 0, .running 0], itemAt (q 2 st) 0 1 = some (itemOf 2 st) ∧ storeReady (q 2 st) = true ∧ (queueAt (q 2 st) 0).done.toNat + 1 = 1) ∧
    (Wd.kind (itemOf 2 (.running 0)).desc = kDATA ∧ (itemOf 2 (.running 0)).left = 0 ∧ Wd.a4 (itemOf 2 (.running 0)).desc = 0) ∧
    (Wd.tmo (itemOf 1 (.running 0)).desc = 0 ∧ 0 + 2 ^ fld (hearthAt (q 1 (.running 0)) 0).chk.hcfg 39 34 ≤ fc (q 1 (.running 0))) ∧
    (mayQueue done (.hob 0) 0 = true ∧ (queueAt done 0).ret.toNat ≤ 4 ∧ 4 ≤ (queueAt done 0).done.toNat) ∧
    (mayQueue gap (.hob 0) 0 = true ∧ qState (queueAt gap 0) = qSTOPPED ∧ qCode (queueAt gap 0) = lgSEQGAP) ∧
    (qState (queueAt rec' 0) = qRECOVERING ∧ storeReady rec' = true) ∧
    (mayHearth job (.hob 0) 0 = true ∧ hctlState job 0 = 0 ∧ hctlState pre 0 = 1 ∧ ecState pre 0 ∉ [1, 2, 3]) := by
  decide +kernel

/-! A group of two, this device and device 7, whose ranks the list at 0x300000 gives; a PERM of one slot of 32 bytes. -/
def col (opc mode group param src dst nelem aux : Nat) : List Byte :=
  leBytes 1 opc ++ leBytes 1 mode ++ [0, 0, 0] ++ leBytes 1 group ++ leBytes 1 param ++ leBytes 9 0 ++ leBytes 8 src ++ leBytes 8 dst ++
  leBytes 8 nelem ++ leBytes 8 aux ++ leBytes 16 0
def actOf (d : List Byte) (n : Nat) : ActiveCol := { desc := d, dseq := 1, n := n, rank := 0, lastFc := 0, cyc := 0 }
def twoOf (n : Nat) (flue : Nat) (a : Option ActiveCol) : State :=
  let s := modHearth linked 0 (fun h => { h with net := { h.net with
    grp0 := vput h.net.grp0 0 (BitVec.ofNat 64 (0x300000 * 2 ^ 20 + (n - 1))), grp1 := vput h.net.grp1 0 (BitVec.ofNat 64 (flue * 2 + 1)) } })
  words (words (setActive s 0 0 a) 0x300000 [0, 7]) 0x400000 [if n = 1 then 0 else 1, 0]
def permD (mode : Nat) : List Byte := col 4 mode 0 0 0x10000 0x20000 8 0x400000
def clF (opc : Nat) (bs : List Byte) : Frame := fr 0x23 5 (opc * 2 ^ 48 + 2 ^ 80) bs
def postedAt (s : State) (d : List Byte) : State :=
  store (modPort s 0 (fun x => { x with ring0 := vput x.ring0 0 0x10006, ring1 := vput x.ring1 0 (BitVec.ofNat 64 (2 ^ 32)) })) 0x10000 d []

theorem test_meets_CollectivesAndQuench_takes :
    let bad := postedAt (twoOf 1 0 none) (permD 128)
    let ag := postedAt (twoOf 1 0 none) (col 2 0 0 0 0x20000 0x30000 256 0)
    let run := twoOf 2 0 (some (actOf (col 1 16 0 0 0 0 0 0) 2))
    let stop := modPort linked 0 (fun x => { x with ring2 := vput x.ring2 0 0x100 })
    (mayHearth linked (.hob 0) 0 = true ∧ fld (vget (portAt stop 0).ring2 0 0) 15 8 ≠ 0) ∧
    (groupInUse linked 0 0 = false ∧ groupInUse run 0 0 = true ∧ quenchActive linked 0 = false ∧ quenchActive run 0 = true) ∧
    (activeAt bad 0 0 = none ∧ portState bad 0 ≠ 0 ∧ hOn bad 0 = true ∧ fld (vget (portAt bad 0).ring2 0 0) 15 8 = 0 ∧
      fld (vget (portAt bad 0).ring1 0 0) 63 32 ≠ fld (vget (portAt bad 0).ring1 0 0) 31 0 ∧ ringDesc bad 0 0 0 = 0x10000 ∧
      reach bad (some 0) 0x10000 64 = true) ∧
    (match descCheck bad 0 0 (readMem bad.mem 0x10000 64) with | .error c => decide (c < 256) | .ok _ => false) = true ∧
    (match descCheck ag 0 0 (readMem ag.mem 0x10000 64) with | .error _ => false | .ok _ => true) = true ∧
    (Col.opc (readMem ag.mem 0x10000 64) = oAG ∧ Col.qch (readMem ag.mem 0x10000 64) = false ∧ grpN ag 0 0 = 1 ∧
      ∀ q < 12, (portAt ag q).held = [] ∧ ∀ h < 16, activeAt ag q h = none) := by
  decide +kernel

theorem test_meets_CollectivesAndQuench_runs :
    let one := twoOf 1 0 (some (actOf (permD 1) 1))
    let two := twoOf 2 0 (some (actOf (permD 0) 2))
    let fd := col 5 0 0 0 0x10000 0x20000 64 0
    let fl := { actOf fd 2 with sent := 1, got := [(1, 0, 64)] }
    let flue := twoOf 2 1 (some (actOf fd 2))
    let nxt := twoOf 2 0 none
    let fF := fr 0x22 5 (0x20000 + 64 + 32) z32
    (activeAt one 0 0 = some (actOf (permD 1) 1) ∧ fld (vget (portAt one 0).ring2 0 0) 15 8 = 0 ∧ colDone one 0 0 (actOf (permD 1) 1) = true) ∧
    (activeAt two 0 0 = some (actOf (permD 0) 2) ∧ colWaits two (actOf (permD 0) 2) = true ∧ Col.opc (permD 0) ≠ oFLUE ∧
      0 + 2 ^ fld (hearthAt two 0).net.colCfg 5 0 ≤ fc two) ∧
    (activeAt (twoOf 2 1 (some fl)) 0 0 = some fl ∧ fl.n ≤ fl.sent + 1 ∧ fl.released + 1 < fl.n ∧ flueFull fl 1 = true ∧ fl.released + 2 = fl.n) ∧
    rxOk two (clF 4 z32) 0x23 (fun u => !isDup u (clF 4 z32) && (match collTarget u (clF 4 z32) with
      | some (q, k, a) => (match collFits u q k a (clF 4 z32) with
        | .take addr len _ => decide (addr = 0x20000) && memWindow u 7 0 addr len == some 0 && (rateTake u 0 7 32 0).isSome
        | _ => false)
      | none => false)) = true ∧
    rxOk nxt (clF 4 z32) 0x23 (fun u => (collTarget u (clF 4 z32)).isNone && (collNext u (clF 4 z32)).isSome) = true ∧
    rxOk linked (clF 4 z32) 0x23 (fun u => (collTarget u (clF 4 z32)).isNone && (collNext u (clF 4 z32)).isNone) = true ∧
    rxOk flue fF 0x22 (fun u => !isDup u fF && memWindow u 7 0 (frameAddr fF) 32 == some 0 && (rateTake u 0 7 32 0).isSome &&
      flueTarget u 0 7 == some (0, actOf fd 2)) = true ∧
    (flueFull (actOf fd 2) 1 = false ∧ flueBuf fd 1 < frameAddr fF ∧ frameAddr fF + 32 ≤ flueBuf fd 1 + Col.nelem fd) := by
  decide +kernel

theorem test_meets_CollectivesAndQuench_quench :
    let c : QChunk := { first := 0, vals := [0], x96 := false, px := 0, mis := false, poison := false }
    let j : QJob := { map := 0, dseq := 1, epoch := 5, prov := true, g := 0, segs := [], coefs := [], n := 1 }
    let s := fun (c : QChunk) => modRun (modPort linked 0 (fun x => { x with jobs := vput x.jobs 0 (some j), qchunks := [(0, c)] })) 0
      (fun r => { r with retracted := [5] })
    let w := modPort linked 0 (fun x => { x with withhold := true })
    let ph := withTile linked (fun x => { x with misc := { x.misc with ph := some (3, 1) } })
    (∀ b ∈ [true, false], (portAt (s { c with mis := b }) 0).qchunks.find? (fun c => c.1 == 0) = some (0, { c with mis := b })) ∧
    (vget (portAt (s c) 0).jobs 0 none = some j ∧ (portAt (s c) 0).qheld = none ∧ (s c).poison = [] ∧ bit (hearthAt (s c) 0).net.qchCfg 1 = false) ∧
    (hearthAt (s c) 0).run.retracted.contains j.epoch = true ∧ ((portAt w 0).withhold = true ∧ fld (portAt w 0).qbuf 7 0 ≠ 0) ∧
    (Stands linked t0 (wd 0xA0 [(104, 9)]) 0xA0 ∧ (tileAt linked 0).misc.ph = none) ∧
    (Stands ph t0 (wd 0xA0 [(104, 9)]) 0xA0 ∧ (tileAt ph 0).misc.ph = some (3, 1) ∧ reach ph (some 0) 0 32 = true) ∧ linked.stk.up = true := by
  unfold Stands; decide +kernel

/-- An image for hearth 0 with one section, of a type that may be skipped. -/
def img : List Byte :=
  leBytes 4 0x504D545A ++ [1, 0, 0, 0x10, 1, 0, 1, 0] ++ leBytes 4 1 ++ leBytes 4 3456 ++ leBytes 12 0 ++ leBytes 8 1 ++ leBytes 24 0 ++
  (leBytes 2 0x20 ++ [2, 2] ++ leBytes 4 0 ++ leBytes 4 32 ++ List.replicate 3380 0)
def tmpAt (st : TmpSt) : State :=
  { job with tmp := { job.tmp with st := st, image := img, next := some job.tmp.cur }, cyc := 2 ^ 62 }

theorem test_meets_TemperImages_verify :
    let t := (tmpAt .verify).tmp
    let fed : State := { tmpAt .verify with tmp := { t with cur := { t.cur with
      dev := { t.cur.dev with pcap := 2200 }, hearths := vmod t.cur.hearths 0 (fun x => { x with l := { x.l with pbudget := 200 } }) } } }
    img.length = 3456 ∧ fed.tmp.st = .verify ∧ (match checkImage fed with | .ok _ => true | .error _ => false) = true ∧
    (match checkImage { tmpAt .verify with tmp := { (tmpAt .verify).tmp with image := [] } } with | .ok _ => false | .error _ => true) = true := by
  decide +kernel

theorem test_meets_TemperImages :
    let c := job.tmp.cur
    let q := tmpAt .quiesce
    let pre := fun (s : State) => modHearth s 0 (fun h => { h with chk := { h.chk with hctl := 8 } })
    let ex : State := { pre q with recs := { q.recs with excl0 := 1 } }
    let gone : Cfg := { c with hearths := vput c.hearths 0 {} }
    let leave := pre { q with tmp := { q.tmp with boot := true }, flights := [{ ctr := 5, amt := 1, hearth := none, remote := false }] }
    let d : State := { q with tmp := { q.tmp with boot := true } }
    q.tmp.st = .quiesce ∧ (quiesced d c = true ∧ namesExcluded d c = false ∧ ctrBusy d c = false) ∧
    namesExcluded ex c = true ∧ (quiesced leave gone = true ∧ namesExcluded leave gone = false ∧ ctrBusy leave gone = true) ∧
    (0 + 2 ^ q.tmp.qtmo ≤ fc q ∧ fc { q with cyc := 0 } < 2 ^ q.tmp.qtmo) ∧ (tmpAt .committing).tmp.st = .committing ∧
    (iScope img = 1 ∧ iStage img = true ∧ hOn q 0 = true ∧ imageOf (tmpAt .staged) 0 = true) := by
  decide +kernel

theorem test_meets_StokerActions :
    let k := fun (op : Bool) => ({ keyid := 9, operator := op, mask := if op then 1 else 0 } : Key)
    let s := fun (op : Bool) (st : Nat) => ({ job with stk := { job.stk with keys := [k op], stat := BitVec.ofNat 64 st } } : State)
    let r : Request := { keyid := 9, console := false, reqHash := 0 }
    let two : State := { s false 0 with stk := { (s false 0).stk with keys := [k false, { k false with keyid := 8 }] } }
    let slot' : State := { s false 0 with stk := { (s false 0).stk with slots := vput (s false 0).stk.slots 0 ({}, { accepted := true }) } }
    (r.console = false ∧ r.auditOk = true ∧ job.stk.up = true) ∧ keyRole job 9 = 0 ∧ (keyRole (s true 0) 9 = 3 ∧ keyMask (s true 0) 9 0 = true ∧
      keyMask (s true 0) 9 1 = false) ∧ keyRole (s false 0) 9 = 2 ∧ (job.tmp.st = .idle ∧ (tmpAt .verify).tmp.st ≠ .idle) ∧
    (factory (s false 0) = false ∧ ((s false 0).stk.keys.filter (fun k => !k.operator)).length = 1) ∧
    (two.stk.keys.filter (fun k => !k.operator)).length ≠ 1 ∧
    (slotOf slot' 1 true).accepted = true ∧ slotB slot' 1 = false ∧ (slotOf (s false 0) 1 true).accepted = false ∧
    (histOf job (.tile 0)).cls ≠ .permanent ∧ bit (powered 0).pwr.booted 3 = true ∧ (factory job = true ∧ job.stk.keys = []) := by
  decide +kernel

theorem test_meets_UnmappedAccesses :
    job.pwr.off = false ∧ place (2 ^ 44) = .unmapped ∧ place deepTop = .unmapped ∧ place (ctlBase + 0x200000) = .ctl 0x200000 ∧
    locOf (0x200000 / 8 * 8) = .gap := by
  decide

theorem test_meets_MisalignedRegisterAccesses :
    mayLoc job (.hob 0) (locOf ((ctlBase + 0x1000104 - ctlBase) / 8 * 8)) = true ∧ ¬ (((8 : Nat) = 4 ∨ (8 : Nat) = 8) ∧ (ctlBase + 0x1000104) % 8 = 0) ∧
    ¬ (((2 : Nat) = 4 ∨ (2 : Nat) = 8) ∧ (ctlBase + 0x1000104) % 2 = 0) := by
  decide

theorem test_meets_ZrcRestoresElements :
    (List.replicate 64 (2 ^ 31)).length = 64 * 1 ∧ ∀ c ∈ List.replicate 64 (2 ^ 31), c < 2 ^ eltBits FP32 := by
  decide

theorem test_meets_LeakPowersDown : job.pwr.off = false ∧ ({ job with pwr := { job.pwr with off := true } } : State).pwr.off = true := by
  decide

theorem test_meets_EmptyQueueTicks : let s := State.reset
    s.pending = [] ∧ s.pwr.off = false ∧ s.claims = [] ∧ (∀ t < 32, (tileAt s t).misc.wait = none) ∧ (∀ h < 16, ∀ i < 32, wsSt (hearthAt s h) i ≠ 1) ∧
    (∀ h < 16, ecState s h ≠ 3) ∧ s.lnk.send = [] ∧ (∀ q < 12, (portAt s q).held = [] ∧ Machine.linked s q = false ∧
      ∀ h < 16, activeAt s q h = none) := by
  decide +kernel

theorem test_meets_services_settled :
    let s := queued 8 1 []
    let bs := List.replicate 256 (0 : Byte)
    Settled s [svcOf s 0] ∧ Settled linked [.port 0] ∧ Settled (grouped 3 1 5) [] ∧ bs.length = 256 ∧ accFound s (queueAt s 0) = 0 := by
  unfold Settled Calm; decide +kernel

theorem test_meets_EnginesIdle : EnginesIdle linked := by
  have h : ∀ q < 12, (portAt linked q).held = [] ∧ ∀ h < 16, activeAt linked q h = none := by decide +kernel
  exact fun q hq => ⟨(h q hq).1, fun k hk a ha => by simp [(h q hq).2 k hk] at ha⟩

theorem test_meets_PipeRowsAndLinkEventsComplete :
    let s := withTile run0 (fun x => { x with vec := { x.vec with queue := [vecJob run0 0 (wd 0x40 [(110, 1)])] } })
    let v := withTile run0 (fun x => { x with vec := { x.vec with queue := [vecJob run0 0 (wd 0x48 [])] } })
    let z : VecJob := { vecJob run0 0 (wd 0x45 []) with done := 1 }
    let f := withTile run0 (fun x => { x with vec := { x.vec with run := some z } })
    let idle : Flit := { uncorrectable := false, corrected := false, fcrcOk := true, ft := 1, lane := 0, fseq := 0, ackValid := false, ack := 0,
                         replay := false, cret := List.replicate 8 0, takes := 0 }
    let l := modPort linked 0 (fun x => { x with ll := { x.ll with kept := [32767], txNext := 0, repFrom := 5 }, waitFc := some 0 })
    (∀ u ∈ [s, v], tileRuns u 0 = true ∧ tileRole u 0 ≠ 2 ∧ pipeHeld (tileAt u 0) 3 = false ∧ (vecNext u 0).isSome = true ∧ u.poison = [] ∧ u.codes = {}) ∧
    ((vecNext v 0).map (fun j => opOf j.w)) = some 0x48 ∧ ((vecOf f 0).run = some z ∧ isPacked z.w = true ∧ vecRows z.w ≤ z.done) ∧
    (portUp l 0 = true ∧ idle.fseq = (portAt l 0).ll.rxNext ∧ (∀ c ∈ idle.cret, c = 0)) ∧
    ((0 + 32768 - 32767) % 32768 = 1 ∧ (portAt l 0).ll.kept.head? = some 32767 ∧ 32767 ≠ (portAt l 0).ll.repFrom ∧
      (portAt l 0).ll.ackFc + 2 ^ fld (portAt l 0).cfg 5 0 ≤ fc l ∧ max 0 (portAt l 0).ll.credFc + 2 ^ fld (portAt l 0).cfg 11 6 ≤ fc l) := by
  decide +kernel

theorem test_meets_PortAndQueueCommandsComplete :
    let i := itemOf 8 .pending
    let s := queued 8 1 [i]
    let e := queued 8 1 [itemOf 2 (.ended 0 0)]
    let r := modQueue s 0 (fun w => { w with stat := 3 })
    (portState (linkOf 6) 0 = 6 ∧ (portAt (linkOf 6) 0).since + 2 ^ 20 ≤ fc (linkOf 6)) ∧
    ((queueAt s 0).items.head? = some i ∧ isPending i = true ∧ Wd.kind i.desc = kFENCE ∧ (∀ k ∈ (queueAt s 0).items, isRunning k = false) ∧
      mayStart s 0 i = true) ∧
    (itemAt e 0 1 = some (itemOf 2 (.ended 0 0)) ∧ storeReady e = true ∧ (queueAt e 0).done.toNat + 1 = 1 ∧ Wd.kind (itemOf 2 (.ended 0 0)).desc ≠ kCOMMIT) ∧
    (qState (queueAt r 0) = qRECOVERING ∧ storeReady r = true ∧ accFound r (queueAt r 0) ≤ (queueAt r 0).hdrRet) := by
  decide +kernel

theorem test_meets_StepsKeepInv : Inv State.reset ∧ (match step State.reset with | .next _ => true | _ => false) = true := by
  unfold Inv; decide

/-! ### Ill-formed commands, one for each check -/

theorem test_illFormed_words :
    (∀ c ∈ [Instr.mmt 0, .ldp 0, .bld 0, .bkt 0, .ageo 0, .aini 0, .aadd 0, .achn 0, .asnd 0, .wcf 0, .win 0, .wcur 0, .vlen 0, .vadr 0, .vidx 0,
      .vld 0, .vst 0, .vstz 0, .epi 0, .vfa 0, .via 0, .vcmp 0, .vsel 0, .vcvt 0, .vmsk 0, .vperm 0, .vlsh 0, .vcmpr 0, .vexpd 0, .vred 0, .sfn 0,
      .smx 0, .srs 0, .rst 0, .mgn 0, .mps 0, .dmk 0, .dwt 0, .bln 0, .sinc 0, .swat 0, .sbas 0, .sclm 0, .pht 0, .tsl 0],
      (c (wd 0xFF [])).wf = false) ∧ (Instr.mmt 0 (wd 0x10 [])).wf = true := by
  decide

theorem test_illFormed_operands :
    let r : Request := { keyid := 0, console := false, reqHash := 0 }
    let f := fr 0x10 0 0 []
    let fl : Flit := { uncorrectable := false, corrected := false, fcrcOk := true, ft := 0, lane := 0, fseq := 0, ackValid := false, ack := 0,
                       replay := false, cret := List.replicate 8 0, takes := 0 }
    let hl : Hello := { loMaj := 1, hiMaj := 1, loMin := 0, hiMin := 0, dev := 0 }
    let hk : Handshake := { hstep := 2, sigOk := true, dev := 0, topoid := 0, idHash := 0, firstSec := 0, lastSec := 0 }
    let hs : SessHs := { loMaj := 1, hiMaj := 1, cert := hk, signOk := true, confirmOk := true, ss := z32, th := z32 }
    ∀ c ∈ [Instr.registerWrite .stoker (2 ^ 44) 8 0, .registerWrite .stoker 0 2 0, .registerWrite .stoker 0 4 (2 ^ 32),
      .memoryAccess .stoker (2 ^ 44) 1 false [] .alloc [], .memoryAccess .stoker 0 0 false [] .alloc [],
      .memoryAccess .stoker 0 2 true [1] .alloc [], .mmtRowWrite 0 [(512, 0)] [], .mmtRowWrite 0 [] [(0, 2 ^ 32)], .replayEnd 0 [(512, 0)] [],
      .winLineArrive 0 4096 0, .winLineArrive 0 0 16, .blwLaunch .stoker 0 (2 ^ 32), .csFreshStart .stoker 0 (2 ^ 32), .csResume .stoker 0 (2 ^ 32),
      .arm .stoker 0 0 (2 ^ 64), .inc 0 { f with ddev := 2 ^ 20 }, .write 0 { f with plen := 129 }, .read 0 { f with ch := 8 },
      .ack 0 { f with fnum := 2 ^ 64 }, .rdata 0 { f with epoch := 1 }, .coll 0 { f with poison := [0] }, .chain 0 { f with payload := List.replicate 4097 0 },
      .incrementAck 0 (2 ^ 64) 0, .incrementAck 0 0 256, .flitReceive 0 { fl with fseq := 2 ^ 15 }, .flitReceive 0 { fl with cret := [] },
      .flitReceive 0 { fl with takes := 20 }, .flitReceive 0 { fl with phys := 8 }, .sessionOpen ⟨0, { hs with loMaj := 16 }⟩, .sessionOpen ⟨0, { hs with hiMaj := 16 }⟩,
      .sessionRekey ⟨0, { hs with ss := [] }⟩, .sessionRekey ⟨0, { hs with th := [] }⟩, .sessionOpen ⟨0, { hs with cert := { hk with hstep := 1 } }⟩, .flitReplay 0 (2 ^ 15), .hello 0 { hl with hiMaj := 16 }, .hsk 0 { hk with hstep := 1 },
      .hsk 0 { hk with hstep := 7 }, .sendResend 0 (2 ^ 64), .colRingPost .stoker 0 0 (2 ^ 32), .colGrpWrite .stoker 0 0 0 (2 ^ 64),
      .chkRetract 0 0, .chkRetract 0 9, .noticeReceive 0 (2 ^ 20), .noticeSendNext 0 (2 ^ 20), .chkRefetch 0 [], .sparkCompare (2 ^ 32),
      .queueTailWrite .stoker 0 (2 ^ 32), .itemComplete 0 (2 ^ 64) true, .lgrTimeout 0 (2 ^ 64), .retWrite .stoker 0 (2 ^ 64),
      .fwActivate r 0 false, .fwActivate r 6 false, .keyEnrol r (2 ^ 64) true 0, .keyRevoke r (2 ^ 64), .calSet { r with keyid := 2 ^ 64 } 0,
      .release { r with reqHash := 2 ^ 256 }, .settings r 0 0 0 0 (2 ^ 32), .quote (2 ^ 256), .smbusRead (.quote (2 ^ 256)), .pwrInput (2 ^ 16),
      .inputSag (2 ^ 16), .pwrOver (2 ^ 16), .pwrTherm 4096, .emergencyEnd 256, .evictionWritebackEnd 0 4096, .patrolScrub 0xC00000000 .clean,
      .damperSample 0 4096, .hostLinkUp 0 8, .hostLinkUp 7 8, .hostLinkUp 1 2, .barAccess 0 0 (2 ^ 30) 1 false 0 false,
      .barAccess 0 1 0 4 false 0 false, .barAccess 0 4 0 1 true 256 false], c.wf = false := by
  decide +kernel

/-! ### Examples of the spec -/

/-- Example after R47 (02): 1.03125 to E4M3 under SR, with two derived values. -/
theorem test_stochasticRounding :
    (convElt E4M3 (.sr 0x2B1790C4) false (num32 0x3F840000)).1 = 0x39 ∧ (convElt E4M3 (.sr 0x9E0244D1) false (num32 0x3F840000)).1 = 0x38 := by
  decide +kernel

/-- Table 04-7: the terms 1, 2^-24, 2^-24, -1 in order, and split after the first and the second. -/
theorem test_runningSums :
    let run := fun (ts : List Machine.Num) => ts.foldl (fun s t => (sumStep s t).1) 0
    let t : Machine.Num := .fin false 1 (-24)
    run [.fin false 1 0, t, t, .fin true 1 0] = 0 ∧ run [t, .fin true 1 0] = 0xBF7FFFFF ∧ add32 0x3F800000 0xBF7FFFFF = 0x33800000 ∧
    run [t, t, .fin true 1 0] = 0xBF7FFFFE ∧ add32 0x3F800000 0xBF7FFFFE = 0x34000000 := by
  decide +kernel

/-- Example of 06: the word of an epilogue. -/
theorem test_epilogueWord :
    let w : Word128 := 0x460001FF0200612108400000_00000000
    wf w 127 120 = 0x46 ∧ (Epi.slot w, Epi.row0 w, Epi.rc w, Epi.vb w, Epi.ben w, Epi.scm w) = (0, 0, 512, 0, 1, 0) ∧
    (Epi.ren w, Epi.rfmt w, Epi.ra w, Epi.dfmt w, Epi.rm w, Epi.sat w) = (1, 1, 1, 1, 0, 0) ∧
    (Epi.da w, Epi.z w, Epi.adv w, Epi.mk w) = (2, 0, 1, 0) := by
  decide

/-- Example of 07: a statistic row of 512 values 30,000,000 and 30,000,002 in turn. -/
theorem test_rowStatistics :
    let r := statRow 0 ((List.range 512).map (fun i => if i % 2 = 0 then 0x4BE4E1C0 else 0x4BE4E1C1))
    (r.1, r.2.1) = (0x4BE4E1C0, 0x3F800000) := by
  decide +kernel

/-- Example after R204 (09): address 0x007_0000_C340 lies on channel 366 of stack 1. -/
theorem test_addressMap : channelOf State.reset 0x70000C340 = 366 ∧ stackOf State.reset 0x70000C340 = 1 := by
  decide +kernel

/-- Examples of 04 and 16: where slot 3 of tile 9 begins, and the record of item 40,961. -/
theorem test_places : accBase 9 + 3 * 0x100000 = 0x80013B00000 ∧
    recAddr { cfg := BitVec.ofNat 64 (8192 * 2 ^ 21 + 8 * 2 ^ 17) } 40961 = 128 * 8193 := by
  decide

/-- Example of 12, Table 12-11: the first two hops of a frame, and the class of the detour. -/
theorem test_torusHops :
    let at' := fun (dev : Nat) (up : Nat) => ({ modPort State.reset up (fun x => { x with state := 3, cfg := 0x4000 }) with lnk := { State.reset.lnk with
      topo := BitVec.ofNat 64 (dev * 2 ^ 32 + 0xFF * 2 ^ 16), dtr := vput State.reset.lnk.dtr 6 0x81 } } : State)
    route (at' 0x21 6) 0x3E 0 = .port 6 ∧ route (at' 0x20 1) 0x3E 0 = .detour 1 ∧
    classAfter (at' 0x21 6) 6 wrF false false = false ∧ classAfter (at' 0x20 1) 1 wrF false true = true := by
  decide

/-- Example of 14: the first step of an AdamW element; Adagrad with a zero gradient and ε = 0. -/
theorem test_quenchElements :
    let f := fun (l : List Nat) (k : List Byte) => ({ bytes := l.flatMap (leBytes 4) ++ k, c1 := 0x41200000, c2 := 0x447A00D3 } : Coef)
    let adamw := f [0x3F800000, 0, 0x3F666666, 0x3DCCCCCD, 0x3F7FBE77, 0x3A83126F, 0x322BCC77, 0x3F800000, 0, 0x3A83126F, 0x3C23D70A] [0xE0, 3, 3]
    let r := quenchElem adamw 0x3F000000 0x3F800000 0 0
    let g := quenchElem (f [0x3F800000, 0, 0, 0, 0x3F800000, 0x3F800000, 0, 0, 0x3F800000, 0x3A83126F, 0] [0, 2, 3]) 0 0x3F800000 0 0
    r.2.1 = 0x3D4CCCCD ∧ (convElt E4M3 .rne false (f32 r.1)).1 = 0x38 ∧ 0x3F7FBDCC ≤ r.1 ∧ r.1 ≤ 0x3F7FBDDC ∧
    (g.1, g.2.2) = (0x3F800000, 0, true) := by
  decide +kernel

/-- Example after R443 (18): the calendar time of a record from the anchor. -/
theorem test_calendar :
    calAt { cal := 1767225600 * 2 ^ 30, cyc := 9000000000000 } 9001250000000 = 0x1A556E401DCD6500 := by
  decide

/-! ### Single commands -/

/-- A counter saturates at 2^48 - 1 (11, R251). -/
theorem test_counterSaturates :
    let s : State := { modCtr job 9 (fun c => { c with value := BitVec.ofNat 48 (2 ^ 48 - 2) }) with
      flights := [{ ctr := 9, amt := 5, hearth := none, remote := false }] }
    (match exec (.incrementApply 9) s with
     | .next n => decide ((ctrAt n 9).value.toNat = 2 ^ 48 - 1 ∧ (ctrAt n 9).sat = true)
     | _ => false) = true := by
  decide

/-- b0 reads as zero and discards writes; b5 takes the sum (10, R224). -/
theorem test_threadAdds :
    let run := fun (rd : Nat) => match exec (.add th0) (runs job (bw 3 [(54, rd), (50, 1), (46, 2)]) (x0 [7, 8])) with
      | .next n => ((threadAt (tileAt n 0) 0 0).map (fun y => ((vget y.b 0 9).toNat, (vget y.b 5 9).toNat, y.pc))).getD (9, 9, 9)
      | _ => (9, 9, 9)
    run 5 = (0, 15, 1) ∧ run 0 = (0, 0, 1) := by
  decide

end Sys2Proof.Tests
end

section
/-! Refused accesses (00, R9, R14). The record of a misuse stands in the log of what the access leaves, and an access that its
agent or its place refuses does no more than raise it. -/

namespace Sys2Proof.Machine

variable {s : State} {a : Agent}

/-! ### The log of error records -/

/-- Raising a record only adds to the log. -/
theorem mem_log_putRec {r q : Rec} (h : r ∈ s.recs.ring ++ s.recs.overflow) :
    r ∈ (putRec s q).ring ++ (putRec s q).overflow := by
  simp only [putRec]
  simp only [List.mem_append] at h ⊢
  split
  · exact h.imp_left (by simp +contextual)
  · exact h.imp_right (by simp +contextual)

theorem mem_log_putRec_self (r : Rec) : r ∈ (putRec s r).ring ++ (putRec s r).overflow := by
  simp only [putRec]
  split <;> simp

@[simp] theorem hostCopy_recs (f : Nat) (r : Rec) : (hostCopy s f r).recs = s.recs := hostCopy_only s f r .recs (by simp)
@[simp] theorem tellHearth_recs (r : Rec) : (tellHearth s r).recs = s.recs := tellHearth_only s r .recs (by simp)

/-- The record that `misuse` raises first: class MISUSE of the code given, from the agent, about the address. -/
def misuseRec (s : State) (code : Nat) (a : Agent) (arg : Nat) : Rec :=
  { seq := s.recs.seq, cyc := s.cyc, cls := 1, sev := 0, space := 0x12, code := code, detail := 0
    hearth := (agentHearth s a).getD 255, agent := a.code
    epoch := ((agentHearth s a).map (fun k => (hearthAt s k).chk.epoch.toNat)).getD 0, arg0 := arg, arg1 := 0, arg2 := 0 }

theorem raise_misuse_recs (code arg : Nat) :
    (raise s 0x12 code 0 (agentHearth s a) a.code arg).recs = putRec s (misuseRec s code a arg) := by
  simp [raise, raiseWith, placeRec, recClass, misuseRec]

theorem misuseRec_mem (s : State) (code : Nat) (a : Agent) (arg : Nat) :
    misuseRec s code a arg ∈ (misuse s code a arg).recs.ring ++ (misuse s code a arg).recs.overflow := by
  have first : misuseRec s code a arg ∈ (raise s 0x12 code 0 (agentHearth s a) a.code arg).recs.ring ++
      (raise s 0x12 code 0 (agentHearth s a) a.code arg).recs.overflow := by
    rw [raise_misuse_recs]; exact mem_log_putRec_self _
  cases a with
  | host f =>
    simp only [misuse]
    split
    · -- the host's own record (20, R465) comes after it
      simp only [raise, raiseWith, placeRec, tellHearth_recs, hostCopy_recs]
      exact mem_log_putRec (s := modFn _ _ _) first
    · exact first
  | _ => exact first

/-! ### Who may reach what -/

@[simp] theorem mayLoc_gap (s : State) (a : Agent) : mayLoc s a .gap = false := by
  cases a <;> simp [mayLoc, unitLoc]

theorem reach_of_unmapped {h : Option Nat} {addr n : Nat} (hp : place addr = .unmapped) : reach s h addr n = false := by
  simp [reach, hp]

theorem mayMem_of_unmapped {addr n : Nat} (hp : place addr = .unmapped) : mayMem s a addr n = false := by
  cases a <;> simp [mayMem, reach_of_unmapped hp]

theorem place_ctl {addr : Nat} (h0 : ctlBase ≤ addr) (h1 : addr < 2 ^ 44) : place addr = .ctl (addr - ctlBase) := by
  have h2 : ¬ addr < deepTop := by simp only [ctlBase, deepTop] at *; omega
  have h3 : ¬ (scrWin ≤ addr ∧ addr < scrWin + 32 * 0x2000000) := by simp only [ctlBase, scrWin] at *; omega
  simp only [place, h2, h3, h0, h1, if_false, if_true, and_self]

theorem ctl_offset {addr o : Nat} (h : place addr = .ctl o) : o = addr - ctlBase := by
  unfold place at h
  repeat' split at h
  all_goals simp_all

section
variable {addr size : Nat}

theorem regLoad_eq {bs : List Byte} {p : Bool} {n : State} (h : regRead s a addr size = (bs, p, n)) :
    regLoad s a addr size = emit n (.readData a bs (if p then sectors addr size else [])) := by
  simp [regLoad, h]
theorem regWrite_unreachable {value : Nat} (h : mayLoc s a (locOf ((addr - ctlBase) / 8 * 8)) = false) :
    regWrite s a addr size value = misuse s 1 a addr := by
  simp [regWrite, h, SYS_UNMAPPED]
theorem regRead_unreachable (h : mayLoc s a (locOf ((addr - ctlBase) / 8 * 8)) = false) :
    regRead s a addr size = (List.replicate size 0, true, misuse s 1 a addr) := by
  simp [regRead, h, SYS_UNMAPPED]

variable (hl : mayLoc s a (locOf ((addr - ctlBase) / 8 * 8)) = true)
include hl
theorem regWrite_misaligned {value : Nat} (hal : alignedReg addr size = false) :
    regWrite s a addr size value = misuse s 2 a addr := by
  simp [regWrite, hl, hal, SYS_ALIGN]
theorem regRead_misaligned (hal : alignedReg addr size = false) :
    regRead s a addr size = (List.replicate size 0xFF, false, misuse s 2 a addr) := by
  simp [regRead, hl, hal, SYS_ALIGN]
theorem regRead_aligned (hal : alignedReg addr size = true) :
    regRead s a addr size = (leBytes size (readLoc s (locOf ((addr - ctlBase) / 8 * 8)) / 256 ^ (addr % 8)), false, s) := by
  simp [regRead, hl, hal]
end

/-! ### Accesses of either kind, by the place of the address -/

variable {addr len : Nat} {d : List Byte} {hint : Hint} {ecc : EccHits}

section
variable {o : Nat} (hon : s.pwr.off = false) (hp : place addr = .ctl o)
include hon hp
theorem exec_write_ctl : exec (.memoryAccess a addr len true d hint ecc) s = .next (regWrite s a addr len (leNat (d.take len))) := by
  simp [exec, execMemoryAccess, memoryAccess, hon, hp]
theorem exec_read_ctl : exec (.memoryAccess a addr len false d hint ecc) s = .next (regLoad s a addr len) := by
  simp [exec, execMemoryAccess, memoryAccess, hon, hp]
theorem exec_registerWrite_ctl (value : Nat) : exec (.registerWrite a addr len value) s = .next (regWrite s a addr len value) := by
  simp [exec, execRegisterWrite, registerWrite, hon, hp]
end

section
variable (hon : s.pwr.off = false) (hp : ∀ o, place addr ≠ .ctl o)
include hon hp
theorem exec_access_mem (wr : Bool) :
    exec (.memoryAccess a addr len wr d hint ecc) s = .next (memAccess s a addr len wr d hint ecc) := by
  simp only [exec, execMemoryAccess, memoryAccess, hon]
  split <;> simp_all
theorem exec_registerWrite_mem (value : Nat) :
    exec (.registerWrite a addr len value) s = .next (memAccess s a addr len true (leBytes len value) .noalloc []) := by
  simp only [exec, execRegisterWrite, registerWrite, hon]
  split <;> simp_all
end

theorem memAccess_unmapped_write (hp : place addr = .unmapped) (hd : d.length = len) (hl : 0 < len) :
    memAccess s a addr len true d hint ecc = misuse s 1 a addr := by
  have h0 : ¬ len = 0 := by omega
  simp [memAccess, mayMem_of_unmapped hp, hd, h0, SYS_UNMAPPED]

theorem memAccess_unmapped_read (hp : place addr = .unmapped) (hl : 0 < len) :
    memAccess s a addr len false d hint ecc =
      emit (misuse s 1 a addr) (.readData a (List.replicate len 0) (sectors addr len)) := by
  have h0 : ¬ len = 0 := by omega
  simp [memAccess, mayMem_of_unmapped hp, h0, SYS_UNMAPPED]

@[simp] theorem length_leBytes (n v : Nat) : (leBytes n v).length = n := by
  induction n generalizing v with
  | zero => rfl
  | succ n ih => simp [leBytes, ih]

/-- The log has the record of a misuse that the agent made of the address. -/
def Logged (s : State) (code : Nat) (a : Agent) (addr : Nat) (n : State) : Prop :=
  ∃ r ∈ n.recs.ring ++ n.recs.overflow, r.seq = s.recs.seq ∧ r.cls = 1 ∧ r.space = 0x12 ∧ r.code = code ∧
    r.agent = a.code ∧ r.arg0 = addr

theorem logged_misuse (s : State) (code : Nat) (a : Agent) (addr : Nat) : Logged s code a addr (misuse s code a addr) :=
  ⟨_, misuseRec_mem s code a addr, rfl, rfl, rfl, rfl, rfl, rfl⟩

/-- A refused write touches no more than `misuse` does. -/
theorem refused_write {o : Out} {code : Nat} (h : o = .next (misuse s code a addr)) :
    ∃ n, o = .next n ∧ Only recParts s n ∧ Logged s code a addr n :=
  ⟨_, h, misuse_only s code a addr, logged_misuse s code a addr⟩

theorem refused_read {o : Out} {code : Nat} {bs : List Byte} {ps : List Nat}
    (h : o = .next (emit (misuse s code a addr) (.readData a bs ps))) :
    ∃ n, o = .next n ∧ Only recParts s n ∧ Logged s code a addr n ∧ n.out.head? = some (.readData a bs ps) :=
  ⟨_, h, (misuse_only s code a addr).trans ((emit_only _ _).mono (by simp [recParts])), logged_misuse s code a addr, rfl⟩

/-- Settles O53: an address is unmapped outside every range, or in a gap of the control registers. -/
theorem unmappedAccesses : Obligations.UnmappedAccesses := by
  intro s a addr len d hint ecc hon hl hp
  rcases hp with hp | ⟨o, hp, hgap⟩
  · have hc : ∀ o, place addr ≠ .ctl o := by simp [hp]
    exact ⟨fun hd => refused_write ((exec_access_mem hon hc _).trans (congrArg _ (memAccess_unmapped_write hp hd hl))),
      refused_read ((exec_access_mem hon hc _).trans (congrArg _ (memAccess_unmapped_read hp hl))),
      fun v => refused_write ((exec_registerWrite_mem hon hc v).trans
        (congrArg _ (memAccess_unmapped_write hp (length_leBytes len v) hl)))⟩
  · have hmay : mayLoc s a (locOf ((addr - ctlBase) / 8 * 8)) = false := by rw [← ctl_offset hp]; simp [hgap]
    exact ⟨fun _ => refused_write ((exec_write_ctl hon hp).trans (congrArg _ (regWrite_unreachable hmay))),
      refused_read ((exec_read_ctl hon hp).trans (congrArg _ (regLoad_eq (regRead_unreachable hmay)))),
      fun v => refused_write ((exec_registerWrite_ctl hon hp v).trans (congrArg _ (regWrite_unreachable hmay)))⟩

/-- Settles O54: the alignment is checked after the agent's reach, and before anything of the register's. -/
theorem misalignedRegisterAccesses : Obligations.MisalignedRegisterAccesses := by
  intro s a addr len d hint ecc hon h0 h1 hl hbad
  have hp := place_ctl h0 h1
  have hal : alignedReg addr len = false := by simpa [alignedReg] using hbad
  exact ⟨refused_write ((exec_write_ctl hon hp).trans (congrArg _ (regWrite_misaligned hl hal))),
    refused_read ((exec_read_ctl hon hp).trans (congrArg _ (regLoad_eq (regRead_misaligned hl hal)))),
    fun v => refused_write ((exec_registerWrite_ctl hon hp v).trans (congrArg _ (regWrite_misaligned hl hal)))⟩

end Sys2Proof.Machine
end

section
/-! Accesses to the registers (00, R11, R12, R14; 15, R376). A register's word is kept whole: what is stored in it is read back,
and a write comes to it through the fields that it may change. -/

namespace Sys2Proof.Machine

variable {s : State} {a : Agent} {l : Loc} {v en : BitVec 64}

/-! ### A word stored in a register is read back -/

/-- The register at `l` holds a word of 64 bits, and storing one there changes the parts `ps` alone, so that `K` holds. -/
structure Holds (s : State) (l : Loc) (ps : List Part) (K : State → Prop) : Prop where
  word : (BitVec.ofNat 64 (readLoc s l)).toNat = readLoc s l
  same : K s
  back : ∀ w e, readLoc (storeLoc s l w e) l = w.toNat
  only : ∀ w e, Only ps s (storeLoc s l w e)
  keep : ∀ w e, K (storeLoc s l w e)

/-- A state that reads `w` at `l`, changed in the parts `ps` alone, of which `K` holds. -/
def Lands (s : State) (l : Loc) (ps : List Part) (K : State → Prop) (w : BitVec 64) (n : State) : Prop :=
  readLoc n l = w.toNat ∧ Only ps s n ∧ K n

/-- A write of the fields `m`, and of the flags `c` that it clears. -/
theorem Holds.lands_writeFields {ps : List Part} {K : State → Prop} (h : Holds s l ps K) (m c : List (Nat × Nat)) :
    Lands s l ps K ((BitVec.ofNat 64 (readLoc s l) &&& ~~~(bitsOf m &&& en) &&&
      ~~~(bitsOf c &&& en &&& v &&& ~~~(BitVec.ofNat 64 (setNowOf s l)))) ||| (v &&& (bitsOf m &&& en)))
      (writeFields s l m c v en) := by
  unfold writeFields
  by_cases hz : bitsOf m &&& en = 0 ∧ bitsOf c &&& en &&& v &&& ~~~(BitVec.ofNat 64 (setNowOf s l)) = 0
  · obtain ⟨hk, hc⟩ := hz
    rw [hk, hc, if_pos ⟨rfl, rfl⟩]
    refine ⟨?_, Only.refl _ _, h.same⟩
    simpa only [BitVec.ofNat_eq_ofNat, BitVec.not_zero, BitVec.and_allOnes, BitVec.and_zero, BitVec.or_zero] using h.word.symm
  · rw [if_neg hz]
    exact ⟨h.back _ _, h.only _ _, h.keep _ _⟩

@[simp] theorem bitsOf_nil : bitsOf [] = 0 := rfl

/-- What a write leaves of a register whose fields `m` take it. -/
def fieldsWritten (s : State) (l : Loc) (m v en : BitVec 64) : BitVec 64 :=
  (BitVec.ofNat 64 (readLoc s l) &&& ~~~(m &&& en)) ||| (v &&& m)

theorem Holds.lands_after {ps : List Part} {K : State → Prop} (h : Holds s l ps K) (m : List (Nat × Nat)) (hv : v &&& en = v) :
    Lands s l ps K (fieldsWritten s l (bitsOf m) v en) (writeFields s l m [] v en) := by
  have hvm : v &&& (bitsOf m &&& en) = v &&& bitsOf m := by rw [BitVec.and_comm (bitsOf m), ← BitVec.and_assoc, hv]
  have := h.lands_writeFields (v := v) (en := en) m []
  simpa only [fieldsWritten, bitsOf_nil, BitVec.ofNat_eq_ofNat, BitVec.zero_and, BitVec.not_zero, BitVec.and_allOnes, hvm] using this

/-! ### The stages of a write that a register has no fields for -/

theorem stokerWrite_eq_self {addr : Nat} (h : stokerMask l = []) : stokerWrite s a l addr v en = s := by
  simp [stokerWrite, h]
theorem rwlWrite_eq_self {addr : Nat} (h : (maskLoc l).rwl = []) : rwlWrite s a l addr v en = s := by
  simp [rwlWrite, h]
@[simp] theorem writeFields_nil : writeFields s l [] [] v en = s := by simp [writeFields]

theorem rwlWrite_unlocked {addr : Nat} (h : lockedLoc s l = false) :
    rwlWrite s a l addr v en = writeFields s l (maskLoc l).rwl [] v en := by
  by_cases hz : bitsOf (maskLoc l).rwl &&& en = 0 <;> simp only [rwlWrite, h, hz, writeFields] <;> simp
theorem rwlWrite_locked {addr : Nat} (h : lockedLoc s l = true) (hm : bitsOf (maskLoc l).rwl &&& en ≠ 0) :
    rwlWrite s a l addr v en = misuse s 3 a addr := by
  rw [rwlWrite, if_neg hm, if_pos h, SYS_RWL]

theorem stokerWrite_stoker {addr : Nat} (h : l ≠ .plat 0x100000) :
    stokerWrite s .stoker l addr v en = writeFields s l (stokerMask l) [] v en := by
  by_cases hz : bitsOf (stokerMask l) &&& en = 0 <;> simp only [stokerWrite, h, hz, writeFields] <;> simp
theorem stokerWrite_denied {addr : Nat} (ha : a ≠ .stoker) (hm : bitsOf (stokerMask l) &&& en ≠ 0) :
    stokerWrite s a l addr v en = misuse s 3 a addr := by
  rw [stokerWrite, if_neg hm, if_pos ha, SYS_RWL]

/-- An agent that may reach the register at `l` writes `v`, with the bits `en` alone taking part, aligned and with the reserved
bits left alone. -/
structure WritesTo (s : State) (a : Agent) (addr size value : Nat) (l : Loc) (v en : BitVec 64) : Prop where
  loc : locOf ((addr - ctlBase) / 8 * 8) = l
  may : mayLoc s a l = true
  aligned : alignedReg addr size = true
  enable : enBits addr size = en
  word : BitVec.ofNat 64 (value * 256 ^ (addr % 8)) &&& en = v
  free : v &&& rsvdBits l = 0

section
variable {addr size value : Nat}

theorem WritesTo.and_enable (w : WritesTo s a addr size value l v en) : v &&& en = v := by
  rw [← w.word, BitVec.and_assoc, BitVec.and_self]

theorem WritesTo.stages (w : WritesTo s a addr size value l v en) :
    regWrite s a addr size value = locWrite (rwlWrite (stokerWrite s a l addr v en) a l addr v en) a l v en := by
  obtain ⟨rfl, hl, hal, rfl, rfl, hr⟩ := w
  simp [regWrite, hl, hal, hr]

theorem regWrite_reserved (hl : mayLoc s a (locOf ((addr - ctlBase) / 8 * 8)) = true) (hal : alignedReg addr size = true)
    (hr : BitVec.ofNat 64 (value * 256 ^ (addr % 8)) &&& enBits addr size &&& rsvdBits (locOf ((addr - ctlBase) / 8 * 8)) ≠ 0) :
    regWrite s a addr size value = misuse s 6 a addr := by
  simp only [regWrite, hl, hal, Bool.not_true, Bool.false_eq_true, if_false, if_pos hr, SYS_OBLIG]
end

/-! ### The registers of a hearth -/

/-- Registers of a hearth that software writes at any time, and those that it writes until the hearth's commit (00, R12). -/
def rwRegs : List Nat := [0x100, 0x108, 0x110, 0x118, 0x228, 0x310, 0x318]
def rwlRegs : List Nat :=
  [0x200, 0x208, 0x210, 0x220, 0x480, 0x488, 0x500, 0xB00, 0xB08, 0x1000, 0x1100, 0x1118, 0x1120, 0x1128, 0x1130, 0x1138]

theorem rwl_of_rwRegs : ∀ o ∈ rwRegs, (maskHearth o).rwl = [] := by decide
theorem rw_of_rwlRegs : ∀ o ∈ rwlRegs, (maskHearth o).rw = [] := by decide

theorem holds_hearth (s : State) (h : HearthId) {o : Nat} (ho : o ∈ rwRegs ++ rwlRegs) :
    Holds s (.hearth h.val o) [.hearths] (OnlyHearth h.val s) := by
  simp only [rwRegs, rwlRegs, List.cons_append, List.nil_append, List.mem_cons, List.not_mem_nil, or_false] at ho
  have same : OnlyHearth h.val s s := fun _ _ => rfl
  rcases ho with rfl | rfl | rfl | rfl | rfl | rfl | rfl | rfl | rfl | rfl | rfl | rfl | rfl | rfl | rfl | rfl | rfl | rfl | rfl |
      rfl | rfl | rfl | rfl <;>
    exact ⟨by simp [readLoc, readHearth], same,
      fun w e => by simp [readLoc, readHearth, storeLoc, storeHearth, modNet, modChk, vget_vput],
      fun w e => modHearth_only s h.val _, fun w e => modHearth_onlyHearth s h.val _⟩

/-- The fields of a hearth's register that software writes at once come last, those held until the commit before. -/
theorem locWrite_hearth {h o : Nat} (ho : o ∈ rwRegs ++ rwlRegs) :
    locWrite s a (.hearth h o) v en = writeFields s (.hearth h o) (maskHearth o).rw [] v en := by
  simp only [rwRegs, rwlRegs, List.cons_append, List.nil_append, List.mem_cons, List.not_mem_nil, or_false] at ho
  rcases ho with rfl | rfl | rfl | rfl | rfl | rfl | rfl | rfl | rfl | rfl | rfl | rfl | rfl | rfl | rfl | rfl | rfl | rfl | rfl |
      rfl | rfl | rfl | rfl <;> rfl

section
variable {addr size value o : Nat} {h : HearthId} (w : WritesTo s a addr size value (.hearth h.val o) v en)
include w

theorem WritesTo.hearth : regWrite s a addr size value =
    hearthWrite (rwlWrite s a (.hearth h.val o) addr v en) a h.val o v en := by
  rw [w.stages, stokerWrite_eq_self rfl]; rfl

theorem WritesTo.lands_hearth_rw (ho : o ∈ rwRegs) :
    Lands s (.hearth h.val o) [.hearths] (OnlyHearth h.val s) (fieldsWritten s (.hearth h.val o) (bitsOf (maskHearth o).rw) v en)
      (regWrite s a addr size value) := by
  rw [w.stages, stokerWrite_eq_self rfl, rwlWrite_eq_self (by exact rwl_of_rwRegs o ho),
    locWrite_hearth (List.mem_append_left _ ho)]
  exact (holds_hearth s h (List.mem_append_left _ ho)).lands_after _ w.and_enable

theorem WritesTo.lands_hearth_rwl (ho : o ∈ rwlRegs) (hu : (hearthAt s h.val).run.locked = false) :
    Lands s (.hearth h.val o) [.hearths] (OnlyHearth h.val s) (fieldsWritten s (.hearth h.val o) (bitsOf (maskHearth o).rwl) v en)
      (regWrite s a addr size value) := by
  rw [w.stages, stokerWrite_eq_self rfl, rwlWrite_unlocked (by exact hu), locWrite_hearth (List.mem_append_right _ ho),
    rw_of_rwlRegs o ho, writeFields_nil]
  exact (holds_hearth s h (List.mem_append_right _ ho)).lands_after _ w.and_enable

theorem WritesTo.hearth_locked (ho : o ∈ rwlRegs) (hk : (hearthAt s h.val).run.locked = true)
    (hb : bitsOf (maskHearth o).rwl &&& en ≠ 0) :
    regWrite s a addr size value = misuse s 3 a addr := by
  rw [w.stages, stokerWrite_eq_self rfl, rwlWrite_locked (by exact hk) (by exact hb), locWrite_hearth (List.mem_append_right _ ho),
    rw_of_rwlRegs o ho, writeFields_nil]
end

section
variable {addr size value : Nat} {h : HearthId}

/-- The tail of the ring of free pages (08, R185). -/
theorem WritesTo.ringTail (w : WritesTo s a addr size value (.hearth h.val 0x218) v en) (he : bit en 32 = true) :
    regWrite s a addr size value = freeTail s a h.val (fld v 63 32) := by
  rw [w.hearth, rwlWrite_eq_self rfl]
  simp [hearthWrite, he]

theorem freeTail_room {a : Agent} {x : Nat}
    (hr : (x + 2 ^ 32 - fld (hearthAt s h.val).mem.kvfptr 31 0) % 2 ^ 32 ≤ 2 ^ fld (hearthAt s h.val).mem.kvfree 4 0) :
    Lands s (.hearth h.val 0x218) [.hearths] (OnlyHearth h.val s) (setFld (hearthAt s h.val).mem.kvfptr 63 32 x)
      (freeTail s a h.val x) := by
  rw [freeTail, if_neg (by omega)]
  exact ⟨by simp [readLoc, readHearth], modHearth_only _ _ _, modHearth_onlyHearth _ _ _⟩

theorem freeTail_full {a : Agent} {x : Nat}
    (hr : ¬ (x + 2 ^ 32 - fld (hearthAt s h.val).mem.kvfptr 31 0) % 2 ^ 32 ≤ 2 ^ fld (hearthAt s h.val).mem.kvfree 4 0) :
    freeTail s a h.val x = misuse s 6 a (hearthReg h.val 0x218) := by
  rw [freeTail, if_pos (by omega), SYS_OBLIG]

/-- A write of the epoch asks for it: the epoch read stays until it is taken. -/
theorem WritesTo.epoch (w : WritesTo s a addr size value (.hearth h.val 0x1108) v en) :
    regWrite s a addr size value = modChk s h.val (fun c => { c with epochReq := (c.epochReq &&& ~~~en) ||| v }) := by
  rw [w.hearth, rwlWrite_eq_self rfl]
  simp [hearthWrite, w.and_enable]
end

/-! ### The registers of a tile -/

theorem mayTile_of_mayLoc {t o : Nat} (hl : l = .tile t o ∨ l = .blw t o) (h : mayLoc s a l = true) : mayTile s a t = true := by
  have hu : unitLoc s a l = mayTile s a t := by rcases hl with rfl | rfl <;> rfl
  cases a with
  | stoker => rfl
  | host f =>
    by_cases hf : f.val = 0
    · simp [mayTile, hf]
    · rcases hl with rfl | rfl <;> simpa [mayLoc, hf, hu] using h
  | tile u | hob u => rcases hl with rfl | rfl <;> simpa [mayLoc, hu] using h
  | port p | remote d => simp [mayLoc] at h

theorem look_put {α : Type} (l : List (Nat × α)) (k : Nat) (x d : α) : look (put l k x) k d = x := by
  induction l with
  | nil => simp [put, look]
  | cons c l ih =>
    obtain ⟨j, y⟩ := c
    rcases Nat.lt_trichotomy k j with h | h | h
    · simp [put, look, h]
    · simp [put, look, h]
    · simp [put, look, ih, Nat.lt_asymm h, Nat.ne_of_lt h]
theorem look_drop1 {α : Type} (l : List (Nat × α)) (k : Nat) (d : α) : look (drop1 l k) k d = d :=
  look_none _ _ _ (fun c hc => by simpa using (List.mem_filter.1 hc).2)

/-- The words of a tile's Bellows program. -/
theorem readBlw_prog (s : State) (t k : Nat) :
    readBlw s t (0x8000 + 8 * k) = (look (tileAt s (execTile s t)).blw.prog k 0).toNat := by
  have h (c : Nat) (hc : c < 0x8000) : 0x8000 + 8 * k ≠ c := by omega
  have h1 : ¬ 0x8000 + 8 * k < 0x180 := by omega
  have h2 : ¬ 0x8000 + 8 * k < 0x600 := by omega
  simp only [readBlw, h, h1, h2, Nat.reduceLT, and_false, if_false]
  simp
theorem storeBlw_prog (s : State) (t k : Nat) (w : BitVec 64) :
    storeBlw s t (0x8000 + 8 * k) w = modBlw s t (fun b => { b with prog := if w = 0 then drop1 b.prog k else put b.prog k w }) := by
  have h (c : Nat) (hc : c < 0x8000) : 0x8000 + 8 * k ≠ c := by omega
  simp [storeBlw, h]

section
variable {t : TileId} (hrole : tileRole s t.val ≠ 2)
include hrole

theorem execTile_eq_self : execTile s t.val = t.val := if_neg hrole

theorem execTile_modTile {f : Tile → Tile} (hf : ∀ x, (f x).misc = x.misc) : execTile (modTile s t.val f) t.val = t.val :=
  execTile_eq_self (by simpa [tileRole, hf] using hrole)

theorem holds_anvilFlag : Holds s (.tile t.val 0x10) [.tiles] (OnlyTile t.val s) where
  word := by simp [readLoc, readTile]
  same := fun _ _ => rfl
  back w e := by
    have ht : execTile (storeTile s t.val 0x10 w e) t.val = t.val := execTile_modTile hrole (fun _ => rfl)
    simp only [readLoc, readTile, storeLoc, ht]
    simp [storeTile]
  only w e := modTile_only s t.val _
  keep w e := modTile_onlyTile s t.val _

theorem holds_bellowsWord (k : Nat) : Holds s (.blw t.val (0x8000 + 8 * k)) [.tiles] (OnlyTile t.val s) where
  word := by simp [readLoc, readBlw_prog]
  same := fun _ _ => rfl
  back w e := by
    have ht : execTile (storeBlw s t.val (0x8000 + 8 * k) w) t.val = t.val := by
      rw [storeBlw_prog]; exact execTile_modTile hrole (fun _ => rfl)
    simp only [readLoc, storeLoc, readBlw_prog, ht]
    rw [storeBlw_prog, modBlw, tileAt_modTile_self]
    split
    · next h => rw [look_drop1, h]
    · rw [look_put]
  only w e := by rw [storeLoc, storeBlw_prog]; exact modTile_only s t.val _
  keep w e := by rw [storeLoc, storeBlw_prog]; exact modTile_onlyTile s t.val _
end

section
variable {addr size value o : Nat} {t : TileId} (hrole : tileRole s t.val ≠ 2)
include hrole

theorem tileWrite_eq {r : Nat} {f : State → State} (hm : mayTile s a t.val = true) : tileWrite s a t.val r f = f s := by
  simp [tileWrite, hm, hrole]

/-- A flag that is written one is cleared, unless it was set in this very cycle (00, R11; 15, R376). -/
theorem WritesTo.lands_anvilFlag (w : WritesTo s a addr size value (.tile t.val 0x10) v en) :
    Lands s (.tile t.val 0x10) [.tiles] (OnlyTile t.val s)
      (BitVec.ofNat 64 (readLoc s (.tile t.val 0x10)) &&&
        ~~~(v &&& 0xF &&& ~~~(BitVec.ofNat 64 ((tileAt s t.val).anv.flagNow.held s.cyc))))
      (regWrite s a addr size value) := by
  rw [w.stages, stokerWrite_eq_self rfl, rwlWrite_eq_self rfl, locWrite, tileWrite_eq hrole (mayTile_of_mayLoc (.inl rfl) w.may)]
  have clears : bitsOf [(3, 0)] &&& en &&& v = v &&& 0xF := by
    rw [show bitsOf [(3, 0)] = 0xF from by decide, BitVec.and_assoc, BitVec.and_comm en, w.and_enable, BitVec.and_comm]
  have := (holds_anvilFlag hrole).lands_writeFields (v := v) (en := en) [] [(3, 0)]
  simpa only [maskLoc, maskTile, setNowOf, if_true, clears, bitsOf_nil, BitVec.ofNat_eq_ofNat, BitVec.zero_and,
    BitVec.and_zero, BitVec.or_zero, BitVec.not_zero,
    BitVec.and_allOnes] using this

theorem WritesTo.lands_bellowsWord {k : Nat} (w : WritesTo s a addr size value (.blw t.val (0x8000 + 8 * k)) v en) :
    Lands s (.blw t.val (0x8000 + 8 * k)) [.tiles] (OnlyTile t.val s)
      (fieldsWritten s (.blw t.val (0x8000 + 8 * k)) (BitVec.allOnes 64) v en) (regWrite s a addr size value) := by
  have hm : maskBlw (0x8000 + 8 * k) = { rw := [(63, 0)] } := by
    have h (c : Nat) (hc : c < 0x8000) : 0x8000 + 8 * k ≠ c := by omega
    simp [maskBlw, h]
  have ho : 0x8000 + 8 * k ≠ 0x18 ∧ 0x8000 + 8 * k ≠ 0x38 := by omega
  rw [w.stages, stokerWrite_eq_self rfl, rwlWrite_eq_self (by simp [maskLoc, hm]), locWrite, if_neg ho.1, if_neg ho.2,
    tileWrite_eq hrole (mayTile_of_mayLoc (.inr rfl) w.may), maskLoc, hm, ← show bitsOf [(63, 0)] = BitVec.allOnes 64 from by decide]
  exact (holds_bellowsWord hrole k).lands_after _ w.and_enable
end

/-! ### The registers of the platform that the Stoker alone writes -/

def stokerRegs : List Nat := [0x100010, 0x100018, 0x100020, 0x100028, 0x80018]

theorem holds_plat (s : State) {o : Nat} (ho : o ∈ stokerRegs) : Holds s (.plat o) [.recs, .pwr] (fun _ => True) := by
  simp only [stokerRegs, List.mem_cons, List.not_mem_nil, or_false] at ho
  have recs (r : Records) : Only [.recs, .pwr] s { s with recs := r } := by
    intro p hp; cases p <;> simp_all [Part.same]
  have pwr (f : Power → Power) : Only [.recs, .pwr] s (modPwr s f) := (modPwr_only s f).mono (by simp)
  refine ⟨?_, trivial, fun w e => ?_, fun w e => ?_, fun _ _ => trivial⟩ <;> rcases ho with rfl | rfl | rfl | rfl | rfl
  case refine_3.inr.inr.inr.inr => exact pwr _
  case refine_3.inl | refine_3.inr.inl | refine_3.inr.inr.inl | refine_3.inr.inr.inr.inl => exact recs _
  all_goals simp [readLoc, readPlat, storeLoc, storePlat]

theorem stokerRegs_offsets : ∀ o ∈ stokerRegs, o ≠ 0x100000 ∧ o ≠ 0x180008 := by decide

section
variable {addr size value o : Nat} (w : WritesTo s a addr size value (.plat o) v en) (ho : o ∈ stokerRegs)
include w ho

theorem WritesTo.plat : regWrite s a addr size value = stokerWrite s a (.plat o) addr v en := by
  have h1 := stokerRegs_offsets o ho
  rw [w.stages, rwlWrite_eq_self (by simp [maskLoc, h1]), locWrite, if_neg h1.2]

theorem WritesTo.lands_plat (ha : a = .stoker) :
    Lands s (.plat o) [.recs, .pwr] (fun _ => True) (fieldsWritten s (.plat o) (bitsOf (stokerMask (.plat o))) v en)
      (regWrite s a addr size value) := by
  have h1 : Loc.plat o ≠ .plat 0x100000 := by simpa using (stokerRegs_offsets o ho).1
  rw [w.plat ho, ha, stokerWrite_stoker h1]
  exact (holds_plat s ho).lands_after _ w.and_enable
end

/-! ### Register accesses -/

theorem Lands.exists {ps : List Part} {K : State → Prop} {w : BitVec 64} {n : State} {o : Out} (h : Lands s l ps K w n)
    (e : o = .next n) : ∃ n, o = .next n ∧ readLoc n l = w.toNat ∧ Only ps s n ∧ K n := ⟨n, e, h⟩

/-- Settles O39, register by register: a write passes the Stoker's fields, those held until the hearth's commit and the others in
turn, and of the registers named only one of the three stages has fields. -/
theorem registerAccesses : Obligations.RegisterAccesses := by
  intro s a addr size value hon h0 h1 l en v old after write lands
  have hp := place_ctl h0 h1
  have hw : write = .next (regWrite s a addr size value) := exec_registerWrite_ctl hon hp value
  have hto (hl : mayLoc s a l = true) (hal : alignedReg addr size = true) (hr : v &&& rsvdBits l = 0) :
      WritesTo s a addr size value l v en := ⟨rfl, hl, hal, rfl, rfl, hr⟩
  refine ⟨fun hl => hw.trans (congrArg _ (regWrite_unreachable hl)),
    fun hl hal => hw.trans (congrArg _ (regWrite_misaligned hl hal)),
    fun hl hal hr => hw.trans (congrArg _ (regWrite_reserved hl hal hr)), fun hl hal => ⟨?_, ?_, ?_, ?_⟩⟩
  · exact fun d hint ecc => (exec_read_ctl hon hp).trans (congrArg _ (regLoad_eq (regRead_aligned hl hal)))
  · intro hr h o hlo
    have w := hto hl hal hr
    clear_value l
    subst hlo
    refine ⟨fun ho => ?_, ?_, ?_, ?_⟩
    · exact (w.lands_hearth_rw ho).exists hw
    · rintro rfl he
      have hold : old = (hearthAt s h.val).mem.kvfptr := by simp [old, readLoc, readHearth]
      rw [hold]
      exact ⟨fun room => (freeTail_room room).exists (hw.trans (congrArg _ (w.ringTail he))),
        fun full => hw.trans (congrArg _ ((w.ringTail he).trans (freeTail_full full)))⟩
    · rintro rfl
      refine ⟨rfl, _, hw.trans (congrArg _ w.epoch), ?_, modHearth_only _ _ _, modHearth_onlyHearth _ _ _, ?_⟩
      · simp [readLoc, readHearth, modChk]
      · simp [modChk]
    · intro ho
      exact ⟨fun hu => (w.lands_hearth_rwl ho hu).exists hw, fun hk hb => hw.trans (congrArg _ (w.hearth_locked ho hk hb))⟩
  · intro hr t hrole
    have w := hto hl hal hr
    clear_value l
    refine ⟨?_, fun k _ => ?_⟩ <;> rintro rfl
    · exact (w.lands_anvilFlag hrole).exists hw
    · exact (w.lands_bellowsWord hrole).exists hw
  · intro hr o hlo ho m
    have w := hto hl hal hr
    clear_value l
    subst hlo
    exact ⟨fun ha => (w.lands_plat ho ha).exists hw,
      fun ha hm => hw.trans (congrArg _ ((w.plat ho).trans (stokerWrite_denied ha hm)))⟩

end Sys2Proof.Machine
end

section
/-! What every operation of the model keeps: the queue of the commands that wait, and the structural invariant. One predicate for
each type that an operation answers with, and the rules of the control structures. -/

namespace Sys2Proof.Machine

/-- `n` waits for the same commands as `s`, and the structural invariant of `s` holds of `n`: what every operation of the model
keeps (log 1). -/
structure Keeps (s n : State) : Prop where
  pending : n.pending = s.pending
  inv : Inv s → Inv n

variable {s₀ s n : State} {α β ε : Type}

theorem Keeps.refl (s : State) : Keeps s s := ⟨rfl, id⟩

/-- An update of parts that are neither the queue, the memory nor its poison. -/
theorem Keeps.update {cyc a₀ a₁ tiles hearths ports queues hobs counters flights claims lnk tmp lgr codes msys recs stk pwr hif out
    fresh} (h : Keeps s₀ s) : Keeps s₀ { s with
      cyc := cyc, anchor0 := a₀, anchor1 := a₁, tiles := tiles, hearths := hearths, ports := ports, queues := queues, hobs := hobs
      counters := counters, flights := flights, claims := claims, lnk := lnk, tmp := tmp, lgr := lgr, codes := codes, msys := msys
      recs := recs, stk := stk, pwr := pwr, hif := hif, out := out, fresh := fresh } :=
  ⟨h.pending, h.inv⟩

theorem Keeps.fst {x : α} (h : Keeps s₀ s) : Keeps s₀ (s, x).1 := h
theorem Keeps.snd {x : α} (h : Keeps s₀ s) : Keeps s₀ (x, s).2 := h
theorem Keeps.ite {c : Prop} [Decidable c] (hs : Keeps s₀ s) (hn : Keeps s₀ n) : Keeps s₀ (if c then s else n) := by
  split <;> assumption

/-- A step taken under a condition, after what stands either way. -/
theorem Keeps.maybe {c : Prop} [Decidable c] (hs : Keeps s₀ s) (hn : Keeps s₀ s → Keeps s₀ n) : Keeps s₀ (if c then n else s) :=
  .ite (hn hs) hs
theorem Keeps.unless {c : Prop} [Decidable c] (hs : Keeps s₀ s) (hn : Keeps s₀ s → Keeps s₀ n) : Keeps s₀ (if c then s else n) :=
  .ite hs (hn hs)

/-- An operation that may find no state to answer keeps what each state that it answers keeps; `π` is where its answer has the
state. -/
def OptKeeps (s₀ : State) (π : α → State) (o : Option α) : Prop := ∀ x, o = some x → Keeps s₀ (π x)

theorem OptKeeps.none {π : α → State} : OptKeeps s₀ π none := nofun
theorem OptKeeps.some {π : α → State} {x : α} (h : Keeps s₀ (π x)) : OptKeeps s₀ π (some x) := by
  rintro _ ⟨⟩; exact h
theorem OptKeeps.get {π : α → State} {o : Option α} {x : α} (h : OptKeeps s₀ π o) (e : o = Option.some x) : Keeps s₀ (π x) := h x e
theorem OptKeeps.ite {π : α → State} {o p : Option α} {c : Prop} [Decidable c] (ho : OptKeeps s₀ π o) (hp : OptKeeps s₀ π p) :
    OptKeeps s₀ π (if c then o else p) := by split <;> assumption
theorem OptKeeps.map {π : α → State} {ρ : β → State} {o : Option α} {f : α → β} (h : OptKeeps s₀ π o)
    (hf : ∀ x, Keeps s₀ (π x) → Keeps s₀ (ρ (f x))) : OptKeeps s₀ ρ (o.map f) := by
  intro y e
  obtain ⟨x, hx, rfl⟩ := Option.map_eq_some_iff.1 e
  exact hf x (h x hx)
theorem OptKeeps.bind {π : α → State} {ρ : β → State} {o : Option α} {f : α → Option β} (h : OptKeeps s₀ π o)
    (hf : ∀ x, Keeps s₀ (π x) → OptKeeps s₀ ρ (f x)) : OptKeeps s₀ ρ (o.bind f) := by
  intro y e
  obtain ⟨x, hx, hy⟩ := Option.bind_eq_some_iff.1 e
  exact hf x (h x hx) y hy
theorem OptKeeps.bindAny {ρ : β → State} {o : Option α} {f : α → Option β} (hf : ∀ x, OptKeeps s₀ ρ (f x)) :
    OptKeeps s₀ ρ (o.bind f) := by
  intro y e
  obtain ⟨x, -, hy⟩ := Option.bind_eq_some_iff.1 e
  exact hf x y hy
theorem OptKeeps.getD {o : Option State} (h : OptKeeps s₀ id o) (hd : Keeps s₀ s) : Keeps s₀ (o.getD s) := by
  cases o with
  | none => exact hd
  | some x => exact h x rfl

/-- The same of an operation that answers or says why it cannot, `E` of the reason. -/
def ExcKeeps (s₀ : State) (E : ε → Prop) (π : α → State) : Except ε α → Prop
  | .ok x => Keeps s₀ (π x)
  | .error e => E e

section
variable {E : ε → Prop} {π : α → State} {o p : Except ε α}
theorem ExcKeeps.ok {x : α} (h : ExcKeeps s₀ E π o) (e : o = .ok x) : Keeps s₀ (π x) := by subst e; exact h
theorem ExcKeeps.error {r : ε} (h : ExcKeeps s₀ E π o) (e : o = .error r) : E r := by subst e; exact h
theorem ExcKeeps.ite {c : Prop} [Decidable c] (ho : ExcKeeps s₀ E π o) (hp : ExcKeeps s₀ E π p) :
    ExcKeeps s₀ E π (if c then o else p) := by split <;> assumption
theorem ExcKeeps.bind {ρ : β → State} {f : α → Except ε β} (h : ExcKeeps s₀ E π o)
    (hf : ∀ x, Keeps s₀ (π x) → ExcKeeps s₀ E ρ (f x)) : ExcKeeps s₀ E ρ (o >>= f) := by
  cases o with
  | ok x => exact hf x h
  | error e => exact h
end

theorem Keeps.of_fst {p : State × α} {x : α} (h : Keeps s₀ p.1) (e : p = (n, x)) : Keeps s₀ n := by subst e; exact h
theorem Keeps.of_snd {p : α × State} {x : α} (h : Keeps s₀ p.2) (e : p = (x, n)) : Keeps s₀ n := by subst e; exact h

/-- A loop keeps what each turn of it keeps. -/
theorem foldl_keeps {f : State → α → State} (hf : ∀ x s, Keeps s₀ s → Keeps s₀ (f s x)) (h : Keeps s₀ s) (l : List α) :
    Keeps s₀ (l.foldl f s) := by
  induction l generalizing s with
  | nil => exact h
  | cons x l ih => exact ih (hf x s h)
theorem foldl_keeps_in {π : β → State} {f : β → α → β} {b : β} (hf : ∀ x b, Keeps s₀ (π b) → Keeps s₀ (π (f b x)))
    (h : Keeps s₀ (π b)) (l : List α) : Keeps s₀ (π (l.foldl f b)) := by
  induction l generalizing b with
  | nil => exact h
  | cons x l ih => exact ih (hf x b h)
theorem foldl_optKeeps {π : β → State} {f : Option β → α → Option β} {o : Option β}
    (hf : ∀ x o, OptKeeps s₀ π o → OptKeeps s₀ π (f o x)) (h : OptKeeps s₀ π o) (l : List α) : OptKeeps s₀ π (l.foldl f o) := by
  induction l generalizing o with
  | nil => exact h
  | cons x l ih => exact ih (hf x o h)
theorem forEach_keeps {f : α → State → State} {l : List α} (hf : ∀ x s, Keeps s₀ s → Keeps s₀ (f x s)) (h : Keeps s₀ s) :
    Keeps s₀ (forEach l s f) := foldl_keeps hf h l

/-- What an issue answers keeps it. -/
def IssueKeeps (s₀ : State) : Issue → Prop
  | .done n | .goto n _ | .hold n => Keeps s₀ n
  | .fault .. => True
section
variable {i : Issue} {w : Nat} (h : IssueKeeps s₀ i)
include h
theorem IssueKeeps.done (e : i = .done n) : Keeps s₀ n := by subst e; exact h
theorem IssueKeeps.goto (e : i = .goto n w) : Keeps s₀ n := by subst e; exact h
theorem IssueKeeps.hold (e : i = .hold n) : Keeps s₀ n := by subst e; exact h
end
theorem IssueKeeps.ite {c : Prop} [Decidable c] {i j : Issue} (hi : IssueKeeps s₀ i) (hj : IssueKeeps s₀ j) :
    IssueKeeps s₀ (if c then i else j) := by split <;> assumption

/-- What holds a row of an MMT back keeps it. -/
def GateKeeps (s₀ : State) : RowGate → Prop
  | .stay n => Keeps s₀ n
  | .go .. => True
theorem GateKeeps.stay {i : RowGate} (h : GateKeeps s₀ i) (e : i = .stay n) : Keeps s₀ n := by subst e; exact h
theorem GateKeeps.ite {c : Prop} [Decidable c] {i j : RowGate} (hi : GateKeeps s₀ i) (hj : GateKeeps s₀ j) :
    GateKeeps s₀ (if c then i else j) := by split <;> assumption

/-- The effect of a COLL frame that an engine takes keeps it. -/
def FResKeeps (s₀ : State) : FRes → Prop
  | .take _ _ f => ∀ u, Keeps s₀ u → OptKeeps s₀ id (f u)
  | .drop | .hold => True
theorem FResKeeps.take {i : FRes} {a l : Nat} {f : State → Option State} (h : FResKeeps s₀ i) (e : i = .take a l f) :
    ∀ u, Keeps s₀ u → OptKeeps s₀ id (f u) := by subst e; exact h
theorem FResKeeps.ite {c : Prop} [Decidable c] {i j : FRes} (hi : FResKeeps s₀ i) (hj : FResKeeps s₀ j) :
    FResKeeps s₀ (if c then i else j) := by split <;> assumption

/-- What a row of a bellows instruction comes to keeps it. -/
def PlanKeeps (s₀ : State) : RowPlan → Prop
  | .ok n _ _ | .wait n => Keeps s₀ n
  | .fault .. | .stall .. => True
theorem PlanKeeps.ok {i : RowPlan} {rs : List Req} {a : Nat} (h : PlanKeeps s₀ i) (e : i = .ok n rs a) : Keeps s₀ n := by
  subst e; exact h
theorem PlanKeeps.wait {i : RowPlan} (h : PlanKeeps s₀ i) (e : i = .wait n) : Keeps s₀ n := by subst e; exact h
theorem PlanKeeps.ite {c : Prop} [Decidable c] {i j : RowPlan} (hi : PlanKeeps s₀ i) (hj : PlanKeeps s₀ j) :
    PlanKeeps s₀ (if c then i else j) := by split <;> assumption

/-- What a thread's word comes to keeps it. -/
def TResKeeps (s₀ : State) : TRes → Prop
  | .next n _ | .jump n _ _ | .wait n _ | .stay n _ | .fault n _ _ _ | .idle n => Keeps s₀ n
section
variable {i : TRes} {x : Thread} {pc c d a : Nat} (h : TResKeeps s₀ i)
include h
theorem TResKeeps.next (e : i = .next n x) : Keeps s₀ n := by subst e; exact h
theorem TResKeeps.jump (e : i = .jump n x pc) : Keeps s₀ n := by subst e; exact h
theorem TResKeeps.wait (e : i = .wait n x) : Keeps s₀ n := by subst e; exact h
theorem TResKeeps.stay (e : i = .stay n x) : Keeps s₀ n := by subst e; exact h
theorem TResKeeps.fault (e : i = .fault n c d a) : Keeps s₀ n := by subst e; exact h
theorem TResKeeps.idle (e : i = .idle n) : Keeps s₀ n := by subst e; exact h
end
theorem TResKeeps.ite {c : Prop} [Decidable c] {i j : TRes} (hi : TResKeeps s₀ i) (hj : TResKeeps s₀ j) :
    TResKeeps s₀ (if c then i else j) := by split <;> assumption

/-! ### Memory and its poison -/

theorem storeAt_keeps {a bs src} (hs : Keeps s₀ s) : Keeps s₀ (storeAt s a bs src) :=
  ⟨hs.pending, fun i => storeAt_inv (hs.inv i) a bs src⟩
theorem zeroRange_keeps {a k} (hs : Keeps s₀ s) : Keeps s₀ (zeroRange s a k) :=
  ⟨hs.pending, fun i => zeroRange_inv (hs.inv i) a k⟩
theorem insSet_keeps (k : Nat) (hs : Keeps s₀ s) : Keeps s₀ { s with poison := insSet k s.poison } :=
  ⟨hs.pending, fun i => ⟨(hs.inv i).1, (insSet_sorted k _ (hs.inv i).2).1⟩⟩
theorem filterPoison_keeps {p : Nat → Bool} (hs : Keeps s₀ s) : Keeps s₀ { s with poison := s.poison.filter p } :=
  ⟨hs.pending, fun i => ⟨(hs.inv i).1, (hs.inv i).2.filter p⟩⟩

/-- A command that is carried out: it answers a state, which keeps what every operation keeps. -/
def Answers (s₀ : State) (o : Out) : Prop := ∃ n, o = .next n ∧ Keeps s₀ n
theorem Answers.next (h : Keeps s₀ n) : Answers s₀ (.next n) := ⟨n, rfl, h⟩

end Sys2Proof.Machine
end

section
/-! What the shared operations keep: the state, the tiers, the counters, the links and the collectives. One rule for each operation,
in the order of the model: where what it is given keeps the queue and the invariant, what it answers does. -/

namespace Sys2Proof.Machine

variable {s₀ s n : State} {α β ε : Type}

/-! ### The named updates of the state -/



/-! ### Records, waits and the shared operations -/

theorem modTile_keeps {t f} (hs : Keeps s₀ s) : Keeps s₀ (modTile s t f) := .update hs
theorem modHearth_keeps {h f} (hs : Keeps s₀ s) : Keeps s₀ (modHearth s h f) := .update hs
theorem modPort_keeps {p f} (hs : Keeps s₀ s) : Keeps s₀ (modPort s p f) := .update hs
theorem modQueue_keeps {q f} (hs : Keeps s₀ s) : Keeps s₀ (modQueue s q f) := .update hs
theorem emit_keeps {o} (hs : Keeps s₀ s) : Keeps s₀ (emit s o) := .update hs
theorem store_keeps {a bs src} (hs : Keeps s₀ s) : Keeps s₀ (store s a bs src) := by
  unfold store
  dsimp only
  split
  · exact .maybe (storeAt_keeps hs) storeAt_keeps
  · exact storeAt_keeps hs
theorem scrWrite_keeps {t off bs} (hs : Keeps s₀ s) : Keeps s₀ (scrWrite s t off bs) := store_keeps hs
theorem modFn_keeps {f g} (hs : Keeps s₀ s) : Keeps s₀ (modFn s f g) := .update hs
theorem hostReq_keeps {f} (hs : Keeps s₀ s) : Keeps s₀ (hostReq s f).2 := by
  unfold hostReq
  split
  · exact .snd hs
  · split
    · exact .snd hs
    · exact .snd (modFn_keeps hs)
theorem hostCopy_keeps {f r} (hs : Keeps s₀ s) : Keeps s₀ (hostCopy s f r) :=
  .ite hs (.ite (hostReq_keeps hs) (emit_keeps (modFn_keeps (emit_keeps hs))))
theorem tellHearth_keeps {r} (hs : Keeps s₀ s) : Keeps s₀ (tellHearth s r) :=
  .ite (forEach_keeps (fun _ _ hu => emit_keeps (.update hu)) (.ite hs (hostCopy_keeps hs))) hs
theorem placeRec_keeps {r} (hs : Keeps s₀ s) : Keeps s₀ (placeRec s r) := tellHearth_keeps (hostCopy_keeps (.update hs))
theorem raiseWith_keeps {cls sev space code detail h agent arg0 arg1 arg2} (hs : Keeps s₀ s) :
    Keeps s₀ (raiseWith s cls sev space code detail h agent arg0 arg1 arg2) :=
  placeRec_keeps hs
theorem raise_keeps {space code detail h agent arg0 arg1 arg2 alt} (hs : Keeps s₀ s) :
    Keeps s₀ (raise s space code detail h agent arg0 arg1 arg2 alt) :=
  raiseWith_keeps hs
theorem misuse_keeps {code a arg0} (hs : Keeps s₀ s) : Keeps s₀ (misuse s code a arg0) := by
  unfold misuse
  dsimp only
  split
  · exact .maybe (raise_keeps hs) (fun h1 => raise_keeps (modFn_keeps h1))
  · exact raise_keeps hs
theorem draw_keeps (hs : Keeps s₀ s) : Keeps s₀ (draw s).2 := .snd (.update hs)

/-! ### The Stoker's calendar -/

theorem calRebase_keeps (hs : Keeps s₀ s) : Keeps s₀ (calRebase s) := .update hs
theorem calCheck_keeps (hs : Keeps s₀ s) : Keeps s₀ (calCheck s) :=
  .ite (.maybe (.update (draw_keeps hs)) (fun h1 => raise_keeps (.update h1))) (.update hs)

/-! ### Mantel tiers -/

theorem noteCodes_keeps {a e} (hs : Keeps s₀ s) : Keeps s₀ (noteCodes s a e) := by
  unfold noteCodes
  dsimp only
  split
  · exact .update hs
  · exact .update hs
  · exact hs
theorem dropDeep_keeps {p} (hs : Keeps s₀ s) : Keeps s₀ (dropDeep s p) := .update hs
theorem dropWord_keeps {k} (hs : Keeps s₀ s) : Keeps s₀ (dropWord s k) := .update hs
theorem dpmUe_keeps {a} (hs : Keeps s₀ s) : Keeps s₀ (dpmUe s a) := raise_keeps (.update (.update hs))
theorem dpmCe_keeps (hs : Keeps s₀ s) : Keeps s₀ (dpmCe s) := .update hs
theorem seeDeep_keeps {seen} (hs : Keeps s₀ s) : Keeps s₀ (seeDeep s seen).1 := by
  refine foldl_keeps_in (fun x r hr => ?_) hs _
  split
  · exact .fst (dropDeep_keeps (dpmCe_keeps hr))
  · exact .fst (dpmUe_keeps hr)
  · exact hr
theorem scrUe_keeps {t o} (hs : Keeps s₀ s) : Keeps s₀ (scrUe s t o) := raise_keeps (insSet_keeps _ (modTile_keeps hs))
theorem seeWords_keeps {a n} (hs : Keeps s₀ s) : Keeps s₀ (seeWords s a n) := by
  unfold seeWords
  refine foldl_keeps ?_ hs _
  intro _ _ hu
  split
  · exact dropWord_keeps (modTile_keeps hu)
  · exact dropWord_keeps (.ite (scrUe_keeps hu) hu)
  · exact hu
theorem scrSee_keeps {t off n} (hs : Keeps s₀ s) : Keeps s₀ (scrSee s t off n) := seeWords_keeps hs
theorem modPool_keeps {p f} (hs : Keeps s₀ s) : Keeps s₀ (modPool s p f) := .update hs
theorem mtlStat_keeps {h word hi lo n} (hs : Keeps s₀ s) : Keeps s₀ (mtlStat s h word hi lo n) := by
  unfold mtlStat
  split
  · exact modHearth_keeps hs
  · exact hs
theorem touchBlock_keeps {h hint a n wr line b} (hs : Keeps s₀ s) : OptKeeps s₀ id (touchBlock s h hint a n wr line b) := by
  unfold touchBlock
  dsimp only
  split
  · exact .ite .none (.some (modPool_keeps (mtlStat_keeps hs)))
  · split
    · split
      · exact .some (modPool_keeps (mtlStat_keeps hs))
      · exact .none
    · exact .some (mtlStat_keeps hs)
theorem touch_keeps {h hint a n wr line} (hs : Keeps s₀ s) : OptKeeps s₀ id (touch s h hint a n wr line) :=
  .ite .none (foldl_optKeeps (fun _ _ hu => .bind (π := id) hu (fun _ => touchBlock_keeps)) (.some hs) _)
theorem fillPoison_keeps {clean k} (hs : Keeps s₀ s) : Keeps s₀ (fillPoison clean k s) :=
  .ite hs (.ite (modPool_keeps (insSet_keeps _ hs)) (insSet_keeps _ hs))
theorem dropFill_keeps {m} (hs : Keeps s₀ s) : Keeps s₀ (dropFill m s) := .ite hs (filterPoison_keeps hs)
theorem eccDeep_keeps {s' a k wr} (hs : Keeps s₀ s) : Keeps s₀ (eccDeep s' s a k wr).1 := by
  unfold eccDeep
  have hf := fun ( seen : Nat → Bool ) ( l : List Nat ) => 
    foldl_keeps (fun k _ hu => fillPoison_keeps (clean := !wr) (k := k) hu) (seeDeep_keeps (seen := seen) hs) l
  split
  · exact hs
  · dsimp only
    split
    · exact .fst (dropDeep_keeps (foldl_keeps (fun k _ hu => insSet_keeps k hu) (hf _ _) _))
    · exact .fst (hf _ _)
theorem devWrite_keeps {h hint a bs poison line e} (hs : Keeps s₀ s) :
    OptKeeps s₀ id (devWrite s h hint a bs poison line e) := by
  unfold devWrite
  split
  · exact .map (π := id) (touch_keeps (noteCodes_keeps hs)) (fun _ hu => store_keeps (eccDeep_keeps hu))
  · exact .some (store_keeps (noteCodes_keeps hs))
theorem devRead_keeps {h hint a n e line} (hs : Keeps s₀ s) : OptKeeps s₀ Prod.fst (devRead s h hint a n e line) := by
  unfold devRead
  split
  · exact .map (π := id) (touch_keeps (noteCodes_keeps hs)) (fun _ hu => .fst (eccDeep_keeps hu))
  · exact .some (.fst (seeWords_keeps (noteCodes_keeps hs)))
theorem devCopy_keeps {h hint src dst n} (hs : Keeps s₀ s) : OptKeeps s₀ id (devCopy s h hint src dst n) :=
  .ite (.some hs) (.bind (π := Prod.fst) (devRead_keeps hs) (fun _ => devWrite_keeps))
theorem waitTile_keeps {m} (hs : Keeps s₀ s) : Keeps s₀ (waitTile s m) := .ite hs (modPool_keeps hs)
theorem waitOp_keeps {a h addr n hint} (hs : Keeps s₀ s) : Keeps s₀ (waitOp s a h addr n hint) := .ite (waitTile_keeps hs) hs
theorem postWrite_keeps {a h hint addr bs ps} (hs : Keeps s₀ s) : Keeps s₀ (postWrite s a h hint addr bs ps) :=
  OptKeeps.getD (devWrite_keeps hs) (waitTile_keeps hs)
theorem serveAccess_keeps {m} (hs : Keeps s₀ s) : OptKeeps s₀ id (serveAccess s m) :=
  .ite (touch_keeps hs) (.ite (devWrite_keeps hs) (.map (π := Prod.fst) (devRead_keeps hs) (fun _ => emit_keeps)))
theorem serveWaiting_keeps {p} (hs : Keeps s₀ s) : Keeps s₀ (serveWaiting s p) := by
  unfold serveWaiting
  refine forEach_keeps ?_ hs
  intro _ _ hu
  split
  · exact modPool_keeps ((serveAccess_keeps hu).get ‹_›)
  · exact .ite hu (waitTile_keeps (modPool_keeps hu))
theorem toDeep_keeps {m mask} (hs : Keeps s₀ s) : Keeps s₀ (toDeep s m mask) := .ite hs (dropDeep_keeps hs)
theorem leavePool_keeps {p i} (hs : Keeps s₀ s) : Keeps s₀ (leavePool s p i) :=
  modPool_keeps (forEach_keeps (fun _ _ hu => dropFill_keeps (toDeep_keeps hu)) hs)
theorem victimFound_keeps {p} (hs : Keeps s₀ s) : Keeps s₀ (victimFound s p) := by
  unfold victimFound
  split
  · exact serveWaiting_keeps hs
  · refine .ite (serveWaiting_keeps hs) ?_
    split
    · exact hs
    · exact .ite (serveWaiting_keeps (leavePool_keeps (mtlStat_keeps hs))) (modPool_keeps (mtlStat_keeps hs))
theorem evictEnd_keeps {p i} (hs : Keeps s₀ s) : Keeps s₀ (evictEnd s p i) := by
  unfold evictEnd
  split
  · exact .ite (serveWaiting_keeps (leavePool_keeps (mtlStat_keeps hs))) hs
  · exact hs
theorem ageTick_keeps (hs : Keeps s₀ s) : Keeps s₀ (ageTick s) := .update hs

/-! ### Schedules and launches -/

theorem modBlw_keeps {t f} (hs : Keeps s₀ s) : Keeps s₀ (modBlw s t f) := modTile_keeps hs
theorem setCs_keeps {t st} (hs : Keeps s₀ s) : Keeps s₀ (setCs s t st) := modTile_keeps hs
theorem setCsWord_keeps {t w} (hs : Keeps s₀ s) : Keeps s₀ (setCsWord s t w) := modTile_keeps hs
theorem setHold_keeps {h st} (hs : Keeps s₀ s) : Keeps s₀ (setHold s h st) := modHearth_keeps hs
theorem setCause_keeps {h cause on} (hs : Keeps s₀ s) : Keeps s₀ (setCause s h cause on) := modHearth_keeps hs
theorem breach_keeps {h cause tile agent} (hs : Keeps s₀ s) : Keeps s₀ (breach s h cause tile agent) := by
  unfold breach
  refine .unless (.maybe (modHearth_keeps ?_) raise_keeps) (fun h1 => .maybe (setCause_keeps h1) setHold_keeps)
  split
  · exact hs
  · exact draw_keeps hs
theorem endCause_keeps {h cause} (hs : Keeps s₀ s) : Keeps s₀ (endCause s h cause) := setCause_keeps hs
theorem refreshLate_keeps {h} (hs : Keeps s₀ s) : Keeps s₀ (refreshLate s h) :=
  .ite hs (.unless (.unless (.ite hs (endCause_keeps hs)) endCause_keeps) endCause_keeps)
theorem stopStream_keeps {t} (hs : Keeps s₀ s) : Keeps s₀ (stopStream s t) := .ite (modTile_keeps (setCs_keeps hs)) hs
theorem setFault_keeps {t space v} (hs : Keeps s₀ s) : Keeps s₀ (setFault s t space v) := modTile_keeps hs
theorem tileFault_keeps {t space code detail word mid} (hs : Keeps s₀ s) :
    Keeps s₀ (tileFault s t space code detail word mid) :=
  raise_keeps (stopStream_keeps (setFault_keeps hs))
theorem stopHearth_keeps {h chk} (hs : Keeps s₀ s) : Keeps s₀ (stopHearth s h chk) := by
  unfold stopHearth
  refine forEach_keeps ?_ hs
  intro _ _ hu
  refine .ite ?_ hu
  refine stopStream_keeps ?_
  split
  · exact setFault_keeps hu
  · exact hu
theorem advance_keeps {t n} (hs : Keeps s₀ s) : Keeps s₀ (advance s t n) := modTile_keeps (setCsWord_keeps hs)
theorem issue_keeps {t w f} (hf : ∀ u, Keeps s₀ u → IssueKeeps s₀ (f u)) (hs : Keeps s₀ s) : Keeps s₀ (issue t w f s) := by
  unfold issue
  refine .ite ?_ hs
  split
  · exact advance_keeps ((hf _ hs).done ‹_›)
  · exact advance_keeps ((hf _ hs).goto ‹_›)
  · exact modTile_keeps ((hf _ hs).hold ‹_›)
  · exact tileFault_keeps hs
theorem issueCmd_keeps {op t w f} (hf : ∀ u, Keeps s₀ u → IssueKeeps s₀ (f u)) (hs : Keeps s₀ s) :
    Answers s₀ (issueCmd op t w f s) :=
  .next (.ite (issue_keeps (fun _ hu => hf _ hu) hs) hs)

/-! ### Increments of the counters -/

theorem modCtr_keeps {c f} (hs : Keeps s₀ s) : Keeps s₀ (modCtr s c f) := .update hs
theorem modNet_keeps {h f} (hs : Keeps s₀ s) : Keeps s₀ (modNet s h f) := modHearth_keeps hs
theorem modRun_keeps {h f} (hs : Keeps s₀ s) : Keeps s₀ (modRun s h f) := modHearth_keeps hs
theorem synRefuse_keeps {code h agent arg0 detail} (hs : Keeps s₀ s) : Keeps s₀ (synRefuse s code h agent arg0 detail) :=
  raiseWith_keeps hs
theorem fixWaits_keeps {c o ok} (hs : Keeps s₀ s) : Keeps s₀ (fixWaits s c o ok) := .update hs
theorem applyInc_keeps {c amt} (hs : Keeps s₀ s) : Keeps s₀ (applyInc s c amt) := by
  unfold applyInc
  exact fixWaits_keeps (.maybe (.ite hs (modCtr_keeps hs)) raise_keeps)
theorem bookIssue_keeps {h amt remote} (hs : Keeps s₀ s) : Keeps s₀ (bookIssue s h amt remote) := modNet_keeps hs
theorem bookDone_keeps {h amt remote} (hs : Keeps s₀ s) : Keeps s₀ (bookDone s h amt remote) := modNet_keeps hs
theorem issueWith_keeps {h c amt phase after} (hs : Keeps s₀ s) : Keeps s₀ (issueWith s h c amt phase after) := by
  unfold issueWith
  dsimp only
  split
  · exact .update (bookIssue_keeps hs)
  · exact .update hs
theorem issueLocal_keeps {h c amt} (hs : Keeps s₀ s) : Keeps s₀ (issueLocal s h c amt) := issueWith_keeps hs
theorem loseOwner_keeps {c} (hs : Keeps s₀ s) : Keeps s₀ (loseOwner s c) :=
  .ite hs (raise_keeps (fixWaits_keeps (modCtr_keeps hs)))
theorem ownerGone_keeps {code} (hs : Keeps s₀ s) : Keeps s₀ (ownerGone s code) :=
  forEach_keeps (fun _ _ => loseOwner_keeps) hs
theorem hearthOwnersGone_keeps {h} (hs : Keeps s₀ s) : Keeps s₀ (hearthOwnersGone s h) :=
  forEach_keeps (fun _ _ => loseOwner_keeps) hs
theorem claimCtr_keeps {c code} (hs : Keeps s₀ s) : OptKeeps s₀ id (claimCtr s c code) :=
  .ite (.some (.update hs)) (.ite (.some (modCtr_keeps hs)) .none)
theorem releaseCtr_keeps {c code} (hs : Keeps s₀ s) : OptKeeps s₀ id (releaseCtr s c code) :=
  .ite (.some (modCtr_keeps hs)) .none
theorem notify_keeps {code vec mip} (hs : Keeps s₀ s) : Keeps s₀ (notify s code vec mip) :=
  .ite (.ite (emit_keeps hs) (hostReq_keeps hs)) (.ite (emit_keeps (.update hs)) hs)
theorem tmoRecord_keeps {h c tgt waiter} (hs : Keeps s₀ s) : Keeps s₀ (tmoRecord s h c tgt waiter) := raise_keeps hs

/-! ### Frames and sessions -/

theorem modSess_keeps {dev f} (hs : Keeps s₀ s) : Keeps s₀ (modSess s dev f) := .update hs
theorem rxRaise_keeps {code dev arg0 detail h space} (hs : Keeps s₀ s) : Keeps s₀ (rxRaise s code dev arg0 detail h space) :=
  .ite hs (.ite (.update (.update hs)) (raise_keeps (.update hs)))
theorem sendFlit_keeps {p ft} (hs : Keeps s₀ s) : Keeps s₀ (sendFlit s p ft) := modPort_keeps (emit_keeps hs)
theorem serveOut_keeps {p} (hs : Keeps s₀ s) : Keeps s₀ (serveOut s p) :=
  .ite (forEach_keeps (fun _ _ hu => forEach_keeps (fun _ _ => sendFlit_keeps) (emit_keeps hu)) (modPort_keeps hs)) hs
theorem putOut_keeps {p grp f} (hs : Keeps s₀ s) : Keeps s₀ (putOut s p grp f) := serveOut_keeps (modPort_keeps hs)
theorem rxCount_keeps {p malf tag noroute refused} (hs : Keeps s₀ s) : Keeps s₀ (rxCount s p malf tag noroute refused) :=
  modPort_keeps hs
theorem noRoute_keeps {p f} (hs : Keeps s₀ s) : Keeps s₀ (noRoute s p f) := rxRaise_keeps (rxCount_keeps hs)
theorem launch_keeps {f} (hs : Keeps s₀ s) : Keeps s₀ (launch s f) := by
  unfold launch
  dsimp only
  split
  · exact putOut_keeps hs
  · exact putOut_keeps hs
  · exact noRoute_keeps hs
  · exact hs
theorem bindReq_keeps {t core grp dev fnum} (hs : Keeps s₀ s) : Keeps s₀ (bindReq s t core grp dev fnum) := modTile_keeps hs
theorem enterSend_keeps {e} (hs : Keeps s₀ s) : Keeps s₀ (enterSend s e) := by
  unfold enterSend
  split
  · exact hs
  · refine launch_keeps ?_
    split
    · exact bindReq_keeps (.update (modSess_keeps hs))
    · exact .update (modSess_keeps hs)
theorem drained_keeps {t} (hs : Keeps s₀ s) : Keeps s₀ (drained s t) := .ite (zeroRange_keeps (modBlw_keeps hs)) hs
theorem removeReq_keeps {t i} (hs : Keeps s₀ s) : Keeps s₀ (removeReq s t i) := by
  unfold removeReq
  split
  · exact hs
  · dsimp only
    split
    · refine .ite (drained_keeps (modBlw_keeps hs)) ?_
      split
      · exact drained_keeps (modBlw_keeps hs)
      · exact .ite (drained_keeps (modHearth_keeps (modBlw_keeps hs))) (modBlw_keeps hs)
    · exact drained_keeps (modBlw_keeps hs)
theorem dropMcst_keeps {h t off n} (hs : Keeps s₀ s) : Keeps s₀ (dropMcst s h t off n) :=
  forEach_keeps (fun _ _ => modBlw_keeps) hs
theorem deliver_keeps {h t r off bs ps} (hs : Keeps s₀ s) : OptKeeps s₀ id (deliver s h t r off bs ps) := by
  unfold deliver
  split
  · refine devWrite_keeps ?_
    split
    · exact dropMcst_keeps hs
    · exact hs
  · exact .some (forEach_keeps (fun _ _ hu => store_keeps (dropMcst_keeps hu)) hs)
  · exact .some (modBlw_keeps hs)
  · exact .some hs
theorem reqFail_keeps {t core grp fnum dev} (hs : Keeps s₀ s) : Keeps s₀ (reqFail s t core grp fnum dev) := by
  unfold reqFail
  split
  · refine removeReq_keeps ?_
    dsimp only
    split
    · refine .ite hs ?_
      split
      · exact postWrite_keeps hs
      · exact OptKeeps.getD (deliver_keeps hs) hs
    · exact hs
  · exact removeReq_keeps hs
  · exact hs
theorem entryFail_keeps {e} (hs : Keeps s₀ s) : Keeps s₀ (entryFail s e) := by
  unfold entryFail
  split
  · exact reqFail_keeps hs
  · exact bookDone_keeps hs
  · exact .maybe (modRun_keeps hs) bookDone_keeps
  · exact hs
theorem sendFrame_keeps {e} (hs : Keeps s₀ s) : Keeps s₀ (sendFrame s e) :=
  .ite (rxRaise_keeps (entryFail_keeps hs)) (.ite (enterSend_keeps hs) (.update (.ite hs (emit_keeps hs))))
theorem admitWaiting_keeps (hs : Keeps s₀ s) : Keeps s₀ (admitWaiting s) := by
  unfold admitWaiting
  split
  · exact hs
  · exact enterSend_keeps (.update hs)
theorem issueRemoteUse_keeps {h agent dev ctr amt use} (hs : Keeps s₀ s) :
    Keeps s₀ (issueRemoteUse s h agent dev ctr amt use) :=
  sendFrame_keeps (bookIssue_keeps hs)
theorem issueRemote_keeps {h agent dev ctr amt} (hs : Keeps s₀ s) : Keeps s₀ (issueRemote s h agent dev ctr amt) :=
  issueRemoteUse_keeps hs
theorem sendAck_keeps {dev fnum status} (hs : Keeps s₀ s) : Keeps s₀ (sendAck s dev fnum status) := by
  unfold sendAck
  split
  · exact hs
  · exact launch_keeps (modSess_keeps hs)
theorem sendWrite_keeps {agent h dev addr bs poison use} (hs : Keeps s₀ s) :
    Keeps s₀ (sendWrite s agent h dev addr bs poison use) :=
  sendFrame_keeps hs
theorem sendRead_keeps {agent dev addr n use} (hs : Keeps s₀ s) : Keeps s₀ (sendRead s agent dev addr n use) :=
  sendFrame_keeps hs

/-! ### The operand window -/

theorem winGate_keeps {t f} (hs : Keeps s₀ s) (hf : ∀ u, Keeps s₀ u → IssueKeeps s₀ (f u)) : IssueKeeps s₀ (winGate t s f) :=
  .ite hs (hf _ hs)
theorem issueWcf_keeps {t w} (hs : Keeps s₀ s) : IssueKeeps s₀ (issueWcf t w s) :=
  .ite trivial (.ite trivial (.ite trivial (.ite trivial (winGate_keeps hs (fun _ => modTile_keeps)))))
theorem issueWin_keeps {t w} (hs : Keeps s₀ s) : IssueKeeps s₀ (issueWin t w s) :=
  .ite trivial (.ite trivial (.ite trivial (winGate_keeps hs (fun _ => modTile_keeps))))
theorem issueWcur_keeps {t w} (hs : Keeps s₀ s) : IssueKeeps s₀ (issueWcur t w s) := by
  unfold issueWcur
  dsimp only
  split
  · exact .ite trivial (winGate_keeps hs (fun _ => modTile_keeps))
  · exact trivial
theorem relines_keeps {t} (hs : Keeps s₀ s) : Keeps s₀ (relines s t) := by
  unfold relines
  split
  · exact modTile_keeps hs
  · exact hs
theorem lineArrive_keeps {t oy ty} (hs : Keeps s₀ s) : Keeps s₀ (lineArrive s t oy ty) := by
  unfold lineArrive
  dsimp only
  split
  · split
    · refine .ite hs (.ite ?_ (modTile_keeps (scrSee_keeps hs)))
      split
      · exact refreshLate_keeps (modTile_keeps (modTile_keeps (scrSee_keeps hs)))
      · exact modTile_keeps (modTile_keeps (scrSee_keeps hs))
    · exact hs
  · exact hs
theorem execWcf_keeps {t w} (hs : Keeps s₀ s) : Answers s₀ (execWcf t w s) := issueCmd_keeps (fun _ => issueWcf_keeps) hs
theorem execWin_keeps {t w} (hs : Keeps s₀ s) : Answers s₀ (execWin t w s) := issueCmd_keeps (fun _ => issueWin_keeps) hs
theorem execWcur_keeps {t w} (hs : Keeps s₀ s) : Answers s₀ (execWcur t w s) := issueCmd_keeps (fun _ => issueWcur_keeps) hs
theorem execWinLineArrive_keeps {t oy ty} (hs : Keeps s₀ s) : Answers s₀ (execWinLineArrive t oy ty s) :=
  .next (lineArrive_keeps hs)

/-! ### Epochs of the check groups -/

theorem phaseEntry_keeps {h start tag agent kind} (hs : Keeps s₀ s) : Keeps s₀ (phaseEntry s h start tag agent kind) :=
  .ite (postWrite_keeps (modNet_keeps hs)) (.unless (modNet_keeps hs) (fun h1 => raise_keeps (modRun_keeps h1)))
theorem dropActive_keeps {p h} (hs : Keeps s₀ s) : Keeps s₀ (dropActive s p h) := by
  unfold dropActive
  split
  · exact phaseEntry_keeps (modPort_keeps hs)
  · exact hs
theorem modChk_keeps {h f} (hs : Keeps s₀ s) : Keeps s₀ (modChk s h f) := modHearth_keeps hs
theorem setEc_keeps {h st} (hs : Keeps s₀ s) : Keeps s₀ (setEc s h st) := modChk_keeps hs
theorem noticeNext_keeps {h rank} (hs : Keeps s₀ s) : Keeps s₀ (noticeNext s h rank) := by
  unfold noticeNext
  refine .ite hs ?_
  split
  · exact hs
  · exact issueRemoteUse_keeps (sendWrite_keeps (modRun_keeps hs))
theorem postNotice_keeps {h kind trig} (hs : Keeps s₀ s) : Keeps s₀ (postNotice s h kind trig) := by
  unfold postNotice
  split
  · exact .ite (forEach_keeps (fun _ _ hu => noticeNext_keeps (modRun_keeps hu)) hs) hs
  · exact hs
theorem quenchStop_keeps {p h} (hs : Keeps s₀ s) : Keeps s₀ (quenchStop s p h) := modPort_keeps hs
theorem endItems_keeps {h p outcome detail esq} (hs : Keeps s₀ s) : Keeps s₀ (endItems s h p outcome detail esq) :=
  forEach_keeps (fun _ _ => modQueue_keeps) hs
theorem collFailed_keeps {p h idx} (hs : Keeps s₀ s) : Keeps s₀ (collFailed s p h idx) :=
  forEach_keeps (fun _ _ => modQueue_keeps) hs
theorem dropRefetch_keeps {h p} (hs : Keeps s₀ s) : Keeps s₀ (dropRefetch s h p) := .update hs
theorem becomeRetracted_keeps {h trig} (hs : Keeps s₀ s) : Keeps s₀ (becomeRetracted s h trig) := by
  unfold becomeRetracted
  refine forEach_keeps (fun _ _ => modTile_keeps) ?_
  refine forEach_keeps (fun _ u hu => ?_) (endItems_keeps (stopHearth_keeps (endCause_keeps
    (dropRefetch_keeps (modRun_keeps (modChk_keeps (setEc_keeps hs)))))))
  have dropped {c : Prop} [Decidable c] {p k} : Keeps s₀ (if c then dropActive (collFailed u p h k) p h else u) :=
    .maybe hu (fun h1 => dropActive_keeps (collFailed_keeps h1))
  dsimp only
  split
  · refine .maybe ?_ quenchStop_keeps
    split <;> [exact dropped; exact hu]
  · split <;> [exact dropped; exact hu]
theorem retractEpoch_keeps {h trig} (hs : Keeps s₀ s) : Keeps s₀ (retractEpoch s h trig) :=
  .ite (postNotice_keeps (raise_keeps (modChk_keeps (becomeRetracted_keeps hs)))) hs
theorem commitEpoch_keeps {h} (hs : Keeps s₀ s) : Keeps s₀ (commitEpoch s h) :=
  .ite (.update (postNotice_keeps (raise_keeps (setEc_keeps hs))))
    (synRefuse_keeps (postNotice_keeps (raise_keeps (setEc_keeps hs))))
theorem confirmEpoch_keeps {h} (hs : Keeps s₀ s) : Keeps s₀ (confirmEpoch s h) :=
  .unless (postNotice_keeps (modRun_keeps (setEc_keeps hs))) commitEpoch_keeps
theorem poisonLost_keeps {h tile agent addr} (hs : Keeps s₀ s) : Keeps s₀ (poisonLost s h tile agent addr) :=
  retractEpoch_keeps (raise_keeps (.maybe (breach_keeps hs) endCause_keeps))
theorem poisonHold_keeps {t pipe addr} (hs : Keeps s₀ s) : Keeps s₀ (poisonHold s t pipe addr) := by
  unfold poisonHold
  refine .ite hs ?_
  dsimp only
  split
  · exact raise_keeps (modTile_keeps hs)
  · split
    · exact .unless (modTile_keeps hs) (fun h1 => sendRead_keeps (modRun_keeps (breach_keeps h1)))
    · exact poisonLost_keeps (modTile_keeps hs)
theorem dropRecovery_keeps {h g} (hs : Keeps s₀ s) : Keeps s₀ (dropRecovery s h g) :=
  .maybe (dropRefetch_keeps (modRun_keeps hs)) endCause_keeps
theorem redoMcst_keeps {h g} (hs : Keeps s₀ s) : OptKeeps s₀ id (redoMcst s h g) :=
  foldl_optKeeps (fun _ _ hu => .bind (π := id) hu (fun _ hv => .map (π := Prod.fst) (devRead_keeps hv)
    (fun _ hw => forEach_keeps (fun _ _ => store_keeps) hw))) (.some hs) _
theorem refetchDone_keeps {h g bs} (hs : Keeps s₀ s) : OptKeeps s₀ id (refetchDone s h g bs) :=
  .ite (.some hs) (.map (π := id) (.bind (π := id) (devWrite_keeps hs) (fun _ => redoMcst_keeps))
    (fun _ hu => dropRecovery_keeps (modChk_keeps (forEach_keeps (fun _ _ hv => raise_keeps (modTile_keeps hv))
    (forEach_keeps (fun _ _ => relines_keeps) hu)))))
theorem refetchFail_keeps {h g} (hs : Keeps s₀ s) : Keeps s₀ (refetchFail s h g) :=
  .ite hs (retractEpoch_keeps (dropRecovery_keeps (forEach_keeps (fun _ _ => raise_keeps) hs)))

/-! ### Memory accesses and their tiers -/

theorem markDirty_keeps {base len} (hs : Keeps s₀ s) : Keeps s₀ (markDirty s base len) :=
  forEach_keeps (fun _ _ => modPool_keeps) hs
theorem mtlStart_keeps {a h inv} (hs : Keeps s₀ s) : Keeps s₀ (mtlStart s a h inv) :=
  .ite (misuse_keeps hs) (.ite (misuse_keeps hs) (.ite (raise_keeps (modHearth_keeps hs))
    (markDirty_keeps (modHearth_keeps (modHearth_keeps hs)))))
theorem writeBack_keeps {h base len inv} (hs : Keeps s₀ s) : Keeps s₀ (writeBack s h base len inv) := by
  unfold writeBack
  exact mtlStat_keeps (forEach_keeps (fun _ _ hu => modPool_keeps
    (forEach_keeps (fun _ _ => dropFill_keeps) (forEach_keeps (fun _ _ => toDeep_keeps) hu))) hs)
theorem mtlDone_keeps {h} (hs : Keeps s₀ s) : Keeps s₀ (mtlDone s h) := by
  unfold mtlDone
  split
  · exact hs
  · exact .ite hs (.maybe (modHearth_keeps (writeBack_keeps hs)) (fun h1 => serveWaiting_keeps (serveWaiting_keeps h1)))
theorem modStk_keeps {k f} (hs : Keeps s₀ s) : Keeps s₀ (modStk s k f) := .update hs
theorem damper_keeps {k temp} (hs : Keeps s₀ s) : Keeps s₀ (damper s k temp) :=
  .maybe (.maybe (modStk_keeps hs) (fun h1 => raise_keeps (forEach_keeps (fun _ _ => breach_keeps) (modStk_keeps h1))))
    (fun h2 => serveWaiting_keeps (serveWaiting_keeps h2))
theorem setRcf_keeps {k} (hs : Keeps s₀ s) : Keeps s₀ (setRcf s k) := .update (modStk_keeps hs)
theorem recalibrate_keeps {k ch ok} (hs : Keeps s₀ s) : Keeps s₀ (recalibrate s k ch ok) :=
  .ite hs (.unless (.update hs) (fun h1 => raise_keeps (setRcf_keeps h1)))
theorem patrol_keeps {sector e} (hs : Keeps s₀ s) : Keeps s₀ (patrol s sector e) :=
  .ite hs (seeDeep_keeps (noteCodes_keeps hs))
theorem execWriteback_keeps {a h} (hs : Keeps s₀ s) : Answers s₀ (execWriteback a h s) := .next (mtlStart_keeps hs)
theorem execWbinv_keeps {a h} (hs : Keeps s₀ s) : Answers s₀ (execWbinv a h s) := .next (mtlStart_keeps hs)
theorem execMtlOpDone_keeps {h} (hs : Keeps s₀ s) : Answers s₀ (execMtlOpDone h s) := .next (mtlDone_keeps hs)
theorem execMantelVictimFound_keeps {half} (hs : Keeps s₀ s) : Answers s₀ (execMantelVictimFound half s) :=
  .next (victimFound_keeps hs)
theorem execMantelAgeTick_keeps (hs : Keeps s₀ s) : Answers s₀ (execMantelAgeTick s) := .next (ageTick_keeps hs)
theorem execEvictionWritebackEnd_keeps {half i} (hs : Keeps s₀ s) : Answers s₀ (execEvictionWritebackEnd half i s) :=
  .next (evictEnd_keeps hs)
theorem execPatrolScrub_keeps {sector ecc} (hs : Keeps s₀ s) : Answers s₀ (execPatrolScrub sector ecc s) :=
  .next (patrol_keeps hs)
theorem execRefreshWindow_keeps {k ch} (hs : Keeps s₀ s) : Answers s₀ (execRefreshWindow k ch s) := .next hs
theorem execRecalibration_keeps {c ok} (hs : Keeps s₀ s) : Answers s₀ (execRecalibration c ok s) :=
  .next (recalibrate_keeps hs)
theorem execDamperSample_keeps {k temp} (hs : Keeps s₀ s) : Answers s₀ (execDamperSample k temp s) := .next (damper_keeps hs)

/-! ### Phase entries -/

theorem endTilePhase_keeps {t} (hs : Keeps s₀ s) : Keeps s₀ (endTilePhase s t) := by
  unfold endTilePhase
  split
  · exact phaseEntry_keeps (modTile_keeps hs)
  · exact hs
theorem issuePht_keeps {t w} (hs : Keeps s₀ s) : IssueKeeps s₀ (issuePht t w s) := modTile_keeps (endTilePhase_keeps hs)
theorem anchorWrite_keeps (hs : Keeps s₀ s) : Keeps s₀ (anchorWrite s) := .ite (.maybe (.update hs) .update) hs
theorem execPht_keeps {t w} (hs : Keeps s₀ s) : Answers s₀ (execPht t w s) := issueCmd_keeps (fun _ => issuePht_keeps) hs
theorem execAnchorWrite_keeps (hs : Keeps s₀ s) : Answers s₀ (execAnchorWrite s) := .next (anchorWrite_keeps hs)

/-! ### Steps of a collective -/

theorem setActive_keeps {p h a} (hs : Keeps s₀ s) : Keeps s₀ (setActive s p h a) := modPort_keeps hs
theorem modActive_keeps {p h f} (hs : Keeps s₀ s) : Keeps s₀ (modActive s p h f) := modPort_keeps hs
theorem engRead_keeps {p h a n} (hs : Keeps s₀ s) : OptKeeps s₀ Prod.fst (engRead s p h a n) :=
  .ite .none (.map (π := Prod.fst) (devRead_keeps hs) (fun _ hu => .fst hu))
theorem engWrite_keeps {p h hint a bs ps} (hs : Keeps s₀ s) : Keeps s₀ (engWrite s p h hint a bs ps) :=
  .ite hs (postWrite_keeps hs)
theorem optEach_keeps {l : List α} {f} (hs : Keeps s₀ s) (hf : ∀ x u, Keeps s₀ u → OptKeeps s₀ id (f x u)) :
    OptKeeps s₀ id (optEach l s f) :=
  foldl_optKeeps (fun x _ ho => .bind ho (fun u hu => hf x u hu)) (.some hs) l
theorem engSee_keeps {p h l} (hs : Keeps s₀ s) : OptKeeps s₀ Prod.fst (engSee p h l s) :=
  foldl_optKeeps (fun _ _ hu => .bind (π := Prod.fst) hu (fun _ hv => .map (π := Prod.fst) (engRead_keeps hv)
    (fun _ hw => .fst hw))) (.some (.fst hs)) _
theorem queueFrame_keeps {p h dev f} (hs : Keeps s₀ s) : Keeps s₀ (queueFrame s p h dev f) := modActive_keeps hs
theorem sendColl_keeps {p h a dev hop off first bs ps} (hs : Keeps s₀ s) :
    Keeps s₀ (sendColl s p h a dev hop off first bs ps) :=
  queueFrame_keeps hs
theorem pumpLoop_keeps {p k} (hs : Keeps s₀ s) : Keeps s₀ (pumpLoop p k s) := by
  induction k generalizing s with
  | zero => exact hs
  | succ k ih =>
    unfold pumpLoop
    split
    · exact hs
    · exact ih (sendFrame_keeps (modActive_keeps (modPort_keeps hs)))
theorem pump_keeps {p} (hs : Keeps s₀ s) : Keeps s₀ (pump s p) := pumpLoop_keeps hs
theorem pumpAll_keeps (hs : Keeps s₀ s) : Keeps s₀ (pumpAll s) := forEach_keeps (fun _ _ => pump_keeps) hs
theorem sendElems_keeps {p h a dev hop bits k off bs ps hdr} (hs : Keeps s₀ s) :
    Keeps s₀ (sendElems p h a dev hop bits k s off bs ps hdr) := by
  induction k generalizing s off bs ps hdr with
  | zero => exact hs
  | succ k ih => exact .ite (sendColl_keeps hs) (ih (sendColl_keeps hs))
theorem permGot_keeps {p h a y} (hs : Keeps s₀ s) : Keeps s₀ (permGot s p h a y) := modActive_keeps hs
theorem permMove_keeps {p h a from' base y} (hs : Keeps s₀ s) : OptKeeps s₀ Prod.fst (permMove s p h a from' base y) := by
  unfold permMove
  refine .map (π := Prod.fst) (engRead_keeps hs) ?_
  intro _ hu
  dsimp only
  split
  · exact .fst (permGot_keeps (engWrite_keeps hu))
  · exact .fst (sendElems_keeps hu)
theorem permDone_keeps {p h a z} (hs : Keeps s₀ s) : Keeps s₀ (permDone s p h a z) := modActive_keeps hs
theorem permStep_keeps {p h a w} (hs : Keeps s₀ s) : OptKeeps s₀ id (permStep s p h a w) := by
  unfold permStep
  split
  · split
    · exact .some hs
    · exact .map (π := Prod.fst) (engRead_keeps hs) (fun _ hu => modActive_keeps (engWrite_keeps hu))
  · exact .ite (.ite .none (.some (sendColl_keeps hs))) (.map (π := Prod.fst) (permMove_keeps hs)
      (fun _ hu => .ite (permDone_keeps hu) (modActive_keeps hu)))
theorem permGo_keeps {p h k} (hs : Keeps s₀ s) : Keeps s₀ (permGo p h k s) := by
  induction k generalizing s with
  | zero => exact hs
  | succ k ih =>
    unfold permGo
    split
    · exact hs
    · split
      · exact hs
      · split
        · exact hs
        · exact ih (modActive_keeps ((permStep_keeps hs).get ‹_›))
theorem permRun_keeps {p h} (hs : Keeps s₀ s) : Keeps s₀ (permRun s p h) := permGo_keeps hs
theorem collAcked_keeps {p h f} (hs : Keeps s₀ s) : Keeps s₀ (collAcked s p h f) := by
  unfold collAcked
  split
  · exact hs
  · exact .ite hs (pump_keeps (permRun_keeps (permDone_keeps (modActive_keeps hs))))
theorem cyclesLost_keeps {p h code g a arg} (hs : Keeps s₀ s) : Keeps s₀ (cyclesLost s p h code g a arg) :=
  forEach_keeps (fun _ _ => raise_keeps) hs

/-! ### Operands of the collectives -/

theorem putSlotRow_keeps {t slot r es} (hs : Keeps s₀ s) : Keeps s₀ (putSlotRow s t slot r es) := store_keeps hs
theorem modSst_keeps {t slot f} (hs : Keeps s₀ s) : Keeps s₀ (modSst s t slot f) := modTile_keeps hs
theorem setSst_keeps {t slot bits} (hs : Keeps s₀ s) : Keeps s₀ (setSst s t slot bits) := modTile_keeps hs
theorem orStatus_keeps {t slot st} (hs : Keeps s₀ s) : Keeps s₀ (orStatus s t slot st) := setSst_keeps hs
theorem raiseFlags_keeps {t flags} (hs : Keeps s₀ s) : Keeps s₀ (raiseFlags s t flags) := modTile_keeps hs
theorem pushAnv_keeps {t op} (hs : Keeps s₀ s) : Keeps s₀ (pushAnv s t op) := modTile_keeps hs

/-! ### Quench -/

theorem qchStart_keeps {p h d n dseq segs} (hs : Keeps s₀ s) : Keeps s₀ (qchStart s p h d n dseq segs) :=
  modPort_keeps (modNet_keeps hs)
theorem readState_keeps {p h u bf a} (hs : Keeps s₀ s) : OptKeeps s₀ Prod.fst (readState s p h u bf a) :=
  .ite (.some (.fst hs)) (.map (π := Prod.fst) (engRead_keeps hs) (fun _ hu => .fst hu))
theorem writeState_keeps {p h u bf a v} (hs : Keeps s₀ s) : Keeps s₀ (writeState s p h u bf a v) :=
  .ite hs (.ite (engWrite_keeps hs) (engWrite_keeps hs))
theorem readChunk_keeps {p h j es} (hs : Keeps s₀ s) : OptKeeps s₀ Prod.fst (readChunk s p h j es) := by
  unfold readChunk
  refine foldl_optKeeps ?_ (.some (.fst hs)) _
  intro _ _ hu
  refine .bind (π := Prod.fst) hu ?_
  intro _ hv
  dsimp only
  split
  · exact .some (.fst hv)
  · exact .map (π := Prod.fst) (foldl_optKeeps (fun _ _ hw => .bind (π := Prod.fst) hw
      (fun _ hx => .map (π := Prod.fst) (readState_keeps hx) (fun _ hy => .fst hy))) (.some (.fst hv)) _)
      (fun _ hw => .fst hw)
theorem writeMx_keeps {p h j g c i} (hs : Keeps s₀ s) : Keeps s₀ (writeMx s p h j g c i).2 := by
  unfold writeMx
  dsimp only
  split
  · exact .snd (engWrite_keeps (engWrite_keeps hs))
  · exact .snd hs
theorem quenchOne_keeps {p h x96 px a e v old} (ha : Keeps s₀ a.st) : Keeps s₀ (quenchOne p h x96 px a e v old).st := by
  unfold quenchOne
  split
  · exact ha
  · have hw {l : List (Nat × Nat)} {f : Nat × Nat → Bool × Bool × Nat} :=
      foldl_keeps (fun v _ hu => writeState_keeps (p := p) (h := h) (u := (f v).1) (bf := (f v).2.1) (a := (f v).2.2)
        (v := v.1) hu) ha l
    dsimp only
    split
    · exact writeMx_keeps hw
    · split
      · exact .snd (engWrite_keeps hw)
      · exact .snd hw
theorem freeBuf_keeps {p retired} (hs : Keeps s₀ s) : Keeps s₀ (freeBuf s p retired) := modPort_keeps hs
theorem setJob_keeps {p h j} (hs : Keeps s₀ s) : Keeps s₀ (setJob s p h j) := modPort_keeps hs
theorem quenchHold_keeps {p h a} (hs : Keeps s₀ s) : Keeps s₀ (quenchHold s p h a) := poisonLost_keeps (modPort_keeps hs)
theorem quenchWithhold_keeps {p h j c} (hs : Keeps s₀ s) : Keeps s₀ (quenchWithhold s p h j c) :=
  retractEpoch_keeps (raise_keeps (modActive_keeps (setJob_keeps (modNet_keeps hs))))
theorem quenchWritten_keeps {p h j c r} (hr : Keeps s₀ r.st) : Keeps s₀ (quenchWritten s p h j c r) := by
  have hw {f y} : Keeps s₀ (setJob (modNet r.st h f) p h y) := setJob_keeps (modNet_keeps hr)
  exact .maybe (.maybe hw raise_keeps) (fun h1 => retractEpoch_keeps
    (.ite (modActive_keeps h1) (raise_keeps (modActive_keeps h1))))
theorem quenchChunk_keeps {p h} (hs : Keeps s₀ s) : Keeps s₀ (quenchChunk s p h) := by
  unfold quenchChunk
  dsimp only
  split
  · refine .ite hs (.ite (quenchWithhold_keeps (freeBuf_keeps (modPort_keeps hs)))
      (.ite (quenchHold_keeps (draw_keeps hs)) ?_))
    split
    · exact hs
    · exact quenchHold_keeps ((readChunk_keeps hs).get ‹_›)
    · next hr =>
      refine quenchWritten_keeps (foldl_keeps_in (π := QRun.st) (fun _ _ => quenchOne_keeps) ?_ _)
      exact freeBuf_keeps (modPort_keeps ((readChunk_keeps hs).get hr))
  · exact hs
theorem flipGen_keeps {h agent} (hs : Keeps s₀ s) : Keeps s₀ (flipGen s h agent) := .ite (raise_keeps hs) (modNet_keeps hs)
theorem quenchRetract_keeps {p h} (hs : Keeps s₀ s) : Keeps s₀ (quenchRetract s p h) := by
  unfold quenchRetract
  split
  · refine .ite ?_ hs
    dsimp only
    split
    · exact .maybe (quenchStop_keeps hs) dropActive_keeps
    · exact quenchStop_keeps hs
  · exact hs
theorem execQuenchChunk_keeps {p h} (hs : Keeps s₀ s) : Answers s₀ (execQuenchChunk p h s) := .next (quenchChunk_keeps hs)
theorem execFlip_keeps {a h} (hs : Keeps s₀ s) : Answers s₀ (execFlip a h s) :=
  .next (.ite (flipGen_keeps hs) (misuse_keeps hs))
theorem execQuenchRetract_keeps {p h} (hs : Keeps s₀ s) : Answers s₀ (execQuenchRetract p h s) :=
  .next (quenchRetract_keeps hs)

end Sys2Proof.Machine
end

section
/-! What the commands of the Anvil, the accumulators, the counters and the links keep. -/

namespace Sys2Proof.Machine

variable {s₀ s n : State} {α β ε : Type}

/-! ### The Anvil -/

theorem modBuf_keeps {t b f} (hs : Keeps s₀ s) : Keeps s₀ (modBuf s t b f) := modTile_keeps hs
theorem acceptMmt_keeps {t w p} (hs : Keeps s₀ s) : Keeps s₀ (acceptMmt s t w p) := modTile_keeps (pushAnv_keeps hs)
theorem holdHead_keeps {t} (hs : Keeps s₀ s) : Keeps s₀ (holdHead s t) := modTile_keeps hs
theorem issueMmt_keeps {t w} (hs : Keeps s₀ s) : IssueKeeps s₀ (issueMmt t w s) := by
  unfold issueMmt
  refine .ite (holdHead_keeps hs) ?_
  split
  · exact trivial
  · exact trivial
  · refine .ite hs (.ite ?_ (acceptMmt_keeps hs))
    split
    · split
      · exact trivial
      · exact acceptMmt_keeps hs
    · exact hs
theorem issueLdp_keeps {t w} (hs : Keeps s₀ s) : IssueKeeps s₀ (issueLdp t w s) := by
  unfold issueLdp
  dsimp only
  split
  · exact trivial
  · exact .ite hs (modBuf_keeps (pushAnv_keeps hs))
theorem issueBld_keeps {t w} (hs : Keeps s₀ s) : IssueKeeps s₀ (issueBld t w s) :=
  .ite trivial (.ite trivial (modTile_keeps (scrSee_keeps hs)))
theorem issueBkt_keeps {t w} (hs : Keeps s₀ s) : IssueKeeps s₀ (issueBkt t w s) := by
  unfold issueBkt
  refine .ite trivial (.ite trivial ?_)
  refine .ite trivial ?_
  split
  · exact trivial
  · exact hs
theorem loadStart_keeps {t} (hs : Keeps s₀ s) : Keeps s₀ (loadStart s t) := by
  unfold loadStart
  dsimp only
  split
  · split
    · exact .ite (modBuf_keeps (modTile_keeps hs)) hs
    · exact hs
  · exact hs
theorem seeRanges_keeps {t l} (hs : Keeps s₀ s) : Keeps s₀ (seeRanges s t l) := foldl_keeps (fun _ _ => scrSee_keeps) hs _
theorem bufferReady_keeps {t} (hs : Keeps s₀ s) : Keeps s₀ (bufferReady s t) := by
  unfold bufferReady
  dsimp only
  split
  · split
    · refine .ite ?_ hs
      split
      · exact poisonHold_keeps (seeRanges_keeps hs)
      · exact modBuf_keeps (modTile_keeps (seeRanges_keeps hs))
    · exact hs
  · exact hs
theorem modMmt_keeps {t seq f} (hs : Keeps s₀ s) : Keeps s₀ (modMmt s t seq f) := modTile_keeps hs
theorem retireMmt_keeps {t} (hs : Keeps s₀ s) : Keeps s₀ (retireMmt s t) := modTile_keeps hs
theorem commitRow_keeps {t seq k r outs flags status} (hs : Keeps s₀ s) :
    Keeps s₀ (commitRow s t seq k r outs flags status) :=
  retireMmt_keeps (modMmt_keeps (.ite (orStatus_keeps (putSlotRow_keeps (raiseFlags_keeps hs)))
    (modTile_keeps (raiseFlags_keeps hs))))
theorem tstat_keeps {t hi lo} (hs : Keeps s₀ s) : Keeps s₀ (tstat s t hi lo) := modTile_keeps hs
theorem rowWrite_keeps {t err shadowErr} (hs : Keeps s₀ s) : Keeps s₀ (rowWrite s t err shadowErr) := by
  unfold rowWrite
  dsimp only
  split
  · split
    · exact hs
    · refine .ite ?_ (commitRow_keeps (modTile_keeps (.maybe (.maybe (.maybe (.ite (tstat_keeps hs) hs) tstat_keeps)
        tstat_keeps) raiseWith_keeps)))
      split
      · exact breach_keeps (modTile_keeps (raise_keeps (.maybe (.maybe (.ite (tstat_keeps hs) hs) tstat_keeps) tstat_keeps)))
      · exact modTile_keeps (raise_keeps (.maybe (.maybe (.ite (tstat_keeps hs) hs) tstat_keeps) tstat_keeps))
  · exact hs
theorem replayRow_keeps {t} (hs : Keeps s₀ s) : Keeps s₀ (replayRow s t) := by
  unfold replayRow
  split
  · exact .ite (modTile_keeps hs) hs
  · exact hs
theorem replayEnd_keeps {t err shadowErr} (hs : Keeps s₀ s) : Keeps s₀ (replayEnd s t err shadowErr) := by
  unfold replayEnd
  dsimp only
  split
  · split
    · exact hs
    · exact .ite hs (.ite (commitRow_keeps (modTile_keeps (tstat_keeps (raise_keeps (endCause_keeps (modTile_keeps hs))))))
        (retractEpoch_keeps (modTile_keeps (stopStream_keeps (setFault_keeps
        (.maybe (raise_keeps (endCause_keeps (modTile_keeps hs))) raise_keeps))))))
  · exact hs
theorem truncateMmt_keeps {t seq} (hs : Keeps s₀ s) : Keeps s₀ (truncateMmt s t seq) :=
  retireMmt_keeps (modTile_keeps (modMmt_keeps hs))
theorem startWait_keeps {t seq} (hs : Keeps s₀ s) : Keeps s₀ (startWait s t seq) := modMmt_keeps hs
theorem zrcStop_keeps {t seq k c n l} (hs : Keeps s₀ s) : Keeps s₀ (zrcStop s t seq k c n l) :=
  truncateMmt_keeps (tileFault_keeps hs)
theorem rowOperands_keeps {t seq k} (hs : Keeps s₀ s) : GateKeeps s₀ (rowOperands s t seq k) := by
  unfold rowOperands
  refine .ite ?_ ?_
  · split
    · refine .ite ?_ ?_
      · refine .ite hs ?_
        dsimp only
        split
        · exact breach_keeps (modTile_keeps hs)
        · exact modTile_keeps hs
      · split
        · exact zrcStop_keeps hs
        · split
          · exact poisonHold_keeps hs
          · exact trivial
    · exact hs
  · dsimp only
    split
    · exact poisonHold_keeps hs
    · exact trivial
/-- The room reserved for a row, and the state where there is none. -/
theorem reserveOut_keeps {t seq k} (hs : Keeps s₀ s) :
    OptKeeps s₀ id (reserveOut s t seq k).1 ∧ Keeps s₀ (reserveOut s t seq k).2 := by
  unfold reserveOut
  split
  · exact ⟨.some hs, hs⟩
  · dsimp only
    split
    · exact ⟨.some (modTile_keeps hs), hs⟩
    · split
      · exact ⟨.none, .snd (startWait_keeps hs)⟩
      · split
        · exact ⟨.none, .snd (breach_keeps (modTile_keeps (startWait_keeps hs)))⟩
        · exact ⟨.none, .snd (modTile_keeps (startWait_keeps hs))⟩
theorem enterRow_keeps {t j k es sa} (hs : Keeps s₀ s) : Keeps s₀ (enterRow s t j k es sa) :=
  .maybe (modTile_keeps hs) modSst_keeps
theorem rowEnter_keeps {t} (hs : Keeps s₀ s) : Keeps s₀ (rowEnter s t) := by
  unfold rowEnter
  refine .ite hs ?_
  split
  · exact modTile_keeps hs
  · split
    · exact hs
    · refine .ite hs (.ite hs (.ite (startWait_keeps hs) (.ite (poisonHold_keeps (draw_keeps hs)) ?_)))
      split
      · exact poisonHold_keeps hs
      · dsimp only
        have hu {k j} : Keeps s₀ (if Mmt.src k = 1 then s else seeRanges s t j) := .ite hs (seeRanges_keeps hs)
        split
        · exact (rowOperands_keeps hu).stay ‹_›
        · split
          · exact .of_snd (reserveOut_keeps hu).2 ‹_›
          · exact enterRow_keeps ((reserveOut_keeps hu).1.get (congrArg Prod.fst ‹_›))
theorem execMmt_keeps {t w} (hs : Keeps s₀ s) : Answers s₀ (execMmt t w s) := issueCmd_keeps (fun _ => issueMmt_keeps) hs
theorem execLdp_keeps {t w} (hs : Keeps s₀ s) : Answers s₀ (execLdp t w s) := issueCmd_keeps (fun _ => issueLdp_keeps) hs
theorem execBld_keeps {t w} (hs : Keeps s₀ s) : Answers s₀ (execBld t w s) := issueCmd_keeps (fun _ => issueBld_keeps) hs
theorem execBkt_keeps {t w} (hs : Keeps s₀ s) : Answers s₀ (execBkt t w s) := issueCmd_keeps (fun _ => issueBkt_keeps) hs
theorem execLdpLoadStart_keeps {t} (hs : Keeps s₀ s) : Answers s₀ (execLdpLoadStart t s) := .next (loadStart_keeps hs)
theorem execBufferReady_keeps {t} (hs : Keeps s₀ s) : Answers s₀ (execBufferReady t s) := .next (bufferReady_keeps hs)
theorem execMmtRowEnter_keeps {t} (hs : Keeps s₀ s) : Answers s₀ (execMmtRowEnter t s) := .next (rowEnter_keeps hs)
theorem execMmtRowWrite_keeps {t err shadowErr} (hs : Keeps s₀ s) : Answers s₀ (execMmtRowWrite t err shadowErr s) :=
  .next (rowWrite_keeps hs)
theorem execChainSegmentHead_keeps {t} (hs : Keeps s₀ s) : Answers s₀ (execChainSegmentHead t s) := by
  unfold execChainSegmentHead
  refine .next ?_
  split
  · exact .ite (issue_keeps (fun _ => issueMmt_keeps) hs) hs
  · exact hs
theorem execReplayRow_keeps {t} (hs : Keeps s₀ s) : Answers s₀ (execReplayRow t s) := .next (replayRow_keeps hs)
theorem execReplayEnd_keeps {t err shadowErr} (hs : Keeps s₀ s) : Answers s₀ (execReplayEnd t err shadowErr s) :=
  .next (replayEnd_keeps hs)

/-! ### The accumulators -/

theorem issueAgeo_keeps {t w} (hs : Keeps s₀ s) : IssueKeeps s₀ (issueAgeo t w s) := .ite hs trivial
theorem ageoApply_keeps {t} (hs : Keeps s₀ s) : Keeps s₀ (ageoApply s t) := by
  unfold ageoApply
  dsimp only
  split
  · exact .ite (advance_keeps (modTile_keeps hs)) hs
  · exact hs
theorem issueAini_keeps {t w} (hs : Keeps s₀ s) : IssueKeeps s₀ (issueAini t w s) :=
  .ite trivial (.ite trivial (.ite trivial (.ite hs (Keeps.ite (modTile_keeps (pushAnv_keeps hs)) (pushAnv_keeps hs)))))
theorem issueAadd_keeps {t w} (hs : Keeps s₀ s) : IssueKeeps s₀ (issueAadd t w s) :=
  .ite trivial (.ite trivial (.ite trivial (.ite trivial (.ite trivial (.ite trivial (.ite hs (pushAnv_keeps hs)))))))
theorem issueAchn_keeps {t w} (hs : Keeps s₀ s) : IssueKeeps s₀ (issueAchn t w s) := by
  unfold issueAchn
  split
  · exact trivial
  · split
    · exact trivial
    · exact hs
theorem achnApply_keeps {t} (hs : Keeps s₀ s) : Keeps s₀ (achnApply s t) := by
  unfold achnApply
  dsimp only
  split
  · exact .ite (advance_keeps (modTile_keeps hs)) hs
  · exact hs
theorem issueAsnd_keeps {t w} (hs : Keeps s₀ s) : IssueKeeps s₀ (issueAsnd t w s) :=
  .ite trivial (.ite trivial (.ite trivial (.ite hs (modTile_keeps (pushAnv_keeps hs)))))
theorem accStep_keeps {t j k} (hs : Keeps s₀ s) : Keeps s₀ (accStep s t j k) := modTile_keeps hs
theorem asndStep_keeps {t j k} (hs : Keeps s₀ s) : Keeps s₀ (asndStep s t j k) := modTile_keeps hs
theorem ainiRow_keeps {t k} (hs : Keeps s₀ s) : Keeps s₀ (ainiRow s t k) := .maybe (putSlotRow_keeps hs) modSst_keeps
theorem aaddRow_keeps {t k} (hs : Keeps s₀ s) : Keeps s₀ (aaddRow s t k) :=
  .maybe (.maybe (putSlotRow_keeps hs) raiseFlags_keeps) orStatus_keeps
theorem asndRow_keeps {t k} (hs : Keeps s₀ s) : Keeps s₀ (asndRow s t k) :=
  foldl_keeps_in (fun _ _ hu => .fst (sendFrame_keeps hu)) (.fst hs) _
theorem accRow_keeps {t} (hs : Keeps s₀ s) : Keeps s₀ (accRow s t) := by
  unfold accRow
  refine .ite hs ?_
  split
  · split
    · refine .ite (accStep_keeps (ainiRow_keeps hs)) ?_
      refine .ite ?_ (.ite (modTile_keeps hs) (.ite (modTile_keeps hs) (asndStep_keeps (asndRow_keeps hs))))
      split
      · exact poisonHold_keeps hs
      · exact accStep_keeps (aaddRow_keeps hs)
    · exact hs
  · exact hs
theorem rxRowIn_keeps {t} (hs : Keeps s₀ s) : Keeps s₀ (rxRowIn s t) := by
  unfold rxRowIn
  dsimp only
  split <;> exact .ite hs (modTile_keeps hs)
theorem chainArrive_keeps {t} (hs : Keeps s₀ s) : Keeps s₀ (chainArrive s t) := by
  unfold chainArrive
  dsimp only
  split
  · exact modTile_keeps hs
  · split
    · exact rxRowIn_keeps (rxRowIn_keeps hs)
    · exact rxRowIn_keeps hs
theorem chainReserved_keeps {t} (hs : Keeps s₀ s) : Keeps s₀ (chainReserved s t) := by
  unfold chainReserved
  refine .ite ?_ hs
  refine rowEnter_keeps ?_
  dsimp only
  split
  · refine refreshLate_keeps ?_
    split
    · exact modMmt_keeps (modTile_keeps hs)
    · exact modTile_keeps hs
  · split
    · exact modMmt_keeps (modTile_keeps hs)
    · exact modTile_keeps hs
/-- What `chainTmo` does once a chain window has run out. -/
def chainExpire (s : State) (t idx rows detail : Nat) : State :=
  let s := modTile s t (fun x => { x with acc := { x.acc with late := false } })
  let s := match tileHearth s t with
    | some h => refreshLate s h
    | none => s
  let f := tileFault s t spACC 5 detail idx rows
  let f := if csState s t = csRunning then setCsWord f t idx else f
  match tileHearth f t with
  | some h => retractEpoch f h 3
  | none => f
theorem chainExpire_keeps {t idx rows detail} (hs : Keeps s₀ s) : Keeps s₀ (chainExpire s t idx rows detail) := by
  have hm {f} : Keeps s₀ (modTile s t f) := modTile_keeps hs
  unfold chainExpire
  dsimp only
  split
  · refine retractEpoch_keeps (.maybe (tileFault_keeps ?_) setCsWord_keeps)
    split
    · exact refreshLate_keeps hm
    · exact hm
  · refine .maybe (tileFault_keeps ?_) setCsWord_keeps
    split
    · exact refreshLate_keeps hm
    · exact hm
theorem chainTmo_keeps {t} (hs : Keeps s₀ s) : Keeps s₀ (chainTmo s t) := by
  unfold chainTmo
  dsimp only
  split
  · split
    · exact chainExpire_keeps (truncateMmt_keeps (.maybe hs setSst_keeps))
    · exact hs
  · have hx {c : Prop} [Decidable c] {f i r d} : Keeps s₀ (if c then chainExpire (modTile s t f) t i r d else s) :=
      .maybe hs (fun h1 => chainExpire_keeps (modTile_keeps h1))
    split
    · split
      · exact .ite (chainExpire_keeps (modTile_keeps hs)) hx
      · exact hs
    · exact hx
theorem execAgeo_keeps {t w} (hs : Keeps s₀ s) : Answers s₀ (execAgeo t w s) := issueCmd_keeps (fun _ => issueAgeo_keeps) hs
theorem execAgeoApply_keeps {t} (hs : Keeps s₀ s) : Answers s₀ (execAgeoApply t s) := .next (ageoApply_keeps hs)
theorem execAini_keeps {t w} (hs : Keeps s₀ s) : Answers s₀ (execAini t w s) := issueCmd_keeps (fun _ => issueAini_keeps) hs
theorem execAadd_keeps {t w} (hs : Keeps s₀ s) : Answers s₀ (execAadd t w s) := issueCmd_keeps (fun _ => issueAadd_keeps) hs
theorem execAchn_keeps {t w} (hs : Keeps s₀ s) : Answers s₀ (execAchn t w s) := issueCmd_keeps (fun _ => issueAchn_keeps) hs
theorem execAchnApply_keeps {t} (hs : Keeps s₀ s) : Answers s₀ (execAchnApply t s) := .next (achnApply_keeps hs)
theorem execAsnd_keeps {t w} (hs : Keeps s₀ s) : Answers s₀ (execAsnd t w s) := issueCmd_keeps (fun _ => issueAsnd_keeps) hs
theorem execChainRowArrive_keeps {t} (hs : Keeps s₀ s) : Answers s₀ (execChainRowArrive t s) := .next (chainArrive_keeps hs)
theorem execChainRowReserved_keeps {t} (hs : Keeps s₀ s) : Answers s₀ (execChainRowReserved t s) :=
  .next (chainReserved_keeps hs)
theorem execAccChaintmo_keeps {t} (hs : Keeps s₀ s) : Answers s₀ (execAccChaintmo t s) := .next (chainTmo_keeps hs)
theorem execAccumulatorPipeRow_keeps {t} (hs : Keeps s₀ s) : Answers s₀ (execAccumulatorPipeRow t s) :=
  .next (accRow_keeps hs)

/-! ### Commands on counters and wait slots -/

theorem synFault_keeps {d c a} : IssueKeeps s₀ (synFault d c a) := trivial
theorem issueSinc_keeps {t w} (hs : Keeps s₀ s) : IssueKeeps s₀ (issueSinc t w s) :=
  .ite synFault_keeps (.ite synFault_keeps (modTile_keeps hs))
theorem issueSwat_keeps {t w} (hs : Keeps s₀ s) : IssueKeeps s₀ (issueSwat t w s) := by
  unfold issueSwat
  refine .ite hs (.ite synFault_keeps ?_)
  refine .ite synFault_keeps ?_
  split
  · exact synFault_keeps
  · exact .ite synFault_keeps (modTile_keeps hs)
theorem issueSbas_keeps {t w} (hs : Keeps s₀ s) : IssueKeeps s₀ (issueSbas t w s) := .ite synFault_keeps (modTile_keeps hs)
theorem issueSclm_keeps {t w} (hs : Keeps s₀ s) : IssueKeeps s₀ (issueSclm t w s) := by
  have hc {c k} : OptKeeps s₀ id (if Sclm.rls w = 1 then releaseCtr s c k else claimCtr s c k) :=
    .ite (releaseCtr_keeps hs) (claimCtr_keeps hs)
  unfold issueSclm
  refine .ite synFault_keeps ?_
  split
  · exact .ite (hc.get ‹_›) (hc.get ‹_›)
  · exact synFault_keeps
theorem swatDone_keeps {t} (hs : Keeps s₀ s) : Keeps s₀ (swatDone s t) := advance_keeps (modTile_keeps hs)
theorem swatStop_keeps {t code detail ctr esq} (hs : Keeps s₀ s) : Keeps s₀ (swatStop s t code detail ctr esq) :=
  modTile_keeps (stopStream_keeps (setFault_keeps hs))
theorem slotEnd_keeps {h i st tell} (hs : Keeps s₀ s) : Keeps s₀ (slotEnd s h i st tell) :=
  .maybe (modRun_keeps (modNet_keeps hs)) notify_keeps
theorem waitSatisfied_keeps {r} (hs : Keeps s₀ s) : Keeps s₀ (waitSatisfied s r) := by
  unfold waitSatisfied
  split
  · split
    · exact .ite (swatDone_keeps hs) hs
    · exact hs
  · exact .ite (slotEnd_keeps hs) hs
theorem synTmo_keeps {r} (hs : Keeps s₀ s) : Keeps s₀ (synTmo s r) := by
  unfold synTmo
  split
  · split
    · exact .ite (modTile_keeps hs) hs
    · exact hs
  · exact .ite (modRun_keeps hs) hs
theorem swatOwner_keeps {t w} (hs : Keeps s₀ s) : Keeps s₀ (swatOwner s t w) := by
  unfold swatOwner
  dsimp only
  split
  · exact swatStop_keeps hs
  · exact swatStop_keeps (raise_keeps hs)
theorem ownerLost_keeps {c} (hs : Keeps s₀ s) : Keeps s₀ (ownerLost s c) := by
  unfold ownerLost
  refine forEach_keeps (fun _ _ hu => forEach_keeps (fun _ _ hv => .ite (slotEnd_keeps hv) hv) hu) (forEach_keeps ?_ hs)
  intro _ _ hu
  split
  · exact .ite (swatOwner_keeps hu) hu
  · exact hu
theorem synInc_keeps {a c v} (hs : Keeps s₀ s) : Keeps s₀ (synInc s a c v) := by
  unfold synInc
  refine .ite (misuse_keeps hs) ?_
  split
  · exact synRefuse_keeps hs
  · exact issueWith_keeps hs
theorem synOwn_keeps {a c claim release} (hs : Keeps s₀ s) : Keeps s₀ (synOwn s a c claim release) :=
  .ite (misuse_keeps hs) (.unless (synRefuse_keeps hs) (fun h1 => .ite (OptKeeps.getD (claimCtr_keeps hs) h1)
    (.ite (OptKeeps.getD (releaseCtr_keeps hs) h1) hs)))
theorem armSlot_keeps {a h i value} (hs : Keeps s₀ s) : Keeps s₀ (armSlot s a h i value) :=
  .ite (misuse_keeps hs) (.ite (misuse_keeps hs) (.ite (notify_keeps (synRefuse_keeps (modNet_keeps (modNet_keeps hs))))
    (.ite (notify_keeps (synRefuse_keeps (modNet_keeps (modNet_keeps hs)))) (modRun_keeps (modNet_keeps (modNet_keeps hs))))))
theorem cancelSlot_keeps {a h i} (hs : Keeps s₀ s) : Keeps s₀ (cancelSlot s a h i) :=
  .ite (misuse_keeps hs) (.ite (slotEnd_keeps hs) hs)
theorem applyFlights_keeps {c} (hs : Keeps s₀ s) : Keeps s₀ (applyFlights s c) := by
  unfold applyFlights
  refine .ite hs (forEach_keeps ?_ ?_)
  · intro _ _ hu
    split
    · exact phaseEntry_keeps hu
    · exact hu
  · refine applyInc_keeps (forEach_keeps ?_ (.update hs))
    intro _ _ hu
    split
    · exact bookDone_keeps hu
    · exact hu
theorem execSinc_keeps {t w} (hs : Keeps s₀ s) : Answers s₀ (execSinc t w s) := issueCmd_keeps (fun _ => issueSinc_keeps) hs
theorem execSwat_keeps {t w} (hs : Keeps s₀ s) : Answers s₀ (execSwat t w s) := issueCmd_keeps (fun _ => issueSwat_keeps) hs
theorem execSbas_keeps {t w} (hs : Keeps s₀ s) : Answers s₀ (execSbas t w s) := issueCmd_keeps (fun _ => issueSbas_keeps) hs
theorem execSclm_keeps {t w} (hs : Keeps s₀ s) : Answers s₀ (execSclm t w s) := issueCmd_keeps (fun _ => issueSclm_keeps) hs
theorem execIncrementApply_keeps {c} (hs : Keeps s₀ s) : Answers s₀ (execIncrementApply c s) := .next (applyFlights_keeps hs)
theorem execSynInc_keeps {a c amt} (hs : Keeps s₀ s) : Answers s₀ (execSynInc a c amt s) := .next (synInc_keeps hs)
theorem execClaim_keeps {a c alsoRelease} (hs : Keeps s₀ s) : Answers s₀ (execClaim a c alsoRelease s) :=
  .next (synOwn_keeps hs)
theorem execReleaseOwner_keeps {a c alsoClaim} (hs : Keeps s₀ s) : Answers s₀ (execReleaseOwner a c alsoClaim s) :=
  .next (synOwn_keeps hs)
theorem execArm_keeps {a h i value} (hs : Keeps s₀ s) : Answers s₀ (execArm a h i value s) := .next (armSlot_keeps hs)
theorem execCancel_keeps {a h i} (hs : Keeps s₀ s) : Answers s₀ (execCancel a h i s) := .next (cancelSlot_keeps hs)
theorem execWaitSatisfied_keeps {r} (hs : Keeps s₀ s) : Answers s₀ (execWaitSatisfied r s) := .next (waitSatisfied_keeps hs)
theorem execSynTmo_keeps {r} (hs : Keeps s₀ s) : Answers s₀ (execSynTmo r s) := .next (synTmo_keeps hs)
theorem execOwnerLost_keeps {c} (hs : Keeps s₀ s) : Answers s₀ (execOwnerLost c s) := .next (ownerLost_keeps hs)

/-! ### Ends of work items -/

theorem modItem_keeps {q seq f} (hs : Keeps s₀ s) : Keeps s₀ (modItem s q seq f) := modQueue_keeps hs
theorem itemEnd_keeps {q seq outcome detail} (hs : Keeps s₀ s) : Keeps s₀ (itemEnd s q seq outcome detail) := modItem_keeps hs
theorem itemData_keeps {q seq remote bs ps} (hs : Keeps s₀ s) : OptKeeps s₀ id (itemData s q seq remote bs ps) := by
  unfold itemData
  split
  · exact .ite (devWrite_keeps hs) (.some hs)
  · exact .some hs
theorem itemFrameDone_keeps {q seq} (hs : Keeps s₀ s) : Keeps s₀ (itemFrameDone s q seq) := modItem_keeps hs
theorem itemFrameFail_keeps {q seq remote} (hs : Keeps s₀ s) : Keeps s₀ (itemFrameFail s q seq remote) := by
  unfold itemFrameFail
  split
  · exact itemEnd_keeps hs
  · exact hs

/-! ### Frames received -/

theorem freeCr_keeps {p ch n} (hs : Keeps s₀ s) : Keeps s₀ (freeCr s p ch n) := modPort_keeps hs
theorem freeRx_keeps {p f} (hs : Keeps s₀ s) : Keeps s₀ (freeRx s p f) := freeCr_keeps hs
theorem colStop_keeps {p h code dseq group arg0 arg1} (hs : Keeps s₀ s) :
    Keeps s₀ (colStop s p h code dseq group arg0 arg1) :=
  raise_keeps (modPort_keeps (collFailed_keeps hs))
theorem colPeerLost_keeps {dev} (hs : Keeps s₀ s) : Keeps s₀ (colPeerLost s dev) := by
  unfold colPeerLost
  refine forEach_keeps ?_ hs
  intro _ _ hu
  refine forEach_keeps ?_ hu
  intro _ _ hv
  split
  · dsimp only
    split
    · exact .ite hv (retractEpoch_keeps (cyclesLost_keeps (colStop_keeps hv)))
    · exact hv
  · exact hv
theorem dropPend_keeps {x} (hs : Keeps s₀ s) : Keeps s₀ (dropPend s x) := by
  unfold dropPend
  refine forEach_keeps ?_ hs
  intro _ _ hu
  refine forEach_keeps ?_ hu
  intro _ _ hv
  dsimp only
  split
  · exact modNet_keeps (freeCr_keeps hv)
  · exact freeCr_keeps hv
theorem lostRecord_keeps {code status e} (hs : Keeps s₀ s) : Keeps s₀ (lostRecord s code status e) := raise_keeps hs
theorem entryLost_keeps {code status e} (hs : Keeps s₀ s) : Keeps s₀ (entryLost s code status e) := by
  unfold entryLost
  dsimp only
  split
  · exact refetchFail_keeps (.maybe (entryFail_keeps hs) lostRecord_keeps)
  · exact itemFrameFail_keeps (.maybe (entryFail_keeps hs) lostRecord_keeps)
  · exact .maybe (entryFail_keeps hs) lostRecord_keeps
theorem endSession_keeps {dev} (hs : Keeps s₀ s) : Keeps s₀ (endSession s dev) := by
  unfold endSession
  refine colPeerLost_keeps (ownerGone_keeps ?_)
  refine forEach_keeps (fun _ _ => entryLost_keeps) ?_
  dsimp only
  split
  · exact .update (forEach_keeps (fun _ _ hu => forEach_keeps (fun _ _ hv => freeRx_keeps (modPort_keeps hv)) hu)
      (dropPend_keeps hs))
  · exact .update (forEach_keeps (fun _ _ hu => forEach_keeps (fun _ _ hv => freeRx_keeps (modPort_keeps hv)) hu) hs)
theorem admitDev_keeps {dev} (hs : Keeps s₀ s) : Keeps s₀ (admitDev s dev) :=
  pumpAll_keeps (forEach_keeps (fun _ _ hu => .ite (enterSend_keeps (.update hu)) hu) hs)
theorem ownSteps_keeps {dev from'} (hs : Keeps s₀ s) : Keeps s₀ (ownSteps s dev from') :=
  forEach_keeps (fun _ _ => emit_keeps) hs
theorem failHs_keeps {dev code} (hs : Keeps s₀ s) : Keeps s₀ (failHs s dev code) := endSession_keeps (raise_keeps hs)
theorem closeFor_keeps {x} (hs : Keeps s₀ s) : Keeps s₀ (closeFor s x) := endSession_keeps (launch_keeps (modSess_keeps hs))
theorem openSession_keeps {dev x} (hs : Keeps s₀ s) : Keeps s₀ (openSession s dev x) := by
  unfold openSession
  refine .ite hs ?_
  dsimp only
  split
  · exact failHs_keeps (ownSteps_keeps hs)
  · refine .ite (admitDev_keeps (.update (ownSteps_keeps hs))) ?_
    split
    · exact admitDev_keeps (.update (closeFor_keeps (ownSteps_keeps hs)))
    · exact ownSteps_keeps hs
theorem rekey_keeps {dev x} (hs : Keeps s₀ s) : Keeps s₀ (rekey s dev x) := by
  unfold rekey
  split
  · exact .ite (.ite (failHs_keeps (ownSteps_keeps hs)) (.ite (failHs_keeps (ownSteps_keeps hs))
      (modSess_keeps (ownSteps_keeps hs)))) hs
  · exact hs
theorem acceptNum_keeps {dev n} (hs : Keeps s₀ s) : Keeps s₀ (acceptNum s dev n) := modSess_keeps hs
theorem malformed_keeps {p f} (hs : Keeps s₀ s) : Keeps s₀ (malformed s p f) := rxRaise_keeps (rxCount_keeps hs)
theorem rxFront_keeps {p f ty} (hs : Keeps s₀ s) : ExcKeeps s₀ (Keeps s₀) id (rxFront s p f ty) := by
  unfold rxFront
  refine .ite hs (.ite (malformed_keeps (freeRx_keeps hs)) ?_)
  split
  · exact malformed_keeps (freeRx_keeps hs)
  · exact .ite (rxRaise_keeps (rxCount_keeps (freeRx_keeps hs))) (modSess_keeps hs)
theorem arrive_keeps {p f ty body} (hs : Keeps s₀ s) (hbody : ∀ u, Keeps s₀ u → OptKeeps s₀ id (body u)) :
    Keeps s₀ (arrive s p f ty body) := by
  unfold arrive
  split
  · exact (rxFront_keeps hs).error ‹_›
  · have hu := (rxFront_keeps hs).ok ‹_›
    split
    · exact freeRx_keeps ((hbody _ hu).get ‹_›)
    · exact modPort_keeps hu
theorem refuse_keeps {p f arg0 h} (hs : Keeps s₀ s) : Keeps s₀ (refuse s p f arg0 h) :=
  sendAck_keeps (acceptNum_keeps (rxRaise_keeps (rxCount_keeps hs)))
theorem rateTake_keeps {h dev bytes incs} (hs : Keeps s₀ s) : OptKeeps s₀ id (rateTake s h dev bytes incs) :=
  .ite .none (.some (modRun_keeps hs))
theorem rateRefuse_keeps {h f} (hs : Keeps s₀ s) : Keeps s₀ (rateRefuse s h f) :=
  sendAck_keeps (rxRaise_keeps (modNet_keeps hs))
theorem ackDup_keeps {h f} (hs : Keeps s₀ s) : Keeps s₀ (ackDup s h f) := by
  unfold ackDup
  refine sendAck_keeps ?_
  split
  · exact modNet_keeps hs
  · exact hs
theorem discard_keeps {h f} (hs : Keeps s₀ s) : OptKeeps s₀ id (discard s h f) :=
  .ite (.some (sendAck_keeps (acceptNum_keeps (modChk_keeps hs)))) .none
theorem comAdd_keeps {f n} (hs : Keeps s₀ s) : Keeps s₀ (comAdd s f n) := modSess_keeps hs
theorem writeBody_keeps {p f} (hs : Keeps s₀ s) : OptKeeps s₀ id (writeBody p f s) := by
  unfold writeBody
  refine .ite (.some (ackDup_keeps hs)) ?_
  split
  · exact .some (refuse_keeps hs)
  · split
    · exact .some ((discard_keeps hs).get ‹_›)
    · split
      · exact .some (rateRefuse_keeps hs)
      · exact .map (π := id) (devWrite_keeps ((rateTake_keeps hs).get ‹_›))
          (fun _ hv => sendAck_keeps (comAdd_keeps (acceptNum_keeps hv)))
theorem rxWrite_keeps {p f} (hs : Keeps s₀ s) : Keeps s₀ (rxWrite s p f) := arrive_keeps hs (fun _ => writeBody_keeps)
theorem rdataFrame_keeps {dev fnum off bs ps last} (hs : Keeps s₀ s) : Keeps s₀ (rdataFrame s dev fnum off bs ps last) := by
  unfold rdataFrame
  split
  · exact hs
  · exact launch_keeps (modSess_keeps hs)
theorem readBody_keeps {p f} (hs : Keeps s₀ s) : OptKeeps s₀ id (readBody p f s) := by
  unfold readBody
  refine .ite (.some (ackDup_keeps hs)) ?_
  split
  · exact .some (refuse_keeps hs)
  · exact .map (π := Prod.fst) (devRead_keeps hs) (fun _ hu => .ite (rdataFrame_keeps (acceptNum_keeps hu))
      (rdataFrame_keeps (rdataFrame_keeps (acceptNum_keeps hu))))
theorem rxRead_keeps {p f} (hs : Keeps s₀ s) : Keeps s₀ (rxRead s p f) := arrive_keeps hs (fun _ => readBody_keeps)
theorem chainBody_keeps {p f} (hs : Keeps s₀ s) : OptKeeps s₀ id (chainBody p f s) := by
  unfold chainBody
  refine .ite (.some (ackDup_keeps hs)) ?_
  split
  · exact .some (refuse_keeps hs)
  · split
    · exact .some ((discard_keeps hs).get ‹_›)
    · split
      · exact .some (rateRefuse_keeps hs)
      · exact .ite .none (.some (sendAck_keeps (comAdd_keeps (acceptNum_keeps
          (modTile_keeps ((rateTake_keeps hs).get ‹_›))))))
theorem rxChain_keeps {p f} (hs : Keeps s₀ s) : Keeps s₀ (rxChain s p f) := arrive_keeps hs (fun _ => chainBody_keeps)
theorem dropEntry_keeps {e} (hs : Keeps s₀ s) : Keeps s₀ (dropEntry s e) := .update hs
theorem modEntry_keeps {dev fnum f} (hs : Keeps s₀ s) : Keeps s₀ (modEntry s dev fnum f) := .update hs
theorem reqDone_keeps {t core grp fnum dev} (hs : Keeps s₀ s) : Keeps s₀ (reqDone s t core grp fnum dev) := by
  unfold reqDone
  split
  · exact removeReq_keeps hs
  · exact hs
theorem afterEntry_keeps {dev} (hs : Keeps s₀ s) : Keeps s₀ (afterEntry s dev) := admitDev_keeps hs
theorem entryAcked_keeps {e status} (hs : Keeps s₀ s) : Keeps s₀ (entryAcked s e status) := by
  have hd : Keeps s₀ (dropEntry s e) := dropEntry_keeps hs
  unfold entryAcked
  refine afterEntry_keeps (.maybe ?_ lostRecord_keeps)
  split
  · exact .ite (reqDone_keeps hd) (reqFail_keeps hd)
  · exact bookDone_keeps hd
  · have booked {c : Prop} [Decidable c] {h n r} : Keeps s₀ (if c then bookDone (dropEntry s e) h n r else dropEntry s e) :=
      .maybe hd bookDone_keeps
    exact .ite (.maybe booked modRun_keeps) (modRun_keeps (raise_keeps booked))
  · exact .maybe hd collAcked_keeps
  · exact refetchFail_keeps hd
  · exact .ite (itemFrameDone_keeps hd) (itemFrameFail_keeps hd)
  · exact hd
theorem gotAck_keeps {dev fnum status} (hs : Keeps s₀ s) : Keeps s₀ (gotAck s dev fnum status) := by
  unfold gotAck
  split
  · exact hs
  · exact .ite (modEntry_keeps hs) (entryAcked_keeps hs)
theorem rxAck_keeps {p f} (hs : Keeps s₀ s) : Keeps s₀ (rxAck s p f) :=
  arrive_keeps hs (fun _ hu => .some (.ite hu (gotAck_keeps (acceptNum_keeps hu))))
theorem readData_keeps {e off bs ps} (hs : Keeps s₀ s) : OptKeeps s₀ id (readData s e off bs ps) := by
  unfold readData
  split
  · split
    · exact deliver_keeps hs
    · exact .some hs
  · exact .ite (refetchDone_keeps hs) (.some (refetchFail_keeps hs))
  · exact itemData_keeps hs
  · exact .some hs
theorem rdataBody_keeps {f} (hs : Keeps s₀ s) : OptKeeps s₀ id (rdataBody f s) := by
  unfold rdataBody
  refine .ite (.some hs) ?_
  dsimp only
  split
  · exact .some (acceptNum_keeps hs)
  · refine .map (π := id) (readData_keeps hs) (fun u hu => ?_)
    have ha : Keeps s₀ (acceptNum u f.sdev f.fnum) := acceptNum_keeps hu
    refine .ite (afterEntry_keeps ?_) (modEntry_keeps ha)
    split
    · refine reqDone_keeps ?_
      split <;> [exact dropEntry_keeps ha; exact ha]
    · refine itemFrameDone_keeps ?_
      split <;> [exact dropEntry_keeps ha; exact ha]
    · split <;> [exact dropEntry_keeps ha; exact ha]
theorem rxRdata_keeps {p f} (hs : Keeps s₀ s) : Keeps s₀ (rxRdata s p f) := arrive_keeps hs (fun _ => rdataBody_keeps)
theorem resend_keeps {dev fnum} (hs : Keeps s₀ s) : Keeps s₀ (resend s dev fnum) := by
  unfold resend
  split
  · exact hs
  · refine .ite hs ?_
    split
    · exact .ite (modEntry_keeps hs) hs
    · exact .ite (.ite (modEntry_keeps hs) (endSession_keeps (raise_keeps (.update hs)))) hs
theorem incDrop_keeps {f c} (hs : Keeps s₀ s) : Keeps s₀ (incDrop s f c) := by
  unfold incDrop
  refine sendAck_keeps (acceptNum_keeps ?_)
  refine rxRaise_keeps ?_
  split
  · exact modNet_keeps hs
  · exact hs
theorem modRx_keeps {dev ch f} (hs : Keeps s₀ s) : Keeps s₀ (modRx s dev ch f) := modSess_keeps hs
theorem incApply_keeps {dev ch i} (hs : Keeps s₀ s) : Keeps s₀ (incApply s dev ch i) := by
  unfold incApply
  refine freeCr_keeps (sendAck_keeps ?_)
  refine applyInc_keeps ?_
  split
  · exact modNet_keeps (modRx_keeps hs)
  · exact modRx_keeps hs
theorem rxInc_keeps {p f} (hs : Keeps s₀ s) : Keeps s₀ (rxInc s p f) := by
  unfold rxInc
  split
  · exact (rxFront_keeps hs).error ‹_›
  · have hu := (rxFront_keeps hs).ok ‹_›
    refine .ite (freeRx_keeps (ackDup_keeps hu)) (.ite ?_ ?_)
    · refine freeRx_keeps (sendAck_keeps ?_)
      refine acceptNum_keeps ?_
      split
      · exact modNet_keeps hu
      · exact hu
    · refine .ite (freeRx_keeps (incDrop_keeps hu)) ?_
      split
      · exact freeRx_keeps (incDrop_keeps (modRx_keeps hu))
      · refine .ite (freeRx_keeps (incDrop_keeps (rxCount_keeps (modRx_keeps hu)))) ?_
        refine .ite (freeRx_keeps (incDrop_keeps (modRx_keeps hu))) (.ite (freeRx_keeps (sendAck_keeps hu)) ?_)
        split
        · exact freeRx_keeps (rateRefuse_keeps hu)
        · have hv := (rateTake_keeps hu).get ‹_›
          exact .ite (incApply_keeps (modNet_keeps (acceptNum_keeps (modRx_keeps hv))))
            (modRx_keeps (modNet_keeps (modNet_keeps (acceptNum_keeps (modRx_keeps hv)))))
theorem pendApply_keeps {dev ch} (hs : Keeps s₀ s) : Keeps s₀ (pendApply s dev ch) := by
  unfold pendApply
  dsimp only
  split
  · refine .ite ?_ hs
    refine incApply_keeps ?_
    split
    · exact modNet_keeps (modRx_keeps hs)
    · exact modRx_keeps hs
  · exact hs
theorem incAck_keeps {dev fnum status} (hs : Keeps s₀ s) : Keeps s₀ (incAck s dev fnum status) := by
  unfold incAck
  split
  · exact .ite (gotAck_keeps hs) hs
  · exact hs
theorem forward_keeps {p f} (hs : Keeps s₀ s) : Keeps s₀ (forward s p f) := by
  unfold forward
  refine .ite hs (.ite (.ite hs (malformed_keeps (freeRx_keeps hs))) ?_)
  refine .ite (malformed_keeps (freeRx_keeps hs)) (.ite (noRoute_keeps (freeRx_keeps hs)) ?_)
  split
  · exact putOut_keeps (freeRx_keeps hs)
  · exact .ite (noRoute_keeps (freeRx_keeps hs)) (putOut_keeps (freeRx_keeps hs))
  · exact noRoute_keeps (freeRx_keeps hs)
theorem execWrite_keeps {p f} (hs : Keeps s₀ s) : Answers s₀ (execWrite p f s) := .next (rxWrite_keeps hs)
theorem execRead_keeps {p f} (hs : Keeps s₀ s) : Answers s₀ (execRead p f s) := .next (rxRead_keeps hs)
theorem execRdata_keeps {p f} (hs : Keeps s₀ s) : Answers s₀ (execRdata p f s) := .next (rxRdata_keeps hs)
theorem execAck_keeps {p f} (hs : Keeps s₀ s) : Answers s₀ (execAck p f s) := .next (rxAck_keeps hs)
theorem execChain_keeps {p f} (hs : Keeps s₀ s) : Answers s₀ (execChain p f s) := .next (rxChain_keeps hs)
theorem execInc_keeps {p f} (hs : Keeps s₀ s) : Answers s₀ (execInc p f s) := .next (rxInc_keeps hs)
theorem execClose_keeps {p f} (hs : Keeps s₀ s) : Answers s₀ (execClose p f s) :=
  .next (arrive_keeps hs (fun _ hu => .some (.ite hu (endSession_keeps hu))))
theorem execPendingIncrementApply_keeps {dev ch} (hs : Keeps s₀ s) : Answers s₀ (execPendingIncrementApply dev ch s) :=
  .next (pendApply_keeps hs)
theorem execIncrementAck_keeps {dev fnum status} (hs : Keeps s₀ s) : Answers s₀ (execIncrementAck dev fnum status s) :=
  .next (incAck_keeps hs)
theorem execFrameForward_keeps {p f} (hs : Keeps s₀ s) : Answers s₀ (execFrameForward p f s) := .next (forward_keeps hs)
theorem execSendResend_keeps {dev fnum} (hs : Keeps s₀ s) : Answers s₀ (execSendResend dev fnum s) := .next (resend_keeps hs)
theorem execSendTableSlotFree_keeps (hs : Keeps s₀ s) : Answers s₀ (execSendTableSlotFree s) :=
  .next (pumpAll_keeps (admitWaiting_keeps hs))
theorem execSessionOpen_keeps {p} (hs : Keeps s₀ s) : Answers s₀ (execSessionOpen p s) := .next (openSession_keeps hs)
theorem execSessionRekey_keeps {p} (hs : Keeps s₀ s) : Answers s₀ (execSessionRekey p s) := .next (rekey_keeps hs)
theorem execSessionEnd_keeps {dev} (hs : Keeps s₀ s) : Answers s₀ (execSessionEnd dev s) := .next (endSession_keeps hs)

/-! ### Collectives -/

theorem setHdr_keeps {p h x} (hs : Keeps s₀ s) : Keeps s₀ (setHdr s p h x) := modActive_keeps hs
theorem colPoison_keeps {p h a arg} (hs : Keeps s₀ s) : Keeps s₀ (colPoison s p h a arg) := raise_keeps hs
theorem ownElems_keeps {p h a f n} (hs : Keeps s₀ s) : OptKeeps s₀ Prod.fst (ownElems s p h a f n) := by
  unfold ownElems
  refine .map (π := Prod.fst) (engRead_keeps hs) ?_
  intro _ hu
  dsimp only
  split
  · refine .fst ?_
    split
    · exact colPoison_keeps hu
    · exact hu
  · refine .fst ?_
    split
    · exact colPoison_keeps hu
    · exact hu
theorem keepPart_keeps {p h f vs} (hs : Keeps s₀ s) : Keeps s₀ (keepPart s p h f vs) := modActive_keeps hs
theorem dropPart_keeps {p h f n} (hs : Keeps s₀ s) : Keeps s₀ (dropPart s p h f n) := modActive_keeps hs
theorem addGot_keeps {p h key f n} (hs : Keeps s₀ s) : Keeps s₀ (addGot s p h key f n) := modActive_keeps hs
theorem sendSums_keeps {p h a dev hop f vs x} (hs : Keeps s₀ s) : Keeps s₀ (sendSums s p h a dev hop f vs x) :=
  sendElems_keeps hs
theorem notComplete_keeps {p h} (hs : Keeps s₀ s) : Keeps s₀ (notComplete s p h) := modActive_keeps (collFailed_keeps hs)
theorem gatherOn_keeps {p h hdr bs ps l k i f m} (hs : Keeps s₀ s) : Keeps s₀ (gatherOn p h hdr bs ps l s k i f m) := by
  induction l generalizing s k i with
  | nil => exact hs
  | cons ph l ih =>
    unfold gatherOn
    split
    · exact hs
    · refine ih ?_
      split
      · exact sendElems_keeps hs
      · exact hs
theorem gatherOwn_keeps {p h a f n bs ps} (hs : Keeps s₀ s) : Keeps s₀ (gatherOwn s p h a f n bs ps) := gatherOn_keeps hs
theorem stepRecord_keeps {p h group refRank badRank step badStep} (hs : Keeps s₀ s) :
    Keeps s₀ (stepRecord s p h group refRank badRank step badStep) :=
  raise_keeps hs
theorem finalSums_keeps {p h a f vs x first} (hs : Keeps s₀ s) : Keeps s₀ (finalSums s p h a f vs x first) :=
  .maybe (.maybe (.ite (modPort_keeps (.ite (notComplete_keeps hs) hs))
    (.maybe (engWrite_keeps (.ite (notComplete_keeps hs) hs)) gatherOwn_keeps))
    (fun h1 => retractEpoch_keeps (stepRecord_keeps h1))) retractEpoch_keeps
theorem reduceOwn_keeps {p h l k c vs x} (hs : Keeps s₀ s) : Keeps s₀ (reduceOwn p h l s k c vs x) := by
  induction l generalizing s k x with
  | nil =>
    unfold reduceOwn
    split
    · exact finalSums_keeps (dropPart_keeps hs)
    · exact hs
  | cons ph l ih =>
    unfold reduceOwn
    split
    · exact hs
    · exact .ite (ih hs) (.ite (dropPart_keeps (sendSums_keeps hs)) (setHdr_keeps (keepPart_keeps hs)))
theorem reduceStart_keeps {p h a} (hs : Keeps s₀ s) : OptKeeps s₀ id (reduceStart s p h a) := by
  unfold reduceStart
  split
  · exact .some hs
  · exact optEach_keeps hs (fun _ _ hu => .ite (.some hu) (.ite (.map (π := Prod.fst) (ownElems_keeps hu)
      (fun _ => reduceOwn_keeps)) (.some hu)))
theorem sendPacked_keeps {p h a dev k f m first} (hs : Keeps s₀ s) : OptKeeps s₀ id (sendPacked p h a dev k s f m first) := by
  induction k generalizing s f m first with
  | zero => exact .some hs
  | succ k ih =>
    unfold sendPacked
    refine .ite (.some hs) (.bind (engRead_keeps hs) (fun _ hu => .bind (engRead_keeps hu) (fun _ hv => ih ?_)))
    exact .ite (sendColl_keeps (engWrite_keeps (.ite (colPoison_keeps hv) hv)))
      (sendColl_keeps (engWrite_keeps (.ite (colPoison_keeps hv) hv)))
theorem directStart_keeps {p h a} (hs : Keeps s₀ s) : OptKeeps s₀ id (directStart s p h a) :=
  .ite (.map (π := Prod.fst) (ownElems_keeps hs) (fun _ => finalSums_keeps))
    (optEach_keeps hs (fun _ _ hu => .ite (sendPacked_keeps hu) (.map (π := Prod.fst) (ownElems_keeps hu)
    (fun _ => sendSums_keeps))))
theorem pxMismatch_keeps {p h a px} (hs : Keeps s₀ s) : Keeps s₀ (pxMismatch s p h a px) :=
  retractEpoch_keeps (raise_keeps (modPort_keeps (notComplete_keeps hs)))
theorem reducePass_keeps {p h a ph k c e st n x first sum} (hs : Keeps s₀ s) :
    Keeps s₀ (reducePass p h a ph k c e st n x first sum s) := by
  unfold reducePass
  refine .ite (finalSums_keeps (dropPart_keeps (addGot_keeps (setHdr_keeps hs)))) ?_
  dsimp only
  split
  · exact keepPart_keeps (addGot_keeps (setHdr_keeps hs))
  · refine .ite (keepPart_keeps (addGot_keeps (setHdr_keeps hs))) ?_
    split
    · exact .ite (reduceOwn_keeps (keepPart_keeps (addGot_keeps (setHdr_keeps hs))))
        (dropPart_keeps (sendSums_keeps (keepPart_keeps (addGot_keeps (setHdr_keeps hs)))))
    · exact keepPart_keeps (addGot_keeps (setHdr_keeps hs))
theorem reduceFrame_keeps {p h a ph k f} : FResKeeps s₀ (reduceFrame s p h a ph k f) := by
  unfold reduceFrame
  dsimp only
  split
  · trivial
  · refine .ite trivial ?_
    split
    · trivial
    · refine .ite trivial (fun u hu => .ite (.some (pxMismatch_keeps hu)) ?_)
      refine .map (π := Prod.fst) ?_ (fun _ hx => reducePass_keeps (.ite hx (colPoison_keeps hx)))
      split
      · exact .some hu
      · exact ownElems_keeps hu
theorem gatherFrame_keeps {p h a ph k rest f} : FResKeeps s₀ (gatherFrame s p h a ph k rest f) := by
  unfold gatherFrame
  dsimp only
  split
  · exact trivial
  · exact .ite trivial (fun _ hu => .some (gatherOn_keeps (addGot_keeps (engWrite_keeps hu))))
theorem directFrame_keeps {p h a f} : FResKeeps s₀ (directFrame s p h a f) := by
  unfold directFrame
  dsimp only
  split
  · trivial
  · refine .ite trivial ?_
    split
    · trivial
    · refine .ite trivial (fun u hu => .ite (.some (pxMismatch_keeps hu)) ?_)
      refine .map (π := Prod.fst) ?_ (fun x hx => ?_)
      · split
        · exact .some hu
        · exact ownElems_keeps hu
      · have hn {y r e n l} : Keeps s₀ (keepPart (addGot (setHdr (if (frameParts f).2.2.isEmpty then x.1 else
            colPoison x.1 p h a r) p h y) p h r e n) p h e l) :=
          keepPart_keeps (addGot_keeps (setHdr_keeps (.ite hx (colPoison_keeps hx))))
        split
        · exact hn
        · refine .ite (finalSums_keeps (dropPart_keeps hn)) (forEach_keeps (fun _ _ hu => ?_) hn)
          split
          · exact finalSums_keeps (dropPart_keeps hu)
          · exact hu
theorem permFrame_keeps {p h a f} : FResKeeps s₀ (permFrame p h a f) :=
  .ite trivial (fun _ hu => .some (addGot_keeps (engWrite_keeps hu)))
theorem freeFrame_keeps {p h a f} : FResKeeps s₀ (freeFrame s p h a f) :=
  .ite trivial (fun _ hu => .some (permRun_keeps (modActive_keeps hu)))
theorem phaseFrame_keeps {p h a f k ps} : FResKeeps s₀ (phaseFrame s p h a f k ps) := by
  induction ps generalizing k with
  | nil => trivial
  | cons ph rest ih =>
    have hr : FResKeeps s₀ (if ph.reduce then reduceFrame s p h a ph k f else gatherFrame s p h a ph k rest f) :=
      .ite reduceFrame_keeps gatherFrame_keeps
    rw [phaseFrame]
    generalize (if ph.reduce then reduceFrame s p h a ph k f else gatherFrame s p h a ph k rest f) = r at hr
    cases r with
    | drop => exact ih
    | hold | take => exact hr
theorem collFits_keeps {p h a f} : FResKeeps s₀ (collFits s p h a f) :=
  .ite trivial (.ite freeFrame_keeps (.ite permFrame_keeps (.ite directFrame_keeps phaseFrame_keeps)))
theorem collAccept_keeps {p h f addr len g} (hs : Keeps s₀ s) (hg : ∀ u, Keeps s₀ u → OptKeeps s₀ id (g u)) :
    OptKeeps s₀ id (collAccept s p h f addr len g) := by
  unfold collAccept
  split
  · exact .some (refuse_keeps hs)
  · split
    · exact .some ((discard_keeps hs).get ‹_›)
    · split
      · exact .some (rateRefuse_keeps hs)
      · exact .map (π := id) (hg _ (acceptNum_keeps ((rateTake_keeps hs).get ‹_›)))
          (fun _ hv => sendAck_keeps (comAdd_keeps hv))
theorem collBody_keeps {p f} (hs : Keeps s₀ s) : OptKeeps s₀ id (collBody p f s) := by
  unfold collBody
  refine .ite (.some (ackDup_keeps hs)) ?_
  split
  · split
    · exact .some ((OptKeeps.bindAny (fun _ => discard_keeps hs)).get ‹_›)
    · exact .ite .none (.some (malformed_keeps hs))
  · split
    · exact .some (malformed_keeps hs)
    · exact .none
    · next hf => exact collAccept_keeps hs (collFits_keeps.take hf)
theorem sendFlue_keeps {p h a dev addr bs ps} (hs : Keeps s₀ s) : Keeps s₀ (sendFlue s p h a dev addr bs ps) :=
  queueFrame_keeps hs
theorem sendBlock_keeps {p h a dev k addr bs ps hdr} (hs : Keeps s₀ s) : Keeps s₀
    (sendBlock p h a dev k s addr bs ps hdr) := by
  induction k generalizing s addr bs ps hdr with
  | zero => exact hs
  | succ k ih => exact .ite (sendFlue_keeps hs) (ih (sendFlue_keeps hs))
theorem flueSync_keeps {p h c} (hs : Keeps s₀ s) : Keeps s₀ (flueSync s p h c) := modPort_keeps hs
theorem flueSend_keeps {p h} (hs : Keeps s₀ s) : Keeps s₀ (flueSend s p h) := by
  unfold flueSend
  split
  · exact hs
  · refine .ite hs (.ite (modActive_keeps (flueSync_keeps hs)) ?_)
    dsimp only
    split
    · exact flueSync_keeps hs
    · exact pump_keeps (modActive_keeps (modPort_keeps (sendBlock_keeps ((engRead_keeps (flueSync_keeps hs)).get ‹_›))))
theorem flueBad_keeps {q h f} (hs : Keeps s₀ s) : Keeps s₀ (flueBad s q h f) :=
  retractEpoch_keeps (raise_keeps (notComplete_keeps hs))
theorem fluePlace_keeps {q h a st f} (hs : Keeps s₀ s) : Keeps s₀ (fluePlace s q h a st f) :=
  .unless (flueBad_keeps hs) (fun h1 => .ite h1 (flueSend_keeps (addGot_keeps (engWrite_keeps hs))))
theorem flueBody_keeps {p f} (hs : Keeps s₀ s) : OptKeeps s₀ id (flueBody p f s) := by
  unfold flueBody
  refine .ite (.some (ackDup_keeps hs)) ?_
  split
  · exact .some (refuse_keeps hs)
  · split
    · exact .some ((discard_keeps hs).get ‹_›)
    · split
      · exact .ite .none (.some (malformed_keeps hs))
      · split
        · exact .none
        · split
          · exact .some (rateRefuse_keeps hs)
          · exact .some (fluePlace_keeps (sendAck_keeps (comAdd_keeps (acceptNum_keeps ((rateTake_keeps hs).get ‹_›)))))
theorem flueRelease_keeps {p h} (hs : Keeps s₀ s) : Keeps s₀ (flueRelease s p h) := by
  unfold flueRelease
  dsimp only
  split
  · exact .maybe (flueSend_keeps hs) (fun h1 => issueRemote_keeps (modActive_keeps h1))
  · exact flueSend_keeps hs
theorem heldBody_keeps {p f} (hs : Keeps s₀ s) : OptKeeps s₀ id (heldBody p f s) :=
  .ite (writeBody_keeps hs) (.ite (readBody_keeps hs) (.ite (rdataBody_keeps hs)
    (.ite (chainBody_keeps hs) (.ite (flueBody_keeps hs) (collBody_keeps hs)))))
theorem retryOne_keeps {p f} (hs : Keeps s₀ s) : Keeps s₀ (retryOne s p f) := by
  unfold retryOne
  refine .ite hs ?_
  split
  · exact hs
  · exact freeRx_keeps (modPort_keeps ((heldBody_keeps hs).get ‹_›))
theorem retryHeld_keeps (hs : Keeps s₀ s) : Keeps s₀ (retryHeld s) :=
  pumpAll_keeps (forEach_keeps (fun _ _ hu => forEach_keeps (fun _ _ => retryOne_keeps) hu) hs)
theorem noteWithheld_keeps {p f} (hs : Keeps s₀ s) : Keeps s₀ (noteWithheld s p f) := by
  unfold noteWithheld
  split
  · exact .ite (modPort_keeps hs) hs
  · exact hs
theorem rxColl_keeps {p f} (hs : Keeps s₀ s) : Keeps s₀ (rxColl s p f) :=
  noteWithheld_keeps (retryHeld_keeps (arrive_keeps hs (fun _ => collBody_keeps)))
theorem rxFlue_keeps {p f} (hs : Keeps s₀ s) : Keeps s₀ (rxFlue s p f) :=
  retryHeld_keeps (arrive_keeps hs (fun _ => flueBody_keeps))
theorem descFault_keeps {p h code dseq group} (hs : Keeps s₀ s) : Keeps s₀ (descFault s p h code dseq group) :=
  raise_keeps (modPort_keeps (collFailed_keeps hs))
theorem agRead_keeps {p h j bits e} (hs : Keeps s₀ s) : OptKeeps s₀ Prod.fst (agRead s p h j bits e) := by
  unfold agRead
  refine .map (π := Prod.fst) ?_ (fun _ hu => .fst hu)
  refine foldl_optKeeps ?_ (.some (.fst hs)) _
  intro _ _ hu
  refine .bind (π := Prod.fst) hu ?_
  intro _ hv
  dsimp only
  split
  · exact .some (.fst hv)
  · exact .map (π := Prod.fst) (engRead_keeps hv) (fun _ hw => .fst hw)
theorem agStop_keeps {p h a j} (hs : Keeps s₀ s) : Keeps s₀ (agStop s p h a j) :=
  retractEpoch_keeps (stepRecord_keeps (modPort_keeps (notComplete_keeps hs)))
theorem agGo_keeps {p h k} (hs : Keeps s₀ s) : Keeps s₀ (agGo p h k s) := by
  induction k generalizing s with
  | zero => exact hs
  | succ k ih =>
    dsimp only [agGo]
    split
    · refine .ite hs (.ite (agStop_keeps hs) (.ite hs ?_))
      split
      · exact hs
      · next hr => exact ih (modActive_keeps (gatherOwn_keeps (engWrite_keeps ((agRead_keeps hs).get hr))))
    · exact hs
theorem agRun_keeps {p h} (hs : Keeps s₀ s) : Keeps s₀ (agRun s p h) := agGo_keeps hs
theorem agStart_keeps {p h a} (hs : Keeps s₀ s) : OptKeeps s₀ id (agStart s p h a) :=
  .ite (.some (agRun_keeps hs)) (.map (π := Prod.fst) (engRead_keeps hs) (fun _ hu => gatherOwn_keeps (engWrite_keeps hu)))
theorem permStart_keeps {p h a} (hs : Keeps s₀ s) : OptKeeps s₀ id (permStart s p h a) :=
  .ite (optEach_keeps hs (fun _ _ hu => .map (π := Prod.fst) (permMove_keeps hu) (fun _ hv => hv)))
    (.some (permRun_keeps (modActive_keeps hs)))
theorem colStart_keeps {p h a} (hs : Keeps s₀ s) : OptKeeps s₀ id (colStart s p h a) :=
  .ite (.some hs) (.ite (.some (flueSend_keeps (flueSync_keeps hs)))
    (.ite (permStart_keeps hs) (.ite (agStart_keeps hs) (.ite (directStart_keeps hs) (reduceStart_keeps hs)))))
theorem colGo_keeps {p h} (hs : Keeps s₀ s) : Keeps s₀ (colGo s p h) := agRun_keeps (permRun_keeps (flueSend_keeps hs))
theorem groupTake_keeps {p h g} (hs : Keeps s₀ s) : Keeps s₀ (groupTake s p h g) := .ite hs (modNet_keeps (modRun_keeps hs))
theorem descStart_keeps {p h d segs} (hs : Keeps s₀ s) : OptKeeps s₀ id (descStart s p h d segs) :=
  colStart_keeps (setActive_keeps (.maybe (.maybe (modPort_keeps (groupTake_keeps hs))
    (fun h1 => OptKeeps.getD (claimCtr_keeps h1) (synRefuse_keeps h1))) qchStart_keeps))
theorem descNext_keeps {p h adr} (hs : Keeps s₀ s) : OptKeeps s₀ id (descNext s p h adr) := by
  unfold descNext
  refine .bind (π := Prod.fst) (engRead_keeps hs) ?_
  intro _ hu
  refine .ite (.some (descFault_keeps hu)) ?_
  split
  · exact .some (descFault_keeps (groupTake_keeps hu))
  · exact .bind (π := Prod.fst) (engSee_keeps hu) (fun _ hv => .ite (.some (descFault_keeps (groupTake_keeps hv)))
      (descStart_keeps hv))
theorem descTake_keeps {p h} (hs : Keeps s₀ s) : Keeps s₀ (descTake s p h) := by
  unfold descTake
  refine .ite (retryHeld_keeps (colGo_keeps hs)) (.ite hs ?_)
  refine .ite (descFault_keeps hs) ?_
  split
  · exact hs
  · exact retryHeld_keeps ((descNext_keeps hs).get ‹_›)
theorem colComplete_keeps {p h} (hs : Keeps s₀ s) : Keeps s₀ (colComplete s p h) := by
  unfold colComplete
  split
  · exact hs
  · exact .ite hs (.ite (issueWith_keeps (setActive_keeps hs)) (phaseEntry_keeps
      (.unless (setActive_keeps hs) synRefuse_keeps)))
theorem colTmo_keeps {p h} (hs : Keeps s₀ s) : Keeps s₀ (colTmo s p h) := by
  unfold colTmo
  split
  · exact hs
  · refine .ite hs ?_
    dsimp only
    split
    · exact .maybe (flueSend_keeps hs) (fun h1 => retractEpoch_keeps (raise_keeps (tmoRecord_keeps (notComplete_keeps h1))))
    · exact .maybe (flueSend_keeps hs) (fun h1 => retractEpoch_keeps (cyclesLost_keeps (colStop_keeps h1)))
theorem ringPost_keeps {a p h tail} (hs : Keeps s₀ s) : Keeps s₀ (ringPost s a p h tail) :=
  .ite (misuse_keeps hs) (modPort_keeps hs)
theorem ringRestart_keeps {a p h} (hs : Keeps s₀ s) : Keeps s₀ (ringRestart s a p h) :=
  .ite (misuse_keeps hs) (.ite hs (modPort_keeps (dropActive_keeps hs)))
theorem grpWrite_keeps {a h g word value} (hs : Keeps s₀ s) : Keeps s₀ (grpWrite s a h g word value) :=
  .ite (misuse_keeps hs) (.ite (misuse_keeps hs) (.ite (modNet_keeps hs)
    (.ite (modNet_keeps hs) (modRun_keeps (modNet_keeps hs)))))
theorem bufferFree_keeps {p} (hs : Keeps s₀ s) : Keeps s₀ (bufferFree s p) := .ite (retryHeld_keeps (modPort_keeps hs)) hs
theorem execColl_keeps {p f} (hs : Keeps s₀ s) : Answers s₀ (execColl p f s) := .next (.ite hs (rxColl_keeps hs))
theorem execFree_keeps {p f} (hs : Keeps s₀ s) : Answers s₀ (execFree p f s) := .next (.ite (rxColl_keeps hs) hs)
theorem execFlue_keeps {p f} (hs : Keeps s₀ s) : Answers s₀ (execFlue p f s) := .next (rxFlue_keeps hs)
theorem execColRingPost_keeps {a p h tail} (hs : Keeps s₀ s) : Answers s₀ (execColRingPost a p h tail s) :=
  .next (ringPost_keeps hs)
theorem execDescriptorTake_keeps {p h} (hs : Keeps s₀ s) : Answers s₀ (execDescriptorTake p h s) := .next (descTake_keeps hs)
theorem execRestart_keeps {a p h} (hs : Keeps s₀ s) : Answers s₀ (execRestart a p h s) := .next (ringRestart_keeps hs)
theorem execColGrpWrite_keeps {a h g word value} (hs : Keeps s₀ s) : Answers s₀ (execColGrpWrite a h g word value s) :=
  .next (grpWrite_keeps hs)
theorem execCollectiveComplete_keeps {p h} (hs : Keeps s₀ s) : Answers s₀ (execCollectiveComplete p h s) :=
  .next (colComplete_keeps hs)
theorem execColTmo_keeps {p h} (hs : Keeps s₀ s) : Answers s₀ (execColTmo p h s) := .next (colTmo_keeps hs)
theorem execFlueBufferRelease_keeps {p h} (hs : Keeps s₀ s) : Answers s₀ (execFlueBufferRelease p h s) :=
  .next (flueRelease_keeps hs)
theorem execQuenchBufferFree_keeps {p} (hs : Keeps s₀ s) : Answers s₀ (execQuenchBufferFree p s) :=
  .next (bufferFree_keeps hs)

/-! ### Ports -/

theorem setPort_keeps {p st} (hs : Keeps s₀ s) : Keeps s₀ (setPort s p st) := modPort_keeps hs
theorem setLcode_keeps {p code} (hs : Keeps s₀ s) : Keeps s₀ (setLcode s p code) := modPort_keeps hs
theorem modLl_keeps {p f} (hs : Keeps s₀ s) : Keeps s₀ (modLl s p f) := modPort_keeps hs
theorem reroute_keeps {p} (hs : Keeps s₀ s) : Keeps s₀ (reroute s p) := by
  unfold reroute
  refine forEach_keeps ?_ (modPort_keeps hs)
  intro _ _ hu
  dsimp only
  split
  · exact putOut_keeps hu
  · exact .ite (noRoute_keeps hu) (putOut_keeps hu)
  · exact noRoute_keeps hu
theorem outOfService_keeps {p st} (hs : Keeps s₀ s) : Keeps s₀ (outOfService s p st) :=
  reroute_keeps (ownerGone_keeps (setPort_keeps hs))
theorem portDown_keeps {p code} (hs : Keeps s₀ s) : Keeps s₀ (portDown s p code) :=
  .ite (outOfService_keeps (raise_keeps (setLcode_keeps hs))) hs
theorem replayFrom_keeps {p fseq} (hs : Keeps s₀ s) : Keeps s₀ (replayFrom s p fseq) :=
  .ite (.maybe (emit_keeps (modLl_keeps (modPort_keeps hs))) portDown_keeps) hs
theorem ackFlits_keeps {p a} (hs : Keeps s₀ s) : Keeps s₀ (ackFlits s p a) := modLl_keeps hs
theorem laneCount_keeps {p f} (hs : Keeps s₀ s) : Keeps s₀ (laneCount s p f) := modLl_keeps hs
theorem flitCounts_keeps {p f} (hs : Keeps s₀ s) : Keeps s₀ (flitCounts s p f) := modPort_keeps hs
theorem takeCredits_keeps {p cret} (hs : Keeps s₀ s) : Keeps s₀ (takeCredits s p cret) :=
  .ite hs (serveOut_keeps (modLl_keeps (modPort_keeps hs)))
theorem flitTake_keeps {p f} (hs : Keeps s₀ s) : Keeps s₀ (flitTake s p f) :=
  .maybe (takeCredits_keeps (.maybe (.maybe (modLl_keeps hs) modPort_keeps) ackFlits_keeps)) replayFrom_keeps
theorem flitIn_keeps {p f} (hs : Keeps s₀ s) : Keeps s₀ (flitIn s p f) :=
  .ite hs (.ite (portDown_keeps (.maybe (flitCounts_keeps hs) laneCount_keeps))
    (.ite (modLl_keeps (.maybe (flitCounts_keeps hs) laneCount_keeps))
    (flitTake_keeps (.maybe (flitCounts_keeps hs) laneCount_keeps))))
theorem replayTimeout_keeps {p} (hs : Keeps s₀ s) : Keeps s₀ (replayTimeout s p) := by
  unfold replayTimeout
  dsimp only
  split
  · exact .ite (replayFrom_keeps hs) hs
  · exact hs
theorem creditTimeout_keeps {p} (hs : Keeps s₀ s) : Keeps s₀ (creditTimeout s p) := by
  unfold creditTimeout
  dsimp only
  split
  · exact .ite (portDown_keeps hs) hs
  · exact hs
theorem portEnable_keeps {p} (hs : Keeps s₀ s) : Keeps s₀ (portEnable s p) := .ite (setPort_keeps hs) hs
theorem portDisable_keeps {p} (hs : Keeps s₀ s) : Keeps s₀ (portDisable s p) :=
  .ite (outOfService_keeps hs) (.ite (setPort_keeps hs) hs)
theorem sendHs_keeps {p kind step} (hs : Keeps s₀ s) : Keeps s₀ (sendHs s p kind step) := sendFlit_keeps (emit_keeps hs)
theorem lanesLocked_keeps {p} (hs : Keeps s₀ s) : Keeps s₀ (lanesLocked s p) :=
  .ite (sendHs_keeps (setPort_keeps (.update (modPort_keeps hs)))) hs
theorem trainFail_keeps {p} (hs : Keeps s₀ s) : Keeps s₀ (trainFail s p) :=
  .ite (.unless (setPort_keeps hs) (fun h1 => raise_keeps (modPort_keeps h1))) hs
theorem timedMove_keeps {p st k st'} (hs : Keeps s₀ s) : Keeps s₀ (timedMove s p st k st') := .ite (setPort_keeps hs) hs
theorem drainEnd_keeps {p} (hs : Keeps s₀ s) : Keeps s₀ (drainEnd s p) := .ite (setPort_keeps (modPort_keeps hs)) hs
theorem reject_keeps {p code} (hs : Keeps s₀ s) : Keeps s₀ (reject s p code) :=
  setPort_keeps (raise_keeps (setLcode_keeps hs))
theorem helloIn_keeps {p f} (hs : Keeps s₀ s) : Keeps s₀ (helloIn s p f) :=
  .ite hs (.ite (sendHs_keeps (emit_keeps (modPort_keeps hs))) (reject_keeps hs))
theorem portUpNow_keeps {p} (hs : Keeps s₀ s) : Keeps s₀ (portUpNow s p) := by
  unfold portUpNow
  split
  · exact serveOut_keeps (modPort_keeps (setPort_keeps hs))
  · exact hs
theorem hskIn_keeps {p f} (hs : Keeps s₀ s) : Keeps s₀ (hskIn s p f) := by
  unfold hskIn
  split
  · exact hs
  · refine .ite hs (.ite ?_ (.ite (.ite (reject_keeps hs) (.maybe (modPort_keeps hs) portUpNow_keeps)) hs))
    split
    · exact reject_keeps hs
    · exact modPort_keeps (.update hs)
theorem signHandshake_keeps {p} (hs : Keeps s₀ s) : Keeps s₀ (signHandshake s p) :=
  .ite (.maybe (sendHs_keeps (modPort_keeps hs)) portUpNow_keeps) hs
theorem execFlitReceive_keeps {p f} (hs : Keeps s₀ s) : Answers s₀ (execFlitReceive p f s) := .next (flitIn_keeps hs)
theorem execFlitReplay_keeps {p fseq} (hs : Keeps s₀ s) : Answers s₀ (execFlitReplay p fseq s) := .next (replayFrom_keeps hs)
theorem execReplayTimeout_keeps {p} (hs : Keeps s₀ s) : Answers s₀ (execReplayTimeout p s) := .next (replayTimeout_keeps hs)
theorem execLnkLane_keeps {p} (hs : Keeps s₀ s) : Answers s₀ (execLnkLane p s) := .next (portDown_keeps hs)
theorem execLnkCredit_keeps {p} (hs : Keeps s₀ s) : Answers s₀ (execLnkCredit p s) := .next (creditTimeout_keeps hs)
theorem execPortEnable_keeps {p} (hs : Keeps s₀ s) : Answers s₀ (execPortEnable p s) := .next (portEnable_keeps hs)
theorem execPortDisable_keeps {p} (hs : Keeps s₀ s) : Answers s₀ (execPortDisable p s) := .next (portDisable_keeps hs)
theorem execLanesLocked_keeps {p} (hs : Keeps s₀ s) : Answers s₀ (execLanesLocked p s) := .next (lanesLocked_keeps hs)
theorem execLnkTrain_keeps {p} (hs : Keeps s₀ s) : Answers s₀ (execLnkTrain p s) := .next (trainFail_keeps hs)
theorem execDownRetry_keeps {p} (hs : Keeps s₀ s) : Answers s₀ (execDownRetry p s) := .next (timedMove_keeps hs)
theorem execAdmitTimeout_keeps {p} (hs : Keeps s₀ s) : Answers s₀ (execAdmitTimeout p s) := .next (timedMove_keeps hs)
theorem execRejectRetry_keeps {p} (hs : Keeps s₀ s) : Answers s₀ (execRejectRetry p s) := .next (timedMove_keeps hs)
theorem execDrainEnd_keeps {p} (hs : Keeps s₀ s) : Answers s₀ (execDrainEnd p s) := .next (drainEnd_keeps hs)
theorem execHello_keeps {p f} (hs : Keeps s₀ s) : Answers s₀ (execHello p f s) := .next (helloIn_keeps hs)
theorem execHsk_keeps {p f} (hs : Keeps s₀ s) : Answers s₀ (execHsk p f s) := .next (hskIn_keeps hs)
theorem execHandshakeSignature_keeps {p} (hs : Keeps s₀ s) : Answers s₀ (execHandshakeSignature p s) :=
  .next (signHandshake_keeps hs)

end Sys2Proof.Machine
end

section
/-! What the streams, the Bellows threads and the vector unit keep. -/

namespace Sys2Proof.Machine

variable {s₀ s n : State} {α β ε : Type}

/-! ### Command streams -/

theorem issueDmk_keeps {t w} (hs : Keeps s₀ s) : IssueKeeps s₀ (issueDmk t w s) := .ite trivial (modBlw_keeps hs)
theorem markEffect_keeps {t} (hs : Keeps s₀ s) : Keeps s₀ (markEffect s t) := by
  unfold markEffect
  split
  · exact hs
  · dsimp only
    split
    · exact modBlw_keeps (modBlw_keeps hs)
    · refine .ite ?_ (issueLocal_keeps (modBlw_keeps hs))
      split
      · exact issueRemote_keeps (modBlw_keeps hs)
      · exact modBlw_keeps hs
theorem landInc_keeps {t k} (hs : Keeps s₀ s) : Keeps s₀ (landInc s t k) := by
  unfold landInc
  dsimp only
  split
  · refine .ite ?_ (modBlw_keeps hs)
    split
    · exact refreshLate_keeps (modBlw_keeps (modBlw_keeps hs))
    · exact modBlw_keeps (modBlw_keeps hs)
  · exact modBlw_keeps hs
theorem issueDwt_keeps {t w} (hs : Keeps s₀ s) : IssueKeeps s₀ (issueDwt t w s) := .ite hs hs
theorem landLate_keeps {t} (hs : Keeps s₀ s) : Keeps s₀ (landLate s t) := by
  unfold landLate
  dsimp only
  split
  · exact .ite (breach_keeps (modBlw_keeps hs)) hs
  · exact hs
theorem setThread_keeps {t core thr th} (hs : Keeps s₀ s) : Keeps s₀ (setThread s t core thr th) := modBlw_keeps hs
theorem issueBln_keeps {t w} (hs : Keeps s₀ s) : IssueKeeps s₀ (issueBln t w s) :=
  .ite trivial (.ite trivial (.ite trivial (.ite trivial (.ite hs
    (forEach_keeps (fun _ _ => setThread_keeps) (scrSee_keeps hs))))))
theorem tileWrite_keeps {a t addr f} (hs : Keeps s₀ s) (hf : ∀ u, Keeps s₀ u → Keeps s₀ (f u)) :
    Keeps s₀ (tileWrite s a t addr f) :=
  .ite (misuse_keeps hs) (.ite (misuse_keeps hs) (hf _ hs))
theorem tileStart_keeps {a t addr f} (hs : Keeps s₀ s) (hf : ∀ u, Keeps s₀ u → Keeps s₀ (f u)) :
    Keeps s₀ (tileStart s a t addr f) :=
  tileWrite_keeps hs (fun _ hu => .ite (misuse_keeps hu) (.ite (misuse_keeps hu) (hf _ hu)))
theorem blwLaunch_keeps {a t value} (hs : Keeps s₀ s) : Keeps s₀ (blwLaunch s a t value) := by
  unfold blwLaunch
  refine tileStart_keeps hs ?_
  intro _ hu
  refine .ite (misuse_keeps hu) ?_
  split
  · exact .ite (setThread_keeps hu) (misuse_keeps hu)
  · exact setThread_keeps hu
theorem unstall_keeps {h} (hs : Keeps s₀ s) : Keeps s₀ (unstall s h) :=
  .ite (setHold_keeps (forEach_keeps (fun _ _ => modTile_keeps) (endCause_keeps (endCause_keeps (endCause_keeps hs))))) hs
theorem startStream_keeps {t word} (hs : Keeps s₀ s) : Keeps s₀ (startStream s t word) := by
  unfold startStream
  dsimp only
  split
  · exact unstall_keeps (modTile_keeps hs)
  · exact modTile_keeps hs
theorem freshStart_keeps {t word} (hs : Keeps s₀ s) : OptKeeps s₀ id (freshStart s t word) :=
  .ite .none (.some (startStream_keeps (modBlw_keeps (endTilePhase_keeps hs))))
theorem csFresh_keeps {a t word} (hs : Keeps s₀ s) : Keeps s₀ (csFresh s a t word) := by
  unfold csFresh
  refine tileStart_keeps hs ?_
  intro _ hu
  split
  · exact (freshStart_keeps hu).get ‹_›
  · exact misuse_keeps hu
theorem csResume_keeps {a t word} (hs : Keeps s₀ s) : Keeps s₀ (csResume s a t word) :=
  tileStart_keeps hs (fun _ hu => .ite (misuse_keeps hu) (.ite (misuse_keeps hu) (startStream_keeps hu)))
theorem csStop_keeps {a t} (hs : Keeps s₀ s) : Keeps s₀ (csStop s a t) :=
  tileWrite_keeps hs (fun _ hu => .ite (modTile_keeps (setCs_keeps hu)) hu)
theorem csDone_keeps {t} (hs : Keeps s₀ s) : Keeps s₀ (csDone s t) := .ite (endTilePhase_keeps (setCs_keeps hs)) hs
theorem causesClear_keeps {h} (hs : Keeps s₀ s) : Keeps s₀ (causesClear s h) := .ite (setHold_keeps hs) hs
theorem hearthResume_keeps {h} (hs : Keeps s₀ s) : Keeps s₀ (hearthResume s h) := .ite (setHold_keeps hs) hs
theorem schedStall_keeps {h} (hs : Keeps s₀ s) : Keeps s₀ (schedStall s h) :=
  .ite (retractEpoch_keeps (raise_keeps (stopHearth_keeps (setHold_keeps hs)))) hs
theorem softWrite_keeps {a h req rel} (hs : Keeps s₀ s) : Keeps s₀ (softWrite s a h req rel) :=
  .ite (misuse_keeps hs) (.ite (misuse_keeps hs) (.ite (breach_keeps hs) (.ite (endCause_keeps hs) hs)))
theorem execDmk_keeps {t w} (hs : Keeps s₀ s) : Answers s₀ (execDmk t w s) := issueCmd_keeps (fun _ => issueDmk_keeps) hs
theorem execDmkTakeEffect_keeps {t} (hs : Keeps s₀ s) : Answers s₀ (execDmkTakeEffect t s) := .next (markEffect_keeps hs)
theorem execDwt_keeps {t w} (hs : Keeps s₀ s) : Answers s₀ (execDwt t w s) := issueCmd_keeps (fun _ => issueDwt_keeps) hs
theorem execBln_keeps {t w} (hs : Keeps s₀ s) : Answers s₀ (execBln t w s) := issueCmd_keeps (fun _ => issueBln_keeps) hs
theorem execBlwLaunch_keeps {a t value} (hs : Keeps s₀ s) : Answers s₀ (execBlwLaunch a t value s) :=
  .next (blwLaunch_keeps hs)
theorem execLandLate_keeps {t} (hs : Keeps s₀ s) : Answers s₀ (execLandLate t s) := .next (landLate_keeps hs)
theorem execCsFreshStart_keeps {a t word} (hs : Keeps s₀ s) : Answers s₀ (execCsFreshStart a t word s) :=
  .next (csFresh_keeps hs)
theorem execCsResume_keeps {a t word} (hs : Keeps s₀ s) : Answers s₀ (execCsResume a t word s) := .next (csResume_keeps hs)
theorem execCsStop_keeps {a t} (hs : Keeps s₀ s) : Answers s₀ (execCsStop a t s) := .next (csStop_keeps hs)
theorem execCsDone_keeps {t} (hs : Keeps s₀ s) : Answers s₀ (execCsDone t s) := .next (csDone_keeps hs)
theorem execHearthCausesClear_keeps {h} (hs : Keeps s₀ s) : Answers s₀ (execHearthCausesClear h s) :=
  .next (causesClear_keeps hs)
theorem execHearthResume_keeps {h} (hs : Keeps s₀ s) : Answers s₀ (execHearthResume h s) := .next (hearthResume_keeps hs)
theorem execSchedStall_keeps {h} (hs : Keeps s₀ s) : Answers s₀ (execSchedStall h s) := .next (schedStall_keeps hs)
theorem execHreq_keeps {a h alsoRel} (hs : Keeps s₀ s) : Answers s₀ (execHreq a h alsoRel s) := .next (softWrite_keeps hs)
theorem execHrel_keeps {a h alsoReq} (hs : Keeps s₀ s) : Answers s₀ (execHrel a h alsoReq s) := .next (softWrite_keeps hs)

/-! ### Words of the Bellows threads -/

theorem thFault_keeps {th code detail arg0} (hs : Keeps s₀ s) : Keeps s₀ (thFault s th code detail arg0) := by
  unfold thFault
  dsimp only
  split
  · exact hs
  · exact raise_keeps (stopStream_keeps (.maybe (setThread_keeps hs) setFault_keeps))
theorem thGo_keeps {s' th x pc} (hs : Keeps s₀ s) (hs' : Keeps s₀ s') : Keeps s₀ (thGo s th x pc s') :=
  .ite (thFault_keeps hs') (setThread_keeps hs)
theorem thRun_keeps {th sel f} (hf : ∀ u h x w, Keeps s₀ u → TResKeeps s₀ (f u h x w)) (hs : Keeps s₀ s) :
    Keeps s₀ (thRun th sel f s) := by
  unfold thRun
  dsimp only
  split
  · refine .ite hs ?_
    have hn {c : Prop} [Decidable c] {t g} : Keeps s₀ (if c then modBlw s t g else s) := .ite (modBlw_keeps hs) hs
    refine .ite (thFault_keeps hn) (.ite hn (.ite (thFault_keeps hn) ?_))
    split
    · exact thGo_keeps ((hf _ _ _ _ hn).next ‹_›) hn
    · exact thGo_keeps ((hf _ _ _ _ hn).jump ‹_›) hn
    · exact setThread_keeps ((hf _ _ _ _ hn).wait ‹_›)
    · exact setThread_keeps ((hf _ _ _ _ hn).stay ‹_›)
    · exact thFault_keeps ((hf _ _ _ _ hn).fault ‹_›)
    · exact setThread_keeps ((hf _ _ _ _ hn).idle ‹_›)
  · exact hs
theorem pushReqs_keeps {th l} (hs : Keeps s₀ s) : Keeps s₀ (pushReqs s th l).1 := by
  induction l generalizing s with
  | nil => exact hs
  | cons r l ih =>
    unfold pushReqs
    dsimp only
    split
    · exact hs
    · split
      · exact ih (modBlw_keeps hs)
      · exact ih (sendRead_keeps (modBlw_keeps hs))
theorem readTabs_keeps {x h k l} (hs : Keeps s₀ s) : OptKeeps s₀ Prod.fst (readTabs x h s k l) := by
  induction l generalizing s k with
  | nil => exact .some hs
  | cons t l ih =>
    unfold readTabs
    refine OptKeeps.bind (π := Prod.fst) ?_ (fun _ hu => .map (ih hu) (fun _ hv => hv))
    split
    · exact .map (devRead_keeps hs) (fun _ hu => hu)
    · exact .map (π := fun _ => s) (fun _ _ => hs) (fun _ hu => hu)
theorem rowsFrom_keeps {th x plan k r aux} (hp : ∀ y u r aux, Keeps s₀ u → PlanKeeps s₀ (plan y u r aux)) (hs : Keeps s₀ s) :
    TResKeeps s₀ (rowsFrom th x plan k s r aux) := by
  induction k generalizing s r aux with
  | zero => exact hs
  | succ k ih =>
    unfold rowsFrom
    dsimp only
    split
    · have hu := (hp _ _ _ _ hs).ok ‹_›
      split
      · exact ih (.of_fst (pushReqs_keeps hu) ‹_›)
      · exact Keeps.of_fst (pushReqs_keeps hu) ‹_›
    · exact hs
    · exact hs
    · exact (hp _ _ _ _ hs).wait ‹_›
theorem moveRows_keeps {th w m x} (hp : ∀ g y u r aux, Keeps s₀ u → PlanKeeps s₀ (m.plan g y u r aux)) (hs : Keeps s₀ s) :
    TResKeeps s₀ (moveRows th w m s x) := by
  have hr := fun k r aux => rowsFrom_keeps (th := th) (x := x) (k := k) (r := r) (aux := aux) (hp x.grp) hs
  unfold moveRows
  split
  · have hu := (hr _ _ _).next ‹_›
    dsimp only
    split
    · exact Keeps.ite (modBlw_keeps hu) hu
    · exact hu
  · exact hr _ _ _
theorem moveRun_keeps {th w m h x}
    (hb : ∀ u g bs, Keeps s₀ u → ExcKeeps s₀ (fun _ => True) Prod.fst (m.begin' u g bs))
    (hp : ∀ g y u r aux, Keeps s₀ u → PlanKeeps s₀ (m.plan g y u r aux)) (hs : Keeps s₀ s) :
    TResKeeps s₀ (moveRun th w m s h x) := by
  unfold moveRun
  split
  · exact Keeps.of_fst (pushReqs_keeps hs) ‹_›
  · have hu := Keeps.of_fst (pushReqs_keeps hs) ‹_›
    refine .ite (moveRows_keeps hp hu) ?_
    split
    · exact foldl_keeps (fun _ _ hv => .ite (waitOp_keeps hv) hv) hu _
    · have hv := (readTabs_keeps hu).get ‹_›
      split
      · exact hu
      · have hw := (hb _ _ _ hv).ok ‹_›
        dsimp only
        split
        · exact moveRows_keeps hp (.of_fst (pushReqs_keeps hw) ‹_›)
        · exact Keeps.of_fst (pushReqs_keeps hw) ‹_›
theorem moveExec_keeps {th w m h x}
    (hb : ∀ u g bs, Keeps s₀ u → ExcKeeps s₀ (fun _ => True) Prod.fst (m.begin' u g bs))
    (hp : ∀ g y u r aux, Keeps s₀ u → PlanKeeps s₀ (m.plan g y u r aux)) (hs : Keeps s₀ s) :
    TResKeeps s₀ (moveExec th w m s h x) := by
  unfold moveExec
  refine .ite (moveRun_keeps hb hp hs) ?_
  split
  · exact hs
  · exact moveRun_keeps hb hp (modBlw_keeps hs)

/-! ### Commands of the Bellows -/

theorem thWrite_keeps {f h x w} (hs : Keeps s₀ s) : TResKeeps s₀ (thWrite f s h x w) := hs
theorem thLdw_keeps {th h x w} (hs : Keeps s₀ s) : TResKeeps s₀ (thLdw th s h x w) := by
  unfold thLdw
  refine .ite hs (.ite hs ?_)
  split
  · exact waitOp_keeps hs
  · have hu := (devRead_keeps hs).get ‹_›
    exact .ite hu hu
theorem thLoop_keeps {h x w} (hs : Keeps s₀ s) : TResKeeps s₀ (thLoop s h x w) := .ite hs (.ite hs hs)
theorem thEndl_keeps {h x w} (hs : Keeps s₀ s) : TResKeeps s₀ (thEndl s h x w) := by
  unfold thEndl
  split
  · exact hs
  · exact .ite hs (.ite hs hs)
theorem thBnz_keeps {h x w} (hs : Keeps s₀ s) : TResKeeps s₀ (thBnz s h x w) := hs
theorem thEnd_keeps {th h x w} (hs : Keeps s₀ s) : TResKeeps s₀ (thEnd th s h x w) := .ite hs hs
theorem thMwt_keeps {th h x w} (hs : Keeps s₀ s) : TResKeeps s₀ (thMwt th s h x w) := by
  unfold thMwt
  split
  · exact hs
  · exact .ite hs hs
theorem thFen_keeps {th h x w} (hs : Keeps s₀ s) : TResKeeps s₀ (thFen th s h x w) := .ite hs hs
theorem thLnd_keeps {th h x w} (hs : Keeps s₀ s) : TResKeeps s₀ (thLnd th s h x w) := by
  unfold thLnd
  split
  · exact hs
  · exact .ite hs (landInc_keeps hs)
theorem thCinc_keeps {th h x w} (hs : Keeps s₀ s) : TResKeeps s₀ (thCinc th s h x w) := by
  unfold thCinc
  refine .ite hs (.ite (synRefuse_keeps hs) ?_)
  refine .ite (synRefuse_keeps hs) (.ite (synRefuse_keeps hs) ?_)
  split
  · exact synRefuse_keeps hs
  · refine .ite (issueLocal_keeps hs) ?_
    split
    · exact issueRemote_keeps hs
    · exact hs
theorem thArs_keeps {h x w} (hs : Keeps s₀ s) : TResKeeps s₀ (thArs s h x w) := .ite hs (modHearth_keeps hs)
theorem thMove_keeps {th h x w} (hs : Keeps s₀ s) : TResKeeps s₀ (thMove th s h x w) :=
  moveExec_keeps (fun _ _ _ hu => Keeps.fst hu) (fun _ _ _ _ _ hu => hu) hs
theorem movePair_keeps {th mm s'} (hs : Keeps s₀ s) : Keeps s₀ (movePair th mm s' s) := by
  unfold movePair
  extract_lets t ran
  split
  · exact .ite (retractEpoch_keeps (tstat_keeps (raise_keeps hs))) hs
  · exact hs
theorem thGath_keeps {th h x w} (hs : Keeps s₀ s) : TResKeeps s₀ (thGath th s h x w) := by
  unfold thGath
  refine moveExec_keeps (fun _ _ _ hu => hu) (fun _ _ u _ _ hu => ?_) hs
  dsimp only
  split
  · exact waitOp_keeps hu
  · next hr =>
    refine .ite trivial (.ite trivial ?_)
    refine OptKeeps.get (π := Prod.fst) ?_ hr
    exact .ite (.some hu) (.map (π := Prod.fst) (devRead_keeps hu) (fun _ hv => hv))
theorem thMcst_keeps {th h x w} (hs : Keeps s₀ s) : TResKeeps s₀ (thMcst th s h x w) :=
  moveExec_keeps (fun _ _ _ hu => Keeps.fst hu) (fun _ _ _ _ _ hu => hu) hs
theorem thPft_keeps {th h x w} (hs : Keeps s₀ s) : TResKeeps s₀ (thPft th s h x w) := by
  unfold thPft
  exact moveExec_keeps (fun _ _ _ hu => Keeps.fst hu) (fun _ _ _ _ _ hu => .ite (modBlw_keeps hu) hu) hs
theorem beginWith_keeps {l r} (hr : Keeps s₀ r.1) : ExcKeeps s₀ (fun _ => True) Prod.fst (beginWith l r) := by
  unfold beginWith
  split
  · trivial
  · exact hr
theorem thZpk_keeps {th h x w} (hs : Keeps s₀ s) : TResKeeps s₀ (thZpk th s h x w) :=
  moveExec_keeps (fun _ _ _ hu => beginWith_keeps (.fst (.ite (modHearth_keeps hu) hu))) (fun _ _ _ _ _ hu => hu) hs
theorem thZup_keeps {th h x w} (hs : Keeps s₀ s) : TResKeeps s₀ (thZup th s h x w) :=
  moveExec_keeps (fun _ _ _ hu => beginWith_keeps (.fst hu)) (fun _ _ _ _ _ hu => hu) hs
theorem reqBytes_keeps {h r e} (hs : Keeps s₀ s) : OptKeeps s₀ Prod.fst (reqBytes s h r e) :=
  .ite (.some (.fst hs)) (.ite (.some (.fst hs)) (.map (π := Prod.fst) (devRead_keeps hs) (fun _ hu => .fst hu)))
theorem noteMcst_keeps {t r} (hs : Keeps s₀ s) : Keeps s₀ (noteMcst s t r) := by
  unfold noteMcst
  split
  · exact modBlw_keeps hs
  · exact hs
theorem requestCommit_keeps {t i e} (hs : Keeps s₀ s) : Keeps s₀ (requestCommit s t i e) := by
  unfold requestCommit
  split
  · refine .ite hs ?_
    split
    · exact waitOp_keeps hs
    · have hu := (reqBytes_keeps hs).get ‹_›
      split
      · exact .ite (sendWrite_keeps (modBlw_keeps hu)) hs
      · split
        · exact removeReq_keeps (noteMcst_keeps ((deliver_keeps hu).get ‹_›))
        · split
          · exact waitOp_keeps hs
          · exact hs
  · exact hs
theorem commitAll_keeps {t} (hs : Keeps s₀ s) : Keeps s₀ (commitAll s t) :=
  forEach_keeps (fun _ _ hu => forEach_keeps (fun _ _ => requestCommit_keeps) hu) hs
theorem forceReq_keeps {t i} (hs : Keeps s₀ s) : Keeps s₀ (forceReq s t i) := by
  unfold forceReq
  split
  · refine .ite hs ?_
    dsimp only
    split
    · exact sendWrite_keeps (modBlw_keeps hs)
    · exact removeReq_keeps (store_keeps hs)
    · exact removeReq_keeps (OptKeeps.getD (deliver_keeps hs) hs)
  · exact hs
theorem quiesce_keeps {t warm} (hs : Keeps s₀ s) : Keeps s₀ (quiesce s t warm) :=
  .unless (.unless (modBlw_keeps (commitAll_keeps hs)) (fun h1 => modBlw_keeps
    (forEach_keeps (fun _ _ hu => forEach_keeps (fun _ _ => forceReq_keeps) hu) h1))) modBlw_keeps
theorem landingIncrement_keeps {t i} (hs : Keeps s₀ s) : Keeps s₀ (landingIncrement s t i) := by
  unfold landingIncrement
  split
  · exact hs
  · exact .ite hs (forEach_keeps (fun _ _ => landInc_keeps) (modBlw_keeps hs))
theorem threadResume_keeps {th} (hs : Keeps s₀ s) : Keeps s₀ (threadResume s th) := by
  unfold threadResume
  split
  · exact .ite (setThread_keeps hs) hs
  · exact hs
theorem execLi_keeps {th} (hs : Keeps s₀ s) : Answers s₀ (execLi th s) :=
  .next (thRun_keeps (fun _ _ _ _ => thWrite_keeps) hs)
theorem execLih_keeps {th} (hs : Keeps s₀ s) : Answers s₀ (execLih th s) :=
  .next (thRun_keeps (fun _ _ _ _ => thWrite_keeps) hs)
theorem execAdd_keeps {th} (hs : Keeps s₀ s) : Answers s₀ (execAdd th s) :=
  .next (thRun_keeps (fun _ _ _ _ => thWrite_keeps) hs)
theorem execAddi_keeps {th} (hs : Keeps s₀ s) : Answers s₀ (execAddi th s) :=
  .next (thRun_keeps (fun _ _ _ _ => thWrite_keeps) hs)
theorem execSub_keeps {th} (hs : Keeps s₀ s) : Answers s₀ (execSub th s) :=
  .next (thRun_keeps (fun _ _ _ _ => thWrite_keeps) hs)
theorem execMuli_keeps {th} (hs : Keeps s₀ s) : Answers s₀ (execMuli th s) :=
  .next (thRun_keeps (fun _ _ _ _ => thWrite_keeps) hs)
theorem execShli_keeps {th} (hs : Keeps s₀ s) : Answers s₀ (execShli th s) :=
  .next (thRun_keeps (fun _ _ _ _ => thWrite_keeps) hs)
theorem execShri_keeps {th} (hs : Keeps s₀ s) : Answers s₀ (execShri th s) :=
  .next (thRun_keeps (fun _ _ _ _ => thWrite_keeps) hs)
theorem execAndi_keeps {th} (hs : Keeps s₀ s) : Answers s₀ (execAndi th s) :=
  .next (thRun_keeps (fun _ _ _ _ => thWrite_keeps) hs)
theorem execLdw_keeps {th} (hs : Keeps s₀ s) : Answers s₀ (execLdw th s) :=
  .next (thRun_keeps (fun _ _ _ _ => thLdw_keeps) hs)
theorem execLoop_keeps {th} (hs : Keeps s₀ s) : Answers s₀ (execLoop th s) :=
  .next (thRun_keeps (fun _ _ _ _ => thLoop_keeps) hs)
theorem execEndl_keeps {th} (hs : Keeps s₀ s) : Answers s₀ (execEndl th s) :=
  .next (thRun_keeps (fun _ _ _ _ => thEndl_keeps) hs)
theorem execBnz_keeps {th} (hs : Keeps s₀ s) : Answers s₀ (execBnz th s) :=
  .next (thRun_keeps (fun _ _ _ _ => thBnz_keeps) hs)
theorem execEndT_keeps {th} (hs : Keeps s₀ s) : Answers s₀ (execEndT th s) :=
  .next (thRun_keeps (fun _ _ _ _ => thEnd_keeps) hs)
theorem execMwt_keeps {th} (hs : Keeps s₀ s) : Answers s₀ (execMwt th s) :=
  .next (thRun_keeps (fun _ _ _ _ => thMwt_keeps) hs)
theorem execFen_keeps {th} (hs : Keeps s₀ s) : Answers s₀ (execFen th s) :=
  .next (thRun_keeps (fun _ _ _ _ => thFen_keeps) hs)
theorem execLnd_keeps {th} (hs : Keeps s₀ s) : Answers s₀ (execLnd th s) :=
  .next (thRun_keeps (fun _ _ _ _ => thLnd_keeps) hs)
theorem execCinc_keeps {th} (hs : Keeps s₀ s) : Answers s₀ (execCinc th s) :=
  .next (thRun_keeps (fun _ _ _ _ => thCinc_keeps) hs)
theorem execMove_keeps {th pairMismatch} (hs : Keeps s₀ s) : Answers s₀ (execMove th pairMismatch s) :=
  .next (movePair_keeps (thRun_keeps (fun _ _ _ _ => thMove_keeps) hs))
theorem execGath_keeps {th} (hs : Keeps s₀ s) : Answers s₀ (execGath th s) :=
  .next (thRun_keeps (fun _ _ _ _ => thGath_keeps) hs)
theorem execMcst_keeps {th} (hs : Keeps s₀ s) : Answers s₀ (execMcst th s) :=
  .next (thRun_keeps (fun _ _ _ _ => thMcst_keeps) hs)
theorem execPft_keeps {th} (hs : Keeps s₀ s) : Answers s₀ (execPft th s) :=
  .next (thRun_keeps (fun _ _ _ _ => thPft_keeps) hs)
theorem execZpk_keeps {th} (hs : Keeps s₀ s) : Answers s₀ (execZpk th s) :=
  .next (thRun_keeps (fun _ _ _ _ => thZpk_keeps) hs)
theorem execZup_keeps {th} (hs : Keeps s₀ s) : Answers s₀ (execZup th s) :=
  .next (thRun_keeps (fun _ _ _ _ => thZup_keeps) hs)
theorem execArs_keeps {th} (hs : Keeps s₀ s) : Answers s₀ (execArs th s) :=
  .next (thRun_keeps (fun _ _ _ _ => thArs_keeps) hs)
theorem execRequestCommit_keeps {t i ecc} (hs : Keeps s₀ s) : Answers s₀ (execRequestCommit t i ecc s) :=
  .next (requestCommit_keeps hs)
theorem execLandingIncrement_keeps {t i} (hs : Keeps s₀ s) : Answers s₀ (execLandingIncrement t i s) :=
  .next (landingIncrement_keeps hs)
theorem execThreadResume_keeps {th} (hs : Keeps s₀ s) : Answers s₀ (execThreadResume th s) := .next (threadResume_keeps hs)

/-! ### Functions -/

theorem setFn_keeps {f st} (hs : Keeps s₀ s) : Keeps s₀ (setFn s f st) := .update hs
theorem enableFn_keeps {f} (hs : Keeps s₀ s) : Keeps s₀ (enableFn s f) := setFn_keeps hs
theorem disableFn_keeps {f} (hs : Keeps s₀ s) : Keeps s₀ (disableFn s f) := setFn_keeps (.update hs)
theorem noteEnable_keeps {f} (hs : Keeps s₀ s) : Keeps s₀ (noteEnable s f) := .update hs

/-! ### Tests and checks -/

theorem openEpoch_keeps {h e agent} (hs : Keeps s₀ s) : Keeps s₀ (openEpoch s h e agent).2 := by
  unfold openEpoch
  dsimp only
  split
  · exact .snd (raise_keeps hs)
  · exact .snd (modRun_keeps (setEc_keeps (modChk_keeps (retractEpoch_keeps hs))))
theorem chkOpen_keeps {a h} (hs : Keeps s₀ s) : Keeps s₀ (chkOpen s a h) := .ite (openEpoch_keeps hs) (misuse_keeps hs)
theorem closeEpoch_keeps {h} (hs : Keeps s₀ s) : Keeps s₀ (closeEpoch s h) := .ite (setEc_keeps hs) hs
theorem chkClose_keeps {a h} (hs : Keeps s₀ s) : Keeps s₀ (chkClose s a h) := .ite (closeEpoch_keeps hs) (misuse_keeps hs)
theorem epochConfirm_keeps {h} (hs : Keeps s₀ s) : Keeps s₀ (epochConfirm s h) := .ite (confirmEpoch_keeps hs) hs
theorem unresolved_keeps {h} (hs : Keeps s₀ s) : Keeps s₀ (unresolved s h) :=
  .ite (raise_keeps (stopHearth_keeps (setEc_keeps hs))) hs
theorem notice_keeps {h rank kind e trig} (hs : Keeps s₀ s) : Keeps s₀ (notice s h rank kind e trig) :=
  .ite (raise_keeps (modChk_keeps hs)) (.ite hs (.ite (.ite (raise_keeps (becomeRetracted_keeps hs)) hs)
    (.ite (commitEpoch_keeps hs) hs)))
theorem noticeReceive_keeps {h rank} (hs : Keeps s₀ s) : Keeps s₀ (noticeReceive s h rank) := by
  unfold noticeReceive
  refine .ite hs ?_
  split
  · exact hs
  · exact forEach_keeps (fun _ _ hv => .ite (notice_keeps (modRun_keeps hv)) hv) (modRun_keeps ((devRead_keeps hs).get ‹_›))
theorem chkRefetch_keeps {h bs} (hs : Keeps s₀ s) : Keeps s₀ (chkRefetch s h bs) := by
  unfold chkRefetch
  split
  · exact .ite (OptKeeps.getD (refetchDone_keeps hs) hs) hs
  · exact hs
theorem chkRefail_keeps {h} (hs : Keeps s₀ s) : Keeps s₀ (chkRefail s h) := by
  unfold chkRefail
  split
  · exact refetchFail_keeps hs
  · exact hs
theorem modMisc_keeps {t f} (hs : Keeps s₀ s) : Keeps s₀ (modMisc s t f) := modTile_keeps hs
theorem setSpkRun_keeps {t b} (hs : Keeps s₀ s) : Keeps s₀ (setSpkRun s t b) := modMisc_keeps hs
theorem tslBegin_keeps {t} (hs : Keeps s₀ s) : Keeps s₀ (tslBegin s t) := forEach_keeps (fun _ _ => setSpkRun_keeps) hs
theorem issueTsl_keeps {t w} (hs : Keeps s₀ s) : IssueKeeps s₀ (issueTsl t w s) :=
  .ite trivial (.ite hs (.ite (tslBegin_keeps hs) hs))
theorem sparkEnd_keeps {t kaOk digest round area} (hs : Keeps s₀ s) : Keeps s₀ (sparkEnd s t kaOk digest round area) := by
  unfold sparkEnd
  refine .ite ?_ ?_
  · refine raise_keeps ?_
    dsimp only
    split
    · exact .update (modMisc_keeps (zeroRange_keeps (modTile_keeps hs)))
    · exact .update (modMisc_keeps (modTile_keeps hs))
  · refine raise_keeps (raise_keeps ?_)
    dsimp only
    split
    · exact .update (modMisc_keeps (zeroRange_keeps (modTile_keeps hs)))
    · exact .update (modMisc_keeps (modTile_keeps hs))
theorem sparkRound_keeps {t kaOk digest} (hs : Keeps s₀ s) : Keeps s₀ (sparkRound s t kaOk digest) := by
  unfold sparkRound
  dsimp only
  split
  · exact .maybe (.ite (tslBegin_keeps hs) hs) (fun h1 => .unless (sparkEnd_keeps h1) advance_keeps)
  · refine .ite (sparkEnd_keeps hs) (.ite hs ?_)
    split
    · exact .ite (.ite (sparkEnd_keeps hs) hs) (forEach_keeps (fun _ _ hu => .ite (raise_keeps hu) hu)
        (.update (sparkEnd_keeps hs)))
    · exact .ite (sparkEnd_keeps hs) hs
theorem sparkCompare_keeps {round} (hs : Keeps s₀ s) : Keeps s₀ (sparkCompare s round) := by
  unfold sparkCompare
  refine .ite hs ?_
  dsimp only
  split
  · exact .ite (.update hs) hs
  · split
    · exact .update (.ite (.update hs) hs)
    · exact .ite (.update hs) hs
theorem sparkDue_keeps {t} (hs : Keeps s₀ s) : Keeps s₀ (sparkDue s t) := by
  unfold sparkDue
  split
  · exact .ite (modMisc_keeps hs) hs
  · exact hs
theorem sparkOverdue_keeps {t} (hs : Keeps s₀ s) : Keeps s₀ (sparkOverdue s t) := by
  unfold sparkOverdue
  split
  · exact .ite (raise_keeps (modMisc_keeps hs)) hs
  · exact hs
theorem quenchTest_keeps {p pass} (hs : Keeps s₀ s) : Keeps s₀ (quenchTest s p pass) := .ite (modPort_keeps hs) hs
theorem setHist_keeps {u x} (hs : Keeps s₀ s) : Keeps s₀ (setHist s u x) := by
  unfold setHist
  split <;> exact .update hs
theorem setExcl_keeps {u b} (hs : Keeps s₀ s) : Keeps s₀ (setExcl s u b) := by
  unfold setExcl
  split <;> exact .update hs
theorem hearthRemoved_keeps {h} (hs : Keeps s₀ s) : Keeps s₀ (hearthRemoved s h) :=
  .maybe (stopHearth_keeps (endItems_keeps (modRun_keeps hs))) (fun h1 => retractEpoch_keeps (draw_keeps h1))
theorem portExcluded_keeps {p} (hs : Keeps s₀ s) : Keeps s₀ (portExcluded s p) := by
  unfold portExcluded
  refine modPort_keeps (.ite (outOfService_keeps ?_) (setPort_keeps ?_)) <;>
  · refine forEach_keeps (fun _ _ => modNet_keeps) (forEach_keeps (fun _ _ hu => ?_) hs)
    split
    · exact .ite hu (retractEpoch_keeps (colStop_keeps hu))
    · exact hu
theorem unitRemoved_keeps {u} (hs : Keeps s₀ s) : Keeps s₀ (unitRemoved s u) := by
  unfold unitRemoved
  refine .ite ?_ ?_
  · refine raise_keeps ?_
    split
    · exact portExcluded_keeps (disableFn_keeps (setExcl_keeps hs))
    · exact disableFn_keeps (setExcl_keeps hs)
  · refine forEach_keeps (fun _ _ hu => hearthRemoved_keeps (raise_keeps hu)) ?_
    split
    · exact portExcluded_keeps (disableFn_keeps (setExcl_keeps hs))
    · exact disableFn_keeps (setExcl_keeps hs)
theorem setClass_keeps {u c} (hs : Keeps s₀ s) : Keeps s₀ (setClass s u c) :=
  .ite hs (.maybe (raise_keeps (setHist_keeps hs)) unitRemoved_keeps)
theorem chkClass_keeps {u e} (hs : Keeps s₀ s) : Keeps s₀ (chkClass s u e) := .ite hs (setClass_keeps (setHist_keeps hs))
theorem toCollector_keeps {i r} (hs : Keeps s₀ s) : Keeps s₀ (toCollector s i r) := .ite hs (emit_keeps (.update hs))
theorem recordForward_keeps (hs : Keeps s₀ s) : Keeps s₀ (recordForward s) := by
  unfold recordForward
  split
  · exact hs
  · exact .ite hs (toCollector_keeps (toCollector_keeps (.update hs)))
theorem fwdLost_keeps {i} (hs : Keeps s₀ s) : Keeps s₀ (fwdLost s i) := .ite (raise_keeps (.update hs)) hs
theorem chkLost_keeps (hs : Keeps s₀ s) : Keeps s₀ (chkLost s) := .ite (raise_keeps (.update hs)) hs
theorem noRecord_keeps (hs : Keeps s₀ s) : Keeps s₀ (noRecord s) := .ite (.update hs) hs
theorem execChkOpen_keeps {a h} (hs : Keeps s₀ s) : Answers s₀ (execChkOpen a h s) := .next (chkOpen_keeps hs)
theorem execChkClose_keeps {a h} (hs : Keeps s₀ s) : Answers s₀ (execChkClose a h s) := .next (chkClose_keeps hs)
theorem execEpochConfirm_keeps {h} (hs : Keeps s₀ s) : Answers s₀ (execEpochConfirm h s) := .next (epochConfirm_keeps hs)
theorem execChkRetract_keeps {h trig} (hs : Keeps s₀ s) : Answers s₀ (execChkRetract h trig s) :=
  .next (.ite (retractEpoch_keeps hs) hs)
theorem execNoticeReceive_keeps {h rank} (hs : Keeps s₀ s) : Answers s₀ (execNoticeReceive h rank s) :=
  .next (noticeReceive_keeps hs)
theorem execNoticeSendNext_keeps {h rank} (hs : Keeps s₀ s) : Answers s₀ (execNoticeSendNext h rank s) :=
  .next (noticeNext_keeps hs)
theorem execChkUnresolved_keeps {h} (hs : Keeps s₀ s) : Answers s₀ (execChkUnresolved h s) := .next (unresolved_keeps hs)
theorem execChkRefetch_keeps {h granule} (hs : Keeps s₀ s) : Answers s₀ (execChkRefetch h granule s) :=
  .next (chkRefetch_keeps hs)
theorem execChkRefail_keeps {h} (hs : Keeps s₀ s) : Answers s₀ (execChkRefail h s) := .next (chkRefail_keeps hs)
theorem execTsl_keeps {t w} (hs : Keeps s₀ s) : Answers s₀ (execTsl t w s) := issueCmd_keeps (fun _ => issueTsl_keeps) hs
theorem execSparkRound_keeps {t kaOk digest} (hs : Keeps s₀ s) : Answers s₀ (execSparkRound t kaOk digest s) :=
  .next (sparkRound_keeps hs)
theorem execSparkDue_keeps {t} (hs : Keeps s₀ s) : Answers s₀ (execSparkDue t s) := .next (sparkDue_keeps hs)
theorem execChkOverdue_keeps {t} (hs : Keeps s₀ s) : Answers s₀ (execChkOverdue t s) := .next (sparkOverdue_keeps hs)
theorem execSparkCompare_keeps {round} (hs : Keeps s₀ s) : Answers s₀ (execSparkCompare round s) :=
  .next (sparkCompare_keeps hs)
theorem execChkClass_keeps {u e} (hs : Keeps s₀ s) : Answers s₀ (execChkClass u e s) := .next (chkClass_keeps hs)
theorem execChkLost_keeps (hs : Keeps s₀ s) : Answers s₀ (execChkLost s) := .next (chkLost_keeps hs)
theorem execRecordForward_keeps (hs : Keeps s₀ s) : Answers s₀ (execRecordForward s) := .next (recordForward_keeps hs)
theorem execStkFwdlost_keeps {collector} (hs : Keeps s₀ s) : Answers s₀ (execStkFwdlost collector s) :=
  .next (fwdLost_keeps hs)
theorem execQuenchTest_keeps {p pass} (hs : Keeps s₀ s) : Answers s₀ (execQuenchTest p pass s) := .next (quenchTest_keeps hs)
theorem execStokerTakesNoRecord_keeps (hs : Keeps s₀ s) : Answers s₀ (execStokerTakesNoRecord s) := .next (noRecord_keeps hs)

/-! ### Updates of the vector unit -/

theorem storeLanes_keeps {t off b act n codes} (hs : Keeps s₀ s) : Keeps s₀ (storeLanes s t off b act n codes) :=
  forEach_keeps (fun _ _ => scrWrite_keeps) hs
theorem modVec_keeps {t f} (hs : Keeps s₀ s) : Keeps s₀ (modVec s t f) := modTile_keeps hs

/-! ### Vector words and rows -/

theorem pushVec_keeps {t w f} (hs : Keeps s₀ s) : IssueKeeps s₀ (pushVec s t w f) := .ite hs (modVec_keeps hs)
theorem issueVr_keeps {t w f} (hs : Keeps s₀ s) : IssueKeeps s₀ (issueVr t w f s) := by
  unfold issueVr
  split
  · exact trivial
  · exact pushVec_keeps hs
theorem issueVlen_keeps {t w} (hs : Keeps s₀ s) : IssueKeeps s₀ (issueVlen t w s) := .ite trivial (pushVec_keeps hs)
theorem issueVadr_keeps {t w} (hs : Keeps s₀ s) : IssueKeeps s₀ (issueVadr t w s) := .ite hs (pushVec_keeps hs)
theorem issueVidx_keeps {t w} (hs : Keeps s₀ s) : IssueKeeps s₀ (issueVidx t w s) := pushVec_keeps hs
theorem issueVfa_keeps {t w} (hs : Keeps s₀ s) : IssueKeeps s₀ (issueVfa t w s) := issueVr_keeps hs
theorem issueVia_keeps {t w} (hs : Keeps s₀ s) : IssueKeeps s₀ (issueVia t w s) := issueVr_keeps hs
theorem issueVcmp_keeps {t w} (hs : Keeps s₀ s) : IssueKeeps s₀ (issueVcmp t w s) := issueVr_keeps hs
theorem issueVsel_keeps {t w} (hs : Keeps s₀ s) : IssueKeeps s₀ (issueVsel t w s) := issueVr_keeps hs
theorem issueVcvt_keeps {t w} (hs : Keeps s₀ s) : IssueKeeps s₀ (issueVcvt t w s) := issueVr_keeps hs
theorem issueVmsk_keeps {t w} (hs : Keeps s₀ s) : IssueKeeps s₀ (issueVmsk t w s) := issueVr_keeps hs
theorem issueVperm_keeps {t w} (hs : Keeps s₀ s) : IssueKeeps s₀ (issueVperm t w s) := issueVr_keeps hs
theorem issueVlsh_keeps {t w} (hs : Keeps s₀ s) : IssueKeeps s₀ (issueVlsh t w s) := issueVr_keeps hs
theorem issueVcmpr_keeps {t w} (hs : Keeps s₀ s) : IssueKeeps s₀ (issueVcmpr t w s) := issueVr_keeps hs
theorem issueVexpd_keeps {t w} (hs : Keeps s₀ s) : IssueKeeps s₀ (issueVexpd t w s) := issueVr_keeps hs
theorem issueVred_keeps {t w} (hs : Keeps s₀ s) : IssueKeeps s₀ (issueVred t w s) := issueVr_keeps hs
theorem issueVld_keeps {t w} (hs : Keeps s₀ s) : IssueKeeps s₀ (issueVld t w s) := by
  unfold issueVld
  refine .ite hs ?_
  split
  · exact trivial
  · exact pushVec_keeps hs
theorem issueVst_keeps {t w} (hs : Keeps s₀ s) : IssueKeeps s₀ (issueVst t w s) := by
  unfold issueVst
  refine .ite hs ?_
  split
  · exact trivial
  · refine .ite hs ?_
    split
    · exact trivial
    · exact pushVec_keeps hs
theorem issueVstz_keeps {t w} (hs : Keeps s₀ s) : IssueKeeps s₀ (issueVstz t w s) := by
  unfold issueVstz
  refine .ite hs ?_
  split
  · exact trivial
  · exact pushVec_keeps hs
theorem issueEpi_keeps {t w} (hs : Keeps s₀ s) : IssueKeeps s₀ (issueEpi t w s) := by
  unfold issueEpi
  refine .ite hs ?_
  split
  · exact trivial
  · exact pushVec_keeps hs
theorem execVlen_keeps {t w} (hs : Keeps s₀ s) : Answers s₀ (execVlen t w s) := issueCmd_keeps (fun _ => issueVlen_keeps) hs
theorem execVadr_keeps {t w} (hs : Keeps s₀ s) : Answers s₀ (execVadr t w s) := issueCmd_keeps (fun _ => issueVadr_keeps) hs
theorem execVidx_keeps {t w} (hs : Keeps s₀ s) : Answers s₀ (execVidx t w s) := issueCmd_keeps (fun _ => issueVidx_keeps) hs
theorem execVld_keeps {t w} (hs : Keeps s₀ s) : Answers s₀ (execVld t w s) := issueCmd_keeps (fun _ => issueVld_keeps) hs
theorem execVst_keeps {t w} (hs : Keeps s₀ s) : Answers s₀ (execVst t w s) := issueCmd_keeps (fun _ => issueVst_keeps) hs
theorem execVstz_keeps {t w} (hs : Keeps s₀ s) : Answers s₀ (execVstz t w s) := issueCmd_keeps (fun _ => issueVstz_keeps) hs
theorem execEpi_keeps {t w} (hs : Keeps s₀ s) : Answers s₀ (execEpi t w s) := issueCmd_keeps (fun _ => issueEpi_keeps) hs
theorem execVfa_keeps {t w} (hs : Keeps s₀ s) : Answers s₀ (execVfa t w s) := issueCmd_keeps (fun _ => issueVfa_keeps) hs
theorem execVia_keeps {t w} (hs : Keeps s₀ s) : Answers s₀ (execVia t w s) := issueCmd_keeps (fun _ => issueVia_keeps) hs
theorem execVcmp_keeps {t w} (hs : Keeps s₀ s) : Answers s₀ (execVcmp t w s) := issueCmd_keeps (fun _ => issueVcmp_keeps) hs
theorem execVsel_keeps {t w} (hs : Keeps s₀ s) : Answers s₀ (execVsel t w s) := issueCmd_keeps (fun _ => issueVsel_keeps) hs
theorem execVcvt_keeps {t w} (hs : Keeps s₀ s) : Answers s₀ (execVcvt t w s) := issueCmd_keeps (fun _ => issueVcvt_keeps) hs
theorem execVmsk_keeps {t w} (hs : Keeps s₀ s) : Answers s₀ (execVmsk t w s) := issueCmd_keeps (fun _ => issueVmsk_keeps) hs
theorem execVperm_keeps {t w} (hs : Keeps s₀ s) : Answers s₀ (execVperm t w s) :=
  issueCmd_keeps (fun _ => issueVperm_keeps) hs
theorem execVlsh_keeps {t w} (hs : Keeps s₀ s) : Answers s₀ (execVlsh t w s) := issueCmd_keeps (fun _ => issueVlsh_keeps) hs
theorem execVcmpr_keeps {t w} (hs : Keeps s₀ s) : Answers s₀ (execVcmpr t w s) :=
  issueCmd_keeps (fun _ => issueVcmpr_keeps) hs
theorem execVexpd_keeps {t w} (hs : Keeps s₀ s) : Answers s₀ (execVexpd t w s) :=
  issueCmd_keeps (fun _ => issueVexpd_keeps) hs
theorem execVred_keeps {t w} (hs : Keeps s₀ s) : Answers s₀ (execVred t w s) := issueCmd_keeps (fun _ => issueVred_keeps) hs

/-! ### Rows of EPI -/

theorem vldRow_keeps {t j} (hs : Keeps s₀ s) : ExcKeeps s₀ (fun _ => True) Prod.fst (vldRow s t j) := by
  unfold vldRow
  dsimp only
  split
  · exact trivial
  · exact Keeps.fst (modVec_keeps hs)
theorem vldSlotRow_keeps {t j} (hs : Keeps s₀ s) : ExcKeeps s₀ (fun _ => True) Prod.fst (vldSlotRow s t j) := by
  unfold vldSlotRow
  dsimp only
  split
  · exact trivial
  · exact Keeps.fst (modVec_keeps hs)
theorem vstRow_keeps {t j} (hs : Keeps s₀ s) : ExcKeeps s₀ (fun _ => True) Prod.fst (vstRow s t j) := by
  unfold vstRow
  dsimp only
  split
  · exact scrWrite_keeps (scrWrite_keeps hs)
  · exact storeLanes_keeps hs
theorem zrcPut_keeps {t j a f strided cs} (hs : Keeps s₀ s) : Keeps s₀ (zrcPut s t j a f strided cs).1 :=
  .fst (.ite (scrWrite_keeps hs) (scrWrite_keeps hs))
theorem vstzRow_keeps {t j} (hs : Keeps s₀ s) : ExcKeeps s₀ (fun _ => True) Prod.fst (vstzRow s t j) := by
  unfold vstzRow
  dsimp only
  split
  · exact scrWrite_keeps (zrcPut_keeps hs)
  · exact zrcPut_keeps hs
theorem epiRow_keeps {t j} (hs : Keeps s₀ s) : ExcKeeps s₀ (fun _ => True) Prod.fst (epiRow s t j) := by
  unfold epiRow
  dsimp only
  split
  · exact trivial
  · split
    · exact zrcPut_keeps hs
    · exact .fst (storeLanes_keeps hs)

/-! ### The special-function unit -/

theorem issueSf_keeps {t w f adv} (hs : Keeps s₀ s) : IssueKeeps s₀ (issueSf t w f adv s) := by
  unfold issueSf
  split
  · exact trivial
  · exact pushVec_keeps hs
theorem issueSfn_keeps {t w} (hs : Keeps s₀ s) : IssueKeeps s₀ (issueSfn t w s) := issueSf_keeps hs
theorem issueSmx_keeps {t w} (hs : Keeps s₀ s) : IssueKeeps s₀ (issueSmx t w s) := .ite hs (issueSf_keeps hs)
theorem issueSrs_keeps {t w} (hs : Keeps s₀ s) : IssueKeeps s₀ (issueSrs t w s) := issueSf_keeps hs
theorem issueRst_keeps {t w} (hs : Keeps s₀ s) : IssueKeeps s₀ (issueRst t w s) := issueSf_keeps hs
theorem issueMgn_keeps {t w} (hs : Keeps s₀ s) : IssueKeeps s₀ (issueMgn t w s) :=
  .ite trivial (.ite trivial (.ite hs (modVec_keeps hs)))
theorem issueMps_keeps {t w} (hs : Keeps s₀ s) : IssueKeeps s₀ (issueMps t w s) := .ite hs (modVec_keeps hs)
theorem smxRow_keeps {t j} (hs : Keeps s₀ s) : ExcKeeps s₀ (fun _ => True) Prod.fst (smxRow s t j) := by
  unfold smxRow
  dsimp only
  split
  · exact trivial
  · exact .ite (Keeps.fst (scrWrite_keeps hs)) (.ite (Keeps.fst (modVec_keeps (scrWrite_keeps hs)))
      (Keeps.fst (modVec_keeps (scrWrite_keeps hs))))
theorem srsRow_keeps {t j} (hs : Keeps s₀ s) : ExcKeeps s₀ (fun _ => True) Prod.fst (srsRow s t j) := by
  unfold srsRow
  refine .ite (Keeps.fst (putSlotRow_keeps hs)) ?_
  split
  · exact trivial
  · exact Keeps.fst (putSlotRow_keeps hs)
theorem execSfn_keeps {t w} (hs : Keeps s₀ s) : Answers s₀ (execSfn t w s) := issueCmd_keeps (fun _ => issueSfn_keeps) hs
theorem execSmx_keeps {t w} (hs : Keeps s₀ s) : Answers s₀ (execSmx t w s) := issueCmd_keeps (fun _ => issueSmx_keeps) hs
theorem execSrs_keeps {t w} (hs : Keeps s₀ s) : Answers s₀ (execSrs t w s) := issueCmd_keeps (fun _ => issueSrs_keeps) hs
theorem execRst_keeps {t w} (hs : Keeps s₀ s) : Answers s₀ (execRst t w s) := issueCmd_keeps (fun _ => issueRst_keeps) hs
theorem execMgn_keeps {t w} (hs : Keeps s₀ s) : Answers s₀ (execMgn t w s) := issueCmd_keeps (fun _ => issueMgn_keeps) hs
theorem execMps_keeps {t w} (hs : Keeps s₀ s) : Answers s₀ (execMps t w s) := issueCmd_keeps (fun _ => issueMps_keeps) hs

/-! ### The vector pipe -/

theorem vecRowOf_keeps {t j} (hs : Keeps s₀ s) : ExcKeeps s₀ (fun _ => True) Prod.fst (vecRowOf s t j) := by
  unfold vecRowOf
  dsimp only
  generalize opOf j.w = o
  split
  · exact hs
  · exact hs
  · exact hs
  · exact .ite (vldSlotRow_keeps hs) (vldRow_keeps hs)
  · exact vstRow_keeps hs
  · simp only [vstzRow_keeps, hs]
  · exact epiRow_keeps hs
  · exact Keeps.fst (modVec_keeps hs)
  · exact smxRow_keeps hs
  · exact srsRow_keeps hs
  · exact Keeps.fst (modVec_keeps hs)
  · exact Keeps.fst (modVec_keeps hs)
theorem setRun_keeps {t j seq} (hs : Keeps s₀ s) : Keeps s₀ (setRun s t j seq) := modVec_keeps hs
theorem vecEnd_keeps {t j} (hs : Keeps s₀ s) : Keeps s₀ (vecEnd s t j) := by
  unfold vecEnd
  dsimp only
  split
  · exact .maybe (setRun_keeps (modVec_keeps hs)) tileFault_keeps
  · exact setRun_keeps (modVec_keeps hs)
theorem vecPair_keeps {t j mismatch} (hs : Keeps s₀ s) : Keeps s₀ (vecPair s t j mismatch) := by
  unfold vecPair
  refine .ite ?_ hs
  dsimp only
  split
  · exact retractEpoch_keeps (tstat_keeps (raise_keeps hs))
  · exact tstat_keeps (raise_keeps hs)
theorem vecSee_keeps {t j} (hs : Keeps s₀ s) : Keeps s₀ (vecSee s t j) := by
  unfold vecSee
  refine .ite hs ?_
  dsimp only
  split
  · exact .ite hs (.maybe (foldl_keeps (fun _ _ => scrSee_keeps) hs _) (fun h1 => foldl_keeps (fun _ _ => scrSee_keeps) h1 _))
  · exact .ite (foldl_keeps (fun _ _ => scrSee_keeps) hs _) hs
  · exact .ite (scrSee_keeps (scrSee_keeps hs)) hs
  · exact hs
theorem vecRowComplete_keeps {t mismatch} (hs : Keeps s₀ s) : Keeps s₀ (vecRowComplete s t mismatch) := by
  unfold vecRowComplete
  refine .ite hs ?_
  split
  · exact hs
  · next j _ =>
    have hr : ExcKeeps s₀ (fun _ => True) Prod.fst (vecRowOf (vecSee s t j) t j) := vecRowOf_keeps (vecSee_keeps hs)
    dsimp only
    split
    · exact poisonHold_keeps (vecSee_keeps hs)
    · next hk => exact vecPair_keeps (.ite (setRun_keeps (hr.ok hk)) (vecEnd_keeps (hr.ok hk)))
theorem vstzFinish_keeps {t} (hs : Keeps s₀ s) : Keeps s₀ (vstzFinish s t) := by
  unfold vstzFinish
  split
  · exact .ite (modVec_keeps hs) hs
  · exact hs
theorem execVecRowComplete_keeps {t pairMismatch} (hs : Keeps s₀ s) : Answers s₀ (execVecRowComplete t pairMismatch s) :=
  .next (vecRowComplete_keeps hs)
theorem execVstzFinish_keeps {t} (hs : Keeps s₀ s) : Answers s₀ (execVstzFinish t s) := .next (vstzFinish_keeps hs)

/-! ### Fetch of the stream words -/

theorem reservedOp_keeps {t op} (hs : Keeps s₀ s) : Keeps s₀ (reservedOp s t op) :=
  .ite (raise_keeps (stopStream_keeps (setFault_keeps hs))) (tileFault_keeps hs)
theorem issueOf_keeps {t w f} (e : issueOf t w = some f) (hs : Keeps s₀ s) : IssueKeeps s₀ (f s) := by
  unfold issueOf at e
  split at e <;> cases e
  · exact issueMmt_keeps hs
  · exact issueLdp_keeps hs
  · exact issueBld_keeps hs
  · exact issueBkt_keeps hs
  · exact issueAgeo_keeps hs
  · exact issueAini_keeps hs
  · exact issueAadd_keeps hs
  · exact issueAchn_keeps hs
  · exact issueAsnd_keeps hs
  · exact issueWcf_keeps hs
  · exact issueWin_keeps hs
  · exact issueWcur_keeps hs
  · exact issueVlen_keeps hs
  · exact issueVadr_keeps hs
  · exact issueVidx_keeps hs
  · exact issueVld_keeps hs
  · exact issueVst_keeps hs
  · exact issueVstz_keeps hs
  · exact issueEpi_keeps hs
  · exact issueVfa_keeps hs
  · exact issueVia_keeps hs
  · exact issueVcmp_keeps hs
  · exact issueVsel_keeps hs
  · exact issueVcvt_keeps hs
  · exact issueVmsk_keeps hs
  · exact issueVperm_keeps hs
  · exact issueVlsh_keeps hs
  · exact issueVcmpr_keeps hs
  · exact issueVexpd_keeps hs
  · exact issueVred_keeps hs
  · exact issueSfn_keeps hs
  · exact issueSmx_keeps hs
  · exact issueSrs_keeps hs
  · exact issueRst_keeps hs
  · exact issueMgn_keeps hs
  · exact issueMps_keeps hs
  · exact issueDmk_keeps hs
  · exact issueDwt_keeps hs
  · exact issueBln_keeps hs
  · exact issueSinc_keeps hs
  · exact issueSwat_keeps hs
  · exact issueSbas_keeps hs
  · exact issueSclm_keeps hs
  · exact issuePht_keeps hs
  · exact issueTsl_keeps hs
theorem issueWord_keeps {t w} (hs : Keeps s₀ s) : Keeps s₀ (issueWord s t w) := by
  unfold issueWord
  split
  · exact issue_keeps (fun _ hu => issueOf_keeps ‹_› hu) hs
  · exact .ite (reservedOp_keeps hs) hs
theorem csWordIssue_keeps {t} (hs : Keeps s₀ s) : Keeps s₀ (csWordIssue s t) := by
  unfold csWordIssue
  refine .ite hs ?_
  split
  · exact issueWord_keeps hs
  · refine .ite ?_ hs
    refine .ite (issueWord_keeps (misuse_keeps hs)) ?_
    split
    · exact issueWord_keeps ((devRead_keeps hs).get ‹_›)
    · exact waitOp_keeps hs
theorem execCsWordIssue_keeps {t} (hs : Keeps s₀ s) : Answers s₀ (execCsWordIssue t s) := .next (csWordIssue_keeps hs)

end Sys2Proof.Machine
end

section
/-! What work items, resets, images, power and the Stoker keep. -/

namespace Sys2Proof.Machine

variable {s₀ s n : State} {α β ε : Type}

/-! ### The power budget -/

theorem modPwr_keeps {f} (hs : Keeps s₀ s) : Keeps s₀ (modPwr s f) := .update hs
theorem emergency_keeps {code detail} (hs : Keeps s₀ s) : Keeps s₀ (emergency s code detail) :=
  .unless (modPwr_keeps hs) (fun h1 => forEach_keeps (fun _ _ hu => .ite (breach_keeps hu) hu) (raise_keeps h1))
theorem decideStep_keeps {t step em} (hs : Keeps s₀ s) : Keeps s₀ (decideStep s t step em) := modPwr_keeps hs
theorem budgetAlarms_keeps (hs : Keeps s₀ s) : Keeps s₀ (budgetAlarms s) :=
  .maybe (.ite (raise_keeps (modPwr_keeps hs)) hs) emergency_keeps
theorem takeGrants_keeps {gs} (hs : Keeps s₀ s) : Keeps s₀ (takeGrants s gs) := by
  unfold takeGrants
  refine forEach_keeps ?_ (modPwr_keeps hs)
  intro _ _ hu
  split
  · exact forEach_keeps (fun _ _ hv => .ite hv (decideStep_keeps hv)) (modChk_keeps hu)
  · exact modChk_keeps hu
theorem recompute_keeps (hs : Keeps s₀ s) : Keeps s₀ (recompute s) := by
  unfold recompute
  exact takeGrants_keeps (budgetAlarms_keeps hs)
theorem reclaim_keeps {h} (hs : Keeps s₀ s) : Keeps s₀ (reclaim s h) := by
  unfold reclaim
  exact takeGrants_keeps (budgetAlarms_keeps hs)

/-! ### Work items -/

theorem setQ_keeps {q st code} (hs : Keeps s₀ s) : Keeps s₀ (setQ s q st code) := modQueue_keeps hs
theorem tellAck_keeps {q} (hs : Keeps s₀ s) : Keeps s₀ (tellAck s q) := notify_keeps hs
theorem tellDone_keeps {q} (hs : Keeps s₀ s) : Keeps s₀ (tellDone s q) := .maybe (tellAck_keeps hs) notify_keeps
theorem tailWrite_keeps {a q tail} (hs : Keeps s₀ s) : Keeps s₀ (tailWrite s a q tail) :=
  .ite (raise_keeps hs) (.ite (misuse_keeps hs) (modQueue_keeps hs))
theorem svcRead_keeps {h a n} (hs : Keeps s₀ s) : OptKeeps s₀ Prod.fst (svcRead s h a n) :=
  .ite (.some (.fst (raise_keeps hs))) (.ite .none (.map (π := Prod.fst) (devRead_keeps hs) (fun _ hu => .fst hu)))
theorem svcWrite_keeps {h a bs ps} (hs : Keeps s₀ s) : Keeps s₀ (svcWrite s h a bs ps) :=
  .ite (postWrite_keeps hs) (raise_keeps hs)
theorem descRead_keeps {q} (hs : Keeps s₀ s) : Keeps s₀ (descRead s q) := by
  unfold descRead
  refine .ite hs ?_
  split
  · exact hs
  · have hu := (svcRead_keeps hs).get ‹_›
    exact .ite (modQueue_keeps hu) (.ite (tellAck_keeps (modQueue_keeps hu)) (raise_keeps (setQ_keeps hu)))
theorem modLgr_keeps {f} (hs : Keeps s₀ s) : Keeps s₀ (modLgr s f) := .update hs
theorem haltStream_keeps {t} (hs : Keeps s₀ s) : Keeps s₀ (haltStream s t) := .ite (modTile_keeps (setCs_keeps hs)) hs
theorem storeFailed_keeps (hs : Keeps s₀ s) : Keeps s₀ (storeFailed s) :=
  forEach_keeps (fun _ _ => haltStream_keeps) (forEach_keeps (fun _ _ hu => .ite (setQ_keeps hu) hu)
    (raise_keeps (modLgr_keeps hs)))
theorem lgrWrite_keeps {a bs ok} (hs : Keeps s₀ s) : Keeps s₀ (lgrWrite s a bs ok).2 := by
  unfold lgrWrite
  dsimp only
  split
  · exact .snd (modLgr_keeps (modLgr_keeps hs))
  · exact .snd (.maybe (modLgr_keeps (modLgr_keeps hs)) storeFailed_keeps)
theorem itemAccept_keeps {q ok} (hs : Keeps s₀ s) : Keeps s₀ (itemAccept s q ok) := by
  unfold itemAccept
  dsimp only
  split
  · exact hs
  · exact .ite hs (.unless (lgrWrite_keeps hs) (fun h1 => tellAck_keeps (modQueue_keeps (modLgr_keeps h1))))
theorem hostBytes_keeps {n} (hs : Keeps s₀ s) : Keeps s₀ (hostBytes s n).2 := .snd (draw_keeps hs)
theorem itemFail_keeps {q seq detail} (hs : Keeps s₀ s) : Keeps s₀ (itemFail s q seq detail) := itemEnd_keeps hs
theorem setLeft_keeps {q seq n} (hs : Keeps s₀ s) : Keeps s₀ (setLeft s q seq n) := modItem_keeps hs
theorem runStream_keeps {q h i} (hs : Keeps s₀ s) : OptKeeps s₀ id (runStream s q h i) := by
  unfold runStream
  dsimp only
  split
  · exact .some (itemFail_keeps (raise_keeps hs))
  · exact optEach_keeps hs (fun _ _ hu => .map (π := Prod.fst) (svcRead_keeps hu)
      (fun _ hv => OptKeeps.getD (freshStart_keeps (modTile_keeps hv)) (modTile_keeps hv)))
theorem runPieces_keeps {q h i base out ps} (hs : Keeps s₀ s) : OptKeeps s₀ id (runPieces s q h i base out ps) := by
  unfold runPieces
  refine .ite (.ite (.some (itemFail_keeps (hostReq_keeps hs))) (optEach_keeps (hostReq_keeps hs) (fun p _ hu => .ite ?_ ?_)))
    (.ite (.some (itemFail_keeps hs)) (optEach_keeps (setLeft_keeps hs) (fun _ _ hu => .ite ?_ ?_)))
  · exact .map (svcRead_keeps hu) (fun _ => emit_keeps)
  · exact .some (svcWrite_keeps (hostBytes_keeps (n := p.2.1) hu))
  · exact .map (svcRead_keeps hu) (fun _ => sendWrite_keeps)
  · exact .some (sendRead_keeps hu)
theorem runData_keeps {q h i} (hs : Keeps s₀ s) : OptKeeps s₀ id (runData s q h i) := runPieces_keeps hs
theorem runCkpt_keeps {q h i} (hs : Keeps s₀ s) : OptKeeps s₀ id (runCkpt s q h i) := by
  unfold runCkpt
  refine .bind (π := Prod.fst) (svcRead_keeps hs) ?_
  intro _ hu
  dsimp only
  split
  · exact .some (itemFail_keeps (modItem_keeps hu))
  · exact runPieces_keeps (modItem_keeps hu)
theorem feedColl_keeps {q h seq} (hs : Keeps s₀ s) : OptKeeps s₀ id (feedColl s q h seq) := by
  unfold feedColl
  split
  · exact .some hs
  · exact .map (π := Prod.fst) (svcRead_keeps hs) (fun _ hu => modItem_keeps
      (modPort_keeps (forEach_keeps (fun _ _ => svcWrite_keeps) hu)))
theorem runColl_keeps {q h i} (hs : Keeps s₀ s) : OptKeeps s₀ id (runColl s q h i) := feedColl_keeps (modItem_keeps hs)
theorem openTry_keeps {q h i} (hs : Keeps s₀ s) : Keeps s₀ (openTry s q h i) :=
  .ite hs (.ite (itemEnd_keeps (openEpoch_keeps (modChk_keeps hs)))
    (modItem_keeps (itemFail_keeps (openEpoch_keeps (modChk_keeps hs)))))
theorem commitTry_keeps {q h i} (hs : Keeps s₀ s) : Keeps s₀ (commitTry s q h i) :=
  .ite hs (.ite (itemFail_keeps hs) (.ite (itemEnd_keeps (.ite hs (modItem_keeps (closeEpoch_keeps hs))))
    (.ite (itemFail_keeps (.ite hs (modItem_keeps (closeEpoch_keeps hs))))
    (.maybe (.ite hs (modItem_keeps (closeEpoch_keeps hs))) itemEnd_keeps))))
theorem startItem_keeps {q i} (hs : Keeps s₀ s) : OptKeeps s₀ id (startItem s q i) :=
  .ite (runStream_keeps (modRun_keeps (modItem_keeps hs))) (.ite (runData_keeps (modRun_keeps (modItem_keeps hs)))
    (.ite (runColl_keeps (modRun_keeps (modItem_keeps hs))) (.ite (runCkpt_keeps (modRun_keeps (modItem_keeps hs)))
    (.ite (.some (openTry_keeps (modRun_keeps (modItem_keeps hs))))
    (.ite (.some (commitTry_keeps (modRun_keeps (modItem_keeps hs))))
    (.some (itemEnd_keeps (modRun_keeps (modItem_keeps hs)))))))))
theorem itemStart_keeps {q} (hs : Keeps s₀ s) : Keeps s₀ (itemStart s q) := by
  unfold itemStart
  dsimp only
  split
  · exact .maybe (forEach_keeps (fun _ _ hu => OptKeeps.getD (feedColl_keeps hu) hu) hs)
      (fun h1 => OptKeeps.getD (startItem_keeps h1) h1)
  · exact forEach_keeps (fun _ _ hu => OptKeeps.getD (feedColl_keeps hu) hu) hs
theorem pageHashes_keeps {h bs k hadr prev} (hs : Keeps s₀ s) : Keeps s₀ (pageHashes h bs k hadr prev s) := by
  induction k generalizing s bs hadr prev with
  | zero => exact hs
  | succ k ih => exact ih (svcWrite_keeps hs)
theorem hashData_keeps {h i} (hs : Keeps s₀ s) : OptKeeps s₀ id (hashData s h i) :=
  .ite (.some hs) (.map (π := Prod.fst) (svcRead_keeps hs) (fun _ => pageHashes_keeps))
theorem evalItem_keeps {q h i} (hs : Keeps s₀ s) : Keeps s₀ (evalItem s q h i) := by
  unfold evalItem
  refine .ite ?_ (.ite (.ite (OptKeeps.getD (.map (π := id) (hashData_keeps hs) (fun _ => itemEnd_keeps)) hs) hs)
    (.ite (.ite (itemEnd_keeps (forEach_keeps (fun _ _ => writeBack_keeps) hs)) hs)
    (.ite (.ite (itemEnd_keeps hs) hs) (.ite (openTry_keeps hs) (.ite (commitTry_keeps hs) (itemEnd_keeps hs))))))
  dsimp only
  split
  · exact modItem_keeps (itemFail_keeps hs)
  · exact .ite (itemEnd_keeps hs) hs
theorem commitWrites_keeps {h g i} (hs : Keeps s₀ s) : OptKeeps s₀ id (commitWrites s h g i) :=
  .map (π := Prod.fst) (svcRead_keeps hs) (fun _ hu => .unless (forEach_keeps (fun _ _ => svcWrite_keeps) hu) flipGen_keeps)
theorem postItem_keeps {q i o det again} (hs : Keeps s₀ s) : Keeps s₀ (postItem s q i o det again) := by
  unfold postItem
  exact modRun_keeps (.maybe (.maybe (.unless (modQueue_keeps (svcWrite_keeps hs))
    (fun h1 => .ite (issueWith_keeps h1) (synRefuse_keeps h1))) tellDone_keeps) phaseEntry_keeps)
theorem postNext_keeps {q seq} (hs : Keeps s₀ s) : Keeps s₀ (postNext s q seq) := by
  unfold postNext
  split
  · split
    · exact .ite (postItem_keeps hs) hs
    · exact hs
  · exact hs
theorem makeDurable_keeps {q seq ok} (hs : Keeps s₀ s) : Keeps s₀ (makeDurable s q seq ok) := by
  unfold makeDurable
  dsimp only
  split
  · split
    · exact .unless (lgrWrite_keeps hs) (fun h2 => .maybe (modItem_keeps h2)
        (fun h1 => OptKeeps.getD (commitWrites_keeps h1) hs))
    · exact hs
  · exact hs
theorem itemComplete_keeps {q seq ok} (hs : Keeps s₀ s) : Keeps s₀ (itemComplete s q seq ok) := by
  unfold itemComplete
  refine .ite hs ?_
  split
  · exact hs
  · exact postNext_keeps (makeDurable_keeps (.ite (evalItem_keeps hs) hs))
theorem haltThreads_keeps {t} (hs : Keeps s₀ s) : Keeps s₀ (haltThreads s t) := modTile_keeps hs
theorem haltTile_keeps {t} (hs : Keeps s₀ s) : Keeps s₀ (haltTile s t) := haltThreads_keeps (haltStream_keeps hs)
theorem endItemWindow_keeps {q h i} (hs : Keeps s₀ s) : Keeps s₀ (endItemWindow s q h i) :=
  .ite (phaseEntry_keeps (modItem_keeps hs)) hs
theorem stopItem_keeps {q i} (hs : Keeps s₀ s) : Keeps s₀ (stopItem s q i) :=
  .ite (forEach_keeps (fun _ _ hu => haltThreads_keeps (stopStream_keeps hu)) hs)
    (.ite (modPort_keeps (.ite (quenchStop_keeps (dropActive_keeps hs)) hs)) (.update hs))
theorem lgrTimeout_keeps {q seq} (hs : Keeps s₀ s) : Keeps s₀ (lgrTimeout s q seq) := by
  unfold lgrTimeout
  split
  · split
    · exact .ite (raise_keeps (modItem_keeps (stopItem_keeps hs))) hs
    · exact hs
  · exact hs
theorem retWrite_keeps {a q value} (hs : Keeps s₀ s) : Keeps s₀ (retWrite s a q value) :=
  .ite (misuse_keeps hs) (.ite (raise_keeps hs) (modQueue_keeps hs))
theorem queueResume_keeps {a q} (hs : Keeps s₀ s) : Keeps s₀ (queueResume s a q) :=
  .ite (misuse_keeps hs) (.ite (setQ_keeps hs) hs)
theorem tornParts_keeps {w} (hs : Keeps s₀ s) : Keeps s₀ (tornParts s w) :=
  forEach_keeps (fun _ _ hu => forEach_keeps (fun _ _ hv => .ite hv (raise_keeps (modLgr_keeps hv))) hu) hs
theorem recoverItem_keeps {q seq} (hs : Keeps s₀ s) : OptKeeps s₀ id (recoverItem s q seq) := by
  unfold recoverItem
  dsimp only
  split
  · exact .some hs
  · split
    · refine OptKeeps.map (π := id) (.ite ?_ (.some (modQueue_keeps (modLgr_keeps hs))))
        (fun _ hu => .ite (postItem_keeps hu) hu)
      exact .map (commitWrites_keeps (modQueue_keeps (modLgr_keeps hs))) (fun _ => raise_keeps)
    · exact .some (.ite (modQueue_keeps (modLgr_keeps hs))
        (postNext_keeps (makeDurable_keeps (raise_keeps (modQueue_keeps (modLgr_keeps hs))))))
theorem recoverAll_keeps {q} (hs : Keeps s₀ s) : OptKeeps s₀ id (recoverAll s q) :=
  .map (π := id) (optEach_keeps (modQueue_keeps (tornParts_keeps hs)) (fun _ _ => recoverItem_keeps))
    (fun _ hu => .maybe (setQ_keeps (modQueue_keeps hu)) .update)
theorem queueRecovery_keeps {q} (hs : Keeps s₀ s) : Keeps s₀ (queueRecovery s q) :=
  .ite hs (OptKeeps.getD (recoverAll_keeps hs) hs)
theorem setHctl_keeps {h st} (hs : Keeps s₀ s) : Keeps s₀ (setHctl s h st) := modChk_keeps hs
theorem hctlPreempt_keeps {a h} (hs : Keeps s₀ s) : Keeps s₀ (hctlPreempt s a h) :=
  .ite (misuse_keeps hs) (.ite (setHctl_keeps hs) hs)
theorem resumeHearth_keeps {h} (hs : Keeps s₀ s) : Keeps s₀ (resumeHearth s h) := .ite hs (recompute_keeps (setHctl_keeps hs))
theorem hctlResume_keeps {a h} (hs : Keeps s₀ s) : Keeps s₀ (hctlResume s a h) :=
  .ite (misuse_keeps hs) (resumeHearth_keeps hs)
theorem hearthPreempted_keeps {h} (hs : Keeps s₀ s) : Keeps s₀ (hearthPreempted s h) :=
  .ite hs (recompute_keeps (modRun_keeps (setHctl_keeps (hearthOwnersGone_keeps
    (forEach_keeps (fun _ _ hu => forEach_keeps (fun _ _ hv => .ite (modItem_keeps (endItemWindow_keeps (stopItem_keeps hv)))
    (raise_keeps (modItem_keeps (endItemWindow_keeps (stopItem_keeps hv))))) hu)
    (forEach_keeps (fun _ _ hu => quenchStop_keeps (dropActive_keeps hu)) (forEach_keeps (fun _ _ => haltTile_keeps) hs)))))))
theorem hearthHeld_keeps {h} (hs : Keeps s₀ s) : Keeps s₀ (hearthHeld s h) :=
  .ite hs (forEach_keeps (fun _ _ hu => .ite hu (raise_keeps hu)) (modChk_keeps (draw_keeps (setHold_keeps hs))))
theorem execQueueTailWrite_keeps {a q tail} (hs : Keeps s₀ s) : Answers s₀ (execQueueTailWrite a q tail s) :=
  .next (tailWrite_keeps hs)
theorem execDescriptorRead_keeps {q} (hs : Keeps s₀ s) : Answers s₀ (execDescriptorRead q s) := .next (descRead_keeps hs)
theorem execItemAccept_keeps {q storeOk} (hs : Keeps s₀ s) : Answers s₀ (execItemAccept q storeOk s) :=
  .next (itemAccept_keeps hs)
theorem execItemStart_keeps {q} (hs : Keeps s₀ s) : Answers s₀ (execItemStart q s) := .next (itemStart_keeps hs)
theorem execItemComplete_keeps {q seq storeOk} (hs : Keeps s₀ s) : Answers s₀ (execItemComplete q seq storeOk s) :=
  .next (itemComplete_keeps hs)
theorem execLgrTimeout_keeps {q seq} (hs : Keeps s₀ s) : Answers s₀ (execLgrTimeout q seq s) := .next (lgrTimeout_keeps hs)
theorem execRetWrite_keeps {a q value} (hs : Keeps s₀ s) : Answers s₀ (execRetWrite a q value s) := .next (retWrite_keeps hs)
theorem execQueueResume_keeps {a q} (hs : Keeps s₀ s) : Answers s₀ (execQueueResume a q s) := .next (queueResume_keeps hs)
theorem execQueueRecovery_keeps {q} (hs : Keeps s₀ s) : Answers s₀ (execQueueRecovery q s) := .next (queueRecovery_keeps hs)
theorem execHctlPreempt_keeps {a h} (hs : Keeps s₀ s) : Answers s₀ (execHctlPreempt a h s) := .next (hctlPreempt_keeps hs)
theorem execHearthPreempted_keeps {h} (hs : Keeps s₀ s) : Answers s₀ (execHearthPreempted h s) :=
  .next (hearthPreempted_keeps hs)
theorem execHctlResume_keeps {a h} (hs : Keeps s₀ s) : Answers s₀ (execHctlResume a h s) := .next (hctlResume_keeps hs)
theorem execHearthHeld_keeps {h} (hs : Keeps s₀ s) : Answers s₀ (execHearthHeld h s) := .next (hearthHeld_keeps hs)

/-! ### Words stored in registers -/

theorem storeTile_keeps {t o v px} (hs : Keeps s₀ s) : Keeps s₀ (storeTile s t o v px) :=
  .ite (modTile_keeps hs) (.ite (modTile_keeps hs) (.ite (modTile_keeps hs)
    (.ite (modTile_keeps hs) (.ite (modTile_keeps hs) hs))))
theorem storeBlw_keeps {t o v} (hs : Keeps s₀ s) : Keeps s₀ (storeBlw s t o v) :=
  .ite (modBlw_keeps hs) (.ite (modBlw_keeps hs) (.ite (modBlw_keeps hs) hs))
theorem storeHearth_keeps {h o v} (hs : Keeps s₀ s) : Keeps s₀ (storeHearth s h o v) :=
  .ite (modHearth_keeps hs) (.ite (modHearth_keeps hs) (.ite (modHearth_keeps hs)
    (.ite (modHearth_keeps hs) (.ite (modHearth_keeps hs) (.ite (modHearth_keeps hs)
    (.ite (modHearth_keeps hs) (.ite (modHearth_keeps hs) (.ite (modHearth_keeps hs)
    (.ite (modHearth_keeps hs) (.ite (modHearth_keeps hs) (.ite (modHearth_keeps hs)
    (.ite (modHearth_keeps hs) (.ite (modHearth_keeps hs) (.ite (modNet_keeps hs)
    (.ite (.ite (modNet_keeps hs) (modNet_keeps hs)) (.ite (modNet_keeps hs)
    (.ite (modNet_keeps hs) (.ite (modNet_keeps hs) (.ite (modChk_keeps hs)
    (.ite (modChk_keeps hs) (.ite (modChk_keeps hs) (.ite (modChk_keeps hs) (.ite (modChk_keeps hs) hs)))))))))))))))))))))))
theorem storePlat_keeps {o v} (hs : Keeps s₀ s) : Keeps s₀ (storePlat s o v) :=
  .ite (.update hs) (.ite (.update hs) (.ite (.update hs) (.ite (.update hs)
    (.ite (.update hs) (.ite (.update hs) (.ite (modPwr_keeps hs) hs))))))
theorem storePage_keeps {f o v} (hs : Keeps s₀ s) : Keeps s₀ (storePage s f o v) :=
  .ite (modFn_keeps hs) (.ite (modFn_keeps hs) (.ite (modFn_keeps hs)
    (.ite (modFn_keeps hs) (.ite (modFn_keeps hs) (.ite (modFn_keeps hs) hs)))))
theorem storeLoc_keeps {l v en} (hs : Keeps s₀ s) : Keeps s₀ (storeLoc s l v en) := by
  unfold storeLoc
  split
  · exact storeTile_keeps hs
  · exact storeHearth_keeps hs
  · exact .ite (.update hs) (.ite (.update hs) (.ite (.update hs) hs))
  · exact storeBlw_keeps hs
  · exact modPort_keeps hs
  · exact .ite (modCtr_keeps hs) hs
  · exact modQueue_keeps hs
  · exact modChk_keeps hs
  · exact storePlat_keeps hs
  · exact storePage_keeps hs
  · exact hs
theorem writeFields_keeps {l m w1c v en} (hs : Keeps s₀ s) : Keeps s₀ (writeFields s l m w1c v en) :=
  .ite hs (storeLoc_keeps hs)

/-! ### Settings that an image applies -/

theorem temperTile_keeps {t} (hs : Keeps s₀ s) : Keeps s₀ (temperTile s t) := by
  unfold temperTile
  dsimp only
  split
  · exact modPwr_keeps hs
  · exact modTile_keeps (modPwr_keeps hs)
theorem temperHearth_keeps {h} (hs : Keeps s₀ s) : Keeps s₀ (temperHearth s h) := modHearth_keeps hs
theorem temperQueue_keeps {q} (hs : Keeps s₀ s) : Keeps s₀ (temperQueue s q) := modQueue_keeps hs
theorem temperPool_keeps {half} (hs : Keeps s₀ s) : Keeps s₀ (temperPool s half) :=
  .update (modPool_keeps (forEach_keeps (fun _ _ => dropFill_keeps) (forEach_keeps (fun _ _ => mtlStat_keeps) hs)))
theorem temperPair_keeps {p} (hs : Keeps s₀ s) : Keeps s₀ (temperPair s p) := .update hs
theorem temperFns_keeps (hs : Keeps s₀ s) : Keeps s₀ (temperFns s) := forEach_keeps (fun _ _ => modFn_keeps) hs
theorem temperDevice_keeps (hs : Keeps s₀ s) : Keeps s₀ (temperDevice s) :=
  temperFns_keeps (modPwr_keeps (forEach_keeps (fun _ _ => modStk_keeps)
    (temperPool_keeps (temperPool_keeps (forEach_keeps (fun _ _ => temperPair_keeps) hs)))))
theorem temperLink_keeps (hs : Keeps s₀ s) : Keeps s₀ (temperLink s) := by
  unfold temperLink
  refine forEach_keeps ?_ (.update hs)
  intro _ _ hu
  split
  · exact modPort_keeps hu
  · exact hu
theorem temperRegs_keeps {h} (hs : Keeps s₀ s) : Keeps s₀ (temperRegs s h) := forEach_keeps (fun _ _ => writeFields_keeps) hs
theorem dropAccesses_keeps {p} (hs : Keeps s₀ s) : Keeps s₀ (dropAccesses s p) := forEach_keeps (fun _ _ => modPool_keeps) hs
theorem resetTile_keeps {t warm} (hs : Keeps s₀ s) : Keeps s₀ (resetTile s t warm) :=
  temperTile_keeps (.unless (modTile_keeps (dropAccesses_keeps (ownerGone_keeps (quiesce_keeps (endTilePhase_keeps hs)))))
    zeroRange_keeps)
theorem hobItems_keeps {c} (hs : Keeps s₀ s) : Keeps s₀ (hobItems s c) :=
  forEach_keeps (fun _ _ hu => .ite (forEach_keeps (fun _ _ hv => forEach_keeps
    (fun _ _ hw => .ite (modItem_keeps (endItemWindow_keeps (stopItem_keeps hw)))
    (raise_keeps (modItem_keeps (endItemWindow_keeps (stopItem_keeps hw))))) hv) hu) hu) hs
theorem resetHob_keeps {c} (hs : Keeps s₀ s) : Keeps s₀ (resetHob s c) :=
  .update (forEach_keeps (fun _ _ => modPool_keeps) (dropAccesses_keeps (ownerGone_keeps hs)))
theorem zeroRegion_keeps {r} (hs : Keeps s₀ s) : Keeps s₀ (zeroRegion s r) :=
  zeroRange_keeps (forEach_keeps (fun _ _ => modPool_keeps) (dropAccesses_keeps hs))
theorem clearMoved_keeps {s'} (hs : Keeps s₀ s) : Keeps s₀ (clearMoved s' s) :=
  .update (forEach_keeps (fun _ _ hu => zeroRegion_keeps hu) hs)
theorem startWork_keeps {f} (hs : Keeps s₀ s) : Keeps s₀ (startWork s f) :=
  .ite (resetTile_keeps hs) (.ite (resetHob_keeps hs) (.ite (portEnable_keeps hs) (.ite (.update hs) hs)))
theorem startFn_keeps {f} (hs : Keeps s₀ s) : Keeps s₀ (startFn s f) := .maybe (enableFn_keeps hs) startWork_keeps
theorem applyCfg_keeps {old new lnk} (hs : Keeps s₀ s) : Keeps s₀ (applyCfg s old new lnk) := by
  unfold applyCfg
  refine recompute_keeps (forEach_keeps (fun _ _ hu => temperRegs_keeps (modRun_keeps (temperHearth_keeps hu))) ?_)
  refine forEach_keeps ?_ (forEach_keeps (fun _ _ hu => .ite hu (resetHob_keeps hu))
    (forEach_keeps (fun _ _ hu => setFn_keeps (resetTile_keeps hu))
    (temperDevice_keeps (clearMoved_keeps (.maybe (.maybe (.update
    (forEach_keeps (fun _ _ hu => quiesce_keeps (endTilePhase_keeps hu)) hs))
    (fun h1 => forEach_keeps (fun _ _ hu => .ite (setPort_keeps hu) hu)
    (forEach_keeps (fun _ _ hu => .ite hu (endSession_keeps hu)) h1)))
    (fun h2 => forEach_keeps (fun _ _ hu => .ite (portEnable_keeps (startFn_keeps hu)) hu)
    (forEach_keeps (fun _ _ hu => .ite (setPort_keeps hu) hu) (temperLink_keeps h2))))))))
  intro _ _ hu
  refine .ite (temperQueue_keeps hu) ?_
  dsimp only
  split
  · exact .maybe (modLgr_keeps (temperQueue_keeps (modQueue_keeps hu))) setQ_keeps
  · exact temperQueue_keeps (modQueue_keeps hu)

/-! ### Resets -/

theorem releaseUnits_keeps (hs : Keeps s₀ s) : Keeps s₀ (releaseUnits s) :=
  forEach_keeps (fun _ _ hu => portEnable_keeps (startFn_keeps hu))
    (forEach_keeps (fun _ _ => resumeHearth_keeps) (.update hs))
theorem mbxOutcome_keeps {code} (hs : Keeps s₀ s) : Keeps s₀ (mbxOutcome s code) := by
  unfold mbxOutcome
  split
  · exact modFn_keeps (.update hs)
  · exact hs
theorem dropImage_keeps (hs : Keeps s₀ s) : Keeps s₀ (dropImage s) :=
  .ite hs (releaseUnits_keeps (.maybe (.update (mbxOutcome_keeps hs)) applyCfg_keeps))
theorem countReset_keeps {cls} (hs : Keeps s₀ s) : Keeps s₀ (countReset s cls) := modLgr_keeps hs
theorem queueReset_keeps {q cls st} (hs : Keeps s₀ s) : Keeps s₀ (queueReset s q cls st) := modQueue_keeps hs
theorem dropHearthSends_keeps {h warm} (hs : Keeps s₀ s) : Keeps s₀ (dropHearthSends s h warm) := .update hs
theorem leaveBooks_keeps {h} (hs : Keeps s₀ s) : Keeps s₀ (leaveBooks s h) := .update hs
theorem endWindows_keeps {h} (hs : Keeps s₀ s) : Keeps s₀ (endWindows s h) := by
  unfold endWindows
  refine forEach_keeps ?_ (.update (forEach_keeps (fun _ _ hu => forEach_keeps (fun _ _ => endItemWindow_keeps) hu)
    (forEach_keeps (fun _ _ => endTilePhase_keeps) hs)))
  intro _ _ hu
  refine dropActive_keeps (forEach_keeps ?_ hu)
  intro _ _ hv
  split
  · exact .ite (phaseEntry_keeps hv) hv
  · exact hv
theorem hearthReset_keeps {h warm} (hs : Keeps s₀ s) : Keeps s₀ (hearthReset s h warm) :=
  .ite hs (recompute_keeps (countReset_keeps (modRun_keeps (temperRegs_keeps
    (temperHearth_keeps (forEach_keeps (fun _ _ => queueReset_keeps)
    (.unless (forEach_keeps (fun _ _ => modPort_keeps) (modHearth_keeps
    (hearthOwnersGone_keeps (forEach_keeps (fun _ _ => resetHob_keeps)
    (forEach_keeps (fun _ _ => resetTile_keeps) (.unless (dropHearthSends_keeps
    (forEach_keeps (fun _ _ => quenchStop_keeps) (endWindows_keeps (.unless (.ite (dropImage_keeps hs) hs) applyCfg_keeps))))
    leaveBooks_keeps)))))) (fun h1 => forEach_keeps (fun _ _ => modPort_keeps)
    (forEach_keeps (fun _ _ => zeroRegion_keeps) h1)))))))))
theorem takeRecords_keeps (hs : Keeps s₀ s) : Keeps s₀ (takeRecords s) := forEach_keeps (fun _ _ => recordForward_keeps) hs
theorem commitWaiting_keeps (hs : Keeps s₀ s) : Keeps s₀ (commitWaiting s) :=
  forEach_keeps (fun _ _ hu => forEach_keeps (fun _ _ => store_keeps) hu) hs
theorem writePools_keeps (hs : Keeps s₀ s) : Keeps s₀ (writePools s) :=
  forEach_keeps (fun _ _ hu => modPool_keeps (forEach_keeps (fun _ _ hv => dropFill_keeps (mtlStat_keeps hv)) hu)) hs
theorem endWork_keeps (hs : Keeps s₀ s) : Keeps s₀ (endWork s) := by
  unfold endWork
  refine writePools_keeps (commitWaiting_keeps ?_)
  refine forEach_keeps (fun _ _ => loseOwner_keeps) (forEach_keeps (fun _ _ => entryFail_keeps) ?_)
  refine forEach_keeps (fun _ _ => endSession_keeps) ?_
  refine forEach_keeps ?_ (.update (forEach_keeps (fun _ _ => quiesce_keeps)
    (forEach_keeps (fun _ _ => endWindows_keeps) hs)))
  intro _ _ hu
  refine applyInc_keeps ?_
  split
  · exact bookDone_keeps hu
  · exact hu
theorem endDevice_keeps {cls} (hs : Keeps s₀ s) : Keeps s₀ (endDevice s cls) :=
  takeRecords_keeps (forEach_keeps (fun _ _ hu => modQueue_keeps (queueReset_keeps hu))
    (.maybe (mbxOutcome_keeps hs) endWork_keeps))
theorem clearDurable_keeps (hs : Keeps s₀ s) : Keeps s₀ (clearDurable s) := .update (clearMoved_keeps (.update hs))
theorem deviceWarm_keeps (hs : Keeps s₀ s) : Keeps s₀ (deviceWarm s) :=
  .ite hs (temperFns_keeps (.update (zeroRange_keeps (clearDurable_keeps (endDevice_keeps hs)))))
theorem coldState_keeps (hs : Keeps s₀ s) : Keeps s₀ (coldState s) where
  pending := by
    have h := (calRebase_keeps (endDevice_keeps (cls := 3) hs)).pending
    simpa only [coldState] using h
  inv _ := by simp only [coldState, State.reset]; exact ⟨⟨.nil, nofun⟩, .nil⟩
theorem deviceCold_keeps (hs : Keeps s₀ s) : Keeps s₀ (deviceCold s) := countReset_keeps (coldState_keeps hs)
theorem warmFallback_keeps (hs : Keeps s₀ s) : Keeps s₀ (warmFallback s) := by
  unfold warmFallback
  split
  · exact .ite (.update (deviceCold_keeps hs)) hs
  · exact hs
theorem powerDown_keeps (hs : Keeps s₀ s) : Keeps s₀ (powerDown s) := .update (coldState_keeps hs)
theorem execDeviceWarmReset_keeps (hs : Keeps s₀ s) : Answers s₀ (execDeviceWarmReset s) := .next (deviceWarm_keeps hs)
theorem execDeviceColdReset_keeps (hs : Keeps s₀ s) : Answers s₀ (execDeviceColdReset s) := .next (deviceCold_keeps hs)
theorem execWarmResetFallback_keeps (hs : Keeps s₀ s) : Answers s₀ (execWarmResetFallback s) := .next (warmFallback_keeps hs)
theorem execHearthWarmReset_keeps {h} (hs : Keeps s₀ s) : Answers s₀ (execHearthWarmReset h s) := .next (hearthReset_keeps hs)
theorem execHearthColdReset_keeps {h} (hs : Keeps s₀ s) : Answers s₀ (execHearthColdReset h s) := .next (hearthReset_keeps hs)

/-! ### Temper images -/

theorem setTmp_keeps {f} (hs : Keeps s₀ s) : Keeps s₀ (setTmp s f) := .update hs
theorem tmpRecord_keeps {code idx} (hs : Keeps s₀ s) : Keeps s₀ (tmpRecord s code idx) := raise_keeps hs
theorem rejectIndex_keeps {idx} (hs : Keeps s₀ s) : Keeps s₀ (rejectIndex s idx).2 := by
  unfold rejectIndex
  split
  · exact .snd hs
  · exact .snd (draw_keeps hs)
theorem tmpReject_keeps {code idx} (hs : Keeps s₀ s) : Keeps s₀ (tmpReject s code idx) :=
  releaseUnits_keeps (setTmp_keeps (mbxOutcome_keeps (tmpRecord_keeps (rejectIndex_keeps hs))))
theorem tmpSubmit_keeps {image mbx} (hs : Keeps s₀ s) : Keeps s₀ (tmpSubmit s image mbx) := by
  unfold tmpSubmit
  refine .ite ?_ (setTmp_keeps hs)
  dsimp only
  split
  · exact modFn_keeps (setTmp_keeps (raise_keeps (rejectIndex_keeps hs)))
  · exact setTmp_keeps (raise_keeps (rejectIndex_keeps hs))
theorem disablePorts_keeps {ps} (hs : Keeps s₀ s) : Keeps s₀ (disablePorts s ps) :=
  forEach_keeps (fun _ _ hu => .ite hu (portDisable_keeps (disableFn_keeps (setTmp_keeps hu)))) hs
theorem tmpVerify_keeps (hs : Keeps s₀ s) : Keeps s₀ (tmpVerify s) := by
  unfold tmpVerify
  refine .ite hs ?_
  split
  · exact tmpReject_keeps hs
  · exact disablePorts_keeps (forEach_keeps (fun _ _ hu => .ite (setTmp_keeps (setHctl_keeps hu)) hu) (setTmp_keeps hs))
theorem tmpQuiesced_keeps (hs : Keeps s₀ s) : Keeps s₀ (tmpQuiesced s) := by
  unfold tmpQuiesced
  split
  · exact .ite hs (.ite (disablePorts_keeps hs) (.ite (tmpReject_keeps (disablePorts_keeps hs))
      (.ite (tmpReject_keeps (disablePorts_keeps hs)) (setTmp_keeps
      (.maybe (applyCfg_keeps (disablePorts_keeps hs)) (fun h1 => forEach_keeps (fun _ _ => modRun_keeps) h1))))))
  · exact hs
theorem tmpTimeout_keeps (hs : Keeps s₀ s) : Keeps s₀ (tmpTimeout s) := .ite (tmpReject_keeps hs) hs
theorem measure_keeps {i v} (hs : Keeps s₀ s) : Keeps s₀ (measure s i v) := .update hs
theorem tmpDurable_keeps {ok} (hs : Keeps s₀ s) : Keeps s₀ (tmpDurable s ok) :=
  .ite hs (releaseUnits_keeps (setTmp_keeps (mbxOutcome_keeps (.ite
    (setTmp_keeps (tmpRecord_keeps (forEach_keeps (fun _ _ => measure_keeps)
    (.unless (forEach_keeps (fun _ _ hu => .ite (modRun_keeps hu) hu) (setTmp_keeps hs)) measure_keeps))))
    (setTmp_keeps (tmpRecord_keeps (tmpRecord_keeps (forEach_keeps (fun _ _ => measure_keeps)
    (.unless (forEach_keeps (fun _ _ hu => .ite (modRun_keeps hu) hu) (setTmp_keeps hs)) measure_keeps)))))))))
theorem stagedCommit_keeps (hs : Keeps s₀ s) : Keeps s₀ (stagedCommit s) := .ite (setTmp_keeps hs) hs
theorem ctlCommit_keeps {a} (hs : Keeps s₀ s) : Keeps s₀ (ctlCommit s a) := by
  unfold ctlCommit
  refine .ite (stagedCommit_keeps hs) ?_
  split
  · exact .ite hs (misuse_keeps hs)
  · exact misuse_keeps hs
theorem stagedTimeout_keeps (hs : Keeps s₀ s) : Keeps s₀ (stagedTimeout s) := .ite (stagedCommit_keeps hs) hs
theorem execTemperVerify_keeps (hs : Keeps s₀ s) : Answers s₀ (execTemperVerify s) := .next (tmpVerify_keeps hs)
theorem execTemperQuiesced_keeps (hs : Keeps s₀ s) : Answers s₀ (execTemperQuiesced s) := .next (tmpQuiesced_keeps hs)
theorem execTmpQuiesce_keeps (hs : Keeps s₀ s) : Answers s₀ (execTmpQuiesce s) := .next (tmpTimeout_keeps hs)
theorem execTemperDurable_keeps {ok} (hs : Keeps s₀ s) : Answers s₀ (execTemperDurable ok s) := .next (tmpDurable_keeps hs)
theorem execTmpCtlCommit_keeps {a} (hs : Keeps s₀ s) : Answers s₀ (execTmpCtlCommit a s) := .next (ctlCommit_keeps hs)
theorem execStagedTimeout_keeps (hs : Keeps s₀ s) : Answers s₀ (execStagedTimeout s) := .next (stagedTimeout_keeps hs)

/-! ### Power, clocks and boot -/

theorem setLentBit_keeps {t b} (hs : Keeps s₀ s) : Keeps s₀ (setLentBit s t b) := modPwr_keeps hs
theorem budgetLend_keeps {t} (hs : Keeps s₀ s) : Keeps s₀ (budgetLend s t) := by
  unfold budgetLend
  split
  · exact .ite (recompute_keeps (setLentBit_keeps (modPwr_keeps (modTile_keeps hs)))) hs
  · exact hs
theorem budgetReclaim_keeps {t} (hs : Keeps s₀ s) : Keeps s₀ (budgetReclaim s t) := by
  unfold budgetReclaim
  refine .ite hs (.unless (.ite ?_ hs) (fun h1 => setLentBit_keeps (modPwr_keeps (modTile_keeps h1))))
  dsimp only
  split
  · exact reclaim_keeps (modPwr_keeps hs)
  · exact recompute_keeps (modPwr_keeps hs)
theorem coreStep_keeps {t} (hs : Keeps s₀ s) : Keeps s₀ (coreStep s t) := .ite (modPwr_keeps hs) hs
theorem setVin_keeps {v} (hs : Keeps s₀ s) : Keeps s₀ (setVin s v) := modPwr_keeps hs
theorem downFor_keeps {code detail} (hs : Keeps s₀ s) : Keeps s₀ (downFor s code detail) :=
  raise_keeps (.ite hs (powerDown_keeps hs))
theorem pwrInput_keeps {v} (hs : Keeps s₀ s) : Keeps s₀ (pwrInput s v) :=
  .ite (modPwr_keeps (setVin_keeps (downFor_keeps hs))) (.ite (setVin_keeps (downFor_keeps hs)) (setVin_keeps hs))
theorem inputSag_keeps {v} (hs : Keeps s₀ s) : Keeps s₀ (inputSag s v) :=
  .ite (.maybe (setVin_keeps hs) (fun h1 => recompute_keeps (modPwr_keeps h1)))
    (.unless (setVin_keeps hs) (fun h1 => recompute_keeps (raise_keeps (modPwr_keeps h1))))
theorem pwrOver_keeps {watts} (hs : Keeps s₀ s) : Keeps s₀ (pwrOver s watts) :=
  .maybe (modPwr_keeps hs) (fun h1 => recompute_keeps (emergency_keeps h1))
theorem pwrTherm_keeps {tj} (hs : Keeps s₀ s) : Keeps s₀ (pwrTherm s tj) :=
  .ite (downFor_keeps (modPwr_keeps hs)) (.maybe (modPwr_keeps hs) (fun h1 => recompute_keeps (emergency_keeps h1)))
theorem emergencyEnd_keeps {code} (hs : Keeps s₀ s) : Keeps s₀ (emergencyEnd s code) := by
  unfold emergencyEnd
  split
  · exact .ite (recompute_keeps (.unless (modPwr_keeps hs) (fun h1 => forEach_keeps (fun _ _ => endCause_keeps) h1))) hs
  · exact hs
theorem linkDown_keeps (hs : Keeps s₀ s) : Keeps s₀ (linkDown s) :=
  .ite hs (raise_keeps (temperFns_keeps (.update (forEach_keeps (fun _ _ => ownerGone_keeps) hs))))
theorem stopWork_keeps {f} (hs : Keeps s₀ s) : Keeps s₀ (stopWork s f) :=
  .ite (haltTile_keeps hs) (.ite (.update (hobItems_keeps (ownerGone_keeps hs)))
    (.ite (portDisable_keeps hs) (.ite (linkDown_keeps hs) hs)))
theorem functionEnable_keeps {f} (hs : Keeps s₀ s) : Keeps s₀ (functionEnable s f) :=
  .ite hs (startFn_keeps (noteEnable_keeps hs))
theorem functionDisable_keeps {f} (hs : Keeps s₀ s) : Keeps s₀ (functionDisable s f) :=
  .maybe (disableFn_keeps hs) stopWork_keeps
theorem functionStarted_keeps {f} (hs : Keeps s₀ s) : Keeps s₀ (functionStarted s f) :=
  .ite (.ite (.update (setFn_keeps hs)) (.maybe (setFn_keeps hs) modLgr_keeps)) hs
theorem functionStopped_keeps {f} (hs : Keeps s₀ s) : Keeps s₀ (functionStopped s f) :=
  .ite (.maybe (.maybe (setFn_keeps hs) modLgr_keeps) startWork_keeps) hs
theorem bootStops_keeps {n} (hs : Keeps s₀ s) : Keeps s₀ (bootStops s n) := raise_keeps (modPwr_keeps hs)
theorem failFn_keeps {f} (hs : Keeps s₀ s) : Keeps s₀ (failFn s f) := raise_keeps (modPwr_keeps (setFn_keeps hs))
theorem bootTemper_keeps (hs : Keeps s₀ s) : Keeps s₀ (bootTemper s) := by
  unfold bootTemper
  exact recompute_keeps (.unless (forEach_keeps (fun _ _ hu => .ite (modRun_keeps (temperRegs_keeps (temperHearth_keeps hu)))
    hu) (forEach_keeps (fun _ _ => temperQueue_keeps) (forEach_keeps (fun _ _ hu => .maybe (temperTile_keeps hu) setFn_keeps)
    (temperLink_keeps (temperDevice_keeps (setTmp_keeps hs)))))) (fun h1 => raise_keeps (setTmp_keeps h1)))
theorem bootWork_keeps {n} (hs : Keeps s₀ s) : Keeps s₀ (bootWork s n) := by
  unfold bootWork
  dsimp only
  split
  · exact .update (modPwr_keeps (calCheck_keeps (forEach_keeps (fun _ _ => startFn_keeps) hs)))
  · exact modPwr_keeps (forEach_keeps (fun _ _ => startFn_keeps) hs)
  · exact zeroRange_keeps (forEach_keeps (fun _ _ => modPool_keeps) (forEach_keeps (fun _ _ => startFn_keeps) hs))
  · exact bootTemper_keeps (forEach_keeps (fun _ _ => startFn_keeps) hs)
  · exact .ite (forEach_keeps (fun _ _ hu => .ite (setQ_keeps hu) hu) (forEach_keeps (fun _ _ => startFn_keeps) hs))
      (bootStops_keeps (forEach_keeps (fun _ _ => startFn_keeps) hs))
  · exact forEach_keeps (fun _ _ => startFn_keeps) hs
theorem boot_keeps {ok} (hs : Keeps s₀ s) : Keeps s₀ (boot s ok) := by
  unfold boot
  refine .ite hs (.ite ?_ ?_)
  · split
    · exact .ite hs (.maybe (bootWork_keeps (modPwr_keeps (.ite (countReset_keeps (modPwr_keeps hs)) hs))) modPwr_keeps)
    · exact hs
  · split
    · exact .maybe (forEach_keeps (fun _ _ => failFn_keeps) hs) bootStops_keeps
    · split
      · exact bootStops_keeps hs
      · exact hs
theorem functionFails_keeps {f} (hs : Keeps s₀ s) : Keeps s₀ (functionFails s f) := by
  unfold functionFails
  refine .ite ?_ hs
  refine .ite ?_ (failFn_keeps hs)
  split
  · exact bootStops_keeps (failFn_keeps hs)
  · exact failFn_keeps hs
theorem railGood_keeps (hs : Keeps s₀ s) : Keeps s₀ (railGood s) := by
  unfold railGood
  refine .ite hs ?_
  split
  · exact modPwr_keeps hs
  · exact hs
theorem railFails_keeps {rail} (hs : Keeps s₀ s) : Keeps s₀ (railFails s rail) := .ite hs (downFor_keeps hs)
theorem pllLost_keeps (hs : Keeps s₀ s) : Keeps s₀ (pllLost s) := .ite hs (raise_keeps (modPwr_keeps (deviceCold_keeps hs)))
theorem refAbsent_keeps {absent} (hs : Keeps s₀ s) : Keeps s₀ (refAbsent s absent) := .ite hs (raise_keeps (modPwr_keeps hs))
theorem leak_keeps (hs : Keeps s₀ s) : Keeps s₀ (leak s) := modPwr_keeps (downFor_keeps hs)
theorem plate_keeps {t} (hs : Keeps s₀ s) : Keeps s₀ (plate s t).2.2 := by
  unfold plate
  dsimp only
  split
  · exact .snd hs
  · exact .snd (draw_keeps hs)
theorem coolant_keeps {tin tout} (hs : Keeps s₀ s) : Keeps s₀ (coolant s tin tout) := by
  have raised {c : Prop} [Decidable c] {u g k d h a} (hu : Keeps s₀ u) : Keeps s₀ (if c then raise u g k d h a else u) :=
    .ite (raise_keeps hu) hu
  have silent {c : Prop} [Decidable c] {u g k d h a} (hu : Keeps s₀ u) : Keeps s₀ (if c then u else raise u g k d h a) :=
    .ite hu (raise_keeps hu)
  exact silent (silent (raised (raised (modPwr_keeps (plate_keeps (plate_keeps hs))))))
theorem execBudgetLend_keeps {t} (hs : Keeps s₀ s) : Answers s₀ (execBudgetLend t s) := .next (budgetLend_keeps hs)
theorem execBudgetReclaim_keeps {t} (hs : Keeps s₀ s) : Answers s₀ (execBudgetReclaim t s) := .next (budgetReclaim_keeps hs)
theorem execCoreStepChange_keeps {t} (hs : Keeps s₀ s) : Answers s₀ (execCoreStepChange t s) := .next (coreStep_keeps hs)
theorem execPwrPll_keeps (hs : Keeps s₀ s) : Answers s₀ (execPwrPll s) := .next (pllLost_keeps hs)
theorem execPwrRef_keeps {absent} (hs : Keeps s₀ s) : Answers s₀ (execPwrRef absent s) := .next (refAbsent_keeps hs)
theorem execRailPowerGood_keeps (hs : Keeps s₀ s) : Answers s₀ (execRailPowerGood s) := .next (railGood_keeps hs)
theorem execPwrRail_keeps {rail} (hs : Keeps s₀ s) : Answers s₀ (execPwrRail rail s) := .next (railFails_keeps hs)
theorem execPwrInput_keeps {v} (hs : Keeps s₀ s) : Answers s₀ (execPwrInput v s) := .next (pwrInput_keeps hs)
theorem execInputSag_keeps {v} (hs : Keeps s₀ s) : Answers s₀ (execInputSag v s) := .next (inputSag_keeps hs)
theorem execPowerRecompute_keeps (hs : Keeps s₀ s) : Answers s₀ (execPowerRecompute s) := .next (recompute_keeps hs)
theorem execPwrOver_keeps {watts} (hs : Keeps s₀ s) : Answers s₀ (execPwrOver watts s) := .next (pwrOver_keeps hs)
theorem execPwrTherm_keeps {tj} (hs : Keeps s₀ s) : Answers s₀ (execPwrTherm tj s) := .next (pwrTherm_keeps hs)
theorem execEmergencyEnd_keeps {code} (hs : Keeps s₀ s) : Answers s₀ (execEmergencyEnd code s) :=
  .next (emergencyEnd_keeps hs)
theorem execFunctionEnable_keeps {f} (hs : Keeps s₀ s) : Answers s₀ (execFunctionEnable f s) :=
  .next (functionEnable_keeps hs)
theorem execFunctionDisable_keeps {f} (hs : Keeps s₀ s) : Answers s₀ (execFunctionDisable f s) :=
  .next (functionDisable_keeps hs)
theorem execFunctionStartComplete_keeps {f} (hs : Keeps s₀ s) : Answers s₀ (execFunctionStartComplete f s) :=
  .next (functionStarted_keeps hs)
theorem execPwrFnfail_keeps {f} (hs : Keeps s₀ s) : Answers s₀ (execPwrFnfail f s) := .next (functionFails_keeps hs)
theorem execFunctionShutdownComplete_keeps {f} (hs : Keeps s₀ s) : Answers s₀ (execFunctionShutdownComplete f s) :=
  .next (functionStopped_keeps hs)
theorem execBoot_keeps {ok} (hs : Keeps s₀ s) : Answers s₀ (execBoot ok s) := .next (boot_keeps hs)
theorem execPwrLeak_keeps (hs : Keeps s₀ s) : Answers s₀ (execPwrLeak s) := .next (leak_keeps hs)
theorem execCoolantSample_keeps {tin tout} (hs : Keeps s₀ s) : Answers s₀ (execCoolantSample tin tout s) :=
  .next (coolant_keeps hs)

/-! ### The Stoker -/

theorem modStoker_keeps {f} (hs : Keeps s₀ s) : Keeps s₀ (modStoker s f) := .update hs
theorem checkpoint_keeps (hs : Keeps s₀ s) : Keeps s₀ (checkpoint s) := by
  unfold checkpoint
  split
  · exact modStoker_keeps hs
  · exact hs
theorem auditAdd_keeps {keyid role action result h req arg} (hs : Keeps s₀ s) :
    Keeps s₀ (auditAdd s keyid role action result h req arg) :=
  .maybe (modStoker_keeps hs) checkpoint_keeps
theorem auditCheckpoint_keeps (hs : Keeps s₀ s) : Keeps s₀ (auditCheckpoint s) := .ite (checkpoint_keeps hs) hs
theorem act_keeps {r x} (hx : ∀ u, Keeps s₀ u → Keeps s₀ (x.effect u)) (hs : Keeps s₀ s) : Keeps s₀ (act s r x) :=
  .ite hs (.ite (raise_keeps hs) (.ite (hx _ (auditAdd_keeps hs)) (raise_keeps (auditAdd_keeps hs))))
theorem setSlot_keeps {kind b x} (hs : Keeps s₀ s) : Keeps s₀ (setSlot s kind b x) := modStoker_keeps hs
theorem fwLoad_keeps {r img} (hs : Keeps s₀ s) : Keeps s₀ (fwLoad s r img) :=
  act_keeps (fun _ hu => .ite (setSlot_keeps hu) (raise_keeps (.ite (setSlot_keeps hu) hu))) hs
theorem activate_keeps {kind b} (hs : Keeps s₀ s) : Keeps s₀ (activate s kind b) := by
  unfold activate
  exact modStoker_keeps hs
theorem fwActivate_keeps {r kind b} (hs : Keeps s₀ s) : Keeps s₀ (fwActivate s r kind b) :=
  act_keeps (fun _ hu => .ite hu (.ite (modStoker_keeps (raise_keeps (activate_keeps hu)))
    (.maybe (raise_keeps (activate_keeps hu)) modStoker_keeps))) hs
theorem stkRestart_keeps {sa} (hs : Keeps s₀ s) : Keeps s₀ (stkRestart s sa) := raise_keeps (modStoker_keeps hs)
theorem slotFallback_keeps (hs : Keeps s₀ s) : Keeps s₀ (slotFallback s) :=
  .ite hs (.ite (raise_keeps (raise_keeps (modStoker_keeps (activate_keeps hs)))) (modStoker_keeps hs))
theorem setFactory_keeps {b} (hs : Keeps s₀ s) : Keeps s₀ (setFactory s b) := modStoker_keeps hs
theorem keyEnrol_keeps {r keyid operator mask} (hs : Keeps s₀ s) : Keeps s₀ (keyEnrol s r keyid operator mask) :=
  act_keeps (fun _ hu => .ite (raise_keeps (setFactory_keeps (modStoker_keeps hu))) (.ite (raise_keeps hu) hu)) hs
theorem keyRevoke_keeps {r keyid} (hs : Keeps s₀ s) : Keeps s₀ (keyRevoke s r keyid) :=
  act_keeps (fun _ hu => .ite (raise_keeps (modStoker_keeps hu)) (.ite (raise_keeps hu) hu)) hs
theorem release_keeps {r} (hs : Keeps s₀ s) : Keeps s₀ (release s r) := by
  unfold release
  refine act_keeps ?_ hs
  intro _ hu
  dsimp only
  exact raise_keeps (deviceCold_keeps (.update (setFactory_keeps (modStoker_keeps hu))))
theorem temperSubmit_keeps {r image} (hs : Keeps s₀ s) : Keeps s₀ (temperSubmit s r image) :=
  act_keeps (fun _ => tmpSubmit_keeps) hs
theorem calSet_keeps {r cal} (hs : Keeps s₀ s) : Keeps s₀ (calSet s r cal) := by
  unfold calSet
  refine act_keeps ?_ hs
  intro _ hu
  dsimp only
  exact raise_keeps (anchorWrite_keeps (modStoker_keeps hu))
theorem classReset_keeps {r u} (hs : Keeps s₀ s) : Keeps s₀ (classReset s r u) :=
  act_keeps (fun _ hu => .ite (setExcl_keeps (setClass_keeps hu)) hu) hs
theorem settings_keeps {r address c0 c1 trw ueth} (hs : Keeps s₀ s) : Keeps s₀ (settings s r address c0 c1 trw ueth) := by
  unfold settings
  refine act_keeps ?_ hs
  intro _ hu
  dsimp only
  exact modStoker_keeps hu
theorem resetDevice_keeps {r kind} (hs : Keeps s₀ s) : Keeps s₀ (resetDevice s r kind) := by
  unfold resetDevice
  refine act_keeps ?_ hs
  intro _ hu
  dsimp only
  split
  · exact deviceCold_keeps hu
  · exact .ite (deviceCold_keeps hu) (deviceWarm_keeps hu)
theorem resetHearth_keeps {r h kind} (hs : Keeps s₀ s) : Keeps s₀ (resetHearth s r h kind) :=
  act_keeps (fun _ => hearthReset_keeps) hs
theorem preemptAct_keeps {r h resume} (hs : Keeps s₀ s) : Keeps s₀ (preemptAct s r h resume) :=
  act_keeps (fun _ hu => .ite (hctlResume_keeps hu) (hctlPreempt_keeps hu)) hs
theorem debugOpen_keeps (hs : Keeps s₀ s) : Keeps s₀ (debugOpen s) := raise_keeps (auditAdd_keeps (modStoker_keeps hs))
theorem dbgnowClear_keeps (hs : Keeps s₀ s) : Keeps s₀ (dbgnowClear s) := modStoker_keeps hs
theorem quote_keeps {nonce} (hs : Keeps s₀ s) : Keeps s₀ (quote s nonce) := .ite (emit_keeps hs) hs
theorem smbusRead_keeps {item} (hs : Keeps s₀ s) : Keeps s₀ (smbusRead s item) := .ite hs (emit_keeps hs)
theorem execFwLoad_keeps {r img} (hs : Keeps s₀ s) : Answers s₀ (execFwLoad r img s) := .next (fwLoad_keeps hs)
theorem execFwActivate_keeps {r kind b} (hs : Keeps s₀ s) : Answers s₀ (execFwActivate r kind b s) :=
  .next (fwActivate_keeps hs)
theorem execTemperSubmit_keeps {r image} (hs : Keeps s₀ s) : Answers s₀ (execTemperSubmit r image s) :=
  .next (temperSubmit_keeps hs)
theorem execKeyEnrol_keeps {r keyid operator mask} (hs : Keeps s₀ s) : Answers s₀ (execKeyEnrol r keyid operator mask s) :=
  .next (keyEnrol_keeps hs)
theorem execKeyRevoke_keeps {r keyid} (hs : Keeps s₀ s) : Answers s₀ (execKeyRevoke r keyid s) := .next (keyRevoke_keeps hs)
theorem execCalSet_keeps {r cal} (hs : Keeps s₀ s) : Answers s₀ (execCalSet r cal s) := .next (calSet_keeps hs)
theorem execClassReset_keeps {r u} (hs : Keeps s₀ s) : Answers s₀ (execClassReset r u s) := .next (classReset_keeps hs)
theorem execSettings_keeps {r address c0 c1 trw ueth} (hs : Keeps s₀ s) :
    Answers s₀ (execSettings r address c0 c1 trw ueth s) :=
  .next (settings_keeps hs)
theorem execResetDevice_keeps {r kind} (hs : Keeps s₀ s) : Answers s₀ (execResetDevice r kind s) :=
  .next (resetDevice_keeps hs)
theorem execResetHearth_keeps {r h kind} (hs : Keeps s₀ s) : Answers s₀ (execResetHearth r h kind s) :=
  .next (resetHearth_keeps hs)
theorem execPreempt_keeps {r h resume} (hs : Keeps s₀ s) : Answers s₀ (execPreempt r h resume s) :=
  .next (preemptAct_keeps hs)
theorem execRelease_keeps {r} (hs : Keeps s₀ s) : Answers s₀ (execRelease r s) := .next (release_keeps hs)
theorem execDebugOpen_keeps (hs : Keeps s₀ s) : Answers s₀ (execDebugOpen s) := .next (debugOpen_keeps hs)
theorem execDbgnowClear_keeps (hs : Keeps s₀ s) : Answers s₀ (execDbgnowClear s) := .next (dbgnowClear_keeps hs)
theorem execAuditCheckpoint_keeps (hs : Keeps s₀ s) : Answers s₀ (execAuditCheckpoint s) := .next (auditCheckpoint_keeps hs)
theorem execQuote_keeps {nonce} (hs : Keeps s₀ s) : Answers s₀ (execQuote nonce s) := .next (quote_keeps hs)
theorem execSmbusRead_keeps {item} (hs : Keeps s₀ s) : Answers s₀ (execSmbusRead item s) := .next (smbusRead_keeps hs)
theorem execStkRestart_keeps {sa} (hs : Keeps s₀ s) : Answers s₀ (execStkRestart sa s) := .next (stkRestart_keeps hs)
theorem execStokerSlotFallback_keeps (hs : Keeps s₀ s) : Answers s₀ (execStokerSlotFallback s) :=
  .next (slotFallback_keeps hs)

/-! ### The host interface -/

theorem endFn_keeps {f} (hs : Keeps s₀ s) : Keeps s₀ (endFn s f) := .update (modFn_keeps (ownerGone_keeps hs))
theorem execPerst_keeps (hs : Keeps s₀ s) : Answers s₀ (execPerst s) := .next (linkDown_keeps hs)
theorem flitOf_keeps {speed} (hs : Keeps s₀ s) : Keeps s₀ (flitOf s speed).2 := by
  unfold flitOf
  split
  · exact .snd hs
  · split
    · exact .snd (draw_keeps hs)
    · exact .snd hs
theorem hostLinkUp_keeps {speed width} (hs : Keeps s₀ s) : Keeps s₀ (hostLinkUp s speed width) :=
  .ite hs (.maybe (emit_keeps (temperFns_keeps (.update (flitOf_keeps hs)))) raise_keeps)
theorem execHostLinkUp_keeps {speed width} (hs : Keeps s₀ s) : Answers s₀ (execHostLinkUp speed width s) :=
  .next (hostLinkUp_keeps hs)
theorem flr_keeps {f} (hs : Keeps s₀ s) : Keeps s₀ (flr s f) := by
  unfold flr
  refine .ite hs (raise_keeps ?_)
  refine temperFns_keeps ?_
  split
  · exact hearthReset_keeps (endFn_keeps hs)
  · exact endFn_keeps hs
theorem execFlr_keeps {f} (hs : Keeps s₀ s) : Answers s₀ (execFlr f s) := .next (flr_keeps hs)
theorem vfEnable_keeps (hs : Keeps s₀ s) : Keeps s₀ (vfEnable s) := .ite (temperFns_keeps (.update hs)) hs
theorem execVfEnable_keeps (hs : Keeps s₀ s) : Answers s₀ (execVfEnable s) := .next (vfEnable_keeps hs)
theorem vfEnableClear_keeps (hs : Keeps s₀ s) : Keeps s₀ (vfEnableClear s) :=
  .ite (temperFns_keeps (.update (forEach_keeps (fun _ _ => endFn_keeps) hs))) hs
theorem execVfEnableClear_keeps (hs : Keeps s₀ s) : Answers s₀ (execVfEnableClear s) := .next (vfEnableClear_keeps hs)
theorem d3hot_keeps {f enter} (hs : Keeps s₀ s) : Keeps s₀ (d3hot s f enter) := .ite (modFn_keeps hs) hs
theorem execD3hot_keeps {f enter} (hs : Keeps s₀ s) : Answers s₀ (execD3hot f enter s) := .next (d3hot_keeps hs)
theorem ideFails_keeps {i} (hs : Keeps s₀ s) : Keeps s₀ (ideFails s i) := .ite (raise_keeps (.update hs)) hs
theorem execHifIde_keeps {stream} (hs : Keeps s₀ s) : Answers s₀ (execHifIde stream s) := .next (ideFails_keeps hs)
theorem ideKm_keeps {i f} (hs : Keeps s₀ s) : Keeps s₀ (ideKm s i f) := .ite (.update hs) hs
theorem execIdeKm_keeps {stream f} (hs : Keeps s₀ s) : Answers s₀ (execIdeKm stream f s) := .next (ideKm_keeps hs)
theorem mbxAudit_keeps {result b} (hs : Keeps s₀ s) : Keeps s₀ (mbxAudit s result b) := auditAdd_keeps hs
theorem go_keeps {f image} (hs : Keeps s₀ s) : Keeps s₀ (go s f image) := by
  unfold go
  refine .ite hs (.ite (raise_keeps hs) (.ite (hostReq_keeps hs)
    (.ite ?_ (tmpSubmit_keeps (modFn_keeps (mbxAudit_keeps hs))))))
  exact modFn_keeps (setTmp_keeps (raise_keeps (rejectIndex_keeps (idx := none) (mbxAudit_keeps hs))))
theorem execGo_keeps {f image} (hs : Keeps s₀ s) : Answers s₀ (execGo f image s) := .next (go_keeps hs)

end Sys2Proof.Machine
end

section
/-! What accesses to registers and memory keep; every command is carried out and keeps the queue (00, R2). -/

namespace Sys2Proof.Machine

variable {s₀ s n : State} {α β ε : Type}

/-! ### Pages of the key-value cache -/

theorem walkRead_keeps {h a n ea hint} (hs : Keeps s₀ s) :
    ExcKeeps s₀ (PlanKeeps s₀) Prod.snd (walkRead s h a n ea hint) := by
  unfold walkRead
  split
  · exact hs
  · exact .ite (Keeps.snd ((devRead_keeps hs).get ‹_›)) trivial
theorem readEntry_keeps {h a} (hs : Keeps s₀ s) : ExcKeeps s₀ (PlanKeeps s₀) Prod.snd (readEntry s h a) := walkRead_keeps hs
theorem walkWrite_keeps {h a bs} (hs : Keeps s₀ s) : ExcKeeps s₀ (PlanKeeps s₀) id (walkWrite s h a bs) := by
  unfold walkWrite
  split
  · exact hs
  · exact (devWrite_keeps hs).get ‹_›
theorem writeEntry_keeps {h a e} (hs : Keeps s₀ s) : ExcKeeps s₀ (PlanKeeps s₀) id (writeEntry s h a e) := walkWrite_keeps hs
theorem modMem_keeps {h f} (hs : Keeps s₀ s) : Keeps s₀ (modMem s h f) := modHearth_keeps hs
theorem popFree_keeps {h} (hs : Keeps s₀ s) : ExcKeeps s₀ (PlanKeeps s₀) Prod.snd (popFree s h) :=
  .ite trivial (.ite trivial (.bind (π := Prod.snd) (walkRead_keeps hs) (fun _ hu => Keeps.snd (modMem_keeps hu))))
theorem setRc_keeps {h f v} (hs : Keeps s₀ s) : ExcKeeps s₀ (PlanKeeps s₀) id (setRc s h f v) := walkWrite_keeps hs
theorem incFrame_keeps {h f ea} (hs : Keeps s₀ s) : ExcKeeps s₀ (PlanKeeps s₀) id (incFrame s h f ea) :=
  .ite trivial (.bind (π := Prod.snd) (walkRead_keeps hs) (fun _ hu => .ite trivial (setRc_keeps hu)))
theorem decFrame_keeps {h f ea} (hs : Keeps s₀ s) : ExcKeeps s₀ (PlanKeeps s₀) id (decFrame s h f ea) :=
  .ite trivial (.bind (π := Prod.snd) (walkRead_keeps hs) (fun _ hu => .ite trivial
    (.ite (setRc_keeps hu) (.ite trivial (.ite trivial (.bind (π := id) (setRc_keeps hu)
    (fun _ hv => .bind (π := id) (walkWrite_keeps hv) (fun _ => modMem_keeps))))))))
theorem copyBytes_keeps {h src dst n} (hs : Keeps s₀ s) : ExcKeeps s₀ (PlanKeeps s₀) id (copyBytes s h src dst n) := by
  unfold copyBytes
  split
  · exact hs
  · exact (devCopy_keeps hs).get ‹_›
theorem newFrame_keeps {h k from' rows ea} (hs : Keeps s₀ s) :
    ExcKeeps s₀ (PlanKeeps s₀) Prod.snd (newFrame s h k from' rows ea) := by
  unfold newFrame
  refine .bind (π := Prod.snd) (popFree_keeps hs) ?_
  intro _ hu
  refine .ite trivial (.bind (π := id) (walkWrite_keeps hu) ?_)
  intro _ hv
  refine .bind (π := id) (setRc_keeps hv) ?_
  intro _ hw
  split
  · exact Keeps.snd hw
  · exact .ite trivial (.bind (π := id) (copyBytes_keeps hw) (fun _ hx => .bind (π := id) (copyBytes_keeps hx)
      (fun _ hy => .bind (π := id) (decFrame_keeps (modMem_keeps hy)) (fun _ hz => Keeps.snd hz))))
theorem appendEntry_keeps {h k ea r e} (hs : Keeps s₀ s) :
    ExcKeeps s₀ (PlanKeeps s₀) (fun x : Nat × Nat × State => x.2.2) (appendEntry s h k ea r e) := by
  have checked {f : Nat → Nat} {p : Bool × Nat × Nat × State} (hp : Keeps s₀ p.2.2.2) :
      ExcKeeps s₀ (PlanKeeps s₀) (fun x : Nat × Nat × State => x.2.2)
        (if p.2.1 < r then .error (.fault kvGAP 0 ea)
        else if !frameOk p.2.2.2 h k p.2.2.1 then .error (.fault bRANGE 1 ea)
        else .ok (p.2.2.1, mkEntry p.1 (f p.2.1) p.2.2.1, p.2.2.2)) := .ite trivial (.ite trivial hp)
  unfold appendEntry
  refine .ite (.ite trivial (.bind (π := Prod.snd) (newFrame_keeps hs) (fun _ hu => ?_))) (.ite (.ite trivial (.ite trivial
    (.bind (π := Prod.snd) (newFrame_keeps hs) (fun _ hu => ?_)))) ?_)
  · exact checked (p := (_, _, _, _)) hu
  · exact checked (p := (_, _, _, _)) hu
  · exact checked (p := (_, _, _, _)) hs
theorem planOf_keeps {e : Except RowPlan α} {π : α → State} {f : α → RowPlan} (hs : Keeps s₀ s)
    (he : ExcKeeps s₀ (PlanKeeps s₀) π e) (hf : ∀ x, Keeps s₀ (π x) → PlanKeeps s₀ (f x)) : PlanKeeps s₀ (planOf s e f) := by
  unfold planOf
  split
  · exact hs
  · next p => exact he
  · next x => exact hf x he
theorem appendRow_keeps {th h k hint g x i aux} (hs : Keeps s₀ s) : PlanKeeps s₀ (appendRow th h k hint g x s i aux) :=
  .ite trivial (.ite trivial (.ite hs (planOf_keeps hs (.bind (π := Prod.snd) (readEntry_keeps hs)
    (fun _ => appendEntry_keeps)) (fun _ => modMem_keeps))))
theorem readRowOf_keeps {th h k val hint g x i aux} (hs : Keeps s₀ s) :
    PlanKeeps s₀ (readRowOf th h k val hint g x s i aux) := by
  unfold readRowOf
  refine .ite trivial (.ite trivial ?_)
  refine planOf_keeps hs ?_ (fun _ hu => .ite hu (.ite trivial hu))
  split
  · exact Keeps.snd hs
  · exact readEntry_keeps hs
theorem releaseEntry_keeps {h ea e} (hs : Keeps s₀ s) : ExcKeeps s₀ (PlanKeeps s₀) id (releaseEntry s h ea e) :=
  .ite (.bind (π := id) (decFrame_keeps hs) (fun _ => writeEntry_keeps)) hs
theorem releaseRow_keeps {th h k g x i aux} (hs : Keeps s₀ s) : PlanKeeps s₀ (releaseRow th h k g x s i aux) :=
  .ite trivial (.ite trivial (.ite hs (planOf_keeps hs (.bind (π := Prod.snd) (readEntry_keeps hs)
    (fun _ hu => .bind (π := id) (releaseEntry_keeps hu) (fun _ hv => Keeps.snd hv))) (fun _ hu => hu))))
theorem shareRow_keeps {th h k g x i aux} (hs : Keeps s₀ s) : PlanKeeps s₀ (shareRow th h k g x s i aux) := by
  unfold shareRow
  refine .ite trivial (.ite trivial (.ite hs (planOf_keeps (π := fun x : Nat × Nat × State => x.2.2) hs ?_ (fun _ hu => hu))))
  refine .bind (π := Prod.snd) (readEntry_keeps hs) (fun _ h1 => .ite ?_ ?_)
  · refine .bind (π := id) (incFrame_keeps h1) (fun _ h2 => ?_)
    refine .bind (π := id) (writeEntry_keeps h2) (fun _ h3 => ?_)
    refine .bind (π := Prod.snd) (readEntry_keeps h3) (fun _ h4 => ?_)
    refine .ite (.bind (π := id) (decFrame_keeps h4) (fun _ h5 => ?_)) (.bind (π := id) h4 (fun _ h5 => ?_)) <;>
      exact .bind (π := id) (writeEntry_keeps h5) (fun _ h6 => h6)
  · exact .bind (π := Prod.snd) (readEntry_keeps h1) (fun _ h2 => .bind (π := id) (releaseEntry_keeps h2) (fun _ h3 => h3))
theorem thRead_keeps {th val h x w} (hs : Keeps s₀ s) : TResKeeps s₀ (thRead th val s h x w) := by
  unfold thRead
  refine .ite hs (moveExec_keeps ?_ (fun _ _ _ _ _ => readRowOf_keeps) hs)
  intro _ _ _ hu
  dsimp only
  split
  · exact trivial
  · exact Keeps.fst hu
theorem thAppend_keeps {th h x w} (hs : Keeps s₀ s) : TResKeeps s₀ (thAppend th s h x w) :=
  .ite hs (moveExec_keeps (fun _ _ _ hu => Keeps.fst hu) (fun _ _ _ _ _ => appendRow_keeps) hs)
theorem thShare_keeps {th rel h x w} (hs : Keeps s₀ s) : TResKeeps s₀ (thShare th rel s h x w) := by
  unfold thShare
  refine .ite hs (moveExec_keeps (fun _ _ _ hu => hu) (fun _ _ _ _ _ hu => ?_) hs)
  dsimp only
  split
  · exact releaseRow_keeps hu
  · exact shareRow_keeps hu
theorem stallFault_keeps {th rel code} (hs : Keeps s₀ s) : Keeps s₀ (stallFault s th rel code) := by
  unfold stallFault
  split
  · split
    · exact .ite (thFault_keeps hs) hs
    · exact hs
  · exact hs
theorem ringResume_keeps {th} (hs : Keeps s₀ s) : Keeps s₀ (ringResume s th) := by
  unfold ringResume
  split
  · split
    · exact .ite hs (setThread_keeps hs)
    · exact hs
  · exact hs
theorem execReadk_keeps {th} (hs : Keeps s₀ s) : Answers s₀ (execReadk th s) :=
  .next (thRun_keeps (fun _ _ _ _ => thRead_keeps) hs)
theorem execReadv_keeps {th} (hs : Keeps s₀ s) : Answers s₀ (execReadv th s) :=
  .next (thRun_keeps (fun _ _ _ _ => thRead_keeps) hs)
theorem execAppend_keeps {th} (hs : Keeps s₀ s) : Answers s₀ (execAppend th s) :=
  .next (thRun_keeps (fun _ _ _ _ => thAppend_keeps) hs)
theorem execShare_keeps {th} (hs : Keeps s₀ s) : Answers s₀ (execShare th s) :=
  .next (thRun_keeps (fun _ _ _ _ => thShare_keeps) hs)
theorem execReleasePages_keeps {th} (hs : Keeps s₀ s) : Answers s₀ (execReleasePages th s) :=
  .next (thRun_keeps (fun _ _ _ _ => thShare_keeps) hs)
theorem execKvpNofree_keeps {th} (hs : Keeps s₀ s) : Answers s₀ (execKvpNofree th s) := .next (stallFault_keeps hs)
theorem execKvpRelfull_keeps {th} (hs : Keeps s₀ s) : Answers s₀ (execKvpRelfull th s) := .next (stallFault_keeps hs)
theorem execKvpRingResume_keeps {th} (hs : Keeps s₀ s) : Answers s₀ (execKvpRingResume th s) := .next (ringResume_keeps hs)

/-! ### Accesses to registers and memory -/

theorem regRead_keeps {a addr size} (hs : Keeps s₀ s) : Keeps s₀ (regRead s a addr size).2.2 := by
  unfold regRead
  dsimp only
  split
  · exact .snd (misuse_keeps hs)
  · split
    · exact .snd (misuse_keeps hs)
    · exact .snd hs
theorem csWrite_keeps {a t v en} (hs : Keeps s₀ s) : Keeps s₀ (csWrite s a t v en) :=
  tileWrite_keeps hs (fun _ hu => .maybe (.maybe (.ite (modBlw_keeps hu) hu)
    (fun h1 => .ite (csResume_keeps h1) (csFresh_keeps h1))) csStop_keeps)
theorem mtlWrite_keeps {a h v en} (hs : Keeps s₀ s) : Keeps s₀ (mtlWrite s a h v en) :=
  .ite hs (.ite (misuse_keeps hs) (.ite (mtlStart_keeps (writeFields_keeps hs))
    (.maybe (writeFields_keeps hs) mtlStart_keeps)))
theorem waitSlotWrite_keeps {a h o v en} (hs : Keeps s₀ s) : Keeps s₀ (waitSlotWrite s a h o v en) :=
  .ite (.ite (misuse_keeps hs) (writeFields_keeps hs)) (.maybe (.ite (armSlot_keeps hs) (writeFields_keeps hs))
    cancelSlot_keeps)
theorem headWrite_keeps {v} (hs : Keeps s₀ s) : Keeps s₀ (headWrite s v) := .ite (.update hs) hs
theorem pageWrite_keeps {a f o v en} (hs : Keeps s₀ s) : Keeps s₀ (pageWrite s a f o v en) := by
  unfold pageWrite
  refine .ite (misuse_keeps hs) (.ite hs (.ite (.ite ?_ hs) (writeFields_keeps hs)))
  exact go_keeps (hostBytes_keeps (n := fld (vget s.hif.fns f {}).mbx1 31 0) hs)
theorem freeTail_keeps {a h v} (hs : Keeps s₀ s) : Keeps s₀ (freeTail s a h v) := .ite (misuse_keeps hs) (modHearth_keeps hs)
theorem hearthWrite_keeps {a h o v en} (hs : Keeps s₀ s) : Keeps s₀ (hearthWrite s a h o v en) :=
  .ite (mtlWrite_keeps hs) (.ite (.ite (freeTail_keeps hs) hs) (.ite (.ite (softWrite_keeps hs) hs)
    (.ite (waitSlotWrite_keeps hs) (.ite (grpWrite_keeps hs) (.ite (.ite (flipGen_keeps hs) hs)
    (.ite (modChk_keeps hs) (.ite (.maybe (.ite (chkOpen_keeps hs) hs) chkClose_keeps) (writeFields_keeps hs))))))))
theorem locWrite_keeps {a l v en} (hs : Keeps s₀ s) : Keeps s₀ (locWrite s a l v en) := by
  unfold locWrite
  dsimp only
  split
  · exact tileWrite_keeps hs (fun _ => writeFields_keeps)
  · exact .ite (.ite (blwLaunch_keeps hs) hs) (.ite (csWrite_keeps hs) (tileWrite_keeps hs (fun _ => writeFields_keeps)))
  · exact hearthWrite_keeps hs
  · exact .ite (.ite (ringPost_keeps hs) hs) (.ite (.ite (ringRestart_keeps hs) hs) (writeFields_keeps hs))
  · exact .ite (synInc_keeps hs) (.ite (.ite (synOwn_keeps hs) hs) (writeFields_keeps hs))
  · exact .ite (.ite (tailWrite_keeps hs) hs) (.ite (retWrite_keeps hs) (.ite (.ite (queueResume_keeps hs) hs) hs))
  · exact .ite (.maybe (.ite (hctlPreempt_keeps hs) hs) hctlResume_keeps) (writeFields_keeps hs)
  · exact .ite (.ite (ctlCommit_keeps hs) hs) hs
  · exact pageWrite_keeps hs
  · exact writeFields_keeps hs
theorem stokerWrite_keeps {a l addr v en} (hs : Keeps s₀ s) : Keeps s₀ (stokerWrite s a l addr v en) :=
  .ite hs (.ite (misuse_keeps hs) (.ite (headWrite_keeps hs) (writeFields_keeps hs)))
theorem rwlWrite_keeps {a l addr v en} (hs : Keeps s₀ s) : Keeps s₀ (rwlWrite s a l addr v en) :=
  .ite hs (.ite (misuse_keeps hs) (writeFields_keeps hs))
theorem regWrite_keeps {a addr size value} (hs : Keeps s₀ s) : Keeps s₀ (regWrite s a addr size value) :=
  .ite (misuse_keeps hs) (.ite (misuse_keeps hs) (.ite (misuse_keeps hs)
    (locWrite_keeps (rwlWrite_keeps (stokerWrite_keeps hs)))))
theorem countPoison_keeps {a ps} (hs : Keeps s₀ s) : Keeps s₀ (countPoison s a ps) := by
  unfold countPoison
  split
  · exact .ite hs (modFn_keeps hs)
  · exact hs
theorem memAccess_keeps {a addr len wr data hint ecc} (hs : Keeps s₀ s) :
    Keeps s₀ (memAccess s a addr len wr data hint ecc) := by
  unfold memAccess
  refine .ite hs (.ite (.unless (misuse_keeps hs) emit_keeps) ?_)
  refine .ite (OptKeeps.getD (devWrite_keeps hs) (waitTile_keeps hs)) ?_
  split
  · exact emit_keeps (countPoison_keeps ((devRead_keeps hs).get ‹_›))
  · exact waitTile_keeps hs
theorem registerWrite_keeps {a addr size value} (hs : Keeps s₀ s) : Keeps s₀ (registerWrite s a addr size value) := by
  unfold registerWrite
  refine .ite hs ?_
  split
  · exact regWrite_keeps hs
  · exact memAccess_keeps hs
theorem execRegisterWrite_keeps {a addr size value} (hs : Keeps s₀ s) : Answers s₀ (execRegisterWrite a addr size value s) :=
  .next (registerWrite_keeps hs)
theorem regLoad_keeps {a addr n} (hs : Keeps s₀ s) : Keeps s₀ (regLoad s a addr n) := emit_keeps (regRead_keeps hs)
theorem memoryAccess_keeps {a addr len wr data hint ecc} (hs : Keeps s₀ s) :
    Keeps s₀ (memoryAccess s a addr len wr data hint ecc) := by
  unfold memoryAccess
  refine .ite hs ?_
  split
  · exact .ite (regWrite_keeps hs) (regLoad_keeps hs)
  · exact memAccess_keeps hs
theorem execMemoryAccess_keeps {a addr len wr data hint ecc} (hs : Keeps s₀ s) :
    Answers s₀ (execMemoryAccess a addr len wr data hint ecc s) :=
  .next (memoryAccess_keeps hs)
theorem barOk_keeps {f ide} (hs : Keeps s₀ s) : Keeps s₀ (barOk s f ide).2 := by
  unfold barOk
  dsimp only
  split
  · exact .snd hs
  · split
    · split
      · exact .snd hs
      · exact .snd (modFn_keeps hs)
    · split
      · exact .snd hs
      · exact .snd (modFn_keeps hs)
theorem msixAccess_keeps {f off size wr value} (hs : Keeps s₀ s) : Keeps s₀ (msixAccess s f off size wr value) :=
  .ite (modFn_keeps hs) (emit_keeps hs)
theorem noData_keeps {f addr size wr} (hs : Keeps s₀ s) : Keeps s₀ (noData s f addr size wr) := .ite hs (emit_keeps hs)
theorem barAccess_keeps {f bar off size wr value ide} (hs : Keeps s₀ s) :
    Keeps s₀ (barAccess s f bar off size wr value ide) :=
  .unless (barOk_keeps hs) (fun h1 => .ite (noData_keeps h1) (.ite (.ite (regWrite_keeps h1) (regLoad_keeps h1))
    (.ite (memAccess_keeps h1) (.maybe h1 msixAccess_keeps))))
theorem execBarAccess_keeps {f bar off size wr value ide} (hs : Keeps s₀ s) :
    Answers s₀ (execBarAccess f bar off size wr value ide s) :=
  .next (barAccess_keeps hs)

/-! ### Every command -/

/-- No command faults or is refused (log 9): each answers a state, which keeps what every operation keeps. -/
theorem exec_keeps (i : Instr) (hs : Keeps s₀ s) : Answers s₀ (exec i s) := by
  cases i with
  | registerWrite => exact execRegisterWrite_keeps hs
  | memoryAccess => exact execMemoryAccess_keeps hs
  | mmt => exact execMmt_keeps hs
  | ldp => exact execLdp_keeps hs
  | bld => exact execBld_keeps hs
  | bkt => exact execBkt_keeps hs
  | ldpLoadStart => exact execLdpLoadStart_keeps hs
  | bufferReady => exact execBufferReady_keeps hs
  | mmtRowEnter => exact execMmtRowEnter_keeps hs
  | mmtRowWrite => exact execMmtRowWrite_keeps hs
  | ageo => exact execAgeo_keeps hs
  | ageoApply => exact execAgeoApply_keeps hs
  | aini => exact execAini_keeps hs
  | aadd => exact execAadd_keeps hs
  | achn => exact execAchn_keeps hs
  | achnApply => exact execAchnApply_keeps hs
  | asnd => exact execAsnd_keeps hs
  | chainRowArrive => exact execChainRowArrive_keeps hs
  | chainSegmentHead => exact execChainSegmentHead_keeps hs
  | chainRowReserved => exact execChainRowReserved_keeps hs
  | accChaintmo => exact execAccChaintmo_keeps hs
  | wcf => exact execWcf_keeps hs
  | win => exact execWin_keeps hs
  | wcur => exact execWcur_keeps hs
  | winLineArrive => exact execWinLineArrive_keeps hs
  | vlen => exact execVlen_keeps hs
  | vadr => exact execVadr_keeps hs
  | vidx => exact execVidx_keeps hs
  | vld => exact execVld_keeps hs
  | vst => exact execVst_keeps hs
  | vstz => exact execVstz_keeps hs
  | epi => exact execEpi_keeps hs
  | vfa => exact execVfa_keeps hs
  | via => exact execVia_keeps hs
  | vcmp => exact execVcmp_keeps hs
  | vsel => exact execVsel_keeps hs
  | vcvt => exact execVcvt_keeps hs
  | vmsk => exact execVmsk_keeps hs
  | vperm => exact execVperm_keeps hs
  | vlsh => exact execVlsh_keeps hs
  | vcmpr => exact execVcmpr_keeps hs
  | vexpd => exact execVexpd_keeps hs
  | vred => exact execVred_keeps hs
  | vecRowComplete => exact execVecRowComplete_keeps hs
  | vstzFinish => exact execVstzFinish_keeps hs
  | sfn => exact execSfn_keeps hs
  | smx => exact execSmx_keeps hs
  | srs => exact execSrs_keeps hs
  | rst => exact execRst_keeps hs
  | mgn => exact execMgn_keeps hs
  | mps => exact execMps_keeps hs
  | dmk => exact execDmk_keeps hs
  | dmkTakeEffect => exact execDmkTakeEffect_keeps hs
  | dwt => exact execDwt_keeps hs
  | bln => exact execBln_keeps hs
  | blwLaunch => exact execBlwLaunch_keeps hs
  | landLate => exact execLandLate_keeps hs
  | li => exact execLi_keeps hs
  | lih => exact execLih_keeps hs
  | add => exact execAdd_keeps hs
  | addi => exact execAddi_keeps hs
  | sub => exact execSub_keeps hs
  | muli => exact execMuli_keeps hs
  | shli => exact execShli_keeps hs
  | shri => exact execShri_keeps hs
  | andi => exact execAndi_keeps hs
  | ldw => exact execLdw_keeps hs
  | loop => exact execLoop_keeps hs
  | endl => exact execEndl_keeps hs
  | bnz => exact execBnz_keeps hs
  | endT => exact execEndT_keeps hs
  | mwt => exact execMwt_keeps hs
  | fen => exact execFen_keeps hs
  | lnd => exact execLnd_keeps hs
  | cinc => exact execCinc_keeps hs
  | move => exact execMove_keeps hs
  | gath => exact execGath_keeps hs
  | mcst => exact execMcst_keeps hs
  | pft => exact execPft_keeps hs
  | readk => exact execReadk_keeps hs
  | readv => exact execReadv_keeps hs
  | append => exact execAppend_keeps hs
  | share => exact execShare_keeps hs
  | releasePages => exact execReleasePages_keeps hs
  | kvpNofree => exact execKvpNofree_keeps hs
  | kvpRelfull => exact execKvpRelfull_keeps hs
  | kvpRingResume => exact execKvpRingResume_keeps hs
  | zpk => exact execZpk_keeps hs
  | zup => exact execZup_keeps hs
  | ars => exact execArs_keeps hs
  | requestCommit => exact execRequestCommit_keeps hs
  | landingIncrement => exact execLandingIncrement_keeps hs
  | threadResume => exact execThreadResume_keeps hs
  | csFreshStart => exact execCsFreshStart_keeps hs
  | csResume => exact execCsResume_keeps hs
  | csStop => exact execCsStop_keeps hs
  | csDone => exact execCsDone_keeps hs
  | csWordIssue => exact execCsWordIssue_keeps hs
  | hearthHeld => exact execHearthHeld_keeps hs
  | hearthCausesClear => exact execHearthCausesClear_keeps hs
  | hearthResume => exact execHearthResume_keeps hs
  | schedStall => exact execSchedStall_keeps hs
  | hreq => exact execHreq_keeps hs
  | hrel => exact execHrel_keeps hs
  | sinc => exact execSinc_keeps hs
  | swat => exact execSwat_keeps hs
  | sbas => exact execSbas_keeps hs
  | sclm => exact execSclm_keeps hs
  | incrementApply => exact execIncrementApply_keeps hs
  | synInc => exact execSynInc_keeps hs
  | claim => exact execClaim_keeps hs
  | releaseOwner => exact execReleaseOwner_keeps hs
  | arm => exact execArm_keeps hs
  | cancel => exact execCancel_keeps hs
  | waitSatisfied => exact execWaitSatisfied_keeps hs
  | synTmo => exact execSynTmo_keeps hs
  | ownerLost => exact execOwnerLost_keeps hs
  | budgetLend => exact execBudgetLend_keeps hs
  | inc => exact execInc_keeps hs
  | pendingIncrementApply => exact execPendingIncrementApply_keeps hs
  | incrementAck => exact execIncrementAck_keeps hs
  | flitReceive => exact execFlitReceive_keeps hs
  | flitReplay => exact execFlitReplay_keeps hs
  | replayTimeout => exact execReplayTimeout_keeps hs
  | lnkLane => exact execLnkLane_keeps hs
  | lnkCredit => exact execLnkCredit_keeps hs
  | portEnable => exact execPortEnable_keeps hs
  | portDisable => exact execPortDisable_keeps hs
  | lanesLocked => exact execLanesLocked_keeps hs
  | lnkTrain => exact execLnkTrain_keeps hs
  | downRetry => exact execDownRetry_keeps hs
  | admitTimeout => exact execAdmitTimeout_keeps hs
  | rejectRetry => exact execRejectRetry_keeps hs
  | drainEnd => exact execDrainEnd_keeps hs
  | hello => exact execHello_keeps hs
  | hsk => exact execHsk_keeps hs
  | handshakeSignature => exact execHandshakeSignature_keeps hs
  | sessionOpen => exact execSessionOpen_keeps hs
  | sessionRekey => exact execSessionRekey_keeps hs
  | close => exact execClose_keeps hs
  | sessionEnd => exact execSessionEnd_keeps hs
  | write => exact execWrite_keeps hs
  | read => exact execRead_keeps hs
  | rdata => exact execRdata_keeps hs
  | ack => exact execAck_keeps hs
  | chain => exact execChain_keeps hs
  | flue => exact execFlue_keeps hs
  | coll => exact execColl_keeps hs
  | frameForward => exact execFrameForward_keeps hs
  | sendResend => exact execSendResend_keeps hs
  | sendTableSlotFree => exact execSendTableSlotFree_keeps hs
  | colRingPost => exact execColRingPost_keeps hs
  | descriptorTake => exact execDescriptorTake_keeps hs
  | free => exact execFree_keeps hs
  | restart => exact execRestart_keeps hs
  | colGrpWrite => exact execColGrpWrite_keeps hs
  | collectiveComplete => exact execCollectiveComplete_keeps hs
  | colTmo => exact execColTmo_keeps hs
  | flueBufferRelease => exact execFlueBufferRelease_keeps hs
  | pht => exact execPht_keeps hs
  | anchorWrite => exact execAnchorWrite_keeps hs
  | quenchChunk => exact execQuenchChunk_keeps hs
  | quenchBufferFree => exact execQuenchBufferFree_keeps hs
  | flip => exact execFlip_keeps hs
  | quenchRetract => exact execQuenchRetract_keeps hs
  | replayRow => exact execReplayRow_keeps hs
  | replayEnd => exact execReplayEnd_keeps hs
  | chkOpen => exact execChkOpen_keeps hs
  | chkClose => exact execChkClose_keeps hs
  | epochConfirm => exact execEpochConfirm_keeps hs
  | chkRetract => exact execChkRetract_keeps hs
  | noticeReceive => exact execNoticeReceive_keeps hs
  | noticeSendNext => exact execNoticeSendNext_keeps hs
  | chkUnresolved => exact execChkUnresolved_keeps hs
  | chkRefetch => exact execChkRefetch_keeps hs
  | chkRefail => exact execChkRefail_keeps hs
  | tsl => exact execTsl_keeps hs
  | sparkRound => exact execSparkRound_keeps hs
  | sparkDue => exact execSparkDue_keeps hs
  | chkOverdue => exact execChkOverdue_keeps hs
  | sparkCompare => exact execSparkCompare_keeps hs
  | chkClass => exact execChkClass_keeps hs
  | chkLost => exact execChkLost_keeps hs
  | recordForward => exact execRecordForward_keeps hs
  | stkFwdlost => exact execStkFwdlost_keeps hs
  | queueTailWrite => exact execQueueTailWrite_keeps hs
  | descriptorRead => exact execDescriptorRead_keeps hs
  | itemAccept => exact execItemAccept_keeps hs
  | itemStart => exact execItemStart_keeps hs
  | itemComplete => exact execItemComplete_keeps hs
  | lgrTimeout => exact execLgrTimeout_keeps hs
  | retWrite => exact execRetWrite_keeps hs
  | queueResume => exact execQueueResume_keeps hs
  | queueRecovery => exact execQueueRecovery_keeps hs
  | hctlPreempt => exact execHctlPreempt_keeps hs
  | hearthPreempted => exact execHearthPreempted_keeps hs
  | hctlResume => exact execHctlResume_keeps hs
  | temperVerify => exact execTemperVerify_keeps hs
  | temperQuiesced => exact execTemperQuiesced_keeps hs
  | tmpQuiesce => exact execTmpQuiesce_keeps hs
  | temperDurable => exact execTemperDurable_keeps hs
  | tmpCtlCommit => exact execTmpCtlCommit_keeps hs
  | stagedTimeout => exact execStagedTimeout_keeps hs
  | fwLoad => exact execFwLoad_keeps hs
  | fwActivate => exact execFwActivate_keeps hs
  | temperSubmit => exact execTemperSubmit_keeps hs
  | keyEnrol => exact execKeyEnrol_keeps hs
  | keyRevoke => exact execKeyRevoke_keeps hs
  | calSet => exact execCalSet_keeps hs
  | classReset => exact execClassReset_keeps hs
  | settings => exact execSettings_keeps hs
  | resetDevice => exact execResetDevice_keeps hs
  | resetHearth => exact execResetHearth_keeps hs
  | preempt => exact execPreempt_keeps hs
  | release => exact execRelease_keeps hs
  | debugOpen => exact execDebugOpen_keeps hs
  | dbgnowClear => exact execDbgnowClear_keeps hs
  | auditCheckpoint => exact execAuditCheckpoint_keeps hs
  | quote => exact execQuote_keeps hs
  | smbusRead => exact execSmbusRead_keeps hs
  | stkRestart => exact execStkRestart_keeps hs
  | stokerSlotFallback => exact execStokerSlotFallback_keeps hs
  | coreStepChange => exact execCoreStepChange_keeps hs
  | pwrPll => exact execPwrPll_keeps hs
  | pwrRef => exact execPwrRef_keeps hs
  | railPowerGood => exact execRailPowerGood_keeps hs
  | pwrRail => exact execPwrRail_keeps hs
  | pwrInput => exact execPwrInput_keeps hs
  | inputSag => exact execInputSag_keeps hs
  | powerRecompute => exact execPowerRecompute_keeps hs
  | budgetReclaim => exact execBudgetReclaim_keeps hs
  | pwrOver => exact execPwrOver_keeps hs
  | pwrTherm => exact execPwrTherm_keeps hs
  | emergencyEnd => exact execEmergencyEnd_keeps hs
  | functionEnable => exact execFunctionEnable_keeps hs
  | functionDisable => exact execFunctionDisable_keeps hs
  | functionStartComplete => exact execFunctionStartComplete_keeps hs
  | pwrFnfail => exact execPwrFnfail_keeps hs
  | functionShutdownComplete => exact execFunctionShutdownComplete_keeps hs
  | boot => exact execBoot_keeps hs
  | deviceColdReset => exact execDeviceColdReset_keeps hs
  | deviceWarmReset => exact execDeviceWarmReset_keeps hs
  | warmResetFallback => exact execWarmResetFallback_keeps hs
  | hearthWarmReset => exact execHearthWarmReset_keeps hs
  | hearthColdReset => exact execHearthColdReset_keeps hs
  | writeback => exact execWriteback_keeps hs
  | wbinv => exact execWbinv_keeps hs
  | mtlOpDone => exact execMtlOpDone_keeps hs
  | mantelVictimFound => exact execMantelVictimFound_keeps hs
  | mantelAgeTick => exact execMantelAgeTick_keeps hs
  | evictionWritebackEnd => exact execEvictionWritebackEnd_keeps hs
  | patrolScrub => exact execPatrolScrub_keeps hs
  | refreshWindow k ch => exact execRefreshWindow_keeps (k := k) (ch := ch) hs
  | recalibration => exact execRecalibration_keeps hs
  | damperSample => exact execDamperSample_keeps hs
  | perst => exact execPerst_keeps hs
  | hostLinkUp => exact execHostLinkUp_keeps hs
  | flr => exact execFlr_keeps hs
  | vfEnableClear => exact execVfEnableClear_keeps hs
  | barAccess => exact execBarAccess_keeps hs
  | go => exact execGo_keeps hs
  | hifIde => exact execHifIde_keeps hs
  | pwrLeak => exact execPwrLeak_keeps hs
  | coolantSample => exact execCoolantSample_keeps hs
  | accumulatorPipeRow => exact execAccumulatorPipeRow_keeps hs
  | stokerTakesNoRecord => exact execStokerTakesNoRecord_keeps hs
  | quenchTest => exact execQuenchTest_keeps hs
  | vfEnable => exact execVfEnable_keeps hs
  | d3hot => exact execD3hot_keeps hs
  | ideKm => exact execIdeKm_keeps hs

/-- Settles O59: what a command that is carried out answers has the queue that it found. -/
theorem everyCommandAnswersNext : Obligations.EveryCommandAnswersNext := by
  intro c s
  obtain ⟨n, e, h⟩ := exec_keeps c (Keeps.refl s)
  exact ⟨n, e, h.pending⟩

end Sys2Proof.Machine
end

section
/-! The parts of the state that an access to memory touches, from the pools and the check codes up to the entry of a phase window
(09, R207 to R214; 13, R331). -/

namespace Sys2Proof.Machine

variable {s : State} {ps : List Part}

/-! ### Frames of operations that may answer nothing -/

/-- Each state that an operation may answer differs from `s` in these parts alone. -/
def OptOnly (ps : List Part) (s : State) (o : Option State) : Prop := ∀ n, o = some n → Only ps s n

theorem OptOnly.none : OptOnly ps s none := by simp [OptOnly]
theorem OptOnly.some {n : State} (h : Only ps s n) : OptOnly ps s (some n) := by rintro _ ⟨⟩; exact h
theorem OptOnly.map {o : Option State} {f : State → State} (h : OptOnly ps s o) (hf : ∀ n, Only ps n (f n)) :
    OptOnly ps s (o.map f) := by
  intro m e
  obtain ⟨n, hn, rfl⟩ := Option.map_eq_some_iff.1 e
  exact (h n hn).trans (hf n)
theorem OptOnly.bind {o : Option State} {f : State → Option State} (h : OptOnly ps s o) (hf : ∀ n, OptOnly ps n (f n)) :
    OptOnly ps s (o.bind f) := by
  intro m e
  obtain ⟨n, hn, hm⟩ := Option.bind_eq_some_iff.1 e
  exact (h n hn).trans (hf n m hm)
theorem OptOnly.getD {o : Option State} {n : State} (h : OptOnly ps s o) (hn : Only ps s n) : Only ps s (o.getD n) := by
  cases o with
  | none => exact hn
  | some x => exact h x rfl

/-! ### Accesses to memory -/

/-- The parts that an access to memory touches: memory itself, the pools, the counts of the tile and of the hearth, and what a
record of a bad code word touches (09, R207 to R213). -/
def memParts : List Part := [.tiles, .hearths, .mem, .msys] ++ recParts

/-- Memory, its poison and code words, the pools and the records are of `memParts`. -/
theorem memParts_update (s : State) (mem poison codes msys recs) :
    Only memParts s { s with mem := mem, poison := poison, codes := codes, msys := msys, recs := recs } := by
  intro p hp; cases p <;> simp_all [Part.same, memParts, recParts]

theorem noteCodes_only (s : State) (a : Nat) (e : EccHits) : Only memParts s (noteCodes s a e) := by
  unfold noteCodes
  dsimp only
  split
  · exact memParts_update s _ _ _ _ _
  · exact memParts_update s _ _ _ _ _
  · exact Only.refl _ _
theorem store_only (s : State) (a : Nat) (bs : List Byte) (src : List Nat) : Only memParts s (store s a bs src) := by
  unfold store
  dsimp only
  split
  · exact Only.ite ((memParts_update s _ _ _ _ _).trans (memParts_update _ _ _ _ _ _)) (memParts_update s _ _ _ _ _)
  · exact memParts_update s _ _ _ _ _
theorem memParts_raise (s : State) (space code detail : Nat) (h : Option Nat) (agent a0 : Nat) :
    Only memParts s (raise s space code detail h agent a0) := (raise_only s _ _ _ _ _ _ _ _ _).mono fun _ => List.mem_append_right _
theorem memParts_modTile (s : State) (t : Nat) (f : Tile → Tile) : Only memParts s (modTile s t f) :=
  (modTile_only s t f).mono (by simp [memParts])
theorem memParts_modHearth (s : State) (h : Nat) (f : Hearth → Hearth) : Only memParts s (modHearth s h f) :=
  (modHearth_only s h f).mono (by simp [memParts])
theorem memParts_modPool (s : State) (p : Nat) (f : Pool → Pool) : Only memParts s (modPool s p f) :=
  memParts_update s _ _ _ _ _

theorem seeDeep_only (s : State) (seen : Nat → Bool) : Only memParts s (seeDeep s seen).1 := by
  unfold seeDeep
  refine List.foldlRecOn (motive := fun r : State × List Nat => Only memParts s r.1) _ _ (Only.refl _ _) ?_
  intro r hr x _
  split
  · exact hr.trans (memParts_update _ _ _ _ _ _)
  · exact hr.trans ((memParts_update _ _ _ _ _ _).trans (memParts_raise _ _ _ _ _ _ _))
  · exact hr
theorem seeWords_only (s : State) (a n : Nat) : Only memParts s (seeWords s a n) := by
  unfold seeWords
  refine List.foldlRecOn (motive := Only memParts s) _ _ (Only.refl _ _) ?_
  intro u hu x _
  dsimp only
  split
  · exact hu.trans ((memParts_modTile _ _ _).trans (memParts_update _ _ _ _ _ _))
  · refine hu.trans (Only.trans (Only.ite ?_ (Only.refl _ _)) (memParts_update _ _ _ _ _ _))
    exact (memParts_modTile _ _ _).trans ((memParts_update _ _ _ _ _ _).trans (memParts_raise _ _ _ _ _ _ _))
  · exact hu
theorem mtlStat_only (s : State) (h : Option Nat) (word hi lo n : Nat) : Only memParts s (mtlStat s h word hi lo n) := by
  unfold mtlStat
  split
  · exact memParts_modHearth _ _ _
  · exact Only.refl _ _
theorem touchBlock_only (s : State) (h : Option Nat) (hint : Hint) (a n : Nat) (wr : Bool) (line : Option Nat) (b : Nat) :
    OptOnly memParts s (touchBlock s h hint a n wr line b) := by
  unfold touchBlock
  dsimp only
  split
  · split
    · exact .none
    · exact .some ((mtlStat_only _ _ _ _ _ _).trans (memParts_modPool _ _ _))
  · split
    · split
      · exact .some ((mtlStat_only _ _ _ _ _ _).trans (memParts_modPool _ _ _))
      · exact .none
    · exact .some (mtlStat_only _ _ _ _ _ _)
theorem touch_only (s : State) (h : Option Nat) (hint : Hint) (a n : Nat) (wr : Bool) (line : Option Nat) :
    OptOnly memParts s (touch s h hint a n wr line) := by
  unfold touch
  split
  · exact .none
  · refine List.foldlRecOn (motive := OptOnly memParts s) _ _ (.some (Only.refl _ _)) ?_
    exact fun o ho b _ => ho.bind (fun u => touchBlock_only u h hint a n wr line b)
theorem fillPoison_only (clean : Bool) (k : Nat) (s : State) : Only memParts s (fillPoison clean k s) := by
  unfold fillPoison
  exact Only.ite (Only.refl _ _)
    (Only.ite ((memParts_update _ _ _ _ _ _).trans (memParts_modPool _ _ _)) (memParts_update _ _ _ _ _ _))
theorem eccDeep_only (s0 s : State) (a n : Nat) (wr : Bool) : Only memParts s (eccDeep s0 s a n wr).1 := by
  have filled (seen : Nat → Bool) (l : List Nat) :
      Only memParts s (l.foldl (fun s k => fillPoison (!wr) k s) (seeDeep s seen).1) :=
    List.foldlRecOn (motive := Only memParts s) _ _ (seeDeep_only s seen) fun _ hu _ _ => hu.trans (fillPoison_only _ _ _)
  unfold eccDeep
  dsimp only
  split
  · exact Only.refl _ _
  · split
    · refine Only.trans ?_ (memParts_update _ _ _ _ _ _)
      exact List.foldlRecOn (motive := Only memParts s) _ _ (filled _ _) fun _ hu _ _ => hu.trans (memParts_update _ _ _ _ _ _)
    · exact filled _ _
theorem devWrite_only (s : State) (h : Option Nat) (hint : Hint) (a : Nat) (bs : List Byte) (poison : List Nat)
    (line : Option Nat) (e : EccHits) : OptOnly memParts s (devWrite s h hint a bs poison line e) := by
  unfold devWrite
  have noted {o : Option State} (ho : OptOnly memParts (noteCodes s a e) o) : OptOnly memParts s o :=
    fun n hn => (noteCodes_only s a e).trans (ho n hn)
  split
  · exact (noted (touch_only _ _ _ _ _ _ _)).map (fun u => (eccDeep_only _ u _ _ _).trans (store_only _ _ _ _))
  · exact noted (.some (store_only _ _ _ _))
theorem postWrite_only (s : State) (a : Agent) (h : Nat) (hint : Hint) (addr : Nat) (bs : List Byte) (ps : List Nat) :
    Only memParts s (postWrite s a h hint addr bs ps) :=
  (devWrite_only _ _ _ _ _ _ _ _).getD (Only.ite (Only.refl _ _) (memParts_modPool _ _ _))
theorem phaseEntry_only (s : State) (h start tag agent kind : Nat) : Only memParts s (phaseEntry s h start tag agent kind) := by
  unfold phaseEntry
  dsimp only
  refine Only.ite ((memParts_modHearth _ _ _).trans (postWrite_only _ _ _ _ _ _ _)) ?_
  exact Only.ite (memParts_modHearth _ _ _)
    ((memParts_modHearth _ _ _).trans ((memParts_modHearth _ _ _).trans (memParts_raise _ _ _ _ _ _ _)))
theorem endTilePhase_only (s : State) (t : Nat) : Only memParts s (endTilePhase s t) := by
  unfold endTilePhase
  split
  · exact (memParts_modTile _ _ _).trans (phaseEntry_only _ _ _ _ _ _)
  · exact Only.refl _ _

end Sys2Proof.Machine
end

section
/-! Starts of a command stream (10, R232, R233; 13, R331): what a start leaves of its tile and of the hold state of its hearth. -/

namespace Sys2Proof.Machine

variable {s : State}

/-! ### A stalled hearth returns to RUN -/

/-- The tile is late under no cause any more (10, R233, Table 10-9). -/
def lateCleared (x : Tile) : Tile :=
  { x with acc := { x.acc with late := false }, win := { x.win with late := false }, blw := { x.blw with late := none } }

theorem setHold_only (s : State) (h st : Nat) : Only [.hearths] s (setHold s h st) := modHearth_only _ _ _
theorem endCause_only (s : State) (h cause : Nat) : Only [.hearths] s (endCause s h cause) := modHearth_only _ _ _

theorem holdState_setHold (s : State) {h : Nat} (hlt : h < 16) (st : Nat) : holdState (setHold s h st) h = st % 8 := by
  simp only [holdState, setHold, hearthAt_modHearth, hlt, and_self, if_true]
  exact fld_setFld _ 34 32 st (by decide)

theorem unstall_only (s : State) (h : Nat) : Only [.tiles, .hearths] s (unstall s h) := by
  have hearths {u v : State} (k : Only [.hearths] u v) : Only [.tiles, .hearths] u v := k.mono (by simp)
  unfold unstall
  refine Only.ite ?_ (Only.refl _ _)
  refine Only.trans ?_ (hearths (setHold_only _ _ _))
  refine Only.trans ?_ (Only.forEach _ _ (fun t u => (modTile_only u t _).mono (by simp)) _)
  exact hearths ((endCause_only _ _ _).trans ((endCause_only _ _ _).trans (endCause_only _ _ _)))

/-- A tile is as it was, or late under no cause any more. -/
theorem tileAt_unstall (s : State) (h t : Nat) :
    tileAt (unstall s h) t = tileAt s t ∨ tileAt (unstall s h) t = lateCleared (tileAt s t) := by
  unfold unstall
  split
  · refine List.foldlRecOn (motive := fun u => tileAt u t = tileAt s t ∨ tileAt u t = lateCleared (tileAt s t))
      _ _ (.inl rfl) ?_
    intro u hu k _
    change tileAt (modTile u k lateCleared) t = _ ∨ tileAt (modTile u k lateCleared) t = _
    rw [tileAt_modTile]
    split
    · next hk =>
      obtain ⟨rfl, -⟩ := hk
      rcases hu with hu | hu
      · exact .inr (congrArg lateCleared hu)
      · exact .inr ((congrArg lateCleared hu).trans rfl)
    · exact hu
  · exact .inl rfl

theorem unstall_holdState (s : State) {h : Nat} (hlt : h < 16) : holdState (unstall s h) h ≠ 4 := by
  unfold unstall
  split
  · rw [holdState_setHold _ hlt]; split <;> decide
  · assumption

/-! ### The start of a stream -/

/-- The tile when its stream starts at a word, its fault registers cleared (10, R233). -/
def startedAt (word : Nat) (x : Tile) : Tile :=
  { clearFaults x with
    acc := { (clearFaults x).acc with headFc := none }
    blw := { x.blw with fault := 0, pend := none, csCtl := setFld (setFld x.blw.csCtl 63 32 word) 5 4 csRunning }
    misc := { x.misc with synFault := 0, chkFault := 0, wait := none } }

theorem startStream_some {t word h : Nat} (hh : tileHearth s t = some h) :
    startStream s t word = unstall (modTile s t (startedAt word)) h := by
  have : tileHearth (modTile s t (startedAt word)) t = some h := hh
  unfold startStream startedAt at *
  simp only [this]

/-- The fault registers of a tile are clear (10, R233). -/
def FaultsClear (y : Tile) : Prop :=
  y.anv.fault = 0 ∧ y.acc.fault = 0 ∧ y.win.fault = 0 ∧ y.vec.fault = 0 ∧ y.vec.sfuFault = 0 ∧
    y.blw.fault = 0 ∧ y.misc.synFault = 0 ∧ y.misc.chkFault = 0

/-- The stream of tile t of hearth h runs from a word on, the fault registers of the tile clear and its hearth not stalled; the
tile has the counts of x. -/
structure Started (n : State) (t h word : Nat) (x : Tile) : Prop where
  running : csState n t = 1
  at_word : csWord n t = word % 2 ^ 32
  mark : (tileAt n t).blw.mark = x.blw.mark
  land : (tileAt n t).blw.land = x.blw.land
  faults : FaultsClear (tileAt n t)
  hold : h < 16 → holdState n h ≠ 4

theorem startStream_started {t : TileId} {word h : Nat} (hh : tileHearth s t.val = some h) :
    Started (startStream s t.val word) t.val h word (tileAt s t.val) := by
  rw [startStream_some hh]
  have tile := tileAt_unstall (modTile s t.val (startedAt word)) h t.val
  rw [tileAt_modTile_self] at tile
  have ctl : (tileAt (unstall (modTile s t.val (startedAt word)) h) t.val).blw.csCtl =
      setFld (setFld (tileAt s t.val).blw.csCtl 63 32 word) 5 4 csRunning := by
    rcases tile with e | e <;> rw [e] <;> rfl
  refine ⟨?_, ?_, ?_, ?_, ?_, unstall_holdState _⟩
  · rw [csState, ctl, fld_setFld _ 5 4 _ (by decide)]; rfl
  · rw [csWord, ctl, fld_setFld_apart _ 5 4 63 32 _ (by decide) (by decide), fld_setFld _ 63 32 _ (by decide)]
  all_goals rcases tile with e | e <;> rw [e]
  all_goals simp [lateCleared, startedAt, clearFaults, FaultsClear]

theorem startStream_only (s : State) (t word : Nat) : Only [.tiles, .hearths] s (startStream s t word) := by
  have tile (f : Tile → Tile) : Only [.tiles, .hearths] s (modTile s t f) := (modTile_only s t f).mono (by simp)
  unfold startStream
  dsimp only
  split
  · exact (tile _).trans (unstall_only _ _)
  · exact tile _

/-! ### The commands of a stream -/

section
variable {a : Agent} {t : TileId} {word h : Nat}

theorem tileWrite_admitted {addr : Nat} {f : State → State} (hm : mayTile s a t.val = true) (hr : tileRole s t.val ≠ 2) :
    tileWrite s a t.val addr f = f s := by
  simp [tileWrite, hm, hr]

theorem tileStart_admitted {addr : Nat} {f : State → State} (hm : mayTile s a t.val = true) (hr : tileRole s t.val ≠ 2)
    (hh : tileHearth s t.val = some h) (hd : (tileAt s t.val).blw.draining = none) : tileStart s a t.val addr f = f s := by
  simp [tileStart, tileWrite_admitted hm hr, hh, hd]

/-- The tile with its counts of marks and landings at zero (10, R232). -/
def zeroCounts (b : Bellows) : Bellows := { b with mark := 0, land := Vector.replicate 32 0, late := none }

theorem freshStart_stopped (hc : csState s t.val ≠ 1) (hth : (tileAt s t.val).blw.threads = []) :
    freshStart s t.val word = some (startStream (modBlw (endTilePhase s t.val) t.val zeroCounts) t.val word) := by
  unfold freshStart
  rw [if_neg (by simp [csRunning, hc, hth])]
  rfl

theorem tileHearth_endTilePhase (s : State) (t k : Nat) : tileHearth (endTilePhase s t) k = tileHearth s k := by
  have : (endTilePhase s t).tmp = s.tmp := endTilePhase_only s t .tmp (by simp [memParts, recParts])
  simp only [tileHearth, ownerBy, hOn, hsec, this]

theorem landAt_zeroCounts (x : Tile) (b : Bellows) (hb : x.blw.land = (zeroCounts b).land) {k : Nat} (hk : k < 32) :
    landAt x k = 0 := by
  simp [landAt, hb, zeroCounts, vget, hk, fld_eq]

theorem csStop_running (hm : mayTile s a t.val = true) (hr : tileRole s t.val ≠ 2) (hc : csState s t.val = 1) :
    csStop s a t.val = putTile s t { tileAt s t.val with
      acc := { (tileAt s t.val).acc with headFc := none }
      blw := { (tileAt s t.val).blw with csCtl := setFld (tileAt s t.val).blw.csCtl 5 4 0, pend := none }
      misc := { (tileAt s t.val).misc with wait := none } } := by
  simp only [csStop, tileWrite_admitted hm hr, csRunning, csStopped, hc, if_true, setCs, modTile_put, tileAt_put,
    putTile_putTile]

theorem endTilePhase_closed (hp : (tileAt s t.val).misc.ph = none) : endTilePhase s t.val = s := by
  simp [endTilePhase, hp]
end

/-- Settles O17: a start is `startStream`, after the end of the open phase window where it is a fresh one. -/
theorem streamControl : Obligations.StreamControl := by
  intro s a t word
  dsimp only
  refine ⟨fun hm hr => ⟨?fresh, ?resume, ?stop⟩, ?done⟩
  case fresh =>
    intro hh hd hc hth
    obtain ⟨h, hh⟩ := Option.isSome_iff_exists.1 hh
    have st := startStream_started (s := modBlw (endTilePhase s t.val) t.val zeroCounts) (t := t) (word := word)
      ((tileHearth_endTilePhase s t.val t.val).trans hh)
    rw [modBlw, tileAt_modTile_self] at st
    refine ⟨_, ?_, st.running, st.at_word, st.mark, fun k => landAt_zeroCounts _ _ st.land, st.faults, ?_, ?_⟩
    · simp only [exec, execCsFreshStart, csFresh, tileStart_admitted hm hr hh hd, freshStart_stopped hc hth, modBlw]
    · rw [hh]; rintro _ ⟨⟩; exact st.hold
    · exact ((modTile_only _ _ _).mono (by simp)).trans (startStream_only _ _ _)
  case resume =>
    intro hh hd hr' hdone
    obtain ⟨h, hh⟩ := Option.isSome_iff_exists.1 hh
    have st := startStream_started (word := word) hh
    refine ⟨_, ?_, st.running, st.at_word, st.mark, st.land, st.faults, ?_, startStream_only _ _ _⟩
    · simp only [exec, execCsResume, csResume, tileStart_admitted hm hr hh hd, csRunning, csDoneSt, hr', hdone, if_false]
    · rw [hh]; rintro _ ⟨⟩; exact st.hold
  case stop =>
    intro hc
    simp only [exec, execCsStop, csStop_running hm hr hc]
  case done =>
    intro hc hl hi
    refine ⟨?_, fun hp => endTilePhase_closed (by rw [tileAt_put]; exact hp)⟩
    simp only [exec, execCsDone, csDone, csRunning, csDoneSt, hc, hl, hi, and_self, if_true, setCs, modTile_put]

end Sys2Proof.Machine
end

section
/-! Notices of the check group to a device that is not admitted (12, R302; 15, R363): a frame for such a device ends at once as it
is sent, and its notice with it, so that none is left outstanding. -/

namespace Sys2Proof.Machine

variable {s : State} {h : HearthId} {rank : Nat}

/-- No notice of the hearth to this member is outstanding. -/
def NoneSent (s : State) (h : HearthId) (rank : Nat) : Prop :=
  ∀ k ∈ (hearthAt s h.val).run.notices, ¬(k.rank = rank ∧ k.sent = true)

/-! ### Frames for a device that is not admitted -/

theorem sendFrame_refused {e : SendEntry} (hd : admitted s e.dev.toNat = false) :
    sendFrame s e = rxRaise (entryFail s e) 7 e.dev.toNat e.dev.toNat 0 none := by
  simp [sendFrame, hd]

theorem rxRaise_only (s : State) (code dev arg0 detail : Nat) (h : Option Nat) (space : Nat) :
    Only (.lnk :: recParts) s (rxRaise s code dev arg0 detail h space) := by
  have update (u : State) (lnk recs) : Only (.lnk :: recParts) u { u with lnk := lnk, recs := recs } := by
    intro p hp; cases p <;> simp_all [Part.same, recParts]
  unfold rxRaise
  dsimp only
  refine Only.ite (Only.refl _ _) (Only.ite (update s _ _) ?_)
  refine Only.trans ?_ ((raise_only _ _ _ _ _ _ _ _ _ _).mono fun _ => List.mem_cons_of_mem _)
  exact update s _ _

theorem rxRaise_ids (s : State) (code dev arg0 detail : Nat) (h : Option Nat) (space : Nat) :
    (rxRaise s code dev arg0 detail h space).lnk.ids = s.lnk.ids := by
  unfold rxRaise
  dsimp only
  split
  · rfl
  · split
    · rfl
    · exact congrArg (·.ids) (raise_only _ _ _ _ _ _ _ _ _ _ .lnk (by simp [recParts]))

/-- Whether a device is admitted follows from the sections in force and from the identities proved alone. -/
theorem admitted_congr {n : State} (ht : n.tmp = s.tmp) (hi : n.lnk.ids = s.lnk.ids) (dev : Nat) :
    admitted n dev = admitted s dev := by
  simp only [admitted, revoked, ht, hi]

section
variable {e : SendEntry} (hu : e.use = .notice h rank)
include hu

theorem entryFail_notice_only : Only [.hearths] s (entryFail s e) := by
  simp only [entryFail, hu]
  exact Only.ite ((modHearth_only _ _ _).trans (modHearth_only _ _ _)) (modHearth_only _ _ _)

theorem entryFail_notice_noneSent : NoneSent (entryFail s e) h rank := by
  rintro k hk ⟨hr, hs⟩
  simp only [entryFail, hu] at hk
  split at hk <;> simp [bookDone, modNet, modRun, hr, hs] at hk

theorem sendFrame_notice_noneSent (hd : admitted s e.dev.toNat = false) : NoneSent (sendFrame s e) h rank := by
  have hh := rxRaise_only (entryFail s e) 7 e.dev.toNat e.dev.toNat 0 none 0x0A .hearths (by simp [recParts])
  rw [sendFrame_refused hd, NoneSent, hearthAt, show State.hearths _ = _ from hh]
  exact entryFail_notice_noneSent hu

theorem sendFrame_notice_admitted (hd : admitted s e.dev.toNat = false) (dev : Nat) :
    admitted (sendFrame s e) dev = admitted s dev := by
  have hf := entryFail_notice_only (s := s) hu
  have ht := rxRaise_only (entryFail s e) 7 e.dev.toNat e.dev.toNat 0 none 0x0A .tmp (by simp [recParts])
  rw [sendFrame_refused hd]
  exact admitted_congr (ht.trans (hf .tmp (by simp)))
    ((rxRaise_ids _ _ _ _ _ _ _).trans (congrArg (·.ids) (hf .lnk (by simp)))) dev
end

/-! ### Notices -/

/-- A notice whose turn comes while its member is not admitted is over at once: the WRITE of its entry and the increment of
`NCTR` both end as they are sent. -/
theorem noticeNext_noneSent (hs : NoneSent s h rank)
    (hd : admitted s (grpDev s h.val (chkGroup s h.val) rank) = false) : NoneSent (noticeNext s h rank) h rank := by
  unfold noticeNext
  dsimp only
  split
  · exact hs
  · split
    · exact hs
    · have dev : (BitVec.ofNat 20 (grpDev s h.val (chkGroup s h.val) rank)).toNat = grpDev s h.val (chkGroup s h.val) rank := by
        simp [grpDev]
      refine sendFrame_notice_noneSent rfl ?_
      rw [dev]
      refine (admitted_congr rfl rfl _).trans ((sendFrame_notice_admitted rfl ?_ _).trans hd)
      rw [dev]; exact hd

/-- The device after reset, which admits no other: hearth 0 is rank 0 of a check group of two, the other member is device 7, and a
notice to it has still to leave. -/
def noticeToStranger : State :=
  { modHearth State.reset 0 (fun x => { x with
      chk := { x.chk with chkGrp1 := 1 }
      net := { x.net with grp0 := vput x.net.grp0 0 1 }
      run := { x.run with notices := [{ rank := 1, kind := 1, epoch := 1, trig := 0 }] } }) with mem := [(4, 7)] }

theorem noticeToStranger_member : grpDev noticeToStranger 0 (chkGroup noticeToStranger 0) 1 = 7 := by decide

/-- Refutes O45: a notice whose member's device is not admitted is handled as after a failed handshake, its WRITE and its increment
ending without effect (12, R302), so that NOTICE_SEND_NEXT leaves no notice to that member outstanding. -/
theorem not_checkEpochs : ¬ Obligations.CheckEpochs := by
  intro holds
  obtain ⟨-, -, -, -, -, sends, -⟩ := holds noticeToStranger 0
  obtain ⟨n, hn, k, hk, hrank, -, -, hsent⟩ := sends 1 { rank := 1, kind := 1, epoch := 1, trig := 0 } (by decide) (by decide)
  have unsent : NoneSent noticeToStranger 0 1 := by unfold NoneSent; decide
  have stranger : admitted noticeToStranger (grpDev noticeToStranger 0 (chkGroup noticeToStranger 0) 1) = false := by
    rw [noticeToStranger_member]; decide
  obtain rfl : noticeNext noticeToStranger 0 1 = n := Host.Outcome.next.inj hn
  exact noticeNext_noneSent unsent stranger k hk ⟨hrank, hsent⟩

end Sys2Proof.Machine
end

section
/-! The ZRC layout (02, R51 to R54): the reader finds the presence mask, the elements kept and the end of a group where the writer
put them. -/

namespace Sys2Proof.Machine

/-! ### Little-endian bytes -/

theorem leBytes_add {m v : Nat} (n w : Nat) (hv : v < 256 ^ m) :
    leBytes (m + n) (v + 256 ^ m * w) = leBytes m v ++ leBytes n w := by
  induction m generalizing v with
  | zero =>
    obtain rfl : v = 0 := by simpa using hv
    simp [leBytes]
  | succ m ih =>
    have low : BitVec.ofNat 8 (v + 256 ^ (m + 1) * w) = BitVec.ofNat 8 v := by
      apply BitVec.eq_of_toNat_eq
      rw [BitVec.toNat_ofNat, BitVec.toNat_ofNat, pow_succ', mul_assoc]
      omega
    have high : (v + 256 ^ (m + 1) * w) / 256 = v / 256 + 256 ^ m * w := by
      rw [pow_succ', mul_assoc]
      omega
    rw [Nat.add_right_comm, leBytes, leBytes, low, high, ih (by rw [pow_succ'] at hv; omega), List.cons_append]

theorem leNat_leBytes {n v : Nat} (hv : v < 256 ^ n) : leNat (leBytes n v) = v := by
  induction n generalizing v with
  | zero =>
    obtain rfl : v = 0 := by simpa using hv
    rfl
  | succ n ih =>
    rw [leBytes, leNat, ih (by rw [pow_succ'] at hv; omega), BitVec.toNat_ofNat]
    omega

/-- A value reads back at the offset where its bytes stand. -/
theorem leAt_leBytes {e v a : Nat} {pre : List Byte} (post : List Byte) (hv : v < 256 ^ e) (ha : pre.length = a) :
    leAt (pre ++ (leBytes e v ++ post)) a e = v := by
  rw [leAt, List.drop_left' ha, List.take_left' (length_leBytes e v), leNat_leBytes hv]

/-! ### Elements of whole bytes -/

theorem packElts_cons {e c : Nat} (cs : List Nat) (hc : c < 256 ^ e) :
    packElts (8 * e) (c :: cs) = leBytes e c ++ packElts (8 * e) cs := by
  have bytes (k : Nat) : cdiv (8 * e * k) 8 = e * k := by rw [cdiv, mul_assoc]; omega
  have radix : 2 ^ (8 * e) = 256 ^ e := pow_mul 2 8 e
  rw [packElts, packElts, bytes, bytes, radix, List.foldr_cons, Nat.mod_eq_of_lt hc, List.length_cons, Nat.mul_succ,
    Nat.add_comm (e * _), Nat.mul_comm (List.foldr _ _ _), leBytes_add _ _ hc]

theorem packElts_eq_flatMap {e : Nat} {cs : List Nat} (hcs : ∀ c ∈ cs, c < 256 ^ e) :
    packElts (8 * e) cs = cs.flatMap (leBytes e) := by
  induction cs with
  | nil => simp [packElts, cdiv, leBytes]
  | cons c cs ih =>
    rw [packElts_cons cs (hcs c (by simp)), ih (fun d hd => hcs d (by simp [hd])), List.flatMap_cons]

theorem length_flatMap_leBytes (e : Nat) (cs : List Nat) : (cs.flatMap (leBytes e)).length = cs.length * e := by
  simp [List.length_flatMap]

/-- The reader's list of values is the list of elements packed from that offset on. -/
theorem map_leAt_flatMap {e a : Nat} {cs : List Nat} {pre : List Byte} (post : List Byte) (hcs : ∀ c ∈ cs, c < 256 ^ e)
    (ha : pre.length = a) :
    (List.range cs.length).map (fun i => leAt (pre ++ (cs.flatMap (leBytes e) ++ post)) (a + i * e) e) = cs := by
  induction cs generalizing pre a with
  | nil => rfl
  | cons c cs ih =>
    have rest := ih (pre := pre ++ leBytes e c) (a := a + e) (fun d hd => hcs d (by simp [hd])) (by simp [ha])
    rw [List.length_cons, List.range_succ_eq_map, List.map_cons, List.map_map, List.flatMap_cons, List.append_assoc]
    congr 1
    · rw [Nat.zero_mul, Nat.add_zero, leAt_leBytes _ (hcs c (by simp)) ha]
    · rw [List.append_assoc] at rest
      simpa only [Function.comp_def, Nat.succ_mul, Nat.add_assoc, Nat.add_comm e] using rest

/-! ### The presence mask -/

/-- The presence mask of elements under a rule that says which are kept. -/
def presence (p : Nat → Bool) (es : List Nat) : Nat := Nat.ofBits (fun i : Fin es.length => p es[i])

theorem foldl_zipIdx_presence (p : Nat → Bool) (es : List Nat) (k m : Nat) :
    (es.zipIdx k).foldl (fun m q => if p q.1 then m + 2 ^ q.2 else m) m = m + 2 ^ k * presence p es := by
  induction es generalizing k m with
  | nil => simp [presence]
  | cons c es ih =>
    have head : presence p (c :: es) = 2 * presence p es + (p c).toNat := Nat.ofBits_succ _
    rw [List.zipIdx_cons, List.foldl_cons, ih, head, pow_succ]
    cases p c <;> simp <;> ring

theorem testBit_presence (p : Nat → Bool) {es : List Nat} {i : Nat} (hi : i < es.length) :
    (presence p es).testBit i = p (es.getD i 0) := by
  rw [presence, Nat.testBit_ofBits_lt _ _ hi, List.getD_eq_getElem _ _ hi]
  rfl

theorem presence_lt (p : Nat → Bool) (es : List Nat) : presence p es < 2 ^ es.length := Nat.ofBits_lt_two_pow _

theorem map_getD_range (es : List Nat) : (List.range es.length).map (fun i => es.getD i 0) = es := by
  apply List.ext_getElem <;> simp +contextual

/-- The mask has a bit for each element kept. -/
theorem parityCount_presence (p : Nat → Bool) {es : List Nat} (hl : es.length = 64) :
    zrcDecode.parityCount (presence p es) = (es.filter p).length := by
  have bits : (List.range 64).filter (fun i => (presence p es).testBit i) = (List.range 64).filter (p ∘ fun i => es.getD i 0) :=
    List.filter_congr (fun i hi => testBit_presence p (by simpa [hl] using hi))
  rw [zrcDecode.parityCount, bits, ← List.length_map (fun i => es.getD i 0), ← List.filter_map, ← hl, map_getD_range]

/-- One element of the reader's walk: the next value where the mask has a bit, and +0 where it has none. -/
def restore (present : Bool) (acc : List Nat × List Nat) : List Nat × List Nat :=
  if present then (acc.1 ++ [acc.2.headD 0], acc.2.tail) else (acc.1 ++ [0], acc.2)

@[simp] theorem restore_true (done vs : List Nat) (v : Nat) : restore true (done, v :: vs) = (done ++ [v], vs) := rfl

@[simp] theorem restore_false (done vs : List Nat) : restore false (done, vs) = (done ++ [0], vs) := rfl

theorem foldl_restore (p : Nat → Bool) (es done : List Nat) :
    es.foldl (fun acc c => restore (p c) acc) (done, es.filter p) = (done ++ es.map (fun c => if p c then c else 0), []) := by
  induction es generalizing done with
  | nil => simp
  | cons c es ih =>
    cases hc : p c
    · simp [hc, ih]
    · simp [hc, ih]

/-- The walk along the mask restores every element kept and gives +0 for the others. -/
theorem foldl_range_presence (p : Nat → Bool) {es : List Nat} (hl : es.length = 64) :
    (List.range 64).foldl (fun acc i => restore ((presence p es).testBit i) acc) ([], es.filter p) =
      (es.map (fun c => if p c then c else 0), []) := by
  have bits : (List.range 64).foldl (fun acc i => restore ((presence p es).testBit i) acc) ([], es.filter p) =
      (List.range 64).foldl (fun acc i => restore (p (es.getD i 0)) acc) ([], es.filter p) :=
    List.foldl_ext _ _ _ (fun acc i hi => by rw [testBit_presence p (by simpa [hl] using hi)])
  rw [bits, ← List.foldl_map (f := fun i => es.getD i 0) (g := fun acc c => restore (p c) acc), ← hl, map_getD_range,
    foldl_restore, List.nil_append]

/-! ### A group -/

section
variable {f e : Nat} {es : List Nat} (he : eltBits f = 8 * e) (hes : ∀ c ∈ es, c < 2 ^ eltBits f)
include he hes

theorem zrcKept_lt : ∀ c ∈ es.filter (zrcKeeps f), c < 256 ^ e := by
  intro c hc
  have := hes c (List.mem_of_mem_filter hc)
  rwa [he, pow_mul] at this

/-- The mask and the elements kept, before the padding. -/
theorem zrcGroup_eq : zrcGroup f es =
    leBytes 8 (presence (zrcKeeps f) es) ++ ((es.filter (zrcKeeps f)).flatMap (leBytes e) ++
      List.replicate (32 * cdiv (8 + (es.filter (zrcKeeps f)).length * e) 32 - (8 + (es.filter (zrcKeeps f)).length * e)) 0) := by
  have mask : es.zipIdx.foldl (fun m q => if zrcKeeps f q.1 then m + 2 ^ q.2 else m) 0 = presence (zrcKeeps f) es := by
    simp [foldl_zipIdx_presence]
  rw [zrcGroup, mask, he, packElts_eq_flatMap (zrcKept_lt he hes), List.length_append, length_leBytes, length_flatMap_leBytes,
    List.append_assoc]

theorem length_zrcGroup : (zrcGroup f es).length = 32 * cdiv (8 + (es.filter (zrcKeeps f)).length * e) 32 := by
  rw [zrcGroup_eq he hes, List.length_append, List.length_append, length_leBytes, length_flatMap_leBytes, List.length_replicate,
    cdiv]
  omega

/-- The first word of a group is its presence mask. -/
theorem leAt_zrcGroup (hl : es.length = 64) (bs : List Byte) :
    leAt (zrcGroup f es ++ bs) 0 8 = presence (zrcKeeps f) es := by
  have small : presence (zrcKeeps f) es < 256 ^ 8 := by simpa [hl] using presence_lt (zrcKeeps f) es
  rw [zrcGroup_eq he hes, List.append_assoc]
  exact leAt_leBytes (pre := []) _ small rfl

/-- The reader takes a whole group, whatever stands behind it. -/
theorem zrcDecode_zrcGroup (hl : es.length = 64) (g : Nat) (bs : List Byte) :
    zrcDecode (g + 1) e (zrcGroup f es ++ bs) =
      (es.map (fun c => if zrcKeeps f c then c else 0) ++ (zrcDecode g e bs).1, (zrcDecode g e bs).2) := by
  have fits : 8 + (es.filter (zrcKeeps f)).length * e ≤ (zrcGroup f es ++ bs).length := by
    rw [List.length_append, length_zrcGroup he hes, cdiv]
    omega
  have vals : (List.range (es.filter (zrcKeeps f)).length).map (fun i => leAt (zrcGroup f es ++ bs) (8 + i * e) e) =
      es.filter (zrcKeeps f) := by
    rw [zrcGroup_eq he hes, List.append_assoc, List.append_assoc]
    exact map_leAt_flatMap _ (zrcKept_lt he hes) (length_leBytes ..)
  have walk := foldl_range_presence (zrcKeeps f) hl
  simp only [restore] at walk
  simp only [zrcDecode, leAt_zrcGroup he hes hl, parityCount_presence (zrcKeeps f) hl, vals, walk,
    List.drop_left' (length_zrcGroup he hes)]
  rw [if_neg (by omega), if_neg (by omega)]
end

/-! ### A row -/

theorem zrcDecode_zrcRow {f e : Nat} (he : eltBits f = 8 * e) (g : Nat) {es : List Nat} (hl : es.length = 64 * g)
    (hes : ∀ c ∈ es, c < 2 ^ eltBits f) :
    zrcDecode g e (zrcRow f g es) = (es.map (fun c => if zrcKeeps f c then c else 0), false) := by
  induction g generalizing es with
  | zero =>
    obtain rfl : es = [] := List.length_eq_zero_iff.mp hl
    rfl
  | succ g ih =>
    rw [zrcRow, zrcDecode_zrcGroup he (fun c hc => hes c (List.mem_of_mem_take hc)) (by simp; omega),
      ih (by simp; omega) (fun c hc => hes c (List.mem_of_mem_drop hc)), ← List.map_append, List.take_append_drop]

theorem zrcRow_one {f : Nat} {es : List Nat} (hl : es.length = 64) : zrcRow f 1 es = zrcGroup f es ++ [] := by
  rw [zrcRow, zrcRow, List.take_of_length_le hl.le]

/-- The writer keeps all but +0 and -0: the sign bit of a floating-point code does not count, and INT8 has none (02, R53). -/
theorem zrcKeeps_eq {f : Nat} (hf : f ∈ [FP32, BF16, FP16, E4M3, E5M2, INT8]) (c : Nat) :
    zrcKeeps f c = !(c % 2 ^ (if f = INT8 then 8 else eltBits f - 1) == 0) := by
  simp only [List.mem_cons, List.not_mem_nil, or_false] at hf
  obtain rfl | rfl | rfl | rfl | rfl | rfl := hf <;> rfl

theorem eltBits_eq_bytes {f : Nat} (hf : f ∈ [FP32, BF16, FP16, E4M3, E5M2, INT8]) : eltBits f = 8 * (eltBits f / 8) := by
  revert f; decide

/-- Settles O55: by induction on the groups, each of which the reader finds by the mask and the size of the one before. -/
theorem zrcRestoresElements : Obligations.ZrcRestoresElements := by
  intro f hf g es hl hes zero
  have he := eltBits_eq_bytes hf
  have keeps : zrcKeeps f = fun c => !zero c := funext (zrcKeeps_eq hf)
  refine ⟨?_, ?_⟩
  · have restored (c : Nat) : (if zrcKeeps f c then c else 0) = if zero c then 0 else c := by
      cases hz : zero c <;> simp [keeps, hz]
    simp only [zrcDecode_zrcRow he g hl hes, restored]
  · rintro rfl
    rw [← keeps, zrcRow_one hl, leAt_zrcGroup he hes hl]
    refine ⟨by rw [List.append_nil, length_zrcGroup he hes], fun i hi => ?_⟩
    rw [testBit_presence _ (by omega), keeps]

end Sys2Proof.Machine
end

section
/-! Reads of scratch by the engines of a tile (09, R197): of the tiles they touch the counts of bad code words alone. And the
frame of a tile replaced. -/

namespace Sys2Proof.Machine

variable {s n : State}

/-! ### What a read of scratch leaves as it was -/

/-- The tile with its register of bad code words (09, R197). -/
def withScrEcc (e : Reg) (x : Tile) : Tile := { x with misc := { x.misc with scrEcc := e } }

/-- State n is s after code words of scratch were seen: memory, hearths and images are those of s, and so is every tile but for its
register of bad code words. -/
structure Seen (s n : State) : Prop where
  tile : ∀ t, ∃ e, tileAt n t = withScrEcc e (tileAt s t)
  mem : n.mem = s.mem
  hearths : n.hearths = s.hearths
  tmp : n.tmp = s.tmp

theorem Seen.refl (s : State) : Seen s s := ⟨fun _ => ⟨_, rfl⟩, rfl, rfl, rfl⟩

theorem Seen.trans {m : State} (h : Seen s n) (k : Seen n m) : Seen s m := by
  refine ⟨fun t => ?_, k.mem.trans h.mem, k.hearths.trans h.hearths, k.tmp.trans h.tmp⟩
  obtain ⟨e, he⟩ := h.tile t
  obtain ⟨e', he'⟩ := k.tile t
  exact ⟨e', by rw [he', he]; rfl⟩

theorem seen_of_tiles (ht : n.tiles = s.tiles) (hm : n.mem = s.mem) (hh : n.hearths = s.hearths) (htmp : n.tmp = s.tmp) :
    Seen s n :=
  ⟨fun t => ⟨(tileAt s t).misc.scrEcc, by simp only [tileAt, ht]; rfl⟩, hm, hh, htmp⟩

theorem seen_scrEcc (s : State) (t : Nat) (f : Tile → Reg) : Seen s (modTile s t (fun x => withScrEcc (f x) x)) := by
  refine ⟨fun u => ?_, rfl, rfl, rfl⟩
  rw [tileAt_modTile]
  split
  · next h => exact ⟨_, by rw [h.1]⟩
  · exact ⟨_, rfl⟩

theorem seen_raise (s : State) (space code detail : Nat) (h : Option Nat) (agent a0 : Nat) :
    Seen s (raise s space code detail h agent a0) := by
  have same {p : Part} (hp : p ∉ recParts) : p.same s (raise s space code detail h agent a0) :=
    raise_only s _ _ _ _ _ _ _ _ _ p hp
  have mem : Part.mem.same s _ := same (by decide)
  exact seen_of_tiles (same (p := .tiles) (by decide)) mem.1 (same (p := .hearths) (by decide)) (same (p := .tmp) (by decide))

theorem seen_poison (s : State) (p : List Nat) : Seen s { s with poison := p } := seen_of_tiles rfl rfl rfl rfl

theorem seen_scrUe (s : State) (t o : Nat) : Seen s (scrUe s t o) :=
  (seen_scrEcc s t (fun x => setFld (bumpSat x.misc.scrEcc 31 16 1) 63 40 (o / 32))).trans
    ((seen_poison _ _).trans (seen_raise _ _ _ _ _ _ _))

theorem seen_seeWords (s : State) (a k : Nat) : Seen s (seeWords s a k) := by
  unfold seeWords
  refine List.foldlRecOn (motive := Seen s) _ _ (Seen.refl s) ?_
  intro u hu x _
  dsimp only
  have dropped (v : State) : Seen v (dropWord v x.1) := seen_of_tiles rfl rfl rfl rfl
  split
  · exact hu.trans ((seen_scrEcc _ _ _).trans (dropped _))
  · split
    · exact hu.trans ((seen_scrUe _ _ _).trans (dropped _))
    · exact hu.trans (dropped _)
  · exact hu

theorem seen_scrSee (s : State) (t off k : Nat) : Seen s (scrSee s t off k) := seen_seeWords _ _ _

theorem seen_seeRanges (s : State) (t : Nat) (l : List (Nat × Nat)) : Seen s (seeRanges s t l) := by
  unfold seeRanges
  exact List.foldlRecOn (motive := Seen s) _ _ (Seen.refl s) fun _ hu _ _ => hu.trans (seen_scrSee _ _ _ _)

namespace Seen

variable (h : Seen s n) (t : Nat)
include h

theorem anv : (tileAt n t).anv = (tileAt s t).anv := by obtain ⟨e, he⟩ := h.tile t; rw [he]; rfl
theorem acc : (tileAt n t).acc = (tileAt s t).acc := by obtain ⟨e, he⟩ := h.tile t; rw [he]; rfl
theorem blw : (tileAt n t).blw = (tileAt s t).blw := by obtain ⟨e, he⟩ := h.tile t; rw [he]; rfl

theorem csWord : csWord n t = Machine.csWord s t := by simp only [Machine.csWord, h.blw]
theorem scrRead (off k : Nat) : scrRead n t off k = Machine.scrRead s t off k := by simp only [Machine.scrRead, h.mem]

theorem tileHearth : tileHearth n t = Machine.tileHearth s t := by
  simp only [Machine.tileHearth, ownerBy, hOn, hsec, h.tmp]

theorem chainFree : chainFree n t = Machine.chainFree s t := by
  have level : chkLevel n = chkLevel s := funext fun k => by simp only [chkLevel, hearthAt, h.hearths]
  unfold Machine.chainFree
  dsimp only
  rw [h.acc, h.anv, h.tileHearth, level]

end Seen

/-! ### One tile replaced -/

theorem putTile_only (s : State) (t : TileId) (x : Tile) : Only [.tiles] s (putTile s t x) := by
  intro p hp; cases p <;> simp_all [Part.same, putTile]

theorem putTile_onlyTile (s : State) (t : TileId) (x : Tile) : OnlyTile t.val s (putTile s t x) := by
  intro u hu
  simp only [tileAt, putTile, vget_vput, hu, false_and, if_false]

end Sys2Proof.Machine
end

section
/-! Rows of the anvil's array (03, R57, R61, R71, R73, R78, R80; 04, R91, R104 to R106; 15, R353, R357, R359): what a row is as it
enters, and what it leaves behind as it goes. -/

namespace Sys2Proof.Machine

variable {s n : State} {t : TileId} {j : AnvJob} {k : MmtJob} {r : ArrayRow} {es sa outs : List Nat}

/-! ### A row enters -/

/-- The tile with one more row reserved in its chain-in buffer (04, R106). -/
def reserveRow (y : Tile) : Tile := { y with acc := { y.acc with reserved := y.acc.reserved + 1 } }

/-- The state with a row reserved at the target of a chain-out MMT (04, R106). -/
def rowReserved (s : State) (t : Nat) (k : MmtJob) : State :=
  if Mmt.dest k.w = 1 then modTile s (chainOutTile (tileAt s t)) reserveRow else s

theorem chainOutTile_lt (x : Tile) : chainOutTile x < 32 := fld_lt _ 23 19

theorem reserveOut_free (seq : Nat) (hfree : Mmt.dest k.w = 1 → 0 < chainFree s (chainOutTile (tileAt s t.val))) :
    reserveOut s t.val seq k = (some (rowReserved s t.val k), s) := by
  unfold reserveOut rowReserved
  by_cases hd : Mmt.dest k.w = 1
  · simp only [hd, hfree hd, ne_eq, not_true_eq_false, if_true, if_false]
    rfl
  · simp only [hd, ne_eq, not_false_eq_true, if_true, if_false]

theorem tileAt_rowReserved (s : State) (t : Nat) (k : MmtJob) (u : Nat) : tileAt (rowReserved s t k) u =
    if Mmt.dest k.w = 1 ∧ u = chainOutTile (tileAt s t) then reserveRow (tileAt s u) else tileAt s u := by
  unfold rowReserved
  by_cases hd : Mmt.dest k.w = 1
  · simp only [hd, if_true, true_and, tileAt_modTile, chainOutTile_lt, and_true]
    split
    · next h => rw [h]
    · rfl
  · simp only [hd, if_false, false_and]

theorem rowReserved_anv (s : State) (t : Nat) (k : MmtJob) (u : Nat) :
    (tileAt (rowReserved s t k) u).anv = (tileAt s u).anv := by
  rw [tileAt_rowReserved]; split <;> rfl

theorem rowReserved_fifo (s : State) (t : Nat) (k : MmtJob) (u : Nat) :
    (tileAt (rowReserved s t k) u).acc.fifo = (tileAt s u).acc.fifo := by
  rw [tileAt_rowReserved]; split <;> rfl

theorem rowReserved_only (s : State) (t : Nat) (k : MmtJob) : Only [.tiles] s (rowReserved s t k) :=
  Only.ite (modTile_only _ _ _) (Only.refl _ _)

/-- The next row of an MMT as it enters the array, with these elements and scales (03, R57, R60; 04, R105). -/
def enteringRow (x : Tile) (j : AnvJob) (k : MmtJob) (es sa : List Nat) : ArrayRow :=
  let ts := rowTerms (Mmt.fa k.w) k.plane (bufAt x (Mmt.pb k.w)) es sa
  { seq := j.seq, row := k.entered, terms := ts.1, flags := ts.2
    init := if Mmt.init k.w = 2 then (x.acc.fifo.head?.map (·.vals)).getD [] else [] }

theorem enteringRow_congr {x y : Tile} (ha : y.anv = x.anv) (hf : y.acc.fifo = x.acc.fifo) :
    enteringRow y j k es sa = enteringRow x j k es sa := by
  simp only [enteringRow, bufAt, ha, hf]

theorem enterRow_array : (tileAt (enterRow s t.val j k es sa) t.val).anv.array =
    (tileAt s t.val).anv.array ++ [enteringRow (tileAt s t.val) j k es sa] := by
  have init : ((if Mmt.init k.w = 2 then (tileAt s t.val).acc.fifo.head? else none).map (·.vals)).getD [] =
      if Mmt.init k.w = 2 then ((tileAt s t.val).acc.fifo.head?.map (·.vals)).getD [] else [] := by split <;> rfl
  unfold enterRow modSst
  dsimp only
  split <;> simp only [tileAt_modTile_self, enteringRow, init]

theorem enterRow_fifo (hc : Mmt.init k.w = 2 → (tileAt s t.val).acc.fifo.head?.isSome = true) :
    (tileAt (enterRow s t.val j k es sa) t.val).acc.fifo =
      if Mmt.init k.w = 2 then (tileAt s t.val).acc.fifo.tail else (tileAt s t.val).acc.fifo := by
  unfold enterRow modSst
  dsimp only
  by_cases hi : Mmt.init k.w = 2
  · simp only [hi, if_true, hc hi]
    split <;> simp
  · simp only [hi, if_false]
    split <;> simp

theorem enterRow_only (s : State) (t : Nat) (j : AnvJob) (k : MmtJob) (es sa : List Nat) :
    Only [.tiles] s (enterRow s t j k es sa) :=
  Only.ite ((modTile_only _ _ _).trans (modTile_only _ _ _)) (modTile_only _ _ _)

theorem enterRow_onlyTile (s : State) (t : Nat) (j : AnvJob) (k : MmtJob) (es sa : List Nat) :
    OnlyTile t s (enterRow s t j k es sa) := by
  unfold enterRow modSst
  dsimp only
  split
  · exact OnlyTile.trans (modTile_onlyTile _ _ _) (modTile_onlyTile _ _ _)
  · exact modTile_onlyTile _ _ _

/-- The array of a tile of a hearth in RUN takes rows: the tile is no shadow, and neither a replay nor a poisoned operand holds its
row pipe (03, R73; 15, R356, R358). -/
structure RowPipeOpen (s : State) (t : TileId) : Prop where
  runs : tileRuns s t.val = true
  executes : tileRole s t.val ≠ 2
  settled : (tileAt s t.val).anv.replay = none
  free : pipeHeld (tileAt s t.val) 0 = false

theorem rowEnter_reenter (h : RowPipeOpen s t) {r : ArrayRow} {rest : List ArrayRow}
    (hr : (tileAt s t.val).anv.reenter = r :: rest) :
    rowEnter s t.val = putTile s t { tileAt s t.val with anv := { (tileAt s t.val).anv with
      array := (tileAt s t.val).anv.array ++ [r], reenter := rest } } := by
  simp [rowEnter, h.runs, h.executes, h.settled, h.free, hr, modTile_put]

/-- The next row of the MMT whose turn it is has its plane, its slots, its chain row and its initial values (03, R65, R66, R73;
04, R102, R105; 09, R215). -/
structure RowDue (s : State) (t : TileId) (j : AnvJob) (k : MmtJob) : Prop where
  none_first : (tileAt s t.val).anv.reenter = []
  next : nextMmt (tileAt s t.val) = some (j, k)
  plane : (bufAt (tileAt s t.val) (Mmt.pb k.w)).ready = true
  loaded : loadPending (tileAt s t.val) (Mmt.pb k.w) j.seq = false
  slots : (jobSlots j).any (fun sl => slotBusyForMmt (tileAt s t.val) j.seq sl) = false
  chained : Mmt.init k.w = 2 → ∃ c, (tileAt s t.val).acc.fifo.head? = some c ∧ c.poison = false
  clean : Mmt.init k.w = 1 → slotPoison s t.val (Mmt.slot k.w) k.entered k.plane.np = none

/-- The state once the row's operands in scratch have been seen (03, R78; 09, R197). -/
def rowSeen (s : State) (t : TileId) (k : MmtJob) : State :=
  if Mmt.src k.w = 1 then s else seeRanges s t.val (rowRanges k)

theorem seen_rowSeen (s : State) (t : TileId) (k : MmtJob) : Seen s (rowSeen s t k) := by
  unfold rowSeen
  split
  · exact Seen.refl s
  · exact seen_seeRanges _ _ _

theorem rowEnter_due (h : RowPipeOpen s t) (hd : RowDue s t j k) (hgo : rowOperands (rowSeen s t k) t.val j.seq k = .go es sa)
    (hfree : Mmt.dest k.w = 1 → 0 < chainFree s (chainOutTile (tileAt s t.val))) :
    rowEnter s t.val = enterRow (rowReserved (rowSeen s t k) t.val k) t.val j k es sa := by
  have empty : ¬ (Mmt.init k.w = 2 ∧ (tileAt s t.val).acc.fifo.isEmpty = true) := by
    rintro ⟨hi, he⟩
    obtain ⟨c, hc, -⟩ := hd.chained hi
    simp [List.isEmpty_iff.1 he] at hc
  have poison : ¬ (Mmt.init k.w = 2 ∧ ((tileAt s t.val).acc.fifo.head?.map (·.poison)).getD false = true) := by
    rintro ⟨hi, he⟩
    obtain ⟨c, hc, hp⟩ := hd.chained hi
    simp [hc, hp] at he
  have slot : (if Mmt.init k.w = 1 then slotPoison s t.val (Mmt.slot k.w) k.entered k.plane.np else none) = none := by
    split
    · next hi => exact hd.clean hi
    · rfl
  have reserve := reserveOut_free (s := rowSeen s t k) (t := t) (k := k) j.seq
    (by simpa only [chainOutTile, (seen_rowSeen s t k).acc, (seen_rowSeen s t k).chainFree] using hfree)
  have wait : ¬ ((!(bufAt (tileAt s t.val) (Mmt.pb k.w)).ready ||
      loadPending (tileAt s t.val) (Mmt.pb k.w) j.seq) = true) := by
    simp [hd.plane, hd.loaded]
  unfold rowSeen at hgo reserve ⊢
  simp only [rowEnter, h.runs, h.executes, h.settled, h.free, hd.none_first, hd.next, wait, hd.slots, empty, poison, slot,
    hgo, reserve, Bool.not_true, Option.isSome_none, Bool.or_false, decide_false, Bool.false_eq_true,
    if_false]

/-! ### A row leaves -/

/-- The tile with other jobs in its row pipe and its queue (03, R73, R75). -/
def withPipes (p q : List AnvJob) (x : Tile) : Tile := { x with anv := { x.anv with rowPipe := p, queue := q } }

theorem tileAt_withPipes (s : State) (t : Nat) (p q : Tile → List AnvJob) (u : Nat) :
    ∃ p' q', tileAt (modTile s t (fun x => withPipes (p x) (q x) x)) u = withPipes p' q' (tileAt s u) := by
  rw [tileAt_modTile]
  split
  · next h => exact ⟨_, _, by rw [h.1]⟩
  · exact ⟨_, _, rfl⟩

theorem tileAt_retired (s : State) (t seq : Nat) (f : MmtJob → MmtJob) (u : Nat) :
    ∃ p q, tileAt (retireMmt (modMmt s t seq f) t) u = withPipes p q (tileAt s u) := by
  obtain ⟨p, q, h⟩ : ∃ p q, tileAt (modMmt s t seq f) u = withPipes p q (tileAt s u) := tileAt_withPipes s t _ _ u
  obtain ⟨p', q', h'⟩ : ∃ p q, tileAt (retireMmt (modMmt s t seq f) t) u = withPipes p q (tileAt (modMmt s t seq f) u) :=
    tileAt_withPipes _ t _ (fun x => x.anv.queue) u
  exact ⟨p', q', by rw [h', h]; rfl⟩

theorem retired_only (s : State) (t seq : Nat) (f : MmtJob → MmtJob) : Only [.tiles] s (retireMmt (modMmt s t seq f) t) :=
  (modTile_only _ _ _).trans (modTile_only _ _ _)

theorem retired_mem (s : State) (t seq : Nat) (f : MmtJob → MmtJob) : (retireMmt (modMmt s t seq f) t).mem = s.mem := by
  simp only [retireMmt, modMmt, modTile_mem]

theorem storeAt_only (s : State) (a : Nat) (bs : List Byte) (src : List Nat) : Only [.mem] s (storeAt s a bs src) := by
  intro p hp; cases p <;> simp_all [Part.same, storeAt]

theorem store_only_mem (s : State) (a : Nat) (bs : List Byte) (src : List Nat) : Only [.mem] s (store s a bs src) := by
  unfold store
  dsimp only
  split
  · exact Only.ite ((storeAt_only _ _ _ _).trans (storeAt_only _ _ _ _)) (storeAt_only _ _ _ _)
  · exact storeAt_only _ _ _ _

/-- What memory holds after a store rests on memory and on the pairs of tiles alone (15, R356). -/
theorem store_mem_congr (hm : n.mem = s.mem) (hc : ∀ u, (tileAt n u).misc.chkTcfg = (tileAt s u).misc.chkTcfg) (a : Nat)
    (bs : List Byte) (src : List Nat) : (store n a bs src).mem = (store s a bs src).mem := by
  have role (u : Nat) : tileRole n u = tileRole s u := by simp only [tileRole, hc]
  have pair (u : Nat) : partner n u = partner s u := by simp only [partner, hc]
  unfold store
  dsimp only
  split
  · simp only [role, pair]
    split <;> simp only [storeAt, hm]
  · simp only [storeAt, hm]

theorem putSlotRow_tiles (s : State) (t slot r : Nat) (es : List Nat) : (putSlotRow s t slot r es).tiles = s.tiles :=
  store_only_mem _ _ _ _ .tiles (by simp)

/-- Bits set in a register read back with those it had. -/
theorem fld_or_ofNat (w : BitVec 64) (v : Nat) {b : Nat} (hb : b < 64) :
    fld (w ||| BitVec.ofNat 64 (v % 2 ^ (b + 1))) b 0 = (fld w b 0 ||| v) % 2 ^ (b + 1) := by
  apply Nat.eq_of_testBit_eq
  intro i
  rw [fld_bit, Nat.testBit_mod_two_pow, Nat.testBit_or, fld_bit]
  by_cases hi : i < b + 1
  · rw [BitVec.getLsbD_or, BitVec.getLsbD_ofNat, Nat.testBit_mod_two_pow]
    simp [hi, show i < 64 by omega]
  · simp [hi]

/-- The tile with flags raised (03, Table 03-11; 00, R12). -/
def withFlags (cyc flags : Nat) (x : Tile) : Tile :=
  { x with anv := { x.anv with
      flag := x.anv.flag ||| BitVec.ofNat 64 (flags % 16)
      flagNow := x.anv.flagNow.note cyc (flags % 16) } }

/-- The tile with status bits of a slot set (04, Table 04-15; 00, R12). -/
def withStatus (cyc slot st : Nat) (x : Tile) : Tile :=
  { x with acc := { x.acc with
      sst := vmod x.acc.sst slot (fun w => w ||| BitVec.ofNat 64 (st % 32))
      sstNow := vmod x.acc.sstNow slot (fun w => w.note cyc (st % 32)) } }

/-- The tile with a row arriving at its chain-in buffer (04, R104). -/
def withArriving (c : ChainRow) (x : Tile) : Tile := { x with acc := { x.acc with arriving := x.acc.arriving ++ [c] } }

/-- The status that a row leaves at its slot or its chain row: with that of the MMT's other rows at its last row (04, R104). -/
def rowStatus (k : MmtJob) (status : Nat) : Nat := if k.written + 1 = k.m then k.status ||| status else status

/-- The state with flags raised, an output row in its slot and the slot's status (03, R71; 04, R91). -/
def slotWritten (s : State) (t : Nat) (k : MmtJob) (r : ArrayRow) (outs : List Nat) (flags status : Nat) : State :=
  let n := putSlotRow (modTile s t (withFlags s.cyc flags)) t (Mmt.slot k.w) r.row outs
  modTile n t (withStatus n.cyc (Mmt.slot k.w) (rowStatus k status))

theorem commitRow_slot (hd : Mmt.dest k.w = 0) (s : State) (t seq flags status : Nat) :
    commitRow s t seq k r outs flags status = retireMmt (modMmt (slotWritten s t k r outs flags status) t seq
      (fun k' => { k' with written := k'.written + 1, status := k.status ||| status })) t := by
  simp only [commitRow, hd, if_true, decide_eq_true_eq]
  rfl

/-- The row that leaves by the chain-out port, with header and, at the last row, trailer (04, R104). -/
def leavingRow (x : Tile) (k : MmtJob) (r : ArrayRow) (outs : List Nat) (status : Nat) : ChainRow :=
  { fmt := if Mmt.af k.w = 1 then X96 else FP32, px := Mmt.px k.w, m := k.m, np := k.plane.np, seq := k.seqOut, row := r.row
    vals := outs, remote := false
    status := if k.written + 1 = k.m then
      (if Mmt.init k.w = 1 then k.status ||| status ||| fld (sstAt x (Mmt.slot k.w)) 4 0 else k.status ||| status) else 0 }

/-- The state with flags raised and an output row at the target of the chain-out port (03, R71; 04, R104). -/
def rowSent (s : State) (t : Nat) (k : MmtJob) (r : ArrayRow) (outs : List Nat) (flags status : Nat) : State :=
  modTile (modTile s t (withFlags s.cyc flags)) (chainOutTile (tileAt (modTile s t (withFlags s.cyc flags)) t))
    (withArriving (leavingRow (tileAt (modTile s t (withFlags s.cyc flags)) t) k r outs status))

theorem commitRow_port (hd : Mmt.dest k.w ≠ 0) (s : State) (t seq flags status : Nat) :
    commitRow s t seq k r outs flags status = retireMmt (modMmt (rowSent s t k r outs flags status) t seq
      (fun k' => { k' with written := k'.written + 1, status := k.status ||| status })) t := by
  simp only [commitRow, hd, if_false, decide_eq_true_eq]
  rfl

theorem slotWritten_tile (s : State) (t : TileId) (k : MmtJob) (r : ArrayRow) (outs : List Nat) (flags status : Nat) :
    ∃ c, tileAt (slotWritten s t.val k r outs flags status) t.val =
      withStatus c (Mmt.slot k.w) (rowStatus k status) (withFlags s.cyc flags (tileAt s t.val)) := by
  have row (u : State) (a : Nat) (es : List Nat) : tileAt (putSlotRow u t.val (Mmt.slot k.w) a es) t.val = tileAt u t.val := by
    simp only [tileAt, putSlotRow_tiles]
  simp only [slotWritten, tileAt_modTile_self, row]
  exact ⟨_, rfl⟩

/-- An output row written to its slot: the row in memory, the flags and the status, and no more of the array (03, R71; 04, R91). -/
theorem commitRow_slot_effect (hd : Mmt.dest k.w = 0) (s : State) (t : TileId) (seq flags status : Nat) :
    (commitRow s t.val seq k r outs flags status).mem = (store s (slotAddr (tileAt s t.val) t.val (Mmt.slot k.w) r.row 0)
      (packElts (8 * geomE (tileAt s t.val)) outs) []).mem ∧
    ∃ c p q, tileAt (commitRow s t.val seq k r outs flags status) t.val = withPipes p q
      (withStatus c (Mmt.slot k.w) (rowStatus k status) (withFlags s.cyc flags (tileAt s t.val))) := by
  rw [commitRow_slot hd]
  obtain ⟨c, hc⟩ := slotWritten_tile s t k r outs flags status
  obtain ⟨p, q, hp⟩ := tileAt_retired (slotWritten s t.val k r outs flags status) t.val seq
    (fun k' => { k' with written := k'.written + 1, status := k.status ||| status }) t.val
  refine ⟨?_, c, p, q, hp.trans (by rw [hc])⟩
  rw [retired_mem, slotWritten, modTile_mem, putSlotRow, tileAt_modTile_self]
  refine store_mem_congr (s := s) (n := modTile s t.val (withFlags s.cyc flags)) (modTile_mem _ _ _) (fun u => ?_) _ _ _
  rw [tileAt_modTile]
  split
  · next h => rw [h.1]; rfl
  · rfl

/-- An output row that leaves by the chain-out port: the row at its target, the flags, and no more of the array (03, R71; 04, R104). -/
theorem commitRow_port_effect (hd : Mmt.dest k.w ≠ 0) (s : State) (t : TileId) (seq flags status : Nat) :
    (commitRow s t.val seq k r outs flags status).mem = s.mem ∧
    ∃ c, c.vals = outs ∧ c.row = r.row ∧ c.m = k.m ∧ c.np = k.plane.np ∧ c.seq = k.seqOut ∧ c.remote = false ∧ ∀ u, ∃ p q,
      tileAt (commitRow s t.val seq k r outs flags status) u = withPipes p q
        ((if u = chainOutTile (tileAt s t.val) then withArriving c else id)
          ((if u = t.val then withFlags s.cyc flags else id) (tileAt s u))) := by
  rw [commitRow_port hd]
  have mem : (rowSent s t.val k r outs flags status).mem = s.mem := by rw [rowSent, modTile_mem, modTile_mem]
  refine ⟨(retired_mem _ _ _ _).trans mem, leavingRow (tileAt (modTile s t.val (withFlags s.cyc flags)) t.val) k r outs status,
    rfl, rfl, rfl, rfl, rfl, rfl, fun u => ?_⟩
  obtain ⟨p, q, hp⟩ := tileAt_retired (rowSent s t.val k r outs flags status) t.val seq
    (fun k' => { k' with written := k'.written + 1, status := k.status ||| status }) u
  refine ⟨p, q, hp.trans (congrArg _ ?_)⟩
  have target : chainOutTile (tileAt (modTile s t.val (withFlags s.cyc flags)) t.val) = chainOutTile (tileAt s t.val) := by
    rw [tileAt_modTile_self]; rfl
  have flagged (u : Nat) : tileAt (modTile s t.val (withFlags s.cyc flags)) u =
      (if u = t.val then withFlags s.cyc flags else id) (tileAt s u) := by
    rw [tileAt_modTile]
    by_cases h : u = t.val
    · simp [h]
    · simp [h]
  rw [rowSent, target, tileAt_modTile]
  by_cases h : u = chainOutTile (tileAt s t.val)
  · simp only [h, chainOutTile_lt, and_self, if_true, flagged]
  · simp only [h, false_and, if_false, flagged, id]

/-- An output row leaves the rest of the array as it is and raises its flags (03, Table 03-11). -/
theorem commitRow_anv (s : State) (t : TileId) (seq : Nat) (k : MmtJob) (r : ArrayRow) (outs : List Nat) (flags status : Nat) :
    (tileAt (commitRow s t.val seq k r outs flags status) t.val).anv.array = (tileAt s t.val).anv.array ∧
    (tileAt (commitRow s t.val seq k r outs flags status) t.val).anv.flag =
      (tileAt s t.val).anv.flag ||| BitVec.ofNat 64 (flags % 16) := by
  by_cases hd : Mmt.dest k.w = 0
  · obtain ⟨-, c, p, q, tile⟩ := commitRow_slot_effect (r := r) (outs := outs) hd s t seq flags status
    rw [tile]
    exact ⟨rfl, rfl⟩
  · obtain ⟨-, c, -, -, -, -, -, -, tile⟩ := commitRow_port_effect (r := r) (outs := outs) hd s t seq flags status
    obtain ⟨p, q, tile⟩ := tile t.val
    rw [tile]
    simp only [if_true]
    split <;> exact ⟨rfl, rfl⟩

theorem commitRow_only (s : State) (t seq : Nat) (k : MmtJob) (r : ArrayRow) (outs : List Nat) (flags status : Nat) :
    Only [.tiles, .mem] s (commitRow s t seq k r outs flags status) := by
  have tiles {u v : State} (h : Only [.tiles] u v) : Only [.tiles, .mem] u v := h.mono (by simp)
  by_cases hd : Mmt.dest k.w = 0
  · rw [commitRow_slot hd]
    refine Only.trans ?_ (tiles (retired_only _ _ _ _))
    have row (u : State) : Only [.tiles, .mem] u (putSlotRow u t (Mmt.slot k.w) r.row outs) :=
      (store_only_mem _ _ _ _).mono (by simp)
    exact Only.trans (Only.trans (tiles (modTile_only _ _ _)) (row _)) (tiles (modTile_only _ _ _))
  · rw [commitRow_port hd]
    exact Only.trans (tiles ((modTile_only _ _ _).trans (modTile_only _ _ _))) (tiles (retired_only _ _ _ _))

/-- The row that leaves agrees with its checksum column, where there is one to compare it with (15, R353). -/
def RowAgrees (k : MmtJob) (r : ArrayRow) (init : List Nat) (o : RowOut) (v : List Nat) (e : RowError) : Prop :=
  k.plane.ck = true → rowSkipped k r o v = true ∨ rowPasses k r init o v e = true

theorem RowAgrees.checked {init : List Nat} {o : RowOut} {v : List Nat} {e : RowError} (h : RowAgrees k r init o v e) :
    (k.plane.ck && !rowSkipped k r o v && !rowPasses k r init o v e) = false := by
  cases hck : k.plane.ck
  · rfl
  · obtain h | h := h hck <;> simp [h]

/-- The tile with its oldest row gone from the array, and its counts of the checker (03, R71; 15, R353). -/
def rowGone (rest : List ArrayRow) (tst : Reg) (x : Tile) : Tile :=
  { x with anv := { x.anv with array := rest }, misc := { x.misc with chkTstat := tst } }

/-- A row whose outputs agree leaves the array (03, R71; 15, R353, R357). -/
theorem rowWrite_agrees {rest : List ArrayRow} {err shadowErr : RowError} (ha : (tileAt s t.val).anv.array = r :: rest)
    (hr : (tileAt s t.val).anv.replay = none) (hk : mmtOf (tileAt s t.val) r.seq = some k) {init : List Nat} {o : RowOut}
    (hi : rowInit s t.val k r = init) (ho : rowResult s t.val k r = o) (agrees : RowAgrees k r init o (corrupt o.outs err) err)
    (paired : tileRole s t.val = 1 →
      corrupt o.outs err = corrupt o.outs shadowErr ∧ RowAgrees k r init o (corrupt o.outs err) shadowErr) :
    ∃ tst, rowWrite s t.val err shadowErr =
      commitRow (modTile s t.val (rowGone rest tst)) t.val r.seq k r (corrupt o.outs err) o.flags o.status := by
  have sum : (k.plane.ck && !(k.plane.ck && rowSkipped k r o (corrupt o.outs err)) &&
      !rowPasses k r init o (corrupt o.outs err) err) = false := by
    have := agrees.checked
    cases hck : k.plane.ck <;> simp_all
  have shadow : (decide (tileRole s t.val = 1) && k.plane.ck && !rowSkipped k r o (corrupt o.outs shadowErr) &&
      !rowPasses k r init o (corrupt o.outs shadowErr) shadowErr) = false := by
    by_cases hp : tileRole s t.val = 1
    · obtain ⟨same, h⟩ := paired hp
      simp only [hp, decide_true, Bool.true_and]
      exact (same ▸ h).checked
    · simp [hp]
  have pair : (decide (tileRole s t.val = 1) && decide (corrupt o.outs err ≠ corrupt o.outs shadowErr)) = false := by
    by_cases hp : tileRole s t.val = 1
    · simp [(paired hp).1]
    · simp [hp]
  refine ⟨if k.plane.ck && rowSkipped k r o (corrupt o.outs err) then
    bumpSat (tileAt s t.val).misc.chkTstat 31 16 1 else (tileAt s t.val).misc.chkTstat, ?_⟩
  unfold rowWrite
  simp only [ha, hr, hk, hi, ho, sum, shadow, pair, Bool.false_or, Bool.false_and, Bool.false_eq_true, if_false]
  congr 1
  split <;> simp only [tstat, modTile_put, tileAt_put, putTile_putTile] <;> rfl

/-! ### Rows of the array -/

theorem rowGone_acc_chkTcfg (s : State) (t : TileId) (rest : List ArrayRow) (tst : Reg) (u : Nat) :
    (tileAt (modTile s t.val (rowGone rest tst)) u).acc = (tileAt s u).acc ∧
      (tileAt (modTile s t.val (rowGone rest tst)) u).misc.chkTcfg = (tileAt s u).misc.chkTcfg := by
  rw [tileAt_modTile]
  split
  · next h => rw [h.1]; exact ⟨rfl, rfl⟩
  · exact ⟨rfl, rfl⟩

/-- Settles O10: a row enters by `enterRow` once a row is reserved at its target, and leaves by `commitRow`. -/
theorem rowsCrossArray : Obligations.RowsCrossArray := by
  unfold Obligations.RowsCrossArray
  dsimp only
  refine ⟨fun s t hruns hrole hreplay hheld => ⟨?again, ?next⟩, ?leaves⟩
  case again =>
    intro r rest hr
    exact congrArg _ (rowEnter_reenter ⟨hruns, hrole, hreplay, hheld⟩ hr)
  case next =>
    intro j k es sa hnone hnext hplane hloaded hslots hchain hclean hgo hfree
    have seen := seen_rowSeen s t k
    have due : RowDue s t j k := ⟨hnone, hnext, hplane, hloaded, hslots, hchain, hclean⟩
    have entered := rowEnter_due ⟨hruns, hrole, hreplay, hheld⟩ due hgo hfree
    have anv : (tileAt (rowReserved (rowSeen s t k) t.val k) t.val).anv = (tileAt s t.val).anv :=
      (rowReserved_anv _ _ _ _).trans (seen.anv _)
    have fifo : (tileAt (rowReserved (rowSeen s t k) t.val k) t.val).acc.fifo = (tileAt s t.val).acc.fifo :=
      (rowReserved_fifo _ _ _ _).trans (congrArg _ (seen.acc _))
    have target : chainOutTile (tileAt (rowSeen s t k) t.val) = chainOutTile (tileAt s t.val) := by
      simp only [chainOutTile, seen.acc]
    refine ⟨_, congrArg Host.Outcome.next entered, ?array, ?fifo, ?reserved,
      (rowReserved_only _ _ _).trans (enterRow_only _ _ _ _ _ _), ?others⟩
    case array =>
      rw [enterRow_array, anv, enteringRow_congr anv fifo]
      rfl
    case fifo =>
      rw [enterRow_fifo (fun hi => ?_), fifo]
      · rfl
      · obtain ⟨c, hc, -⟩ := hchain hi
        rw [fifo, hc]; rfl
    case reserved =>
      intro hd hne
      rw [enterRow_onlyTile _ _ _ _ _ _ _ hne, tileAt_rowReserved, target, if_pos ⟨hd, rfl⟩]
      exact congrArg (·.reserved + 1) (seen.acc _)
    case others =>
      intro u hu ho
      rw [enterRow_onlyTile _ _ _ _ _ _ _ hu, tileAt_rowReserved, target, if_neg (fun h => ho h.1 h.2)]
      rfl
  case leaves =>
    intro s t r rest k err shadowErr ha hr hk
    generalize ho : rowResult s t.val k r = o
    intro agrees paired
    obtain ⟨tst, left⟩ := rowWrite_agrees ha hr hk rfl ho agrees paired
    have gone := tileAt_modTile_self s t (rowGone rest tst)
    have acc (u : Nat) := (rowGone_acc_chkTcfg s t rest tst u).1
    have only := (modTile_only s t.val (rowGone rest tst)).mono (qs := [.tiles, .mem]) (by simp)
    obtain ⟨array, flag⟩ := commitRow_anv (modTile s t.val (rowGone rest tst)) t r.seq k r (corrupt o.outs err) o.flags o.status
    rw [gone] at array flag
    refine ⟨_, congrArg Host.Outcome.next left, array, ?flag, ?slot, ?port, only.trans (commitRow_only _ _ _ _ _ _ _ _)⟩
    case flag =>
      rw [flag]
      exact fld_or_ofNat _ _ (b := 3) (by decide)
    case slot =>
      intro hd
      obtain ⟨mem, c, p, q, tile⟩ := commitRow_slot_effect (r := r) (outs := corrupt o.outs err) hd
        (modTile s t.val (rowGone rest tst)) t r.seq o.flags o.status
      rw [gone] at mem tile
      refine ⟨mem.trans (store_mem_congr (modTile_mem _ _ _) (fun u => (rowGone_acc_chkTcfg s t rest tst u).2) _ _ _), ?_⟩
      rw [tile]
      have slot : Mmt.slot k.w < 64 := BitVec.isLt _
      change fld (vget (vmod (tileAt s t.val).acc.sst (Mmt.slot k.w) _) (Mmt.slot k.w) 0) 4 0 = _
      rw [vget_vmod_self _ _ _ _ slot]
      exact fld_or_ofNat _ _ (b := 4) (by decide)
    case port =>
      intro hd
      obtain ⟨mem, c, vals, row, m, np, seq, remote, tile⟩ := commitRow_port_effect (r := r) (outs := corrupt o.outs err) hd
        (modTile s t.val (rowGone rest tst)) t r.seq o.flags o.status
      have target : chainOutTile (tileAt (modTile s t.val (rowGone rest tst)) t.val) = chainOutTile (tileAt s t.val) := by
        simp only [chainOutTile, acc]
      rw [target] at tile
      obtain ⟨p, q, tile⟩ := tile (chainOutTile (tileAt s t.val))
      refine ⟨mem.trans (modTile_mem _ _ _), c, ?_, vals, row, m, np, seq, remote⟩
      rw [tile, if_pos rfl, ← acc]
      split <;> rfl

end Sys2Proof.Machine
end

section
/-! Words that fail a check of their instruction (03, R76; 10, R233): the fault register, the stop of the stream and the record. -/

namespace Sys2Proof.Machine

variable {s : State} {t : TileId} {w : Word128} {sp c d : Nat}

/-! ### One record more -/

/-- The record that is raised stands in the log (15, R373, R374). -/
theorem raise_recorded (s : State) (space code detail : Nat) (h : Option Nat) (agent a0 a1 a2 : Nat) :
    Recorded s (raise s space code detail h agent a0 a1 a2) 0 space code (detail % 256) := by
  have log (r : Rec) : { r with seq := s.recs.seq } ∈ (placeRec s r).recs.ring ++ (placeRec s r).recs.overflow := by
    simp only [placeRec, tellHearth_recs, hostCopy_recs]
    exact mem_log_putRec_self _
  exact ⟨_, log _, rfl, rfl, rfl, rfl⟩

theorem tileAt_raise (s : State) (space code detail : Nat) (h : Option Nat) (agent a0 a1 a2 u : Nat) :
    tileAt (raise s space code detail h agent a0 a1 a2) u = tileAt s u := by
  have tiles : Part.tiles.same s _ := raise_only s space code detail h agent a0 a1 a2 false .tiles (by simp [recParts])
  simp only [Part.same] at tiles
  simp only [tileAt, tiles]

/-! ### The fault register of a unit -/

/-- The spaces of the units whose instructions fault at issue (15, Table 15-10). -/
def issueSpaces : List Nat := [1, 2, 3, 4, 5, 7, 9]

/-- The fault register of the unit with this space (15, Table 15-10). -/
def faultReg (sp : Nat) (y : Tile) : Reg :=
  if sp = 1 then y.anv.fault else if sp = 2 then y.acc.fault else if sp = 3 then y.win.fault else if sp = 4 then y.vec.fault
  else if sp = 5 then y.vec.sfuFault else if sp = 7 then y.blw.fault else y.misc.synFault

/-- A write of a fault register is read back, and neither the queues of the tile nor its stream move. -/
theorem setFault_effect (hsp : sp ∈ issueSpaces) (s : State) (t : TileId) (v : Reg) :
    ∃ y, setFault s t.val sp v = putTile s t y ∧ faultReg sp y = v ∧ y.anv.queue = (tileAt s t.val).anv.queue ∧
      y.vec.queue = (tileAt s t.val).vec.queue ∧ y.blw.csCtl = (tileAt s t.val).blw.csCtl := by
  simp only [issueSpaces, List.mem_cons, List.not_mem_nil, or_false] at hsp
  refine ⟨_, modTile_put s t _, ?_⟩
  rcases hsp with rfl | rfl | rfl | rfl | rfl | rfl | rfl <;> exact ⟨rfl, rfl, rfl, rfl⟩

/-- The tile when its stream stops at a fault with this record next (10, R233). -/
def stopped (seq : Nat) (x : Tile) : Tile :=
  { x with acc := { x.acc with headFc := none }
           blw := { x.blw with csCtl := setFld x.blw.csCtl 5 4 csFaulted, pend := none }
           misc := { x.misc with wait := none, faultSeq := some seq } }

theorem stopStream_running (h : csState s t.val = 1) : stopStream s t.val = putTile s t (stopped s.recs.seq (tileAt s t.val)) := by
  simp only [stopStream, setCs, csRunning, h, if_true, modTile_put, tileAt_put, putTile_putTile]
  rfl

theorem stopped_faultReg (seq : Nat) (x : Tile) : faultReg sp (stopped seq x) = faultReg sp x := rfl

/-! ### A fault at a word -/

theorem issueWord_fault (hc : canIssue s t.val w = true) (hf : ∃ f, issueOf t.val w = some f ∧ f s = .fault sp c d) :
    issueWord s t.val w = tileFault s t.val sp c (d % 256) (csWord s t.val) (d / 256) := by
  obtain ⟨f, hi, hf⟩ := hf
  simp only [issueWord, hi, issue, hc, if_true, hf]

/-- A stream that may issue runs and has not reached its limit (10, R233). -/
theorem canIssue_running (h : canIssue s t.val w = true) :
    csState s t.val = 1 ∧ csWord s t.val < fld (tileAt s t.val).blw.csLim 31 0 := by
  simp only [canIssue, Bool.and_eq_true, decide_eq_true_eq] at h
  obtain ⟨⟨⟨⟨⟨running, below⟩, -⟩, -⟩, -⟩, -⟩ := h
  exact ⟨running, below⟩

/-- A fault at a word of a running stream: the register of its unit, the stream FAULTED at the word, and the record. -/
theorem tileFault_effect (hsp : sp ∈ issueSpaces) (hr : csState s t.val = 1) (c d word mid : Nat) :
    ∃ y, tileFault s t.val sp c d word mid =
        raise (putTile s t (stopped s.recs.seq y)) sp c d (tileHearth s t.val) (0x100000 + t.val) 0 word ∧
      faultReg sp y = faultWord word mid c d ∧ y.anv.queue = (tileAt s t.val).anv.queue ∧
      y.vec.queue = (tileAt s t.val).vec.queue ∧ y.blw.csCtl = (tileAt s t.val).blw.csCtl := by
  obtain ⟨y, hput, hreg, hanv, hvec, hctl⟩ := setFault_effect hsp s t (faultWord word mid c d)
  have running : csState (putTile s t y) t.val = 1 := by
    rw [csState, tileAt_put, hctl]; exact hr
  refine ⟨y, ?_, hreg, hanv, hvec, hctl⟩
  rw [tileFault, hput, stopStream_running running, tileAt_put, putTile_putTile]
  rfl

/-- The contents of a fault register (03, R76). -/
theorem faultWord_eq {word : Nat} (hw : word < 2 ^ 32) (hc : c < 256) (hd : d < 2 ^ 24) :
    faultWord word (d / 256) c (d % 256) = BitVec.ofNat 64 (word * 2 ^ 32 + d / 256 * 2 ^ 16 + c * 2 ^ 8 + d % 256) := by
  have mid : d / 256 < 2 ^ 16 := by omega
  simp only [faultWord, Nat.mod_eq_of_lt hw, Nat.mod_eq_of_lt mid, Nat.mod_eq_of_lt hc, Nat.mod_mod]

/-- Settles O19: the word faults by `tileFault`, which writes the register, stops the stream and raises the record. -/
theorem failedWordsFault : Obligations.FailedWordsFault := by
  intro s t w sp c d hc hf hsp hcode hdet
  dsimp only
  obtain ⟨y, hn, hreg, hanv, hvec, hctl⟩ :=
    tileFault_effect hsp (canIssue_running hc).1 c (d % 256) (csWord s t.val) (d / 256)
  have tile : tileAt (issueWord s t.val w) t.val = stopped s.recs.seq y := by
    rw [issueWord_fault hc hf, hn, tileAt_raise, tileAt_put]
  rw [csState, csWord, tile]
  rw [issueWord_fault hc hf, hn]
  refine ⟨?state, ?word, ?record, ?register, hanv, hvec, ?only, ?onlyTile⟩
  case state => exact fld_setFld _ 5 4 3 (by decide)
  case word =>
    change fld (setFld y.blw.csCtl 5 4 csFaulted) 63 32 = _
    rw [fld_setFld_apart _ 5 4 63 32 _ (by decide) (by decide), hctl]
    rfl
  case record =>
    have record := raise_recorded (putTile s t (stopped s.recs.seq y)) sp c (d % 256) (tileHearth s t.val) (0x100000 + t.val) 0
      (csWord s t.val) 0
    rwa [Nat.mod_mod] at record
  case register =>
    have word : csWord s t.val < 2 ^ 32 := fld_lt _ 63 32
    rw [← faultWord_eq word hcode hdet]
    exact (stopped_faultReg _ _).trans hreg
  case only =>
    have raised := raise_only (putTile s t (stopped s.recs.seq y)) sp c (d % 256) (tileHearth s t.val) (0x100000 + t.val) 0
      (csWord s t.val) 0 false
    exact ((putTile_only _ _ _).mono (by simp)).trans (raised.mono fun _ => List.mem_append_right _)
  case onlyTile =>
    exact OnlyTile.trans (putTile_onlyTile _ _ _) fun u _ => tileAt_raise _ _ _ _ _ _ _ _ _ u

end Sys2Proof.Machine
end

section
/-! Loads of plane buffers (03, R63 to R66; 09, R197): where a load starts, and what the buffer holds when it is ready. -/

namespace Sys2Proof.Machine

variable {s : State} {t : TileId} {j : AnvJob} {k : LdpJob}

/-! ### The start of a load -/

theorem modBuf_put (s : State) (t : TileId) (x : Tile) (b : Nat) (f : PlaneBuf → PlaneBuf) :
    modBuf (putTile s t x) t.val b f = putTile s t { x with anv := { x.anv with buf := vmod x.anv.buf b f } } := by
  rw [modBuf, modTile_put, tileAt_put, putTile_putTile]

theorem loadStart_first (hop : j.op = .ldp k) (hruns : tileRuns s t.val = true) (hrole : tileRole s t.val ≠ 2)
    (hpipe : (tileAt s t.val).anv.loadPipe = none) (hfirst : (tileAt s t.val).anv.queue.find? isLdp = some j)
    (hread : bufReads (tileAt s t.val) (Ldp.pb k.w) j.seq (tileLevel s t.val) = false) :
    loadStart s t.val = putTile s t { tileAt s t.val with anv := { (tileAt s t.val).anv with
      queue := (tileAt s t.val).anv.queue.filter (fun q => q.seq != j.seq), loadPipe := some j
      buf := vmod (tileAt s t.val).anv.buf (Ldp.pb k.w) (fun v => { v with loading := true, ready := false }) } } := by
  have starts : (tileRuns s t.val && decide (tileRole s t.val ≠ 2) &&
      !bufReads (tileAt s t.val) (Ldp.pb k.w) j.seq (tileLevel s t.val)) = true := by
    simp [hruns, hrole, hread]
  simp only [loadStart, hpipe, hfirst, hop, starts, if_true, modTile_put, modBuf_put]

/-! ### The plane that a load writes -/

theorem getD_map_range {α : Type} {n i : Nat} (f : Nat → α) (d : α) (h : i < n) : ((List.range n).map f).getD i d = f i := by
  simp [List.getD, h]

/-- m elements of source row r of a load (03, R63). -/
def sourceRow (s : State) (t : Nat) (k : LdpJob) (r m : Nat) : List Nat :=
  unpack (eltBits k.info.fmt) m (scrRead s t (32 * (Ldp.badr k.w + r * Ldp.bstr k.w)) (eltBytes k.info.fmt m))

/-- The columns that a load writes: its source rows with `T` = 1, else their transpose (03, R63, R64). -/
def loadedCols (s : State) (t : Nat) (k : LdpJob) : List (List Nat) :=
  if Ldp.t k.w = 1 then (List.range k.info.np).map (fun c => sourceRow s t k c k.info.kp)
  else (List.range k.info.np).map (fun c => (List.range k.info.kp).map (fun e => (sourceRow s t k e k.info.np).getD c 0))

/-- The scale codes that a load writes: those of its scale rows, or of the scale 1 (03, R60, R64). -/
def loadedScales (s : State) (t : Nat) (k : LdpJob) : List (List Nat) :=
  (List.range k.info.np).map (fun c =>
    if isMx k.info.fmt then (scrRead s t (32 * Ldp.bsadr k.w + c * Ldp.bsstr k.w) (k.info.kp / 32)).map (·.toNat)
    else List.replicate (k.info.kp / 32) 127)

theorem bufferReady_loaded (hop : j.op = .ldp k) (hruns : tileRuns s t.val = true)
    (hpipe : (tileAt s t.val).anv.loadPipe = some j) (hheld : pipeHeld (tileAt s t.val) 1 = false) {u : State}
    (hu : u = seeRanges s t.val (ldpRows k ++ ldpScales k)) (hp : rangesPoison u t.val (ldpRows k ++ ldpScales k) = none) :
    bufferReady s t.val = putTile u t { tileAt u t.val with anv := { (tileAt s t.val).anv with
      loadPipe := none
      buf := vmod (tileAt s t.val).anv.buf (Ldp.pb k.w) (fun v => { v with
        loading := false, ready := true, cols := loadedCols s t.val k, scales := loadedScales s t.val k }) } } := by
  have seen : Seen s u := hu ▸ seen_seeRanges _ _ _
  have cols : (if Ldp.t k.w = 1 then (ldpRows k).map (fun r => unpack (eltBits k.info.fmt)
        (if Ldp.t k.w = 1 then k.info.kp else k.info.np) (scrRead u t.val r.1 r.2))
      else (List.range k.info.np).map (fun c => ((ldpRows k).map (fun r => unpack (eltBits k.info.fmt)
        (if Ldp.t k.w = 1 then k.info.kp else k.info.np) (scrRead u t.val r.1 r.2))).map (fun r => r.getD c 0))) =
      loadedCols s t.val k := by
    by_cases ht : Ldp.t k.w = 1
    · simp only [ldpRows, loadedCols, sourceRow, ht, if_true, List.map_map, seen.scrRead, Function.comp_def]
    · simp only [ldpRows, loadedCols, sourceRow, ht, if_false, List.map_map, seen.scrRead, Function.comp_def]
  have scales : (if isMx k.info.fmt = true then (ldpScales k).map (fun r => (scrRead u t.val r.1 r.2).map (·.toNat))
      else (List.range k.info.np).map (fun _ => List.replicate (k.info.kp / 32) 127)) = loadedScales s t.val k := by
    by_cases hm : isMx k.info.fmt = true
    · simp only [ldpScales, loadedScales, hm, if_true, List.map_map, seen.scrRead, Function.comp_def]
    · simp only [loadedScales, hm, Bool.false_eq_true, if_false]
  simp only [bufferReady, hpipe, hop, hruns, hheld, Bool.not_false, Bool.and_self, if_true, ← hu, hp, cols, scales, modTile_put,
    modBuf_put, seen.anv]

theorem loadedCols_getD {c e : Nat} (hc : c < k.info.np) (he : e < k.info.kp) (s : State) (t : Nat) :
    ((loadedCols s t k).getD c []).getD e 0 =
      if Ldp.t k.w = 1 then (sourceRow s t k c k.info.kp).getD e 0 else (sourceRow s t k e k.info.np).getD c 0 := by
  unfold loadedCols
  split
  · rw [getD_map_range _ _ hc]
  · rw [getD_map_range _ _ hc, getD_map_range _ _ he]

theorem loadedScales_getD {c g : Nat} (hc : c < k.info.np) (hg : g < k.info.kp / 32) (s : State) (t : Nat) :
    ((loadedScales s t k).getD c []).getD g 0 =
      if isMx k.info.fmt then
        ((scrRead s t (32 * Ldp.bsadr k.w + c * Ldp.bsstr k.w) (k.info.kp / 32)).getD g 0).toNat
      else 127 := by
  rw [loadedScales, getD_map_range _ _ hc]
  split
  · exact List.getD_map _ (0 : Byte) (·.toNat)
  · simp [List.getD, hg]

/-- Settles O9: `loadStart` takes the first LDP, and `bufferReady` writes `loadedCols` and `loadedScales`. -/
theorem planeLoads : Obligations.PlaneLoads := by
  intro s t j k hop hruns
  refine ⟨fun hrole hpipe hfirst hread => congrArg Host.Outcome.next (loadStart_first hop hruns hrole hpipe hfirst hread), ?_⟩
  intro u hu hpipe hheld hp
  refine ⟨loadedCols s t.val k, loadedScales s t.val k,
    congrArg Host.Outcome.next (bufferReady_loaded hop hruns hpipe hheld hu hp), ?_, by simp [loadedScales],
    fun c hc e he => loadedCols_getD hc he s t.val, fun c hc g hg => loadedScales_getD hc hg s t.val⟩
  unfold loadedCols
  split <;> simp

end Sys2Proof.Machine
end

section
/-! MMT, LDP, BLD and BKT at issue (03, R68, R75, R78, R83 to R86; 04, R105; 09, R197). -/

namespace Sys2Proof.Machine

variable {s : State} {t : TileId} {w : Word128}

/-! ### Words that issue -/

theorem advance_self (s : State) (t : TileId) (n : Nat) : advance s t.val n = putTile s t (movedTo n (tileAt s t.val)) := by
  unfold advance setCsWord
  simp only [modTile_put, tileAt_put, putTile_putTile]
  rfl

/-- A word that issues and sends the stream to a word of its own choice. -/
theorem issueCmd_goto {op n : Nat} {f : State → Issue} (h : Stands s t w op) (hf : f s = .goto s n) :
    issueCmd op t.val w f s = .next (putTile s t (movedTo n (tileAt s t.val))) := by
  obtain ⟨hop, hc⟩ := h
  rw [issueCmd, issue, opOf_wf, if_pos hop, if_pos hc, hf]
  exact congrArg _ (advance_self s t n)

/-- The word after one that may issue has an index of 32 bits (10, R233). -/
theorem csWord_succ_lt (h : canIssue s t.val w = true) : csWord s t.val + 1 < 2 ^ 32 := by
  obtain ⟨-, below⟩ := canIssue_running h
  have limit : fld (tileAt s t.val).blw.csLim 31 0 < 2 ^ 32 := fld_lt _ 31 0
  omega

theorem anvFull_of_room {x : Tile} (h : x.anv.queue.length < 16) : anvFull x = false := by
  simp only [anvFull, decide_eq_false_iff_not]
  omega

theorem pushAnv_put (s : State) (t : TileId) (op : AnvOp) :
    pushAnv s t.val op = putTile s t (withAnvil s t op (tileAt s t.val)) := modTile_put s t _

/-! ### MMT -/

theorem winAdvance_acc (x : Tile) (m : Nat) : (winAdvance x m).acc = x.acc := by
  unfold winAdvance; split <;> rfl

theorem winAdvance_blw (x : Tile) (m : Nat) : (winAdvance x m).blw = x.blw := by
  unfold winAdvance; split <;> rfl

/-- What an MMT at issue makes of the accumulator unit: the segments that it sends and consumes are numbered, and a slot that it
begins takes its P (04, R93, R105). -/
def numberedAcc (w : Word128) (a : Accum) : Accum :=
  { a with
    seqOut := if Mmt.dest w = 1 then a.seqOut + 1 else a.seqOut
    seqIn := if Mmt.init w = 2 then (a.fifo.head?.map (·.seq)).getD a.seqIn else a.seqIn
    seqNew := a.seqNew && decide (Mmt.init w ≠ 2)
    headFc := none
    trackPX := if Mmt.af w = 1 ∧ Mmt.init w = 0 ∧ Mmt.dest w = 0 then vput a.trackPX (Mmt.slot w) (Mmt.px w) else a.trackPX }

/-- The job of an MMT that issues (03, R75, R78; 05, R118). -/
def issuedMmt (x : Tile) (w : Word128) (p : PlaneInfo) : MmtJob :=
  { w := w, m := mmtM x w, plane := p, win := (x.win.oy, x.win.ox, x.win.ch), seqOut := x.acc.seqOut + 1 }

/-- The tile when an MMT has taken its place in the anvil queue and moved the cursor of the window on (03, R75; 05, R118). -/
def queuedMmt (s : State) (t : TileId) (w : Word128) (p : PlaneInfo) : Tile :=
  let y := withAnvil s t (.mmt (issuedMmt (tileAt s t.val) w p)) (tileAt s t.val)
  if Mmt.src w = 1 then winAdvance y (mmtM (tileAt s t.val) w) else y

theorem queuedMmt_acc (s : State) (t : TileId) (w : Word128) (p : PlaneInfo) :
    (queuedMmt s t w p).acc = (tileAt s t.val).acc := by
  unfold queuedMmt
  split
  · exact winAdvance_acc _ _
  · rfl

theorem queuedMmt_blw (s : State) (t : TileId) (w : Word128) (p : PlaneInfo) :
    (queuedMmt s t w p).blw = (tileAt s t.val).blw := by
  unfold queuedMmt
  split
  · exact winAdvance_blw _ _
  · rfl

theorem acceptMmt_put (s : State) (t : TileId) (w : Word128) (p : PlaneInfo) :
    acceptMmt s t.val w p = putTile s t { queuedMmt s t w p with acc := numberedAcc w (tileAt s t.val).acc } := by
  have queued : acceptMmt s t.val w p =
      putTile s t { queuedMmt s t w p with acc := numberedAcc w (queuedMmt s t w p).acc } := by
    simp only [acceptMmt, pushAnv_put, modTile_put, tileAt_put, putTile_putTile]
    rfl
  rw [queued, queuedMmt_acc]

/-- A chain-in MMT whose segment's header is at the head, and any other MMT, issues when its checks pass and the queue has room. -/
theorem issueMmt_done {p : PlaneInfo} (hf : mmtFault s t.val w = none)
    (hp : (bufAt (tileAt s t.val) (Mmt.pb w)).issued = some p) (hroom : (tileAt s t.val).anv.queue.length < 16)
    (hseg : Mmt.init w = 2 → headTaken (tileAt s t.val) = false ∧
      ∃ c, (tileAt s t.val).acc.fifo.head? = some c ∧ segFault (tileAt s t.val) w p.np c = none) :
    issueMmt t.val w s = .done (acceptMmt s t.val w p) := by
  have room := anvFull_of_room hroom
  by_cases hi : Mmt.init w = 2
  · obtain ⟨taken, c, head, fits⟩ := hseg hi
    obtain ⟨rest, fifo⟩ := List.head?_eq_some_iff.1 head
    have ready : headReady (tileAt s t.val) = true := by simp [headReady, taken, fifo]
    simp [issueMmt, hi, room, ready, hf, hp, fifo, fits]
  · simp [issueMmt, hi, room, hf, hp]

theorem exec_mmt {p : PlaneInfo} (h : Stands s t w 0x10) (hd : issueMmt t.val w s = .done (acceptMmt s t.val w p)) :
    exec (.mmt t w) s = .next (issuedAs s t { queuedMmt s t w p with acc := numberedAcc w (tileAt s t.val).acc }) :=
  issueCmd_done h (hd.trans (congrArg _ (acceptMmt_put s t w p))) (congrArg (·.csCtl) (queuedMmt_blw s t w p))

/-- The header of its segment lets the chain-in MMT issue that the stream holds at (04, R105). -/
theorem exec_chainSegmentHead (hop : wf w 127 120 = 0x10) (hp : (tileAt s t.val).blw.pend = some w) (hi : Mmt.init w = 2) :
    exec (.chainSegmentHead t) s = exec (.mmt t w) s := by
  change Host.Outcome.next _ = Host.Outcome.next _
  simp only [hp, opOf_wf, hop, hi, and_self, if_true]

/-! ### LDP -/

theorem issueLdp_done (hf : ldpFault s t.val w = none) (hroom : (tileAt s t.val).anv.queue.length < 16) {i : PlaneInfo}
    (hi : i = { fmt := Ldp.fb w, kp := ldpK (tileAt s t.val) w, np := ldpN (tileAt s t.val) w, ck := decide (Ldp.ck w = 1) }) :
    issueLdp t.val w s = .done (putTile s t (let y := withAnvil s t (.ldp { w := w, info := i }) (tileAt s t.val)
      { y with anv := { y.anv with buf := vmod y.anv.buf (Ldp.pb w) (fun b => { b with issued := some i }) } })) := by
  subst hi
  simp [issueLdp, hf, anvFull_of_room hroom, pushAnv_put, modBuf_put]

/-! ### BLD -/

/-- Consecutive elements of a vector, put in turn. -/
theorem vget_forEach_vput {α : Type} {m : Nat} (v : Vector α m) (a : Nat) (f : Nat → α) (d : α) {r : Nat} (hr : r < m)
    (n : Nat) :
    vget (forEach (List.range n) v (fun i v => vput v (a + i) (f i))) r d =
      if a ≤ r ∧ r < a + n then f (r - a) else vget v r d := by
  induction n with
  | zero =>
    rw [if_neg (by omega)]
    rfl
  | succ n ih =>
    have step : forEach (List.range (n + 1)) v (fun i v => vput v (a + i) (f i)) =
        vput (forEach (List.range n) v (fun i v => vput v (a + i) (f i))) (a + n) (f n) := by
      simp only [forEach, List.range_succ, List.foldl_append, List.foldl_cons, List.foldl_nil]
    rw [step, vget_vput, ih]
    by_cases h : r = a + n
    · subst h
      rw [if_pos ⟨rfl, hr⟩, if_pos (by omega), Nat.add_sub_cancel_left]
    · rw [if_neg (by omega)]
      exact if_congr (by omega) rfl rfl

/-- The bound registers after a load from scratch (03, R83). -/
def loadedBound (s : State) (t : Nat) (w : Word128) (b : Vector Reg 16) : Vector Reg 16 :=
  forEach (List.range (Bld.cntm1 w + 1)) b (fun i v =>
    vput v (Bld.first w + i) (BitVec.ofNat 64 (leNat (scrRead s t (32 * Bld.addr w + 4 * i) 4) % 2 ^ 20)))

/-- A BLD whose checks pass loads its registers once it has seen its words. -/
theorem exec_bld (h : Stands s t w 0x12) (hregs : Bld.first w + Bld.cntm1 w ≤ 15)
    (hscr : 32 * Bld.addr w + 4 * (Bld.cntm1 w + 1) ≤ scrSize s t.val) {u : State}
    (hu : u = scrSee s t.val (32 * Bld.addr w) (4 * (Bld.cntm1 w + 1))) :
    exec (.bld t w) s = .next (putTile u t (movedTo (csWord s t.val + 1)
      { tileAt u t.val with anv := { (tileAt s t.val).anv with bound := loadedBound s t.val w (tileAt s t.val).anv.bound } })) := by
  have seen : Seen s u := hu ▸ seen_scrSee _ _ _ _
  have issues : issueBld t.val w s = .done (putTile u t
      { tileAt u t.val with anv := { (tileAt s t.val).anv with bound := loadedBound s t.val w (tileAt s t.val).anv.bound } }) := by
    rw [issueBld, if_neg (by omega), if_neg (by simpa [inScratch] using hscr), ← hu, modTile_put, seen.anv]
    rfl
  have done := issueCmd_done' h issues
  rw [csWord_put, advance_put] at done
  refine done.trans (congrArg (fun n => Host.Outcome.next (putTile u t (movedTo (n + 1) _))) ?_)
  exact seen.csWord t.val

/-! ### BKT -/

/-- The first of consecutive entries that satisfies a condition. -/
theorem find?_map_range {α : Type} {f : Nat → α} {p : α → Bool} {n k : Nat} (hk : k < n) (h : p (f k) = true)
    (hfirst : ∀ j < k, p (f j) = false) : ((List.range n).map f).find? p = some (f k) := by
  have found : (List.range n).find? (p ∘ f) = some k := by
    rw [List.find?_range_eq_some]
    exact ⟨h, List.mem_range.2 hk, fun j hj => by simp [hfirst j hj]⟩
  rw [List.find?_map, found]
  rfl

theorem issueBkt_goto (hmode : dynMode (tileAt s t.val) = 2) (hv : boundAt (tileAt s t.val) (Bkt.breg w) ≠ 0)
    (htab : Bkt.tbase w + Bkt.tcntm1 w ≤ 63) {k : Nat} (hk : k ≤ Bkt.tcntm1 w)
    (hge : boundAt (tileAt s t.val) (Bkt.breg w) ≤ fld (vget (tileAt s t.val).anv.bkt (Bkt.tbase w + k) 0) 19 0)
    (hfirst : ∀ j < k, fld (vget (tileAt s t.val).anv.bkt (Bkt.tbase w + j) 0) 19 0 < boundAt (tileAt s t.val) (Bkt.breg w)) :
    issueBkt t.val w s = .goto s (twos 32 ((csWord s t.val : Int) +
      sgn 32 (fld (vget (tileAt s t.val).anv.bkt (Bkt.tbase w + k) 0) 63 32))) := by
  have found := find?_map_range (f := fun i => vget (tileAt s t.val).anv.bkt (Bkt.tbase w + i) 0)
    (p := fun e => decide (boundAt (tileAt s t.val) (Bkt.breg w) ≤ fld e 19 0)) (Nat.lt_succ_of_le hk) (decide_eq_true hge)
    (fun j hj => decide_eq_false (Nat.not_le.2 (hfirst j hj)))
  simp only [issueBkt]
  rw [if_neg (by simpa using hmode), if_neg hv, if_neg (by omega), found]

/-- Settles O6: each word issues by its own rule, and a BLD reads its words through `scrSee`. -/
theorem anvilWords : Obligations.AnvilWords := by
  intro s t w
  refine ⟨fun p h hf hp hroom hseg => ?mmt, fun h hf hroom => ?ldp, fun h hregs hscr => ?bld,
    fun k h hmode hv htab hk hge hfirst => issueCmd_goto h (issueBkt_goto hmode hv htab hk hge hfirst)⟩
  case mmt =>
    have done := exec_mmt h (issueMmt_done hf hp hroom hseg)
    exact ⟨done, fun hpend hi => (exec_chainSegmentHead h.1 hpend hi).trans done⟩
  case ldp => exact issueCmd_done h (issueLdp_done hf hroom rfl) rfl
  case bld =>
    refine ⟨_, exec_bld h hregs hscr rfl, ?word, putTile_only _ _ _, putTile_onlyTile _ _ _, ?tile, ?anvil, ?bound⟩
    case word =>
      rw [csWord_put, movedTo, fld_setFld _ 63 32 _ (by decide)]
      exact Nat.mod_eq_of_lt (csWord_succ_lt h.2)
    case tile =>
      rw [tileAt_put]
      rfl
    case anvil =>
      rw [tileAt_put]
      rfl
    case bound =>
      intro r hr
      rw [tileAt_put]
      refine (vget_forEach_vput _ _ _ _ hr _).trans (if_congr (by simp only [Bld.first, Bld.cntm1]; omega) ?_ rfl)
      simp only [scrRead, Nat.add_assoc]
      rfl

end Sys2Proof.Machine
end

section
/-! AGEO, AINI, AADD, ACHN and ASND at issue (04, R97 to R101, R103, R107). -/

namespace Sys2Proof.Machine

variable {s : State} {t : TileId} {w : Word128}

/-! ### Words that hold the stream -/

/-- The tile whose stream holds at a word, from this fc on where it held at none before (10, R233). -/
def holdingAt (now : Nat) (w : Word128) (x : Tile) : Tile :=
  { x with blw := { x.blw with pend := some w, pendFc := if x.blw.pend = none then now else x.blw.pendFc } }

/-- A word that holds the stream and does nothing else. -/
theorem issueCmd_hold {op : Nat} {f : State → Issue} (h : Stands s t w op) (hf : f s = .hold s) :
    issueCmd op t.val w f s = .next (putTile s t (holdingAt (fc s) w (tileAt s t.val))) := by
  obtain ⟨hop, hc⟩ := h
  rw [issueCmd, issue, opOf_wf, if_pos hop, if_pos hc, hf]
  simp only [modTile_put, holdingAt, Option.isNone_iff_eq_none]

theorem issueAgeo_hold (hg : bit (tileAt s t.val).acc.cfg 8 = true) : issueAgeo t.val w s = .hold s := by
  rw [issueAgeo, if_pos hg]

theorem issueAchn_hold (hout : chainEnd s t.val (Acc.okind w) (Acc.otile w) (Acc.odev w) = none)
    (hin : chainEnd s t.val (Acc.ikind w) (Acc.itile w) (Acc.idev w) = none) : issueAchn t.val w s = .hold s := by
  simp only [issueAchn, hout, hin]

/-! ### Words that take a place in the anvil queue -/

theorem issueAini_done (hroom : (tileAt s t.val).anv.queue.length < 16) (hslot : Acc.slot w < geomN (tileAt s t.val))
    (hrows : Acc.row0 w + Acc.rcm1 w < geomSR (tileAt s t.val)) (hpx : geomFmt (tileAt s t.val) = 1 → Acc.px w ≤ 96) :
    issueAini t.val w s = .done (putTile s t
      (let y := withAnvil s t (.acc { w := w, rows := Acc.rcm1 w + 1 }) (tileAt s t.val)
       { y with acc := { y.acc with
          trackPX := if geomFmt (tileAt s t.val) = 1 then vput y.acc.trackPX (Acc.slot w) (Acc.px w) else y.acc.trackPX } })) := by
  have px : ¬ (geomFmt (tileAt s t.val) = 1 ∧ 96 < Acc.px w) := fun h => Nat.not_lt.2 (hpx h.1) h.2
  rw [issueAini, if_neg (Nat.not_le.2 hslot), if_neg (Nat.not_le.2 hrows), if_neg px, anvFull_of_room hroom, pushAnv_put]
  by_cases hf : geomFmt (tileAt s t.val) = 1
  · simp [hf, modTile_put]
  · simp [hf]

/-- P + 64 of the source of an AADD (04, R100). -/
def aaddPx (x : Tile) (w : Word128) : Nat := if Acc.ssl w = 1 then vget x.acc.trackPX (Acc.sslot w) 64 else Acc.spx w

theorem issueAadd_done (hroom : (tileAt s t.val).anv.queue.length < 16) (hslot : Acc.slot w < geomN (tileAt s t.val))
    (hsrc : Acc.ssl w = 1 → Acc.sslot w < geomN (tileAt s t.val)) (hrows : Acc.rm1 w < geomSR (tileAt s t.val))
    (hwin : Acc.ssl w = 0 → ∀ m ≤ Acc.rm1 w, inWindow s t.val (32 * (Acc.sadr w + m * Acc.str w))
      (geomSC (tileAt s t.val) * geomE (tileAt s t.val)) = true)
    (hpx : geomFmt (tileAt s t.val) = 1 →
      aaddPx (tileAt s t.val) w ≤ 96 ∧ aaddPx (tileAt s t.val) w = vget (tileAt s t.val).acc.trackPX (Acc.slot w) 64) :
    issueAadd t.val w s =
      .done (putTile s t (withAnvil s t (.acc { w := w, rows := Acc.rm1 w + 1 }) (tileAt s t.val))) := by
  have source : ¬ (Acc.ssl w = 1 ∧ geomN (tileAt s t.val) ≤ Acc.sslot w) := fun h => Nat.not_le.2 (hsrc h.1) h.2
  have rows : ¬ (Acc.ssl w = 0 ∧ (!((List.range (Acc.rm1 w + 1)).all (fun m => inWindow s t.val
      (32 * (Acc.sadr w + m * Acc.str w)) (geomSC (tileAt s t.val) * geomE (tileAt s t.val))))) = true) := by
    rintro ⟨hs, hr⟩
    simp only [Bool.not_eq_true', List.all_eq_false, List.mem_range, Nat.lt_succ_iff] at hr
    obtain ⟨m, hm, out⟩ := hr
    exact out (hwin hs m hm)
  have small : ¬ (geomFmt (tileAt s t.val) = 1 ∧ 96 < aaddPx (tileAt s t.val) w) :=
    fun h => Nat.not_lt.2 (hpx h.1).1 h.2
  have same : ¬ (geomFmt (tileAt s t.val) = 1 ∧
      aaddPx (tileAt s t.val) w ≠ vget (tileAt s t.val).acc.trackPX (Acc.slot w) 64) := fun h => h.2 (hpx h.1).2
  unfold aaddPx at small same
  simp only [issueAadd]
  rw [if_neg (Nat.not_le.2 hslot), if_neg source, if_neg (Nat.not_le.2 hrows), if_neg rows, if_neg small, if_neg same,
    anvFull_of_room hroom, pushAnv_put]
  rfl

theorem issueAsnd_done (hroom : (tileAt s t.val).anv.queue.length < 16) (hslot : Acc.slot w < geomN (tileAt s t.val))
    (hrows : Acc.sndRm1 w < geomSR (tileAt s t.val)) (hfmt : geomFmt (tileAt s t.val) = 1)
    (hkind : chainOutKind (tileAt s t.val) = 2) :
    issueAsnd t.val w s = .done (putTile s t
      (let y := withAnvil s t (.acc { w := w, rows := Acc.sndRm1 w + 1, seqOut := (tileAt s t.val).acc.seqOut + 1 })
        (tileAt s t.val)
       { y with acc := { y.acc with seqOut := y.acc.seqOut + 1 } })) := by
  simp only [issueAsnd]
  rw [if_neg (Nat.not_le.2 hslot), if_neg (Nat.not_le.2 hrows), if_neg (by simp [hfmt, hkind]), anvFull_of_room hroom,
    pushAnv_put]
  simp only [Bool.false_eq_true, if_false, modTile_put, tileAt_put, putTile_putTile]

/-- Settles O7: AGEO and ACHN hold the stream, and the others issue with a job at the end of the anvil queue. -/
theorem accumulatorWords : Obligations.AccumulatorWords := by
  intro s t w
  refine ⟨fun h hg => issueCmd_hold h (issueAgeo_hold hg), fun h hroom hslot hrows hpx => ?aini,
    fun h hroom hslot hsrc hrows hwin hpx => ?aadd, fun h hout hin => issueCmd_hold h (issueAchn_hold hout hin),
    fun h hroom hslot hrows hfmt hkind => ?asnd⟩
  case aini => exact issueCmd_done h (issueAini_done hroom hslot hrows hpx) rfl
  case aadd => exact issueCmd_done h (issueAadd_done hroom hslot hsrc hrows hwin hpx) rfl
  case asnd => exact issueCmd_done h (issueAsnd_done hroom hslot hrows hfmt hkind) rfl

end Sys2Proof.Machine
end

section
/-! Frames that leave the device (12, R286, R289, R290, R295, R302): the parts of the state that a frame touches, and the log of
records, which only grows. -/

namespace Sys2Proof.Machine

variable {s n m : State} {ps qs : List Part}

/-! ### A log that only grows -/

/-- The records of s stand in the log of n too: in the Stoker ring or behind it (15, R373, R374). -/
def LogGrows (s n : State) : Prop := ∀ r ∈ s.recs.ring ++ s.recs.overflow, r ∈ n.recs.ring ++ n.recs.overflow

/-- Nothing but these parts differs, and the log of records has only grown. -/
structure Extends (ps : List Part) (s n : State) : Prop where
  only : Only ps s n
  log : LogGrows s n

theorem Extends.refl (ps : List Part) (s : State) : Extends ps s s := ⟨Only.refl _ _, fun _ => id⟩
theorem Extends.trans (h : Extends ps s n) (k : Extends ps n m) : Extends ps s m :=
  ⟨h.only.trans k.only, fun r hr => k.log r (h.log r hr)⟩
theorem Extends.mono (h : Extends ps s n) (hs : ∀ p ∈ ps, p ∈ qs) : Extends qs s n := ⟨h.only.mono hs, h.log⟩
theorem Extends.ite {c : Prop} [Decidable c] (hn : Extends ps s n) (hm : Extends ps s m) :
    Extends ps s (if c then n else m) := by split <;> assumption

/-- What leaves the records alone leaves the log as it is. -/
theorem Extends.of_only (h : Only ps s n) (hr : Part.recs ∉ ps) (hs : ∀ p ∈ ps, p ∈ qs) : Extends qs s n := by
  have recs : n.recs = s.recs := h .recs hr
  exact ⟨h.mono hs, fun r hr => by rwa [recs]⟩

theorem extends_forEach {α : Type} {f : α → State → State} (hf : ∀ x u, Extends ps u (f x u)) (l : List α) (s : State) :
    Extends ps s (forEach l s f) :=
  List.foldlRecOn (motive := Extends ps s) l _ (Extends.refl _ _) fun u hu x _ => hu.trans (hf x u)

theorem raise_extends (s : State) (space code detail : Nat) (h : Option Nat) (agent a0 a1 a2 : Nat) :
    Extends recParts s (raise s space code detail h agent a0 a1 a2) := by
  refine ⟨raise_only s _ _ _ _ _ _ _ _ _, fun r hr => ?_⟩
  simp only [raise, raiseWith, placeRec, tellHearth_recs, hostCopy_recs]
  exact mem_log_putRec hr

theorem rxRaise_extends (s : State) (code dev arg0 detail : Nat) (h : Option Nat) (space : Nat) :
    Extends (.lnk :: recParts) s (rxRaise s code dev arg0 detail h space) := by
  refine ⟨rxRaise_only s _ _ _ _ _ _, ?_⟩
  unfold rxRaise
  dsimp only
  split
  · exact fun _ => id
  · split
    · exact fun _ => id
    · exact fun r hr => (raise_extends _ _ _ _ _ _ _ _ _).log r hr

/-! ### Ports -/

theorem sendFlit_only (s : State) (p ft : Nat) : Only [.ports, .out] s (sendFlit s p ft) :=
  ((emit_only _ _).mono (by simp)).trans ((modPort_only _ _ _).mono (by simp))

theorem serveOut_only (s : State) (p : Nat) : Only [.ports, .out] s (serveOut s p) := by
  unfold serveOut
  refine Only.ite (Only.trans ((modPort_only _ _ _).mono (by simp)) (Only.forEach _ _ (fun f u => ?_) _)) (Only.refl _ _)
  exact ((emit_only u _).mono (by simp)).trans (Only.forEach _ _ (fun _ v => sendFlit_only v _ _) _)

theorem putOut_only (s : State) (p grp : Nat) (f : Frame) : Only [.ports, .out] s (putOut s p grp f) :=
  ((modPort_only _ _ _).mono (by simp)).trans (serveOut_only _ _)

/-! ### The send table -/

/-- The parts that a frame touches which is not of a bellows request (12, R286, R290, R302). -/
def linkParts : List Part := [.hearths, .ports, .lnk] ++ recParts

theorem lnk_only (s : State) (l : LinkDev) : Only [.lnk] s { s with lnk := l } := by
  intro p hp; cases p <;> simp_all [Part.same]

theorem noRoute_extends (s : State) (p : Nat) (f : Frame) : Extends linkParts s (noRoute s p f) :=
  (Extends.of_only (modPort_only _ _ _) (by simp) (by simp [linkParts])).trans
    ((rxRaise_extends _ _ _ _ _ _ _).mono (by simp [linkParts, recParts]))

theorem launch_extends (s : State) (f : Frame) : Extends linkParts s (launch s f) := by
  have put (p : Nat) (f : Frame) : Extends linkParts s (putOut s p 12 f) :=
    Extends.of_only (putOut_only _ _ _ _) (by simp) (by simp [linkParts, recParts])
  unfold launch
  dsimp only
  split
  · exact put _ _
  · exact put _ _
  · exact noRoute_extends _ _ _
  · exact Extends.refl _ _

section
variable {e : SendEntry} (hu : ∀ t core grp, e.use ≠ .req t core grp)
include hu

theorem enterSend_extends (s : State) : Extends linkParts s (enterSend s e) := by
  unfold enterSend
  split
  · exact Extends.refl _ _
  · refine Extends.trans ?_ (launch_extends _ _)
    split
    · next h => exact absurd h (hu _ _ _)
    · exact Extends.of_only (Only.trans (lnk_only _ _) (lnk_only _ _)) (by simp) (by simp [linkParts])

theorem entryFail_only (s : State) : Only [.hearths] s (entryFail s e) := by
  unfold entryFail
  split
  · next h => exact absurd h (hu _ _ _)
  · exact modHearth_only _ _ _
  · exact Only.ite ((modHearth_only _ _ _).trans (modHearth_only _ _ _)) (modHearth_only _ _ _)
  · exact Only.refl _ _

theorem sendFrame_extends (s : State) : Extends linkParts s (sendFrame s e) := by
  unfold sendFrame
  refine Extends.ite ?refused (Extends.ite (enterSend_extends hu s) ?waits)
  case refused =>
    exact (Extends.of_only (entryFail_only hu s) (by simp) (by simp [linkParts])).trans
      ((rxRaise_extends _ _ _ _ _ _ _).mono (by simp [linkParts, recParts]))
  case waits =>
    refine Extends.of_only (ps := [.lnk, .out]) (Only.trans ?_ ((lnk_only _ _).mono (by simp))) (by simp)
      (by simp [linkParts, recParts])
    exact Only.ite (Only.refl _ _) ((emit_only _ _).mono (by simp))
end

end Sys2Proof.Machine
end

section
/-! Rows of the accumulator pipe (04, R97, R99, R100, R102, R103, R107). -/

namespace Sys2Proof.Machine

variable {s : State} {t : TileId} {j : AnvJob} {k : AccJob}

/-! ### One row of each instruction -/

theorem putSlotRow_mem (s : State) (t slot r : Nat) (es : List Nat) : (putSlotRow s t slot r es).mem =
    (store s (slotAddr (tileAt s t) t slot r 0) (packElts (8 * geomE (tileAt s t)) es) []).mem := rfl

theorem putSlotRow_only (s : State) (t slot r : Nat) (es : List Nat) :
    Only [.tiles, .mem] s (putSlotRow s t slot r es) := (store_only_mem _ _ _ _).mono (by simp)

/-- A row of AINI: zeros in the slot (04, R99). -/
theorem ainiRow_mem (s : State) (t : Nat) (k : AccJob) : (ainiRow s t k).mem =
    (putSlotRow s t (Acc.slot k.w) (Acc.row0 k.w + k.done) (List.replicate (geomSC (tileAt s t)) 0)).mem := by
  unfold ainiRow
  dsimp only
  split
  · exact modTile_mem _ _ _
  · rfl

theorem ainiRow_only (s : State) (t : Nat) (k : AccJob) : Only [.tiles, .mem] s (ainiRow s t k) :=
  Only.ite ((putSlotRow_only _ _ _ _ _).trans ((modTile_only _ _ _).mono (by simp))) (putSlotRow_only _ _ _ _ _)

/-- The sums of a row of AADD: the slot's elements and the source's (02, R41; 04, R100). -/
def aaddSums (s : State) (t : Nat) (k : AccJob) : List Nat :=
  let x := tileAt s t
  let src := unpack (8 * geomE x) (geomSC x) (readMem s.mem (aaddSrc x t k) (geomSC x * geomE x))
  ((slotRow s t (Acc.slot k.w) k.done (geomSC x)).zip src).map (fun p =>
    if geomFmt x = 1 then x96Add p.1 (sgn 96 p.2) else add32 p.1 p.2)

/-- A row of AADD: the sums in the slot (04, R100). -/
theorem aaddRow_mem (s : State) (t : Nat) (k : AccJob) : (aaddRow s t k).mem =
    (putSlotRow s t (Acc.slot k.w) k.done (aaddSums s t k)).mem := by
  have maybe {c : Prop} [Decidable c] {u v w : State} (hu : u.mem = v.mem) (hv : v.mem = w.mem) :
      (if c then u else v).mem = w.mem := by
    split
    · exact hu.trans hv
    · exact hv
  exact maybe (modTile_mem _ _ _) (maybe (modTile_mem _ _ _) rfl)

theorem aaddRow_only (s : State) (t : Nat) (k : AccJob) : Only [.tiles, .mem] s (aaddRow s t k) := by
  have maybe {c : Prop} [Decidable c] {u v : State} (hv : Only [.tiles, .mem] s v) (hu : Only [.tiles] v u) :
      Only [.tiles, .mem] s (if c then u else v) := Only.ite (hv.trans (hu.mono (by simp))) hv
  exact maybe (maybe (putSlotRow_only _ _ _ _ _) (modTile_only _ _ _)) (modTile_only _ _ _)

/-- A row of ASND: the frames of its bytes go to the send table or wait for it (04, R103, R107; 12, R290). -/
theorem asndRow_extends (s : State) (t : Nat) (k : AccJob) : Extends linkParts s (asndRow s t k) := by
  unfold asndRow
  exact List.foldlRecOn (motive := fun q : State × Nat => Extends linkParts s q.1) _ _ (Extends.refl _ _)
    fun q hq b _ => hq.trans (sendFrame_extends (by simp) q.1)

/-! ### The job whose turn it is -/

/-- The accumulator pipe of a tile of a hearth in RUN does this job next: the tile is no shadow, and no poisoned operand holds the
pipe (04, R97, R102; 09, R215; 15, R356). -/
structure AccTurn (s : State) (t : TileId) (j : AnvJob) (k : AccJob) : Prop where
  runs : tileRuns s t.val = true
  executes : tileRole s t.val ≠ 2
  free : pipeHeld (tileAt s t.val) 2 = false
  next : accNext (tileAt s t.val) = some j
  job : j.op = .acc k

section
variable (h : AccTurn s t j k)
include h

theorem accRow_aini (hop : opOf k.w = 0x21) : accRow s t.val = accStep (ainiRow s t.val k) t.val j k := by
  simp [accRow, h.runs, h.executes, h.free, h.next, h.job, hop]

theorem accRow_aadd (hop : opOf k.w = 0x22) (hp : aaddPoison s t.val k = none) :
    accRow s t.val = accStep (aaddRow s t.val k) t.val j k := by
  simp [accRow, h.runs, h.executes, h.free, h.next, h.job, hop, hp]

theorem accRow_asnd (hop : opOf k.w = 0x24) (hw : asndWaits s t.val = false) (hd : k.done ≠ k.rows) :
    accRow s t.val = asndStep (asndRow s t.val k) t.val j k := by
  simp [accRow, h.runs, h.executes, h.free, h.next, h.job, hop, hw, hd]

theorem accRow_asnd_left (hop : opOf k.w = 0x24) (hw : asndWaits s t.val = false) (hd : k.done = k.rows) :
    accRow s t.val = putTile s t { tileAt s t.val with anv := { (tileAt s t.val).anv with accPipe := none } } := by
  simp [accRow, h.runs, h.executes, h.free, h.next, h.job, hop, hw, hd, modTile_put]
end

theorem accStep_accPipe (s : State) (t : TileId) (j : AnvJob) (k : AccJob) :
    (tileAt (accStep s t.val j k) t.val).anv.accPipe =
      if k.done + 1 < k.rows then some { j with op := .acc { k with done := k.done + 1, waitFc := none } } else none := by
  rw [accStep, tileAt_modTile_self]

theorem accStep_only (s : State) (t : Nat) (j : AnvJob) (k : AccJob) : Only [.tiles, .mem] s (accStep s t j k) :=
  (modTile_only _ _ _).mono (by simp)

/-- Whether a frame of the tile's segments still waits follows from the link and the ports alone. -/
theorem asndWaits_asndStep (s : State) (t : Nat) (j : AnvJob) (k : AccJob) :
    asndWaits (asndStep s t j k) t = asndWaits s t := rfl

theorem asndStep_accPipe (s : State) (t : TileId) (j : AnvJob) (k : AccJob) :
    (tileAt (asndStep s t.val j k) t.val).anv.accPipe =
      if k.done + 1 < k.rows ∨ asndWaits s t.val = true then
        some { j with op := .acc { k with done := k.done + 1, waitFc := if asndWaits s t.val = true then some (fc s) else none } }
      else none := by
  rw [asndStep, tileAt_modTile_self]

/-- Settles O12: the row is `ainiRow`, `aaddRow` or `asndRow`, and the job goes on by `accStep` or `asndStep`. -/
theorem accumulatorPipeRows : Obligations.AccumulatorPipeRows := by
  intro s t j k
  dsimp only
  intro hruns hrole hheld hnext hjob
  have turn : AccTurn s t j k := ⟨hruns, hrole, hheld, hnext, hjob⟩
  refine ⟨fun hop hd hw => congrArg Host.Outcome.next (accRow_asnd_left turn hop hw hd), ?_⟩
  rintro (hop | ⟨hop, hp⟩ | ⟨hop, hw, hd⟩)
  case inl =>
    refine ⟨_, congrArg Host.Outcome.next (accRow_aini turn hop), ?pipe,
      fun _ => ⟨(ainiRow_only _ _ _).trans (accStep_only _ _ _ _), ainiRow_mem _ _ _⟩, by simp [hop], by simp [hop]⟩
    case pipe => simp [accStep_accPipe, hop]
  case inr.inl =>
    refine ⟨_, congrArg Host.Outcome.next (accRow_aadd turn hop hp), ?pipe, by simp [hop],
      fun _ => ⟨(aaddRow_only _ _ _).trans (accStep_only _ _ _ _), aaddRow_mem _ _ _⟩, by simp [hop]⟩
    case pipe => simp [accStep_accPipe, hop]
  case inr.inr =>
    have sent := (asndRow_extends s t.val k).only
    have clock : fc (asndRow s t.val k) = fc s := congrArg (· / 2) (sent .cyc (by simp [linkParts, recParts]))
    refine ⟨_, congrArg Host.Outcome.next (accRow_asnd turn hop hw hd), ?pipe, by simp [hop], by simp [hop], fun _ => ?only⟩
    case pipe => simp [asndStep_accPipe, asndWaits_asndStep, clock, hop]
    case only =>
      exact (sent.mono (by simp [linkParts, sendParts, recParts])).trans
        ((modTile_only _ _ _).mono (by simp [sendParts]))

end Sys2Proof.Machine
end

section
/-! What the retraction of an epoch leaves of the tiles and of the log of records (15, R362 to R364). -/

namespace Sys2Proof.Machine

variable {s n m : State} {ps : List Part}

/-! ### Memory accesses of the device -/

/-- The parts outside the tiles that a retraction touches (13, R331; 15, R363, R364). -/
def retractParts : List Part := [.hearths, .ports, .queues, .lnk, .mem, .msys] ++ recParts

theorem raise_extends_retract (s : State) (space code detail : Nat) (h : Option Nat) (agent a0 : Nat) :
    Extends retractParts s (raise s space code detail h agent a0) :=
  (raise_extends s _ _ _ _ _ _ _ _).mono fun _ => List.mem_append_right _

/-- Memory, its poison and code words and the pools are of `retractParts`, and not of the log. -/
theorem mem_extends (s : State) (mem poison codes msys) :
    Extends retractParts s { s with mem := mem, poison := poison, codes := codes, msys := msys } :=
  ⟨fun p hp => by cases p <;> simp_all [Part.same, retractParts, recParts], fun _ => id⟩

theorem modPool_extends (s : State) (p : Nat) (f : Pool → Pool) : Extends retractParts s (modPool s p f) :=
  mem_extends s _ _ _ _

theorem modHearth_extends (s : State) (h : Nat) (f : Hearth → Hearth) : Extends retractParts s (modHearth s h f) :=
  Extends.of_only (modHearth_only _ _ _) (by simp) (by simp [retractParts])

theorem noteCodes_extends (s : State) (a : Nat) (e : EccHits) : Extends retractParts s (noteCodes s a e) := by
  unfold noteCodes
  dsimp only
  split
  · exact mem_extends s _ _ _ _
  · exact mem_extends s _ _ _ _
  · exact Extends.refl _ _

theorem store_extends (s : State) (a : Nat) (bs : List Byte) (src : List Nat) : Extends retractParts s (store s a bs src) :=
  Extends.of_only (store_only_mem _ _ _ _) (by simp) (by simp [retractParts])

theorem recs_only (s : State) (q : Records) : Only [.recs] s { s with recs := q } := by
  intro p hp; cases p <;> simp_all [Part.same]

theorem dpmUe_extends (s : State) (a : Nat) : Extends retractParts s (dpmUe s a) := by
  have counted (u : State) (x) : Extends retractParts u { u with recs := { u.recs with stks := x } } :=
    ⟨(recs_only u _).mono (by simp [retractParts, recParts]), fun _ => id⟩
  exact (mem_extends s _ _ _ _).trans ((counted _ _).trans (raise_extends_retract _ _ _ _ _ _ _))

theorem seeDeep_extends (s : State) (seen : Nat → Bool) : Extends retractParts s (seeDeep s seen).1 := by
  unfold seeDeep
  refine List.foldlRecOn (motive := fun r : State × List Nat => Extends retractParts s r.1) _ _ (Extends.refl _ _) ?_
  intro r hr x _
  split
  · exact hr.trans (mem_extends _ _ _ _ _)
  · exact hr.trans (dpmUe_extends _ _)
  · exact hr

theorem fillPoison_extends (clean : Bool) (k : Nat) (s : State) : Extends retractParts s (fillPoison clean k s) := by
  unfold fillPoison
  exact Extends.ite (Extends.refl _ _) (Extends.ite (mem_extends _ _ _ _ _) (mem_extends _ _ _ _ _))

theorem eccDeep_extends (s₀ s : State) (a n : Nat) : Extends retractParts s (eccDeep s₀ s a n true).1 := by
  unfold eccDeep
  dsimp only
  split
  · exact Extends.refl _ _
  · refine Extends.trans ?_ (mem_extends _ _ _ _ _)
    refine List.foldlRecOn (motive := Extends retractParts s) _ _ ?_ fun _ hu _ _ => hu.trans (mem_extends _ _ _ _ _)
    exact List.foldlRecOn (motive := Extends retractParts s) _ _ (seeDeep_extends s _)
      fun _ hu _ _ => hu.trans (fillPoison_extends _ _ _)

theorem mtlStat_extends (s : State) (h : Option Nat) (word hi lo n : Nat) :
    Extends retractParts s (mtlStat s h word hi lo n) := by
  unfold mtlStat
  split
  · exact modHearth_extends _ _ _
  · exact Extends.refl _ _

theorem touchBlock_extends {h : Option Nat} {hint : Hint} {a k b : Nat} {wr : Bool} {line : Option Nat}
    (e : touchBlock s h hint a k wr line b = some n) : Extends retractParts s n := by
  unfold touchBlock at e
  dsimp only at e
  split at e
  · split at e
    · cases e
    · cases e
      exact (mtlStat_extends _ _ _ _ _ _).trans (modPool_extends _ _ _)
  · split at e
    · split at e
      · cases e
        exact (mtlStat_extends _ _ _ _ _ _).trans (modPool_extends _ _ _)
      · cases e
    · cases e
      exact mtlStat_extends _ _ _ _ _ _

theorem touch_extends {h : Option Nat} {hint : Hint} {a k : Nat} {wr : Bool} {line : Option Nat}
    (e : touch s h hint a k wr line = some n) : Extends retractParts s n := by
  unfold touch at e
  split at e
  · cases e
  · refine List.foldlRecOn (motive := fun o : Option State => ∀ n, o = some n → Extends retractParts s n)
      _ _ ?_ ?_ n e
    · rintro _ ⟨⟩
      exact Extends.refl _ _
    · intro o ho b _ m hm
      obtain ⟨u, hu, hb⟩ := Option.bind_eq_some_iff.1 hm
      exact (ho u hu).trans (touchBlock_extends hb)

theorem devWrite_extends {h : Option Nat} {hint : Hint} {a : Nat} {bs : List Byte} {poison : List Nat}
    {line : Option Nat} {e : EccHits} (hn : devWrite s h hint a bs poison line e = some n) : Extends retractParts s n := by
  unfold devWrite at hn
  split at hn
  · obtain ⟨u, hu, rfl⟩ := Option.map_eq_some_iff.1 hn
    exact (noteCodes_extends s a e).trans ((touch_extends hu).trans ((eccDeep_extends _ _ _ _).trans (store_extends _ _ _ _)))
  · cases hn
    exact (noteCodes_extends s a e).trans (store_extends _ _ _ _)

theorem waitTile_extends (s : State) (a : MAccess) : Extends retractParts s (waitTile s a) := by
  unfold waitTile
  dsimp only
  exact Extends.ite (Extends.refl _ _) (modPool_extends _ _ _)

theorem postWrite_extends (s : State) (a : Agent) (h : Nat) (hint : Hint) (addr : Nat) (bs : List Byte) (poison : List Nat) :
    Extends retractParts s (postWrite s a h hint addr bs poison) := by
  unfold postWrite
  cases hw : devWrite s (some h) hint addr bs poison with
  | none =>
    rw [Option.getD_none]
    exact waitTile_extends _ _
  | some n => exact devWrite_extends hw

/-! ### Descriptors, items and notices -/

theorem phaseEntry_extends (s : State) (h start tag agent kind : Nat) :
    Extends retractParts s (phaseEntry s h start tag agent kind) := by
  unfold phaseEntry
  dsimp only
  refine Extends.ite ((modHearth_extends _ _ _).trans (postWrite_extends _ _ _ _ _ _ _)) ?_
  exact Extends.ite (modHearth_extends _ _ _)
    ((modHearth_extends _ _ _).trans ((modHearth_extends _ _ _).trans (raise_extends_retract _ _ _ _ _ _ _)))

theorem modPort_extends (s : State) (p : Nat) (f : Port → Port) : Extends retractParts s (modPort s p f) :=
  Extends.of_only (modPort_only _ _ _) (by simp) (by simp [retractParts])

theorem modQueue_extends (s : State) (q : Nat) (f : WorkQ → WorkQ) : Extends retractParts s (modQueue s q f) :=
  Extends.of_only (modQueue_only _ _ _) (by simp) (by simp [retractParts])

theorem dropActive_extends (s : State) (p h : Nat) : Extends retractParts s (dropActive s p h) := by
  unfold dropActive
  split
  · exact (modPort_extends _ _ _).trans (phaseEntry_extends _ _ _ _ _ _)
  · exact Extends.refl _ _

theorem collFailed_extends (s : State) (p h idx : Nat) : Extends retractParts s (collFailed s p h idx) :=
  extends_forEach (fun _ _ => modQueue_extends _ _ _) _ _

theorem endItems_extends (s : State) (h : Nat) (p : Item → Bool) (outcome detail : Nat) (esq : Option Nat) :
    Extends retractParts s (endItems s h p outcome detail esq) :=
  extends_forEach (fun _ _ => modQueue_extends _ _ _) _ _

theorem noticeNext_extends (s : State) (h : HearthId) (rank : Nat) : Extends retractParts s (noticeNext s h rank) := by
  have frame {e : SendEntry} (hu : e.use = .notice h rank) (u : State) : Extends retractParts u (sendFrame u e) :=
    (sendFrame_extends (by simp [hu]) u).mono (by simp [linkParts, retractParts, recParts])
  unfold noticeNext
  dsimp only
  refine Extends.ite (Extends.refl _ _) ?_
  split
  · exact Extends.refl _ _
  · exact ((modHearth_extends _ _ _).trans (frame rfl _)).trans ((modHearth_extends _ _ _).trans (frame rfl _))

theorem postNotice_extends (s : State) (h kind trig : Nat) : Extends retractParts s (postNotice s h kind trig) := by
  unfold postNotice
  split
  · refine Extends.ite ?_ (Extends.refl _ _)
    exact extends_forEach (fun _ _ => (modHearth_extends _ _ _).trans (noticeNext_extends _ _ _)) _ _
  · exact Extends.refl _ _

/-! ### Streams that stop -/

/-- Tile y is tile x after a stop of its stream, if it still ran: its chain faults and its accumulator pipe are those of x, no wait
for a segment's header begins, and a stream that does not run stays where it is (04, R108; 10, R233). -/
structure TileStays (x y : Tile) : Prop where
  fault : y.acc.fault = x.acc.fault
  accPipe : y.anv.accPipe = x.anv.accPipe
  headFc : x.acc.headFc = none → y.acc.headFc = none
  csCtl : fld x.blw.csCtl 5 4 ≠ csRunning → y.blw.csCtl = x.blw.csCtl

theorem TileStays.refl (x : Tile) : TileStays x x := ⟨rfl, rfl, id, fun _ => rfl⟩
theorem TileStays.trans {x y z : Tile} (h : TileStays x y) (k : TileStays y z) : TileStays x z :=
  ⟨k.fault.trans h.fault, k.accPipe.trans h.accPipe, fun hx => k.headFc (h.headFc hx),
    fun hx => (k.csCtl (by rwa [h.csCtl hx])).trans (h.csCtl hx)⟩

/-- After s every stream stays where it is or stops, and the log of records has only grown. -/
structure Stays (s n : State) : Prop where
  tile : ∀ t, TileStays (tileAt s t) (tileAt n t)
  log : LogGrows s n

theorem Stays.refl (s : State) : Stays s s := ⟨fun _ => .refl _, fun _ => id⟩
theorem Stays.trans (h : Stays s n) (k : Stays n m) : Stays s m :=
  ⟨fun t => (h.tile t).trans (k.tile t), fun r hr => k.log r (h.log r hr)⟩
theorem Stays.ite {c : Prop} [Decidable c] (hn : Stays s n) (hm : Stays s m) : Stays s (if c then n else m) := by
  split <;> assumption

theorem Extends.stays (h : Extends ps s n) (ht : Part.tiles ∉ ps) : Stays s n := by
  have tiles : n.tiles = s.tiles := h.only .tiles ht
  exact ⟨fun t => by simp only [tileAt, tiles]; exact .refl _, h.log⟩

theorem Extends.stays_retract (h : Extends retractParts s n) : Stays s n := h.stays (by simp [retractParts, recParts])

theorem modTile_stays {t : Nat} {f : Tile → Tile} (hf : TileStays (tileAt s t) (f (tileAt s t))) : Stays s (modTile s t f) := by
  refine ⟨fun u => ?_, fun _ => id⟩
  rw [tileAt_modTile]
  split
  · next h => rw [h.1]; exact hf
  · exact .refl _

theorem stays_forEach {α : Type} {f : α → State → State} (hf : ∀ x u, Stays u (f x u)) (l : List α) (s : State) :
    Stays s (forEach l s f) :=
  List.foldlRecOn (motive := Stays s) l _ (.refl s) fun u hu x _ => hu.trans (hf x u)

theorem stopStream_stays (s : State) (t : Nat) : Stays s (stopStream s t) := by
  unfold stopStream
  split
  · next running =>
    refine ⟨fun u => ?_, fun _ => id⟩
    rw [tileAt_modTile]
    split
    · next h =>
      obtain ⟨rfl, hu⟩ := h
      rw [setCs, tileAt_modTile, if_pos ⟨rfl, hu⟩]
      exact ⟨rfl, rfl, fun _ => rfl, fun stopped => absurd running stopped⟩
    · next h => rw [setCs, tileAt_modTile, if_neg h]; exact .refl _
  · exact .refl s

theorem setFault_chk (s : State) (t : Nat) (v : Reg) :
    setFault s t spCHK v = modTile s t (fun x => { x with misc := { x.misc with chkFault := v } }) := rfl

theorem stopHearth_stays (s : State) (h : Nat) (chk : Option Nat) : Stays s (stopHearth s h chk) := by
  refine stays_forEach (fun t u => Stays.ite ?_ (.refl u)) _ _
  refine Stays.trans ?_ (stopStream_stays _ _)
  split
  · rw [setFault_chk]
    exact modTile_stays ⟨rfl, rfl, id, fun _ => rfl⟩
  · exact .refl u

/-! ### Retraction -/

theorem dropRefetch_extends (s : State) (h : Nat) (p : Nat → Bool) : Extends retractParts s (dropRefetch s h p) :=
  Extends.of_only (lnk_only _ _) (by simp) (by simp [retractParts])

/-- The active descriptor of a port ends with the epoch that it belongs to (13, R308; 15, R364). -/
def retractActive (h e p : Nat) (s : State) : State :=
  match vget (portAt s p).active h none with
  | some d => if colBelongs (portAt s p) h e d then dropActive (collFailed s p h (activeIdx s p h)) p h else s
  | none => s

/-- The quench job of a port ends with its epoch (14, R346; 15, R364). -/
def retractJob (h e p : Nat) (s : State) : State :=
  match vget (portAt s p).jobs h none with
  | some j => if j.epoch == e then quenchStop s p h else s
  | none => s

theorem retractPort_extends (h e p : Nat) (s : State) : Extends retractParts s (retractJob h e p (retractActive h e p s)) := by
  refine Extends.trans (n := retractActive h e p s) ?_ ?_
  · unfold retractActive
    split
    · exact Extends.ite ((collFailed_extends _ _ _ _).trans (dropActive_extends _ _ _)) (Extends.refl _ _)
    · exact Extends.refl _ _
  · unfold retractJob
    split
    · exact Extends.ite (modPort_extends _ _ _) (Extends.refl _ _)
    · exact Extends.refl _ _

theorem becomeRetracted_stays (s : State) (h trig : Nat) : Stays s (becomeRetracted s h trig) := by
  unfold becomeRetracted
  dsimp only
  refine Stays.trans ?ports (stays_forEach (fun t u => modTile_stays ⟨rfl, rfl, id, fun _ => rfl⟩) _ _)
  refine Stays.trans ?items (extends_forEach (retractPort_extends h (epochE s h)) _ _).stays_retract
  refine Stays.trans (Stays.trans ?epoch (stopHearth_stays _ _ _)) (endItems_extends _ _ _ _ _ _).stays_retract
  refine Extends.stays_retract (Extends.trans ?_ (modHearth_extends _ _ _))
  refine Extends.trans ?_ (dropRefetch_extends _ _ _)
  exact (modHearth_extends _ _ _).trans ((modHearth_extends _ _ _).trans (modHearth_extends _ _ _))

theorem retractEpoch_stays (s : State) (h trig : Nat) : Stays s (retractEpoch s h trig) := by
  refine Stays.ite ((becomeRetracted_stays s h trig).trans (Extends.stays_retract ?_)) (.refl s)
  exact (modHearth_extends _ _ _).trans ((raise_extends_retract _ _ _ _ _ _ _).trans (postNotice_extends _ _ _ _))

end Sys2Proof.Machine
end

section
/-! AGEO and ACHN that apply, rows of chains that arrive, and chain waits that end (04, R98, R103, R105 to R108). -/

namespace Sys2Proof.Machine

variable {s n : State} {t : TileId} {w : Word128}

/-! ### AGEO and ACHN -/

/-- The stream of a tile of a hearth in RUN holds at a word with this opcode (04, R98, R103). -/
structure HeldAt (s : State) (t : TileId) (op : Nat) (w : Word128) : Prop where
  pend : (tileAt s t.val).blw.pend = some w
  opcode : opOf w = op
  running : csState s t.val = 1
  runs : tileRuns s t.val = true

theorem heldOp_some {op : Nat} (h : HeldAt s t op w) : heldOp s t.val op = some w := by
  simp [heldOp, h.pend, h.opcode, h.running, h.runs, csRunning]

/-- A held word that applies: the tile changes, and the stream goes on at the next word. -/
theorem advance_applied (s : State) (t : TileId) (f : Tile → Tile) :
    advance (modTile s t.val f) t.val (csWord s t.val + 1) = issuedAs s t (f (tileAt s t.val)) := by
  rw [modTile_put, advance_put, issuedAs]

theorem ageoApply_applied (h : HeldAt s t 0x20 w) (hq : (tileAt s t.val).anv.queue = [])
    (hr : (tileAt s t.val).anv.rowPipe = []) (ha : (tileAt s t.val).anv.accPipe = none)
    (harr : (tileAt s t.val).anv.array = []) (hrep : (tileAt s t.val).anv.replay = none)
    (hre : (tileAt s t.val).anv.reenter = []) :
    ageoApply s t.val = issuedAs s t { tileAt s t.val with acc := clearSst { (tileAt s t.val).acc with
      geom := mkGeom (Acc.srl w) (Acc.scl w) (Acc.sfmt w) } } := by
  simp only [ageoApply, heldOp_some h, hq, hr, ha, harr, hrep, hre, List.isEmpty_nil, Option.isNone_none, Bool.and_self, if_true,
    advance_applied]

/-- ACC_CHAIN as an ACHN writes it (04, R103, Table 04-12). -/
def chainReg (w : Word128) : Reg :=
  BitVec.ofNat 64 (Acc.odev w * 2 ^ 44 + Acc.idev w * 2 ^ 24 + Acc.otile w * 2 ^ 19 + Acc.itile w * 2 ^ 14 +
    Acc.okind w * 2 ^ 12 + Acc.ikind w * 2 ^ 10)

theorem achnApply_applied (h : HeldAt s t 0x23 w) (hj : (anvJobs (tileAt s t.val)).any chainJob = false)
    (hf : (tileAt s t.val).acc.fifo = []) (ha : (tileAt s t.val).acc.arriving = [])
    (hres : (tileAt s t.val).acc.reserved = 0) (hrx : (tileAt s t.val).acc.rx = [])
    (hh : (tileAt s t.val).acc.rxHdr = none) (hw : asndWaits s t.val = false) :
    achnApply s t.val = issuedAs s t
      (chainFrom (put (tileAt s t.val).acc.seqOld (chainSrc (tileAt s t.val)) (tileAt s t.val).acc.seqIn)
        { tileAt s t.val with acc := { (tileAt s t.val).acc with chain := chainReg w, seqOut := 0 } }) := by
  simp only [achnApply, heldOp_some h, hj, hf, ha, hres, hrx, hh, hw, List.isEmpty_nil, Option.isNone_none, Bool.not_false,
    decide_true, Bool.and_self, if_true, advance_applied, chainReg]

/-! ### Rows of the chain-in buffer -/

theorem chainArrive_local {r : ChainRow} {rest : List ChainRow} (ha : (tileAt s t.val).acc.arriving = r :: rest) :
    chainArrive s t.val = putTile s t { tileAt s t.val with acc := { (tileAt s t.val).acc with
      fifo := (tileAt s t.val).acc.fifo ++ [r], arriving := rest, reserved := (tileAt s t.val).acc.reserved - 1 } } := by
  simp only [chainArrive, ha, modTile_put]

/-- The next row of a remote segment with this header: its elements, and at the last row the status of the trailer (04, R106,
R107, Table 04-4). -/
def remoteRow (hd : List Byte) (a : Accum) : ChainRow :=
  { fmt := leAt hd 0 1, px := leAt hd 1 1, m := leAt hd 2 2 + 1, np := leAt hd 4 2 + 1, seq := leAt hd 8 8, row := a.rxRow
    vals := unpack 96 (leAt hd 4 2 + 1) (a.rx.take (12 * (leAt hd 4 2 + 1)))
    status := if a.rxRow + 1 = leAt hd 2 2 + 1 then leAt a.rx (12 * (leAt hd 4 2 + 1)) 1 % 32 else 0
    remote := true
    poison := a.rxPsn.any (fun i => decide (32 * i < 12 * (leAt hd 4 2 + 1))) }

theorem chainArrive_remote {hd : List Byte} (ha : (tileAt s t.val).acc.arriving = [])
    (hh : (tileAt s t.val).acc.rxHdr = some hd) (hfree : 0 < chainFree s t.val)
    (hlen : 12 * (leAt hd 4 2 + 1) + (if (tileAt s t.val).acc.rxRow + 1 = leAt hd 2 2 + 1 then 32 else 0) ≤
      (tileAt s t.val).acc.rx.length) :
    ∃ y, chainArrive s t.val = putTile s t y ∧
      y.acc.fifo = (tileAt s t.val).acc.fifo ++ [remoteRow hd (tileAt s t.val).acc] := by
  simp only [chainArrive, ha, hh, rxRowIn, decide_eq_true_eq]
  rw [if_neg (by omega), modTile_put]
  exact ⟨_, rfl, rfl⟩

/-! ### Rows reserved at the target -/

theorem refreshLate_only (s : State) (h : Nat) : Only [.hearths] s (refreshLate s h) := by
  unfold refreshLate
  dsimp only
  have keep (u : State) (c : Prop) [Decidable c] (k : Nat) : Only [.hearths] u (if c then u else endCause u h k) :=
    Only.ite (Only.refl _ _) (endCause_only _ _ _)
  exact Only.ite (Only.refl _ _) ((keep _ _ _).trans ((keep _ _ _).trans (keep _ _ _)))

/-- The breach causes of the hearth of a tile follow its tiles (10, Table 10-8). -/
def lateRefreshed (s : State) (t : Nat) : State :=
  match tileHearth s t with
  | some h => refreshLate s h
  | none => s

theorem lateRefreshed_only (s : State) (t : Nat) : Only [.hearths] s (lateRefreshed s t) := by
  unfold lateRefreshed
  split
  · exact refreshLate_only _ _
  · exact Only.refl _ _

theorem tileAt_lateRefreshed (s : State) (t u : Nat) : tileAt (lateRefreshed s t) u = tileAt s u := by
  have tiles : (lateRefreshed s t).tiles = s.tiles := lateRefreshed_only s t .tiles (by simp)
  simp only [tileAt, tiles]

/-- The tile is late no more for a row at its target (04, R106). -/
def chainInTime (x : Tile) : Tile := { x with acc := { x.acc with late := false } }

/-- The wait of the MMT that enters its next row is over (04, R106). -/
def rowWaitOver (s : State) (t : Nat) (x : Tile) : State :=
  match nextMmt x with
  | some (j, _) => modMmt s t j.seq (fun k => { k with waitFc := none })
  | none => s

theorem rowWaitOver_frame (s : State) (t : TileId) (x : Tile) : Only [.tiles] s (rowWaitOver s t.val x) ∧
    OnlyTile t.val s (rowWaitOver s t.val x) ∧ (tileAt (rowWaitOver s t.val x) t.val).acc = (tileAt s t.val).acc := by
  unfold rowWaitOver
  split
  · exact ⟨modTile_only _ _ _, modTile_onlyTile _ _ _, by rw [modMmt, tileAt_modTile_self]⟩
  · exact ⟨Only.refl _ _, fun _ _ => rfl, rfl⟩

theorem chainReserved_row (hl : (tileAt s t.val).acc.late = true) (hf : 0 < chainFree s (chainOutTile (tileAt s t.val))) :
    chainReserved s t.val =
      rowEnter (lateRefreshed (rowWaitOver (modTile s t.val chainInTime) t.val (tileAt s t.val)) t.val) t.val := by
  unfold chainReserved
  dsimp only
  rw [hl, decide_eq_true hf, Bool.and_self, if_pos rfl]
  rfl

theorem lateRefreshed_frame {u : State} (h : Only [.tiles] s u) (ht : OnlyTile t.val s u) :
    Only [.tiles, .hearths] s (lateRefreshed u t.val) ∧ OnlyTile t.val s (lateRefreshed u t.val) :=
  ⟨(h.mono (by simp)).trans ((lateRefreshed_only u t.val).mono (by simp)),
    fun k hk => (tileAt_lateRefreshed u t.val k).trans (ht k hk)⟩

/-! ### Chain waits that end -/

/-- The tile with this fault of its accumulator unit (04, R108). -/
def accFaulted (v : Reg) (x : Tile) : Tile := { x with acc := { x.acc with fault := v } }

theorem setFault_acc (s : State) (t : Nat) (v : Reg) : setFault s t spACC v = modTile s t (accFaulted v) := rfl

theorem setFault_only (s : State) (t space : Nat) (v : Reg) : Only [.tiles] s (setFault s t space v) := modTile_only _ _ _

theorem stopStream_only (s : State) (t : Nat) : Only [.tiles] s (stopStream s t) :=
  Only.ite ((modTile_only _ _ _).trans (modTile_only _ _ _)) (Only.refl _ _)

theorem tileAt_stopStream (s : State) (t : TileId) : tileAt (stopStream s t.val) t.val =
    if csState s t.val = 1 then stopped s.recs.seq (tileAt s t.val) else tileAt s t.val := by
  by_cases h : csState s t.val = 1
  · rw [stopStream_running h, tileAt_put, if_pos h]
  · rw [if_neg h]
    unfold stopStream
    exact congrArg (tileAt · t.val) (if_neg h)

theorem recorded_congr {u : State} {k space code detail : Nat} (h : Recorded u n k space code detail) (hr : u.recs = s.recs) :
    Recorded s n k space code detail := by rwa [Recorded, ← hr]

theorem tileFault_recorded (s : State) (t space c d word mid : Nat) :
    Recorded s (tileFault s t space c d word mid) 0 space c (d % 256) :=
  recorded_congr (raise_recorded _ space c d _ _ _ _ _)
    (((setFault_only s t space _).trans (stopStream_only _ t)) .recs (by simp))

theorem csState_accFaulted (s : State) (t : TileId) (v : Reg) :
    csState (modTile s t.val (accFaulted v)) t.val = csState s t.val := by
  rw [csState, tileAt_modTile_self]; rfl

/-- The tile after a fault of its accumulator unit: its stream stops if it ran (10, R233). -/
def accStopped (running : Prop) [Decidable running] (seq : Nat) (v : Reg) (x : Tile) : Tile :=
  if running then stopped seq (accFaulted v x) else accFaulted v x

theorem tileAt_stopStream_acc (s : State) (t : TileId) (v : Reg) :
    tileAt (stopStream (setFault s t.val spACC v) t.val) t.val =
      accStopped (csState s t.val = 1) s.recs.seq v (tileAt s t.val) := by
  rw [setFault_acc, tileAt_stopStream, csState_accFaulted, tileAt_modTile_self, modTile_recs, accStopped]

theorem tileAt_tileFault_acc (s : State) (t : TileId) (c d word mid : Nat) :
    tileAt (tileFault s t.val spACC c d word mid) t.val =
      accStopped (csState s t.val = 1) s.recs.seq (faultWord word mid c d) (tileAt s t.val) :=
  (tileAt_raise _ _ _ _ _ _ _ _ _ _).trans (tileAt_stopStream_acc _ _ _)

/-- The tile with its stream at word n. -/
def atWord (n : Nat) (x : Tile) : Tile := { x with blw := { x.blw with csCtl := setFld x.blw.csCtl 63 32 n } }

/-- The tile whose chain wait has run out: its fault, and its stream stopped at the word of the instruction if it ran (04, R108). -/
def chainFaulted (running : Prop) [Decidable running] (seq idx : Nat) (v : Reg) (x : Tile) : Tile :=
  if running then atWord idx (stopped seq (accFaulted v (chainInTime x))) else accFaulted v (chainInTime x)

section
variable (running : Prop) [Decidable running] (seq idx : Nat) (v : Reg) (x : Tile)

theorem chainFaulted_fault : (chainFaulted running seq idx v x).acc.fault = v := by unfold chainFaulted; split <;> rfl
theorem chainFaulted_accPipe : (chainFaulted running seq idx v x).anv.accPipe = x.anv.accPipe := by
  unfold chainFaulted; split <;> rfl
theorem chainFaulted_headFc (h : x.acc.headFc = none) : (chainFaulted running seq idx v x).acc.headFc = none := by
  unfold chainFaulted
  split
  · rfl
  · exact h
theorem chainFaulted_csCtl (h : running) :
    (chainFaulted running seq idx v x).blw.csCtl = setFld (setFld x.blw.csCtl 5 4 csFaulted) 63 32 idx := by
  rw [chainFaulted, if_pos h]; rfl
end

/-- The state once the chain wait of an instruction has run out, before its epoch is retracted (04, R108). -/
def chainFault (s : State) (t idx rows detail : Nat) : State :=
  let u := lateRefreshed (modTile s t chainInTime) t
  let f := tileFault u t spACC 5 detail idx rows
  if csState u t = 1 then modTile f t (atWord idx) else f

theorem chainExpire_stays (s : State) (t idx rows detail : Nat) :
    Stays (chainFault s t idx rows detail) (chainExpire s t idx rows detail) := by
  unfold chainExpire
  dsimp only
  split
  · exact retractEpoch_stays _ _ _
  · exact Stays.refl _

theorem recorded_stays {k space code detail : Nat} {m : State} (h : Recorded s n k space code detail) (hm : Stays n m) :
    Recorded s m k space code detail := by
  obtain ⟨r, hr, seq, rest⟩ := h
  exact ⟨r, hm.log r hr, seq, rest⟩

theorem chainFault_recorded (s : State) (t idx rows detail : Nat) :
    Recorded s (chainFault s t idx rows detail) 0 2 5 (detail % 256) := by
  have late : (lateRefreshed (modTile s t chainInTime) t).recs = s.recs := lateRefreshed_only _ _ .recs (by simp)
  have record := recorded_congr (tileFault_recorded (lateRefreshed (modTile s t chainInTime) t) t spACC 5 detail idx rows) late
  unfold chainFault
  dsimp only
  split
  · exact record
  · exact record

theorem tileAt_chainFault (s : State) (t : TileId) (idx rows detail : Nat) :
    tileAt (chainFault s t.val idx rows detail) t.val =
      chainFaulted (csState s t.val = 1) s.recs.seq idx (faultWord idx rows 5 detail) (tileAt s t.val) := by
  have tile : tileAt (lateRefreshed (modTile s t.val chainInTime) t.val) t.val = chainInTime (tileAt s t.val) := by
    rw [tileAt_lateRefreshed, tileAt_modTile_self]
  have late : (lateRefreshed (modTile s t.val chainInTime) t.val).recs = s.recs := lateRefreshed_only _ _ .recs (by simp)
  have state : csState (lateRefreshed (modTile s t.val chainInTime) t.val) t.val = csState s t.val := by
    rw [csState, tile]; rfl
  unfold chainFault
  dsimp only
  rw [state]
  by_cases running : csState s t.val = 1
  · rw [if_pos running, tileAt_modTile_self, tileAt_tileFault_acc, state, tile, late, accStopped, if_pos running, chainFaulted,
      if_pos running]
  · rw [if_neg running, tileAt_tileFault_acc, state, tile, accStopped, if_neg running, chainFaulted, if_neg running]

theorem chainExpire_tile (s : State) (t : TileId) (idx rows detail : Nat) :
    TileStays (chainFaulted (csState s t.val = 1) s.recs.seq idx (faultWord idx rows 5 detail) (tileAt s t.val))
      (tileAt (chainExpire s t.val idx rows detail) t.val) :=
  tileAt_chainFault s t idx rows detail ▸ (chainExpire_stays s t.val idx rows detail).tile t.val

theorem chainExpire_accPipe (s : State) (t : TileId) (idx rows detail : Nat) :
    (tileAt (chainExpire s t.val idx rows detail) t.val).anv.accPipe = (tileAt s t.val).anv.accPipe :=
  (chainExpire_tile s t idx rows detail).accPipe.trans (chainFaulted_accPipe _ _ _ _ _)

theorem chainExpire_headFc (h : (tileAt s t.val).acc.headFc = none) (idx rows detail : Nat) :
    (tileAt (chainExpire s t.val idx rows detail) t.val).acc.headFc = none :=
  (chainExpire_tile s t idx rows detail).headFc (chainFaulted_headFc _ _ _ _ _ h)

/-- What a chain wait that has run out leaves: the record, the fault register, and a stream that ran FAULTED at the word of the
instruction (04, R108; 15, Table 15-5). -/
structure ChainEnded (s n : State) (t : TileId) (idx rows detail : Nat) : Prop where
  record : Recorded s n 0 2 5 detail
  fault : (tileAt n t.val).acc.fault = faultWord idx rows 5 detail
  stream : csState s t.val = 1 → csState n t.val = 3 ∧ csWord n t.val = idx % 2 ^ 32

/-- The instruction of the wait ends, which leaves of s the records and the stream; then its wait has run out. -/
theorem chainExpire_ended {u : State} (hr : u.recs = s.recs) (hb : (tileAt u t.val).blw = (tileAt s t.val).blw)
    (idx rows : Nat) {detail : Nat} (hd : detail < 256) : ChainEnded s (chainExpire u t.val idx rows detail) t idx rows detail := by
  have tile := chainExpire_tile u t idx rows detail
  have record := recorded_congr (recorded_stays (chainFault_recorded u t.val idx rows detail) (chainExpire_stays _ _ _ _ _)) hr
  rw [Nat.mod_eq_of_lt hd] at record
  refine ⟨record, tile.fault.trans (chainFaulted_fault _ _ _ _ _), fun running => ?_⟩
  have state (c : Reg) : fld (setFld (setFld c 5 4 csFaulted) 63 32 idx) 5 4 = 3 := by
    rw [fld_setFld_apart _ 63 32 5 4 _ (by decide) (by decide), fld_setFld _ 5 4 _ (by decide)]; rfl
  have ctl := tile.csCtl
  rw [chainFaulted_csCtl _ _ _ _ _ (by rwa [csState, hb])] at ctl
  rw [csState, csWord, ctl (by rw [state]; decide)]
  exact ⟨state _, fld_setFld _ 63 32 _ (by decide)⟩

/-! ### Whose chain wait has run out -/

/-- The job is an MMT whose wait for a chain row, or for a free row at its target, has run out (04, R108). -/
def rowWaitExpired (s : State) (t : Nat) (j : AnvJob) : Bool :=
  match j.op with
  | .mmt k => chainExpired s t k.waitFc
  | _ => false

/-- The tile's first such job, if it has one. -/
def expiredRow (s : State) (t : Nat) : Option AnvJob :=
  ((tileAt s t).anv.rowPipe ++ (tileAt s t).anv.queue).find? (rowWaitExpired s t)

/-- The state when an MMT whose wait has run out has ended with the rows that it entered: its slot is incomplete (04, R108). -/
def rowWaitEnded (s : State) (t : Nat) (j : AnvJob) (k : MmtJob) : State :=
  truncateMmt (if Mmt.dest k.w = 0 ∧ 0 < k.entered then setSst s t (Mmt.slot k.w) 32 else s) t j.seq

theorem truncateMmt_blw (s : State) (t : TileId) (seq : Nat) :
    (tileAt (truncateMmt s t.val seq) t.val).blw = (tileAt s t.val).blw := by
  simp only [truncateMmt, retireMmt, modMmt, tileAt_modTile_self]

theorem rowWaitEnded_blw (s : State) (t : TileId) (j : AnvJob) (k : MmtJob) :
    (tileAt (rowWaitEnded s t.val j k) t.val).blw = (tileAt s t.val).blw := by
  rw [rowWaitEnded, truncateMmt_blw]
  split
  · rw [setSst, tileAt_modTile_self]
  · rfl

theorem rowWaitEnded_recs (s : State) (t : Nat) (j : AnvJob) (k : MmtJob) : (rowWaitEnded s t j k).recs = s.recs := by
  simp only [rowWaitEnded, truncateMmt, retireMmt, modMmt, setSst, modTile_recs]
  split <;> rfl

theorem chainTmo_mmt {j : AnvJob} {k : MmtJob} (hj : expiredRow s t.val = some j) (hk : j.op = .mmt k) :
    chainTmo s t.val = chainExpire (rowWaitEnded s t.val j k) t.val j.idx k.entered
      (if (tileAt s t.val).acc.late then 1 else 0) := by
  unfold chainTmo
  dsimp only
  split
  · next i hi =>
    obtain rfl : i = j := Option.some.inj (hi.symm.trans hj)
    simp only [hk]
    rfl
  · next hi => cases hi.symm.trans hj

/-- The tile with its accumulator pipe empty. -/
def accPipeEmptied (x : Tile) : Tile := { x with anv := { x.anv with accPipe := none } }

/-- The tile whose stream no longer waits for the header of a segment (04, R105). -/
def headWaitEnded (x : Tile) : Tile := { x with acc := { x.acc with headFc := none } }

theorem chainTmo_acc {j : AnvJob} {k : AccJob} (hn : expiredRow s t.val = none) (hj : (tileAt s t.val).anv.accPipe = some j)
    (hk : j.op = .acc k) (he : chainExpired s t.val k.waitFc = true) :
    chainTmo s t.val = chainExpire (modTile s t.val accPipeEmptied) t.val
      j.idx k.done 1 := by
  unfold chainTmo
  dsimp only
  split
  · next i hi => cases hi.symm.trans hn
  · simp only [hj, hk, he, if_true]
    rfl

theorem chainTmo_head (hn : expiredRow s t.val = none) (hp : (tileAt s t.val).anv.accPipe = none)
    (hw : (tileAt s t.val).blw.pend ≠ none) (he : chainExpired s t.val (tileAt s t.val).acc.headFc = true) :
    chainTmo s t.val = chainExpire (modTile s t.val headWaitEnded) t.val (csWord s t.val) 0 0 := by
  have held : (tileAt s t.val).blw.pend.isSome = true := Option.isSome_iff_ne_none.2 hw
  unfold chainTmo
  dsimp only
  split
  · next i hi => cases hi.symm.trans hn
  · simp only [hp, held, he, Bool.and_self, if_true]
    rfl

/-- Settles O13: AGEO, ACHN and the chain's rows take effect on their tile alone, and each wait ends by `chainExpire`. -/
theorem accumulatorEvents : Obligations.AccumulatorEvents := by
  intro s t
  dsimp only
  refine ⟨?ageo, ?achn, fun r rest ha => congrArg Host.Outcome.next (chainArrive_local ha), ?remote, ?reserved, ?row,
    fun hn => ⟨?acc, ?head⟩⟩
  case ageo =>
    rintro w ⟨hpend, hop, hrun, hruns⟩ hq hr ha harr hrep hre
    exact congrArg Host.Outcome.next (ageoApply_applied ⟨hpend, hop, hrun, hruns⟩ hq hr ha harr hrep hre)
  case achn =>
    rintro w ⟨hpend, hop, hrun, hruns⟩ hj hf ha hres hrx hh hw
    exact congrArg Host.Outcome.next (achnApply_applied ⟨hpend, hop, hrun, hruns⟩ hj hf ha hres hrx hh hw)
  case remote =>
    intro hd ha hh hfree hlen
    obtain ⟨y, hy, fifo⟩ := chainArrive_remote ha hh hfree hlen
    refine ⟨_, remoteRow hd (tileAt s t.val).acc, congrArg Host.Outcome.next hy, ?_, rfl, rfl, rfl, rfl, rfl, putTile_only _ _ _,
      putTile_onlyTile _ _ _⟩
    rw [tileAt_put]
    exact fifo
  case reserved =>
    intro hl hf
    obtain ⟨only, onlyTile, acc⟩ := rowWaitOver_frame (modTile s t.val chainInTime) t (tileAt s t.val)
    obtain ⟨parts, others⟩ :=
      lateRefreshed_frame ((modTile_only s t.val _).trans only) (OnlyTile.trans (modTile_onlyTile _ _ _) onlyTile)
    refine ⟨_, congrArg Host.Outcome.next (chainReserved_row hl hf), ?_, parts, others⟩
    rw [tileAt_lateRefreshed, acc, tileAt_modTile_self]
    rfl
  case row =>
    intro j k hj hk
    have ended := chainExpire_ended (rowWaitEnded_recs s t.val j k) (rowWaitEnded_blw s t j k) j.idx k.entered
      (detail := if (tileAt s t.val).acc.late then 1 else 0) (by split <;> decide)
    exact ⟨_, congrArg Host.Outcome.next (chainTmo_mmt hj hk), ended.record, ended.fault, ended.stream⟩
  case acc =>
    intro j k hj hk he
    have ended := chainExpire_ended (s := s) (t := t) (modTile_recs s t.val accPipeEmptied)
      (congrArg (·.blw) (tileAt_modTile_self _ _ _)) j.idx k.done (detail := 1) (by decide)
    refine ⟨_, congrArg Host.Outcome.next (chainTmo_acc hn hj hk he), ended.record, ?_, ended.fault⟩
    rw [chainExpire_accPipe, tileAt_modTile_self, accPipeEmptied]
  case head =>
    intro hp hw he
    have ended := chainExpire_ended (s := s) (t := t) (modTile_recs s t.val headWaitEnded)
      (congrArg (·.blw) (tileAt_modTile_self _ _ _)) (csWord s t.val) 0 (detail := 0) (by decide)
    refine ⟨_, congrArg Host.Outcome.next (chainTmo_head hn hp hw he), ended.record, chainExpire_headFc ?_ _ _ _, ended.fault⟩
    rw [tileAt_modTile_self, headWaitEnded]

end Sys2Proof.Machine
end

section
/-! WCF, WIN and WCUR at issue (05, R114, R118 to R120, R125). -/

namespace Sys2Proof.Machine

variable {s : State} {t : TileId} {w : Word128}

/-- A window word that no earlier MMT holds back sets the window of its tile (05, R119). -/
theorem winGate_done (hp : winPending (tileAt s t.val) = false) (f : Window → Window) (oy ox ch : Nat) :
    winGate t.val s (fun u => .done (modTile u t.val (fun x => winSet x f oy ox ch))) =
      .done (putTile s t (winSet (tileAt s t.val) f oy ox ch)) := by
  rw [winGate, hp, modTile_put]
  rfl

/-- A word whose issue sets the window issues with the window so set. -/
theorem issueCmd_winSet {op : Nat} {f : State → Issue} {g : Window → Window} {oy ox ch : Nat} (h : Stands s t w op)
    (hf : f s = winGate t.val s (fun u => .done (modTile u t.val (fun x => winSet x g oy ox ch))))
    (hp : winPending (tileAt s t.val) = false) :
    issueCmd op t.val w f s = .next (issuedAs s t (winSet (tileAt s t.val) g oy ox ch)) :=
  issueCmd_done h (hf.trans (winGate_done hp g oy ox ch)) rfl

/-- A WCF whose checks pass: its format is one of R112, and its taps lie within its filter (05, R112, R114, R125). -/
theorem issueWcf_gate (hr : fmtRsvd (Wcf.fmt w) = false) (hf : winFmtOk (Wcf.fmt w) = true) (hh : Wcf.fh w ≠ 16)
    (hw : 2 ≤ Wcf.fh w → Wcf.fw w ≤ 15) (hdense : Wcf.band w = 0 → Wcf.tap0 w + Wcf.tapn w ≤ Wcf.fh w * Wcf.fw w)
    (hband : Wcf.band w = 1 → Wcf.tap0 w < Wcf.fh w) :
    issueWcf t.val w s = winGate t.val s (fun u => .done (modTile u t.val (fun x =>
      winSet x (fun v => { v with wcf := some w }) 0 0 0))) := by
  have wide : ¬ (2 ≤ Wcf.fh w ∧ 15 < Wcf.fw w) := fun h => Nat.not_lt.2 (hw h.1) h.2
  have taps : ¬ ((Wcf.band w = 0 ∧ Wcf.fh w * Wcf.fw w < Wcf.tap0 w + Wcf.tapn w) ∨
      (Wcf.band w = 1 ∧ Wcf.fh w ≤ Wcf.tap0 w)) := by
    rintro (⟨b, out⟩ | ⟨b, out⟩)
    · exact Nat.not_lt.2 (hdense b) out
    · exact Nat.not_le.2 (hband b) out
  rw [issueWcf, hr, hf, if_neg (by decide), if_neg hh, if_neg wide, if_neg taps]

/-- A WIN whose checks pass: its input rows fit a line, its input fits scratch, and ZRC rows are of whole groups (05, R114, R125). -/
theorem issueWin_gate (hrow : Win.iw w * Win.c w ≤ 4096) (hscr : 32 * (Win.iadr w + Win.ih w * Win.istr w) ≤ scrSize s t.val)
    (hzrc : ∀ c, (tileAt s t.val).win.wcf = some c → Wcf.z c = 1 → Win.iw w * Win.c w % 64 = 0) :
    issueWin t.val w s = winGate t.val s (fun u => .done (modTile u t.val (fun x =>
      winSet x (fun v => { v with win := some w }) 0 0 0))) := by
  unfold issueWin
  dsimp only
  rw [if_neg (Nat.not_lt.2 hrow), if_neg (Nat.not_lt.2 hscr), if_neg]
  rintro ⟨z, part⟩
  split at z
  · next c hc => exact part (hzrc c hc z)
  · cases z

/-- A WCUR whose checks pass: its position lies within the output (05, R118, R125). -/
theorem issueWcur_gate {c n : Word128} (hc : (tileAt s t.val).win.wcf = some c) (hn : (tileAt s t.val).win.win = some n)
    (hoy : Wcur.oy w < Win.oh n) (hox : Wcur.ox w < winWidth c n) (hch : Wcur.ch w < Win.c n) :
    issueWcur t.val w s = winGate t.val s (fun u => .done (modTile u t.val (fun x =>
      winSet x id (Wcur.oy w) (Wcur.ox w) (Wcur.ch w)))) := by
  simp only [issueWcur, hc, hn]
  rw [if_neg (by omega)]

/-- Settles O8: a word that passes its checks comes to the gate of R119, and with no MMT pending there it sets the window. -/
theorem windowWords : Obligations.WindowWords := by
  intro s t w hp
  refine ⟨fun h hr hf hh hw hdense hband => ?wcf, fun h hrow hscr hzrc => ?win, fun c n h hc hn hoy hox hch => ?wcur⟩
  case wcf =>
    exact issueCmd_winSet h (issueWcf_gate hr hf hh (fun two => hw (Nat.le_of_succ_le_succ two)) hdense hband) hp
  case win => exact issueCmd_winSet h (issueWin_gate hrow hscr hzrc) hp
  case wcur => exact issueCmd_winSet h (issueWcur_gate hc hn hoy hox hch) hp

end Sys2Proof.Machine
end

section
/-! The stop at a row whose ZRC line overran (05, R122) ends MMTs by their number, and each keeps the rows that it has entered. -/

namespace Sys2Proof.Machine

/-- A WCF of one tap of 64 channels on ZRC rows of E4M3, and a WIN of one row of 64 channels whose stride is 0: a ZRC
row of it overruns. -/
def zrcWcf : Word128 := BitVec.ofNat 128 (0x30 * 2 ^ 120 + E4M3 * 2 ^ 115 + 2 ^ 114 + 63 * 2 ^ 26)
def zrcWin : Word128 := BitVec.ofNat 128 (0x31 * 2 ^ 120 + 63 * 2 ^ 48)

/-- The only line of that input, as it becomes resident. -/
def overrunLine : WinLine := { line := 0, oy := 0, ty := 0, elems := [], poison := none, overrun := true }

/-- An MMT of one row from the window unit, which enters its row next. -/
def windowMmt : MmtJob :=
  { w := BitVec.ofNat 128 (0x10 * 2 ^ 120 + E4M3 * 2 ^ 115 + 2 ^ 109), m := 1
    plane := { fmt := E4M3, kp := 64, np := 1, ck := false }, win := (0, 0, 0), seqOut := 1 }
def windowJob : AnvJob := { seq := 0, idx := 0, op := .mmt windowMmt }

/-- Another MMT with the same number, whose one row has entered and is still to be written. -/
def enteredJob : AnvJob := { seq := 0, idx := 0, op := .mmt { windowMmt with entered := 1 } }

/-- Hearth 0 is in RUN with tile 0, where the row of `windowJob` is due behind `enteredJob` and its line overran. -/
def sharedNumber : State :=
  let u := State.reset
  modTile { u with tmp := { u.tmp with cur := { u.tmp.cur with
    hearths := vput u.tmp.cur.hearths 0 { h := { present := true, tiles := 1 } } } } } 0 (fun x => { x with
      anv := { x.anv with queue := [windowJob], rowPipe := [enteredJob], buf := vmod x.anv.buf 0 (fun b => { b with ready := true }) }
      win := { x.win with wcf := some zrcWcf, win := some zrcWin, lines := [overrunLine] } })

/-- After the stop the MMT found under the number is the one in the row pipe, with one row, where the one that stopped had none. -/
theorem sharedNumber_rowEnter :
    mmtOf (tileAt (rowEnter sharedNumber 0) 0) windowJob.seq = some { windowMmt with entered := 1 } := by
  decide

/-- Refutes O14: it does not ask that the MMTs of a tile have different numbers. Where two share one, both end at the stop of R122,
and the first under that number keeps its own rows, not those of the MMT whose row was due. -/
theorem not_windowLines : ¬ Obligations.WindowLines := by
  rintro ⟨-, stops⟩
  obtain ⟨n, hn, -, -, -, -, ended⟩ := stops sharedNumber 0 windowJob windowMmt zrcWcf zrcWin overrunLine (by decide) (by decide)
    (by decide) (by decide) (by decide) (by decide) (by decide) (by decide) (by decide) (by decide) (by decide) (by decide)
    (by decide) (by decide) (by decide)
  obtain rfl : rowEnter sharedNumber 0 = n := Host.Outcome.next.inj hn
  exact absurd (ended _ sharedNumber_rowEnter) (by decide)

end Sys2Proof.Machine
end

section
/-! VLEN, VADR, VIDX, the register-operand forms, VLD, VST, VSTZ and EPI at issue (06, R127 to R153). -/

namespace Sys2Proof.Machine

variable {s : State} {t : TileId} {w : Word128}

/-! ### Words that take a place in the vector queue -/

/-- A word that issues into the vector queue, where it finds room (06, R130). -/
theorem issueCmd_pushVec {op : Nat} {f : State → Issue} {g : Vec → Vec} (h : Stands s t w op) (room : VecRoom s t)
    (hf : f s = pushVec s t.val w g) : issueCmd op t.val w f s = .next (issuedAs s t (withVector s t w g)) :=
  issueCmd_done h (hf.trans (pushVec_put room g)) rfl

/-- VLEN with a vector length of 1 to 512 (06, R128, Table 06-3). -/
theorem issueVlen_push (low : 1 ≤ Vset.vl w) (high : Vset.vl w ≤ 512) :
    issueVlen t.val w s = pushVec s t.val w (fun v => { v with vl := Vset.vl w }) := by
  rw [issueVlen, if_neg (by omega)]

theorem issueVadr_push (free : namesHeld (tileAt s t.val) [Vset.ar w] = false) :
    issueVadr t.val w s = pushVec s t.val w (fun v =>
      { v with addr := vput v.addr (Vset.ar w) (BitVec.ofNat 64 (Vset.str w * 2 ^ 20 + Vset.base w)) }) := by
  simp [issueVadr, free]

/-- Settles O2: each word passes to the vector queue, with its own change of the set-up state. -/
theorem vectorSetUpWords : Obligations.VectorSetUpWords := by
  intro s t w room
  refine ⟨fun h low high => ?vlen, fun h free => ?vadr, fun h => ?vidx⟩
  case vlen => exact issueCmd_pushVec h room (issueVlen_push low high)
  case vadr => exact issueCmd_pushVec h room (issueVadr_push free)
  case vidx => exact issueCmd_pushVec h room rfl

/-! ### Checks that pass -/

/-- No check of the list fails. -/
theorem firstFail_none {l : List (Bool × Nat × Nat)} : firstFail l = none ↔ ∀ e ∈ l, e.1 = false := by
  induction l with
  | nil => simp [firstFail]
  | cons e l ih =>
    obtain ⟨_ | _, c, d⟩ := e
    · simp [firstFail, ih]
    · simp [firstFail]

theorem regOver_none {nr : Nat} {rs : List Nat} : regOver nr rs = none ↔ RegsFit nr rs := by
  simp [regOver, RegsFit, List.find?_eq_none]

theorem vrFault_none {fnMax : Nat} {regs : List Nat} : vrFault w fnMax regs = none ↔ FormOk w fnMax ∧ RegsFit (Vr.nr w) regs := by
  rw [vrFault, Option.or_eq_none_iff, firstFail_none, regOver_none]
  simp only [List.forall_mem_cons, List.not_mem_nil, false_imp_iff, implies_true, and_true, decide_eq_false_iff_not, not_lt,
    not_and, not_not]
  rfl

theorem maskDstFault_none : maskDstFault w = none ↔ 1 ≤ Vr.vd w ∧ Vr.vd w ≤ 7 ∧ Vr.nr w = 1 := by
  simp [maskDstFault, firstFail_none, Nat.one_le_iff_ne_zero]

/-! ### Register forms -/

/-- `ADV` of a register form advances no address register (06, R139). -/
theorem advWhen_no_names (w : Word128) : advWhen (Vr.adv w) [] (Vr.nr w) = advIndex w := rfl

/-- A register form whose checks pass (06, R129, R130, R139). -/
theorem issueCmd_vr {op : Nat} {f : State → Option (Nat × Nat)} (h : Stands s t w op) (room : VecRoom s t) (hf : f s = none) :
    issueCmd op t.val w (fun u => issueVr t.val w (f u) u) s = .next (issuedAs s t (withVector s t w (advIndex w))) := by
  refine issueCmd_pushVec h room ?_
  rw [hf]
  rfl

theorem vcvtFault_none (form : FormOk w 2) (regs : RegsFit (Vr.nr w) [Vr.vd w, Vr.va w]) (code : fmtRsvd (Vr.df w) = false)
    (fmt : Vr.df w ≠ X96) (shape : isMx (Vr.df w) = true → (vecOf s t.val).vl % 32 = 0) : vcvtFault s t.val w = none := by
  rw [vcvtFault, Option.or_eq_none_iff, vrFault_none, firstFail_none]
  refine ⟨⟨form, regs⟩, ?_⟩
  simpa [code, fmt] using shape

/-- Settles O3: no check of the form fails, and the word passes to the vector queue. -/
theorem vectorRegisterForms : Obligations.VectorRegisterForms := by
  intro s t w room
  refine ⟨fun h form regs third => ?vfa, fun h form regs => ?via, fun h form regs dst => ?vcmp, fun h form regs mask => ?vsel,
    fun h form regs code fmt shape => ?vcvt, fun h form dst masks => ?vmsk, fun h form regs => ?vperm, fun h form regs => ?vlsh,
    fun h form regs => ?vcmpr, fun h form regs => ?vexpd, fun h form regs => ?vred⟩
  case vfa =>
    refine issueCmd_vr h room (f := fun _ => vfaFault w) (vrFault_none.2 ⟨form, fun r hr => ?_⟩)
    obtain hr | hr := List.mem_append.1 hr
    · exact regs r hr
    · split at hr
      · next fma => exact third fma r hr
      · cases hr
  case via => exact issueCmd_vr h room (f := fun _ => viaFault w) (vrFault_none.2 ⟨form, regs⟩)
  case vcmp =>
    refine issueCmd_vr h room (f := fun _ => vcmpFault w) ?_
    rw [vcmpFault, Option.or_eq_none_iff, Option.or_eq_none_iff, vrFault_none, maskDstFault_none, regOver_none]
    exact ⟨⟨⟨form, by simp [RegsFit]⟩, dst⟩, regs⟩
  case vsel =>
    refine issueCmd_vr h room (f := fun _ => vselFault w) ?_
    rw [vselFault, Option.or_eq_none_iff, Option.or_eq_none_iff, vrFault_none, firstFail_none, regOver_none]
    have select : Vr.vc w ≤ 7 := mask
    exact ⟨⟨⟨form, by simp [RegsFit]⟩, by simpa using select⟩, regs⟩
  case vcvt => exact issueCmd_vr h room (vcvtFault_none form regs code fmt shape)
  case vmsk =>
    refine issueCmd_vr h room (f := fun _ => vmskFault w) ?_
    rw [vmskFault, Option.or_eq_none_iff, Option.or_eq_none_iff, vrFault_none, maskDstFault_none, firstFail_none]
    have sources : Vr.fn w ≠ 4 → Vr.va w ≤ 7 ∧ Vr.vb w ≤ 7 := masks
    exact ⟨⟨⟨form, by simp [RegsFit]⟩, dst⟩, by simpa [← imp_and] using sources⟩
  case vperm => exact issueCmd_vr h room (f := fun _ => vpermFault w) (vrFault_none.2 ⟨form, regs⟩)
  case vlsh => exact issueCmd_vr h room (f := fun _ => vlshFault w) (vrFault_none.2 ⟨form, regs⟩)
  case vcmpr => exact issueCmd_vr h room (f := fun _ => vcmprFault w) (vrFault_none.2 ⟨form, regs⟩)
  case vexpd => exact issueCmd_vr h room (f := fun _ => vexpdFault w) (vrFault_none.2 ⟨form, regs⟩)
  case vred => exact issueCmd_vr h room (f := fun _ => vredFault w) (vrFault_none.2 ⟨form, regs⟩)

/-! ### Memory forms -/

theorem issueVld_push (free : namesHeld (tileAt s t.val) (vmNames w) = false) (pass : vldFault s t.val w = none) :
    issueVld t.val w s = pushVec s t.val w (advWhen (Vm.adv w) (vmNames w) (Vm.nr w)) := by
  simp [issueVld, free, pass]

theorem issueVst_push (free : namesHeld (tileAt s t.val) (vmNames w) = false) (pass : vstFault s t.val w = none)
    (ready : vstWaits (tileAt s t.val) w = false) (late : vstLate s t.val w = none) :
    issueVst t.val w s = pushVec s t.val w (advWhen (Vm.adv w) (vmNames w) (Vm.nr w)) := by
  simp [issueVst, free, pass, ready, late]

theorem issueVstz_push (free : namesHeld (tileAt s t.val) (vmNames w) = false) (pass : vstzFault s t.val w = none) :
    issueVstz t.val w s =
      pushVec s t.val w (advWhen (Vm.adv w) ((vmNames w).filter (fun a => packedAr w != some a)) (Vm.nr w)) := by
  simp [issueVstz, free, pass]

theorem issueEpi_push (free : namesHeld (tileAt s t.val) (epiNames w) = false) (pass : epiFault s t.val w = none) :
    issueEpi t.val w s =
      pushVec s t.val w (advWhen (Epi.adv w) ((epiNames w).filter (fun a => packedAr w != some a)) (Epi.rc w)) := by
  simp [issueEpi, free, pass]

/-- Settles O4: a word that names no held register and passes its checks goes to the vector queue, and advances what it names. -/
theorem vectorMemoryForms : Obligations.VectorMemoryForms := by
  intro s t w room
  refine ⟨fun h free pass => ?vld, fun h free pass ready late => ?vst, fun h free pass => ?vstz, fun h free pass => ?epi⟩
  case vld => exact issueCmd_pushVec h room (issueVld_push free pass)
  case vst => exact issueCmd_pushVec h room (issueVst_push free pass ready late)
  case vstz => exact issueCmd_pushVec h room (issueVstz_push free pass)
  case epi => exact issueCmd_pushVec h room (issueEpi_push free pass)

end Sys2Proof.Machine
end

section
/-! Rows of the vector pipe, where they complete and what an instruction leaves at its last one (06, R130, R144, R147, R151, R152, R155;
07, R158), and the end of a packed store. -/

namespace Sys2Proof.Machine

variable {s u : State} {t : TileId} {j k : VecJob} {mism : Bool}

/-! ### Updates of the vector unit -/

theorem vecOf_modVec_self (s : State) (t : TileId) (f : Vec → Vec) : vecOf (modVec s t.val f) t.val = f (vecOf s t.val) := by
  simp only [vecOf, modVec, tileAt_modTile_self]

theorem modVec_modVec (s : State) (t : TileId) (f g : Vec → Vec) :
    modVec (modVec s t.val f) t.val g = modVec s t.val (fun v => g (f v)) := by
  simp only [modVec, modTile_put, tileAt_put, putTile_putTile]

theorem modVec_misc (s : State) (t u : Nat) (f : Vec → Vec) : (tileAt (modVec s t f) u).misc = (tileAt s u).misc := by
  rw [modVec, tileAt_modTile]
  split
  · next h => rw [h.1]
  · rfl

theorem modVec_role (s : State) (t u : Nat) (f : Vec → Vec) : tileRole (modVec s t f) u = tileRole s u := by
  simp only [tileRole, modVec_misc]

/-! ### The job whose turn it is -/

/-- The vector pipe of a tile of a hearth in RUN takes its next row from this job: the tile is no shadow, and no poisoned operand
holds the pipe (06, R130; 09, R215; 15, R356). -/
structure VecTurn (s : State) (t : TileId) (j : VecJob) : Prop where
  runs : tileRuns s t.val = true
  executes : tileRole s t.val ≠ 2
  free : pipeHeld (tileAt s t.val) 3 = false
  next : vecNext s t.val = some j

/-- The job with one more row completed. -/
def rowMore (k : VecJob) : VecJob := { k with done := k.done + 1 }

/-- The pipe keeps the instruction until its last row (06, R130). -/
def rowDone (u : State) (t : Nat) (k : VecJob) : State :=
  if k.done < vecRows k.w then setRun u t (some k) k.seq else vecEnd u t k

theorem vecRowComplete_ok (turn : VecTurn s t j) (row : vecRowOf (vecSee s t.val j) t.val j = .ok (u, k)) (mism : Bool) :
    vecRowComplete s t.val mism = vecPair (rowDone u t.val (rowMore k)) t.val j mism := by
  simp only [vecRowComplete, turn.runs, beq_eq_false_iff_ne.2 turn.executes, turn.free, turn.next, row, Bool.not_true,
    Bool.or_self, Bool.false_eq_true, if_false]
  rfl

theorem vecPair_agrees (h : mism = true → tileRole s t.val ≠ 1) : vecPair s t.val j mism = s := by
  have agrees : ¬ (mism && tileRole s t.val == 1) = true := by simpa using h
  rw [vecPair, if_neg agrees]

/-! ### The last row -/

/-- The vector unit after the last row of a job: its flags, its captured mask and the length of a strided ZRC store; the pipe keeps
a packed one (06, R147, R151, R155). -/
def vecEnded (cyc : Nat) (j : VecJob) (v : Vec) : Vec :=
  let v := setMask { v with flag := v.flag ||| BitVec.ofNat 64 j.flags, flagNow := v.flagNow.note cyc j.flags } (fdstOf j.w) j.fmask
  { v with
    zlen := if isZrc j.w && !isPacked j.w then BitVec.ofNat 64 (j.zlen % 2 ^ 32) else v.zlen
    run := if isPacked j.w then some j else none
    queue := v.queue.filter (fun q => q.seq != j.seq) }

/-- Without the trap of R144 the last row changes the vector unit alone. -/
theorem setRun_ended (s : State) (t : TileId) (j : VecJob) :
    setRun (modVec s t.val (fun v =>
      let v := { v with flag := v.flag ||| BitVec.ofNat 64 j.flags, flagNow := v.flagNow.note s.cyc j.flags }
      let v := setMask v (fdstOf j.w) j.fmask
      if isZrc j.w && !isPacked j.w then { v with zlen := BitVec.ofNat 64 (j.zlen % 2 ^ 32) } else v)) t.val
      (if isPacked j.w then some j else none) j.seq = modVec s t.val (vecEnded s.cyc j) := by
  rw [setRun, modVec_modVec]
  congr 1
  funext v
  unfold vecEnded
  dsimp only
  split <;> rfl

theorem vecEnd_in_range (h : j.oor = none) : vecEnd s t.val j = modVec s t.val (vecEnded s.cyc j) := by
  unfold vecEnd
  dsimp only
  rw [h, setRun_ended]

/-- The last row with or without the trap of an index out of range (06, R144). -/
theorem vecEnd_trap (s : State) (t : TileId) (j : VecJob) :
    vecEnd s t.val j = modVec s t.val (vecEnded s.cyc j) ∨
    ∃ r l, vecEnd s t.val j = tileFault (modVec s t.val (vecEnded s.cyc j)) t.val spVEC vOOR r j.idx l := by
  unfold vecEnd
  dsimp only
  rw [setRun_ended]
  split
  · split
    · exact .inr ⟨_, _, rfl⟩
    · exact .inl rfl
  · exact .inl rfl

theorem setMask_self {m : BitVec 512} {i : Nat} (v : Vec) (hi : i < 8) (h0 : i ≠ 0) : vget (setMask v i m).masks i 0 = m := by
  simp [setMask, h0, vget_vput, hi]

theorem fdstOf_lt (w : Word128) : fdstOf w < 8 := by
  unfold fdstOf
  dsimp only
  split
  · exact fld_lt w 81 79
  · decide

theorem vecEnded_flag_lanes (cyc : Nat) (j : VecJob) (v : Vec) :
    (vecEnded cyc j v).flag = v.flag ||| BitVec.ofNat 64 j.flags ∧ (vecEnded cyc j v).lanes = v.lanes ∧
      (vecEnded cyc j v).queue = v.queue.filter (fun q => q.seq != j.seq) := by
  unfold vecEnded setMask
  dsimp only
  split <;> exact ⟨rfl, rfl, rfl⟩

theorem vecEnded_mask (cyc : Nat) (v : Vec) (h : fdstOf j.w ≠ 0) : vget (vecEnded cyc j v).masks (fdstOf j.w) 0 = j.fmask :=
  setMask_self _ (fdstOf_lt j.w) h

theorem vecEnded_zlen (cyc : Nat) (v : Vec) (hz : isZrc j.w = true) (hp : isPacked j.w = false) :
    (vecEnded cyc j v).zlen = BitVec.ofNat 64 (j.zlen % 2 ^ 32) := by
  simp [vecEnded, hz, hp]

/-! ### A fault of the vector unit -/

/-- Tile y is tile x after a fault of its vector unit: nothing of the unit but its fault register differs, and the counts and the
pair of the tile are the same (03, R76; 15, R356). -/
structure VecFaulted (x y : Tile) : Prop where
  vec : y.vec = { x.vec with fault := y.vec.fault }
  chkTcfg : y.misc.chkTcfg = x.misc.chkTcfg

theorem stopStream_vec_chkTcfg (s : State) (t : TileId) :
    (tileAt (stopStream s t.val) t.val).vec = (tileAt s t.val).vec ∧
      (tileAt (stopStream s t.val) t.val).misc.chkTcfg = (tileAt s t.val).misc.chkTcfg := by
  by_cases h : csState s t.val = csRunning
  · rw [stopStream_running h, tileAt_put]
    exact ⟨rfl, rfl⟩
  · rw [stopStream, if_neg h]
    exact ⟨rfl, rfl⟩

theorem tileFault_vec (s : State) (t : TileId) (c d word mid : Nat) :
    VecFaulted (tileAt s t.val) (tileAt (tileFault s t.val spVEC c d word mid) t.val) := by
  obtain ⟨vec, tcfg⟩ := stopStream_vec_chkTcfg (setFault s t.val spVEC (faultWord word mid c d)) t
  have set : tileAt (setFault s t.val spVEC (faultWord word mid c d)) t.val =
      { tileAt s t.val with vec := { (tileAt s t.val).vec with fault := faultWord word mid c d } } := tileAt_modTile_self _ _ _
  rw [tileFault, tileAt_raise]
  rw [set] at vec tcfg
  exact ⟨by rw [vec], tcfg⟩

theorem tileFault_only (s : State) (t space code detail word mid : Nat) :
    Only (.tiles :: recParts) s (tileFault s t space code detail word mid) :=
  (((setFault_only s t space _).trans (stopStream_only _ t)).mono (by simp)).trans
    ((raise_only _ _ _ _ _ _ _ _ _ _).mono fun _ => List.mem_cons_of_mem _)

/-- What the last row of a job leaves: the vector unit that `vecEnded` gives, but for the fault register, and neither memory nor the
tile's role moves. -/
theorem vecEnd_effect (s : State) (t : TileId) (j : VecJob) :
    (∃ e, vecOf (vecEnd s t.val j) t.val = { vecEnded s.cyc j (vecOf s t.val) with fault := e }) ∧
      tileRole (vecEnd s t.val j) t.val = tileRole s t.val ∧ Part.mem.same s (vecEnd s t.val j) := by
  have mem : Part.mem.same s (modVec s t.val (vecEnded s.cyc j)) := modTile_only _ _ _ .mem (by simp)
  obtain h | ⟨r, l, h⟩ := vecEnd_trap s t j
  · rw [h, vecOf_modVec_self, modVec_role]
    exact ⟨⟨_, rfl⟩, rfl, mem⟩
  · obtain ⟨vec, tcfg⟩ := tileFault_vec (modVec s t.val (vecEnded s.cyc j)) t vOOR r j.idx l
    rw [modVec_misc] at tcfg
    have ended := vecOf_modVec_self s t (vecEnded s.cyc j)
    rw [← ended, h]
    exact ⟨⟨_, vec⟩, congrArg (fld · 7 6) tcfg,
      Part.same_trans mem (tileFault_only _ _ _ _ _ _ _ .mem (by simp [recParts]))⟩

/-! ### The end of a packed store -/

theorem packedAr_lt {w : Word128} {a : Nat} (h : packedAr w = some a) : a < 8 := by
  unfold packedAr at h
  split at h
  · cases h
    exact fld_lt w 80 78
  · split at h
    · cases h
      exact fld_lt w 60 58
    · cases h

/-- The vector unit after VSTZ_FINISH: the length, and the base of the advancing address register behind what was stored
(06, R151, R152). -/
def vstzFinished (j : VecJob) (v : Vec) : Vec :=
  { v with
    zlen := BitVec.ofNat 64 (j.zlen % 2 ^ 32)
    run := none
    addr := match packedAr j.w with
      | some a => vmod v.addr a (fun r => setFld r 19 0 (fld r 19 0 + j.zlen / 32))
      | none => v.addr }

theorem vstzFinish_done (hr : (vecOf s t.val).run = some j) (hp : isPacked j.w = true) (hd : vecRows j.w ≤ j.done) :
    vstzFinish s t.val = modVec s t.val (vstzFinished j) := by
  simp only [vstzFinish, hr, hp, hd, decide_true, Bool.and_self, if_true]
  congr 1
  funext v
  unfold vstzFinished
  cases packedAr j.w <;> rfl

theorem vstzFinished_base {a : Nat} (v : Vec) (h : packedAr j.w = some a) :
    fld (vget (vstzFinished j v).addr a 0) 19 0 = (fld (vget v.addr a 0) 19 0 + j.zlen / 32) % 2 ^ 20 := by
  simp only [vstzFinished, h, vget_vmod_self _ _ _ _ (packedAr_lt h)]
  exact fld_setFld _ 19 0 _ (by decide)

/-! ### Rows that no poison stops -/

section
variable (clean : s.poison = [])
include clean

theorem scrPoison_clean (t off n : Nat) : scrPoison s t off n = none := by simp [scrPoison, poisoned, clean]
theorem slotPoison_clean (t slot r n : Nat) : slotPoison s t slot r n = none := by simp [slotPoison, poisoned, clean]
theorem lanePoison_clean (t off b : Nat) (act : BitVec 512) (n : Nat) : lanePoison s t off b act n = none := by
  simp [lanePoison, clean]
theorem slotLanePoison_clean (t slot r : Nat) (act : BitVec 512) (n : Nat) : slotLanePoison s t slot r act n = none :=
  lanePoison_clean clean _ _ _ _ _

theorem vldRow_clean (t : Nat) (j : VecJob) : ∃ r, vldRow s t j = .ok r := by
  simp [vldRow, lanePoison_clean clean, scrPoison_clean clean, List.findSome?_eq_none_iff.2]

theorem vldSlotRow_clean (t : Nat) (j : VecJob) : ∃ r, vldSlotRow s t j = .ok r := by
  simp [vldSlotRow, slotLanePoison_clean clean]

theorem epiRow_clean (t : Nat) (j : VecJob) : ∃ r, epiRow s t j = .ok r := by
  simp [epiRow, slotLanePoison_clean clean, lanePoison_clean clean]

theorem smxPoison_clean (t : Nat) (j : VecJob) : smxPoison s t j = none := by
  simp [smxPoison, slotPoison_clean clean, scrPoison_clean clean]

theorem smxRow_clean (t : Nat) (j : VecJob) : ∃ r, smxRow s t j = .ok r := by
  have ok {c : Prop} [Decidable c] {p q : VecOut} (hp : ∃ r, p = .ok r) (hq : ∃ r, q = .ok r) :
      ∃ r, (if c then p else q) = .ok r := by split <;> assumption
  unfold smxRow
  simp only [smxPoison_clean clean]
  exact ok ⟨_, rfl⟩ (ok ⟨_, rfl⟩ ⟨_, rfl⟩)

theorem srsRow_clean (t : Nat) (j : VecJob) : ∃ r, srsRow s t j = .ok r := by
  unfold srsRow
  simp only [slotPoison_clean clean]
  split <;> exact ⟨_, rfl⟩

/-- Where no sector is poisoned, every row completes (06, R130; 09, R215). -/
theorem vecRowOf_clean (t : Nat) (j : VecJob) : ∃ r, vecRowOf s t j = .ok r := by
  unfold vecRowOf
  dsimp only
  generalize opOf j.w = op
  split
  case h_4 =>
    split
    · exact vldSlotRow_clean clean t j
    · exact vldRow_clean clean t j
  case h_5 =>
    unfold vstRow
    dsimp only
    split <;> exact ⟨_, rfl⟩
  case h_6 => simp [vstzRow]
  case h_7 => exact epiRow_clean clean t j
  case h_9 => exact smxRow_clean clean t j
  case h_10 => exact srsRow_clean clean t j
  all_goals exact ⟨_, rfl⟩

end

/-- A register form makes the row of its function (06, R136 to R147). -/
theorem vecRowOf_reg (low : 0x48 ≤ opOf j.w) (high : opOf j.w ≤ 0x52) : vecRowOf s t.val j =
    .ok (modVec s t.val (fun _ => (regRow (vecOf s t.val) j).1), (regRow (vecOf s t.val) j).2) := by
  unfold vecRowOf
  generalize opOf j.w = op at low high
  split
  case h_12 => rfl
  all_goals omega

/-- Where no code word is bad, a row finds scratch as it is (09, R197). -/
theorem vecSee_clean (h : s.codes = {}) (t : Nat) (j : VecJob) : vecSee s t j = s := by
  simp [vecSee, h]

/-- VSTZ_FINISH completes with the length in place and the pipe free (06, R151, R152). -/
theorem exec_vstzFinish (hr : (vecOf s t.val).run = some j) (hp : isPacked j.w = true) (hd : vecRows j.w ≤ j.done) :
    exec (.vstzFinish t) s = .next (modVec s t.val (vstzFinished j)) := congrArg _ (vstzFinish_done hr hp hd)

theorem exec_vecRowComplete (turn : VecTurn s t j) (row : vecRowOf (vecSee s t.val j) t.val j = .ok (u, k)) (mism : Bool) :
    exec (.vecRowComplete t mism) s = .next (vecPair (rowDone u t.val (rowMore k)) t.val j mism) :=
  congrArg _ (vecRowComplete_ok turn row mism)

end Sys2Proof.Machine
end

section
/-! A pair whose vector or special-function rows differ (15, R357, R362): the record, the count of the tile, and the retraction, which
leaves the counts of the tiles as they are. -/

namespace Sys2Proof.Machine

variable {s n m u : State} {t : TileId} {j k : VecJob} {ps : List Part}

/-! ### Counts of the checks -/

/-- The counts of the checks of every tile are the same in both states (15, R357). -/
structure CountsKept (s n : State) : Prop where
  tile : ∀ u, (tileAt n u).misc.chkTstat = (tileAt s u).misc.chkTstat

theorem CountsKept.refl (s : State) : CountsKept s s := ⟨fun _ => rfl⟩
theorem CountsKept.trans (h : CountsKept s n) (g : CountsKept n m) : CountsKept s m := ⟨fun u => (g.tile u).trans (h.tile u)⟩
theorem CountsKept.ite {c : Prop} [Decidable c] (hn : CountsKept s n) (hm : CountsKept s m) : CountsKept s (if c then n else m) := by
  split <;> assumption

theorem Extends.counts (h : Extends ps s n) (ht : Part.tiles ∉ ps) : CountsKept s n := by
  have tiles : n.tiles = s.tiles := h.only .tiles ht
  exact ⟨fun u => by simp only [tileAt, tiles]⟩

theorem Extends.counts_retract (h : Extends retractParts s n) : CountsKept s n := h.counts (by simp [retractParts, recParts])

theorem modTile_counts {t : Nat} {f : Tile → Tile} (hf : ∀ x, (f x).misc.chkTstat = x.misc.chkTstat) :
    CountsKept s (modTile s t f) := by
  refine ⟨fun u => ?_⟩
  rw [tileAt_modTile]
  split
  · next h => rw [h.1, hf]
  · rfl

theorem counts_forEach {α : Type} {f : α → State → State} (hf : ∀ x u, CountsKept u (f x u)) (l : List α) (s : State) :
    CountsKept s (forEach l s f) :=
  List.foldlRecOn (motive := CountsKept s) l _ (.refl s) fun u hu x _ => hu.trans (hf x u)

theorem stopStream_counts (s : State) (t : Nat) : CountsKept s (stopStream s t) :=
  CountsKept.ite ((modTile_counts fun _ => by rfl).trans (modTile_counts fun _ => by rfl)) (.refl s)

theorem setFault_chk_counts (s : State) (t : Nat) (v : Reg) : CountsKept s (setFault s t spCHK v) := by
  rw [setFault_chk]
  exact modTile_counts fun _ => rfl

theorem stopHearth_counts (s : State) (h : Nat) (chk : Option Nat) : CountsKept s (stopHearth s h chk) := by
  unfold stopHearth
  refine counts_forEach (fun t u => CountsKept.ite (CountsKept.trans ?_ (stopStream_counts _ _)) (.refl u)) _ _
  split
  · exact setFault_chk_counts _ _ _
  · exact .refl u

theorem becomeRetracted_counts (s : State) (h trig : Nat) : CountsKept s (becomeRetracted s h trig) := by
  unfold becomeRetracted
  dsimp only
  refine CountsKept.trans ?ports (counts_forEach (fun t u => modTile_counts fun _ => by rfl) _ _)
  refine CountsKept.trans ?items (extends_forEach (retractPort_extends h (epochE s h)) _ _).counts_retract
  refine CountsKept.trans (CountsKept.trans ?epoch (stopHearth_counts _ _ _)) (endItems_extends _ _ _ _ _ _).counts_retract
  refine Extends.counts_retract (Extends.trans ?_ (modHearth_extends _ _ _))
  refine Extends.trans ?_ (dropRefetch_extends _ _ _)
  exact (modHearth_extends _ _ _).trans ((modHearth_extends _ _ _).trans (modHearth_extends _ _ _))

theorem retractEpoch_counts (s : State) (h trig : Nat) : CountsKept s (retractEpoch s h trig) := by
  refine CountsKept.ite ((becomeRetracted_counts s h trig).trans (Extends.counts_retract ?_)) (.refl s)
  exact (modHearth_extends _ _ _).trans ((raise_extends_retract _ _ _ _ _ _ _).trans (postNotice_extends _ _ _ _))

/-! ### Rows that differ -/

/-- A record of either severity stands in the log (15, R373, R374). -/
theorem raise_alt_recorded (s : State) (space code detail : Nat) (h : Option Nat) (agent a0 a1 a2 : Nat) (alt : Bool) :
    Recorded s (raise s space code detail h agent a0 a1 a2 alt) 0 space code (detail % 256) := by
  have log (r : Rec) : { r with seq := s.recs.seq } ∈ (placeRec s r).recs.ring ++ (placeRec s r).recs.overflow := by
    simp only [placeRec, tellHearth_recs, hostCopy_recs]
    exact mem_log_putRec_self _
  exact ⟨_, log _, rfl, rfl, rfl, rfl⟩

/-- A record that stands in the log stays in one that grows. -/
theorem recorded_grows {i space code detail : Nat} (h : Recorded s n i space code detail) (g : LogGrows n m) :
    Recorded s m i space code detail := by
  obtain ⟨r, hr, h⟩ := h
  exact ⟨r, g r hr, h⟩

/-- The state with the record of rows that differ, and with the tile's count of them (15, R357). -/
def pairCounted (s : State) (t : Nat) (j : VecJob) : State :=
  tstat (raise s spCHK 2 (if 0x60 ≤ opOf j.w then 2 else 1) (tileHearth s t) (0x100000 + t) 0 j.idx 0 true) t 15 0

/-- Rows of a pair that differ retract the epoch of the tile's hearth (15, R357, R362). -/
theorem vecPair_differs (h : tileRole s t.val = 1) (j : VecJob) : vecPair s t.val j true =
    (tileHearth s t.val).elim (pairCounted s t.val j) (fun k => retractEpoch (pairCounted s t.val j) k 1) := by
  have differs : (true && tileRole s t.val == 1) = true := by simp [h]
  rw [vecPair, if_pos differs]
  unfold pairCounted
  cases tileHearth s t.val <;> rfl

theorem pairCounted_recorded (s : State) (t : Nat) (j : VecJob) :
    Recorded s (pairCounted s t j) 0 0x0C 2 (if 0x60 ≤ wf j.w 127 120 then 2 else 1) := by
  have recorded := raise_alt_recorded s spCHK 2 (if 0x60 ≤ opOf j.w then 2 else 1) (tileHearth s t) (0x100000 + t) 0 j.idx 0 true
  have detail : (if 0x60 ≤ opOf j.w then 2 else 1) % 256 = if 0x60 ≤ opOf j.w then 2 else 1 := by split <;> rfl
  rwa [detail] at recorded

theorem pairCounted_tstat (s : State) (t : TileId) (j : VecJob) :
    (tileAt (pairCounted s t.val j) t.val).misc.chkTstat = bumpSat (tileAt s t.val).misc.chkTstat 15 0 1 := by
  have tiles : (raise s spCHK 2 (if 0x60 ≤ opOf j.w then 2 else 1) (tileHearth s t.val) (0x100000 + t.val) 0 j.idx 0 true).tiles =
    s.tiles := raise_only _ _ _ _ _ _ _ _ _ _ .tiles (by simp [recParts])
  rw [pairCounted, tstat, tileAt_modTile_self]
  simp only [tileAt, tiles]

/-- Rows of a pair that differ leave the record and the count (15, R357). -/
theorem vecPair_effect (h : tileRole s t.val = 1) (j : VecJob) :
    Recorded s (vecPair s t.val j true) 0 0x0C 2 (if 0x60 ≤ wf j.w 127 120 then 2 else 1) ∧
      (tileAt (vecPair s t.val j true) t.val).misc.chkTstat = bumpSat (tileAt s t.val).misc.chkTstat 15 0 1 := by
  have recorded := pairCounted_recorded s t.val j
  have counted := pairCounted_tstat s t j
  rw [vecPair_differs h]
  cases tileHearth s t.val with
  | none => exact ⟨recorded, counted⟩
  | some k =>
    exact ⟨recorded_grows recorded (retractEpoch_stays _ k 1).log, ((retractEpoch_counts _ k 1).tile t.val).trans counted⟩

/-- The count of rows that differ stops at its largest value (15, R357). -/
theorem fld_bumpSat_low (w : Reg) : fld (bumpSat w 15 0 1) 15 0 = min 65535 (fld w 15 0 + 1) := by
  rw [bumpSat, fld_setFld _ _ _ _ (by decide), satAdd]
  omega

/-- Where no index is out of range, a row of the pipe changes the vector unit alone (06, R144). -/
theorem rowDone_in_range (h : k.oor = none) (u : State) (t : TileId) : ∃ f, rowDone u t.val k = modVec u t.val f := by
  unfold rowDone
  split
  · exact ⟨_, rfl⟩
  · exact ⟨_, vecEnd_in_range h⟩

theorem rowDone_role (u : State) (t : TileId) (k : VecJob) : tileRole (rowDone u t.val k) t.val = tileRole u t.val := by
  obtain ⟨-, role, -⟩ := vecEnd_effect u t k
  unfold rowDone
  split
  · exact modVec_role _ _ _ _
  · exact role

/-- Settles O15: a row that completes is `rowDone`, the last one's effect is `vecEnded`, and `vecPair` compares the pair. -/
theorem vectorRowsAndPairs : Obligations.VectorRowsAndPairs := by
  refine ⟨fun s t => ⟨fun j s1 k0 mism hruns hrole hheld hnext hrow hpair => ?rows, fun j hr hp hd => ?finish⟩,
    fun s t j s1 k hruns hheld hrole hnext hrow hrole1 hoor hrecs => ?pair⟩
  case rows =>
    have completes : exec (.vecRowComplete t mism) s = .next (rowDone s1 t.val (rowMore k0)) := by
      rw [exec_vecRowComplete ⟨hruns, hrole, hheld, hnext⟩ hrow, vecPair_agrees (by rwa [rowDone_role])]
    dsimp only
    refine ⟨fun more => ?more, fun last => ?last⟩
    case more => exact completes.trans (congrArg _ (if_pos more))
    case last =>
      have ends : rowDone s1 t.val (rowMore k0) = vecEnd s1 t.val (rowMore k0) := if_neg (Nat.not_lt.2 last)
      obtain ⟨⟨e, vec⟩, -, mem⟩ := vecEnd_effect s1 t (rowMore k0)
      obtain ⟨flag, lanes, queue⟩ := vecEnded_flag_lanes s1.cyc (rowMore k0) (vecOf s1 t.val)
      refine ⟨_, completes.trans (congrArg _ ends), ?_⟩
      rw [vec]
      exact ⟨flag, rfl, queue, vecEnded_mask (j := rowMore k0) _ _, vecEnded_zlen (j := rowMore k0) _ _, lanes, mem⟩
  case finish =>
    refine ⟨_, exec_vstzFinish hr hp hd, ?_⟩
    rw [vecOf_modVec_self]
    exact ⟨rfl, rfl, fun a ha => vstzFinished_base _ ha, modTile_only _ _ _, modTile_onlyTile _ _ _⟩
  case pair =>
    have turn : VecTurn s t j := ⟨hruns, by omega, hheld, hnext⟩
    obtain ⟨f, hf⟩ := rowDone_in_range (k := rowMore k) hoor s1 t
    obtain ⟨recorded, counted⟩ := vecPair_effect (s := modVec s1 t.val f) (by rwa [modVec_role]) j
    refine ⟨_, (exec_vecRowComplete turn hrow true).trans (by rw [hf]), ?record, ?count⟩
    case record =>
      have recs : (modVec s1 t.val f).recs = s.recs := hrecs
      rwa [Recorded, recs] at recorded
    case count => rw [counted, modVec_misc, fld_bumpSat_low]

end Sys2Proof.Machine
end

section
/-! Rows of the vector pipe without poison (06, R130, R154), and the events of the link layer: a good flit in order, replays, and a
port that goes DOWN (12, R282 to R286, R306, R307). -/

namespace Sys2Proof.Machine

variable {s n m : State} {p : PortId}

/-! ### The state of a port -/

/-- The state registers of all ports are the same in both states (12, Table 12-9). -/
structure PortsStay (s n : State) : Prop where
  port : ∀ q, (portAt n q).state = (portAt s q).state

theorem PortsStay.refl (s : State) : PortsStay s s := ⟨fun _ => rfl⟩
theorem PortsStay.trans (h : PortsStay s n) (g : PortsStay n m) : PortsStay s m := ⟨fun q => (g.port q).trans (h.port q)⟩
theorem PortsStay.ite {c : Prop} [Decidable c] (hn : PortsStay s n) (hm : PortsStay s m) : PortsStay s (if c then n else m) := by
  split <;> assumption
theorem portsStay_forEach {α : Type} {f : α → State → State} (hf : ∀ x u, PortsStay u (f x u)) (l : List α) (s : State) :
    PortsStay s (forEach l s f) :=
  List.foldlRecOn (motive := PortsStay s) l _ (.refl s) fun u hu x _ => hu.trans (hf x u)

theorem PortsStay.of_only {ps : List Part} (h : Only ps s n) (hp : Part.ports ∉ ps) : PortsStay s n := by
  have ports : n.ports = s.ports := h .ports hp
  exact ⟨fun q => by simp only [portAt, ports]⟩

theorem PortsStay.portState (h : PortsStay s n) (q : Nat) : portState n q = portState s q := by
  simp only [Machine.portState, h.port]

theorem modPort_portsStay {p : Nat} {f : Port → Port} (hf : (f (portAt s p)).state = (portAt s p).state) :
    PortsStay s (modPort s p f) := by
  refine ⟨fun q => ?_⟩
  rw [portAt_modPort]
  split
  · next h => rw [h.1]; exact hf
  · rfl

theorem emit_portsStay (s : State) (o : Output) : PortsStay s (emit s o) := .of_only (emit_only s o) (by simp)

theorem sendFlit_portsStay (s : State) (p ft : Nat) : PortsStay s (sendFlit s p ft) :=
  (emit_portsStay _ _).trans (modPort_portsStay (by rfl))

theorem serveLoop_state (k : Nat) (x : Port) (l : List Frame) : (serveLoop k x l).1.state = x.state := by
  induction k generalizing x l with
  | zero => rfl
  | succ k ih =>
    rw [serveLoop]
    split
    · rfl
    · exact ih _ _

theorem serveOut_portsStay (s : State) (p : Nat) : PortsStay s (serveOut s p) := by
  unfold serveOut
  refine PortsStay.ite (PortsStay.trans ?_ (portsStay_forEach (fun f u => ?_) _ _)) (.refl s)
  · exact modPort_portsStay (serveLoop_state _ _ _)
  · exact (emit_portsStay _ _).trans (portsStay_forEach (fun _ v => sendFlit_portsStay v _ _) _ _)

theorem putOut_portsStay (s : State) (p grp : Nat) (f : Frame) : PortsStay s (putOut s p grp f) :=
  (modPort_portsStay (by rfl)).trans (serveOut_portsStay _ _)

theorem noRoute_portsStay (s : State) (p : Nat) (f : Frame) : PortsStay s (noRoute s p f) :=
  (modPort_portsStay (by rfl)).trans (.of_only (rxRaise_only _ _ _ _ _ _ _) (by simp [recParts]))

theorem reroute_portsStay (s : State) (p : Nat) : PortsStay s (reroute s p) := by
  unfold reroute
  refine (modPort_portsStay (by rfl)).trans (portsStay_forEach (fun x u => ?_) _ _)
  dsimp only
  split
  · exact putOut_portsStay _ _ _ _
  · exact .ite (noRoute_portsStay _ _ _) (putOut_portsStay _ _ _ _)
  · exact noRoute_portsStay _ _ _

theorem loseOwner_portsStay (s : State) (c : Nat) : PortsStay s (loseOwner s c) := by
  have waits (u : State) : PortsStay u (fixWaits u c .ownerLost (fun _ => true)) := ⟨fun _ => rfl⟩
  have counter (f : Counter → Counter) : PortsStay s (modCtr s c f) := .of_only (modCtr_only _ _ _) (by simp)
  have raised (u : State) (a b d e) : PortsStay u (raise u spSYN 5 a b 0 d 0 e (anyWait s c)) :=
    .of_only (raise_only _ _ _ _ _ _ _ _ _ _) (by simp [recParts])
  exact PortsStay.ite (.refl s) ((counter _).trans ((waits _).trans (raised _ _ _ _ _)))

theorem ownerGone_portsStay (s : State) (code : Nat) : PortsStay s (ownerGone s code) :=
  portsStay_forEach (fun c u => loseOwner_portsStay u c) _ _

/-- A port that leaves UP is in the state that it leaves to (12, R306). -/
theorem outOfService_portState (s : State) (p : PortId) {st : Nat} (h : st < 8) :
    portState (outOfService s p.val st) p.val = st := by
  have entered : portState (setPort s p.val st) p.val = st := by
    simp only [portState, setPort, portAt_modPort_self, fld_setFld _ _ _ _ (show 2 < 64 by decide)]
    omega
  rw [outOfService, (reroute_portsStay _ _).portState, (ownerGone_portsStay _ _).portState, entered]

theorem portDown_portState (h : portUp s p.val = true) (code : Nat) : portState (portDown s p.val code) p.val = 4 := by
  rw [portDown, if_pos h]
  exact outOfService_portState _ _ (by decide)

/-! ### Flits -/

theorem linked_of_up (h : portUp s p.val = true) : linked s p.val = true := by simp [linked, h]

/-- A good idle flit in order which acknowledges nothing and returns no credits (12, R282, R283). -/
structure IdleInOrder (s : State) (p : PortId) (f : Flit) : Prop where
  correctable : f.uncorrectable = false
  checked : f.fcrcOk = true
  inPlace : f.lane = f.fseq % 8
  idle : f.ft = 1
  inOrder : f.fseq = (portAt s p.val).ll.rxNext
  noAck : f.ackValid = false
  noCredit : ∀ c ∈ f.cret, c = 0

theorem flitTake_idle {f : Flit} (idle : f.ft = 1) (ack : f.ackValid = false) (credit : ∀ c ∈ f.cret, c = 0) :
    flitTake s p.val f =
      modLl s p.val (fun l => { l with rxNext := (l.rxNext + 1) % 32768, discarding := false }) := by
  have none_back : f.cret.all (· == 0) = true := by simpa using credit
  simp [flitTake, idle, ack, takeCredits, none_back]

/-- The counts that a good flit leaves before it is taken: its lane is in place (12, R282, Table 12-14). -/
theorem laneCount_in_place {f : Flit} (h : f.lane = f.fseq % 8) :
    ¬ 16 ≤ vget (portAt (laneCount s p.val f) p.val).ll.lane (f.phys % 8) 0 := by
  rw [laneCount, modLl, portAt_modPort_self]
  simp [h, vget_vmod_self _ _ _ _ (Nat.mod_lt f.phys (show 0 < 8 by decide))]

theorem counted_rxNext (s : State) (p : PortId) (f : Flit) :
    (portAt (laneCount (flitCounts s p.val f) p.val f) p.val).ll.rxNext = (portAt s p.val).ll.rxNext := by
  simp only [laneCount, flitCounts, modLl, portAt_modPort_self]

theorem flitIn_idle {f : Flit} (up : portUp s p.val = true) (h : IdleInOrder s p f) : flitIn s p.val f =
    modLl (laneCount (flitCounts s p.val f) p.val f) p.val
      (fun l => { l with rxNext := (l.rxNext + 1) % 32768, discarding := false }) := by
  have inOrder := h.inOrder
  rw [← counted_rxNext s p f] at inOrder
  simp only [flitIn, linked_of_up up, h.correctable, h.checked, laneCount_in_place h.inPlace, h.idle, ← inOrder,
    show ¬ 2 ≤ 1 by decide, Bool.not_true, Bool.not_false, Bool.and_self, Bool.false_eq_true, ne_eq, not_true_eq_false, or_self,
    if_true, if_false]
  exact flitTake_idle h.idle h.noAck h.noCredit

/-! ### Replays -/

/-- A replay that starts from a flit, before the count of consecutive ones is looked at (12, R283, R284). -/
def replayed (s : State) (p fseq : Nat) : State :=
  emit (modLl (modPort s p (fun x => { x with retry := bumpMod x.retry 31 0 1 })) p (fun l =>
    { l with repFrom := fseq, repCount := if l.repFrom = fseq then l.repCount + 1 else 1, ackFc := fc s })) (.link p 1 fseq)

theorem portAt_emit (s : State) (o : Output) (q : Nat) : portAt (emit s o) q = portAt s q := rfl

theorem replayed_repFrom (s : State) (p : PortId) (fseq : Nat) : (portAt (replayed s p.val fseq) p.val).ll.repFrom = fseq := by
  rw [replayed, portAt_emit, modLl, portAt_modPort_self]

theorem replayed_repCount {fseq : Nat} (h : fseq ≠ (portAt s p.val).ll.repFrom) :
    (portAt (replayed s p.val fseq) p.val).ll.repCount = 1 := by
  rw [replayed, portAt_emit, modLl, portAt_modPort_self, portAt_modPort_self]
  exact if_neg (Ne.symm h)

/-- The first replay from a flit that has been sent leaves the port UP (12, R283, R284). -/
theorem replayFrom_first {fseq : Nat} (up : portUp s p.val = true)
    (sent : 0 < ((portAt s p.val).ll.txNext + 32768 - fseq) % 32768)
    (kept : ((portAt s p.val).ll.txNext + 32768 - fseq) % 32768 ≤ 16384) (first : fseq ≠ (portAt s p.val).ll.repFrom) :
    replayFrom s p.val fseq = replayed s p.val fseq := by
  have few : ¬ 8 ≤ (portAt (replayed s p.val fseq) p.val).ll.repCount := by
    rw [replayed_repCount first]
    decide
  simp only [replayFrom, linked_of_up up, sent, kept, decide_true, Bool.and_self, if_true]
  exact if_neg few

theorem replayTimeout_late {fseq : Nat} (up : portUp s p.val = true) (oldest : (portAt s p.val).ll.kept.head? = some fseq)
    (late : (portAt s p.val).ll.ackFc + 2 ^ fld (portAt s p.val).cfg 5 0 ≤ fc s) :
    replayTimeout s p.val = replayFrom s p.val fseq := by
  obtain ⟨rest, kept⟩ := List.head?_eq_some_iff.1 oldest
  simp only [replayTimeout, kept, linked_of_up up, late, decide_true, Bool.and_self, if_true]

theorem creditTimeout_late {w : Nat} (waits : (portAt s p.val).waitFc = some w)
    (late : max w (portAt s p.val).ll.credFc + 2 ^ fld (portAt s p.val).cfg 11 6 ≤ fc s) :
    creditTimeout s p.val = portDown s p.val 4 := by
  simp only [creditTimeout, waits, late, if_true]

/-! ### Where they complete -/

/-- A row completes in any state without poison and without bad code words (06, R130, R154). -/
theorem vecRow_completes {t : TileId} {j : VecJob} (turn : VecTurn s t j) (clean : s.poison = []) (codes : s.codes = {})
    (mism : Bool) : ∃ u k, vecRowOf s t.val j = .ok (u, k) ∧
      exec (.vecRowComplete t mism) s = .next (vecPair (rowDone u t.val (rowMore k)) t.val j mism) := by
  obtain ⟨⟨u, k⟩, row⟩ := vecRowOf_clean clean t.val j
  refine ⟨u, k, row, exec_vecRowComplete turn ?_ mism⟩
  rwa [vecSee_clean codes]

/-- Settles O51: without poison every row is `.ok`; a good flit is taken, a first replay starts, and a port that goes DOWN is DOWN
after its frames took other routes. -/
theorem pipeRowsAndLinkEventsComplete : Obligations.PipeRowsAndLinkEventsComplete := by
  refine ⟨fun s t => ⟨fun j mism hruns hrole hheld hnext clean codes => ?row, fun j hr hp hd => ?finish⟩, fun s p up => ?link⟩
  case row =>
    obtain ⟨u, k, row, completes⟩ := vecRow_completes ⟨hruns, hrole, hheld, hnext⟩ clean codes mism
    refine ⟨u, k, row, fun low high => ?_, completes⟩
    rw [vecRowOf_reg low high] at row
    obtain ⟨rfl, rfl⟩ := Prod.mk.inj (Except.ok.inj row)
    exact ⟨rfl, rfl⟩
  case finish =>
    refine ⟨_, exec_vstzFinish hr hp hd, ?_⟩
    rw [vecOf_modVec_self]
    exact ⟨rfl, rfl⟩
  case link =>
    dsimp only
    refine ⟨fun f hu hc hl hft hseq hack hcret => ?flit, fun fseq sent kept first => ⟨?replay, fun oldest late => ?timeout⟩,
      ?lane, fun w waits late => ?credit⟩
    case flit =>
      refine ⟨_, congrArg Host.Outcome.next (flitIn_idle up ⟨hu, hc, hl, hft, hseq, hack, hcret⟩), ?_⟩
      rw [modLl, portAt_modPort_self, counted_rxNext]
    case replay =>
      exact ⟨_, congrArg Host.Outcome.next (replayFrom_first up sent kept first), rfl, replayed_repFrom s p fseq⟩
    case timeout =>
      exact ⟨_, congrArg Host.Outcome.next ((replayTimeout_late up oldest late).trans (replayFrom_first up sent kept first)), rfl,
        replayed_repFrom s p fseq⟩
    case lane => exact ⟨_, rfl, portDown_portState up 2⟩
    case credit => exact ⟨_, congrArg Host.Outcome.next (creditTimeout_late waits late), portDown_portState up 4⟩

end Sys2Proof.Machine
end

section
/-! SFN, SMX, SRS, RST, MGN and MPS at issue (07, R157, R159, R164, R168, R171; 08, R177). -/

namespace Sys2Proof.Machine

variable {s : State} {t : TileId} {w : Word128}

/-! ### Words that take a place in the vector queue -/

/-- A special-function word whose checks pass (07, R157). -/
theorem issueSf_push {f : Option (Nat × Nat)} (pass : f = none) (adv : Vec → Vec) :
    issueSf t.val w f adv s = pushVec s t.val w adv := by
  rw [pass]
  rfl

/-- SMX that names no address register of a packed store under way (06, R151; 07, R164). -/
theorem issueSmx_push (free : namesHeld (tileAt s t.val) [Smx.ar w] = false) (pass : smxFault s t.val w = none) :
    issueSmx t.val w s = pushVec s t.val w (advWhen (Smx.adv w) [Smx.ar w] (Smx.rc w)) := by
  rw [issueSmx, free, if_neg (by decide), issueSf_push pass]

/-! ### The mask generator -/

/-- A word that issues by changing the vector unit of its tile alone. -/
theorem issueCmd_modVec {op : Nat} {f : State → Issue} {g : Vec → Vec} (h : Stands s t w op)
    (hf : f s = .done (modVec s t.val g)) :
    issueCmd op t.val w f s = .next (issuedAs s t { tileAt s t.val with vec := g (vecOf s t.val) }) :=
  issueCmd_done h (hf.trans (congrArg _ (modTile_put s t _))) rfl

/-- MGN with at most 512 rows to a position segment, whose document arrays, where it uses them, lie in the window, and which no
queued SMX reads from (07, R157; 08, R176, R177). -/
theorem issueMgn_done (seg : Mgn.qsegl w ≤ 9) (free : genUsed (tileAt s t.val) = false)
    (arrays : 4 ≤ Mgn.mode w → inWindow s t.val (32 * Mgn.qdadr w) (4 * 2 ^ Mgn.qsegl w) = true ∧
      inWindow s t.val (32 * Mgn.kdadr w) 2048 = true) :
    issueMgn t.val w s = .done (modVec s t.val (fun v => { v with
      mgen := BitVec.ofNat 64 (Mgn.mode w * 2 ^ 28 + Mgn.qsegl w * 2 ^ 24 + Mgn.wm1 w)
      mdoc := BitVec.ofNat 64 (Mgn.qdadr w * 2 ^ 20 + Mgn.kdadr w) })) := by
  have inside : ¬ (decide (4 ≤ Mgn.mode w) && !(inWindow s t.val (32 * Mgn.qdadr w) (4 * 2 ^ Mgn.qsegl w) &&
      inWindow s t.val (32 * Mgn.kdadr w) 2048)) = true := by
    by_cases doc : 4 ≤ Mgn.mode w
    · simp [arrays doc]
    · simp [doc]
  rw [issueMgn, if_neg (Nat.not_lt.2 seg), if_neg inside, free, if_neg (by decide)]

/-- MPS that no queued SMX reads from (07, R157; 08, R177). -/
theorem issueMps_done (free : genUsed (tileAt s t.val) = false) :
    issueMps t.val w s = .done (modVec s t.val (fun v => { v with
      mpos := BitVec.ofNat 64 (Mps.qbase w * 2 ^ 32 + Mps.kbase w) })) := by
  rw [issueMps, free, if_neg (by decide)]

/-- Settles O5: the first four pass to the vector queue, and the last two change the mask generator where no SMX that waits reads it. -/
theorem specialFunctionWords : Obligations.SpecialFunctionWords := by
  intro s t w
  refine ⟨fun room h pass => ?sfn, fun room h free pass => ?smx, fun room h pass => ?srs, fun room h pass => ?rst,
    fun h seg free arrays => ?mgn, fun h free => ?mps⟩
  case sfn => exact issueCmd_pushVec h room (issueSf_push pass (advIndex w))
  case smx => exact issueCmd_pushVec h room (issueSmx_push free pass)
  case srs => exact issueCmd_pushVec h room (issueSf_push pass id)
  case rst => exact issueCmd_pushVec h room (issueSf_push pass id)
  case mgn => exact issueCmd_modVec h (issueMgn_done seg free arrays)
  case mps => exact issueCmd_modVec h (issueMps_done free)

end Sys2Proof.Machine
end

section
/-! Page walks of a thread (08, R179, R181, R186; 10, R240, R241) in a hearth whose directory and rows lie in the scratch window of its
tile: what a walk requests for the entries that it reads. -/

namespace Sys2Proof.Machine

/-- Hearth 0 with tile 0, region 0 of deep memory, and its page walker enabled. -/
def pageHearth : State :=
  let u := State.reset
  modHearth { u with tmp := { u.tmp with cur := { u.tmp.cur with
    hearths := vput u.tmp.cur.hearths 0 { h := { present := true, tiles := 1, regions := 1 } } } } } 0 (fun x => { x with
      mem := { x.mem with kvcfg := 1 } })

/-- The first thread of tile 0. -/
def walker : ThreadId := { tile := 0, core := 0, thr := 0 }

/-- A thread with the directory at the base of the scratch window of tile 0 and its rows 4 KiB above, for walks of E4M3 rows of 64
bytes in one layer, one group and one page. -/
def walkThread : Thread := newThread 0 [scrWin, scrWin + 0x1000, E4M3 * 2 ^ 48 + 2 ^ 24 + 1] 0

/-- PGW of operation `op` over the first `n + 1` positions. -/
def pgwWord (op n : Nat) : BWord :=
  BitVec.ofNat 64 (0x24 * 2 ^ 58 + 1 * 2 ^ 54 + 2 * 2 ^ 50 + 3 * 2 ^ 46 + n * 2 ^ 33 + op * 2 ^ 12)

/-- The thread `walker` is `x` and stands at word `w`, with these bytes in memory. -/
def walkAt (x : Thread) (w : BWord) (mem : List Host.Cell) : State :=
  { modTile pageHearth 0 (fun y => { y with blw := { y.blw with prog := [(0, w)], threads := [(0, x)] } }) with mem := mem }

/-! ### An entry that does not fit in a word -/

/-- A thread that keeps, for the entry at the base of its directory, a value that no 64 bits hold. -/
def keepsWide : Thread := { walkThread with entry := some (scrWin, 2 ^ 64) }
def readkWide : State := walkAt keepsWide (pgwWord 0 1) []

/-- Refutes O24: it does not ask that the entry which the thread kept be a word. The walk carries the entry of one position to the next
in `aux`, as its address over 64 bits of value; a wider value changes the address, and the entry is read again for the second
position. -/
theorem not_pageReads : ¬ Obligations.PageReads := by
  intro holds
  obtain ⟨m, hm, ⟨reqs, -⟩, -⟩ := holds readkWide walker 0 keepsWide (pgwWord 0 1) false (by unfold AtWord; decide) (by decide)
    (by decide) (by decide) (by decide) (by decide) (by decide) trivial (by decide) (by decide) (by decide) (by decide) (by decide)
    (by decide) (by decide) (by unfold TokensFor; decide)
  obtain rfl : thRun walker (isPgw 0) (thRead walker false) readkWide = m := Host.Outcome.next.inj hm
  exact absurd (congrArg List.length reqs) (by decide)

/-! ### The entry that an APPEND requests -/

/-- The directory entry of page 0, valid with no row yet in frame 0, as memory holds it. -/
def appendWord : State := walkAt walkThread (pgwWord 2 0) [(scrWin + 7, 0x80)]

/-- An entry in a scratch window, of whose sectors none is found poisoned, is read as memory holds it. -/
theorem readEntry_win {s : State} {h a t o : Nat} (hp : place (gLoc a) = .win t o)
    (clean : poisoned (seeWords s (gLoc a) 8) (gLoc a) 8 = []) :
    readEntry s h a = .ok (leNat (readMem s.mem (gLoc a) 8), seeWords s (gLoc a) 8) := by
  have noted : noteCodes s (gLoc a) [] = s := by simp [noteCodes, hp]
  simp [readEntry, walkRead, devRead, hp, noted, clean]

theorem appendWord_entry : readEntry (walkBegun appendWord walker) 0 scrWin =
    .ok (mkEntry false 0 0, seeWords (walkBegun appendWord walker) (gLoc scrWin) 8) :=
  have value : leNat (readMem (walkBegun appendWord walker).mem (gLoc scrWin) 8) = mkEntry false 0 0 := by decide
  (readEntry_win (t := 0) (o := 0) (by decide) (by decide)).trans (by rw [value])

/-- Refutes O25: the request that an APPEND makes for reading its directory entry carries the entry as the rows complete it, here
with one row, where the statement has it as memory held it. -/
theorem not_pageAppendsAndSharing : ¬ Obligations.PageAppendsAndSharing := by
  rintro ⟨appends, -⟩
  obtain ⟨inPlace, -⟩ := appends appendWord walker 0 walkThread (pgwWord 2 0) _ (by unfold AtWord; decide) (by decide) (by decide)
    (by decide) (by decide) (by decide) (by decide) (by decide) (by decide) (by decide) (by decide) (by decide) (by decide) (by decide)
    (by decide) (by decide) (by decide) (by decide) (by decide) (by decide) appendWord_entry
  obtain ⟨m, hm, ⟨reqs, -⟩, -⟩ := inPlace (by decide) (by decide) (by decide) (by decide) (by unfold TokensFor; decide)
  obtain rfl : thRun walker (isPgw 2) (thAppend walker) appendWord = m := Host.Outcome.next.inj hm
  exact absurd (congrArg (fun l => l.map Req.data) reqs) (by decide)

end Sys2Proof.Machine
end

section
/-! An all-gather of no elements in a group of one (13, R309, R313): it moves nothing, and memory is as it was, whatever order its
cells have. -/

namespace Sys2Proof.Machine

/-- Port 0 is UP, and the next descriptor of its ring for hearth 0, at the base of the scratch window of tile 0, is an all-gather of
no elements of E4M3 in group 0, which has this device alone. -/
def gathersNothing : State :=
  let u := State.reset
  { u with
    tmp := { u.tmp with cur := { u.tmp.cur with hearths := vput u.tmp.cur.hearths 0 { h := { present := true, tiles := 1 } } } }
    hearths := vmod u.hearths 0 (fun x => { x with net := { x.net with grp1 := vput x.net.grp1 0 1 } })
    ports := vmod u.ports 0 (fun x => { x with
      state := 3, ring0 := vput x.ring0 0 (BitVec.ofNat 64 scrWin), ring1 := vput x.ring1 0 (BitVec.ofNat 64 (2 ^ 32)) }) }

/-- The bytes of that descriptor that are not zero, from operation and format to source and destination, 64 bytes above it. -/
def gatherCells : List Host.Cell :=
  [(scrWin, 2), (scrWin + 3, BitVec.ofNat 8 E4M3), (scrWin + 16, 0x40), (scrWin + 21, 8), (scrWin + 24, 0x40), (scrWin + 29, 8)]

/-- The same with the cell of a higher address before those of the descriptor. -/
def gathersUnsorted : State := { gathersNothing with mem := (scrWin + 0x100, 1) :: gatherCells }

theorem gathersUnsorted_inactive : ∀ q < 12, ∀ h < 16, activeAt gathersUnsorted q h = none := by decide

theorem gathersUnsorted_idle : EnginesIdle gathersUnsorted := by
  refine fun q hq => ⟨?_, fun h hh a active => ?_⟩
  · revert q; decide
  · rw [gathersUnsorted_inactive q hq h hh] at active
    nomatch active

/-- Refutes O48: it does not ask that memory be in its canonical form. An all-gather of no elements leaves memory alone, where a store
of no bytes brings the cells below its address before the others. -/
theorem not_collectivesAndQuench : ¬ Obligations.CollectivesAndQuench := by
  intro holds
  obtain ⟨-, takes, -⟩ := holds gathersUnsorted 0 0
  obtain ⟨-, taken⟩ := takes (by unfold Settled Calm; decide) gathersUnsorted_idle (by decide) (by decide) (by decide) (by decide)
    (by decide) (by decide) (by decide)
  obtain ⟨n, hn, -, -, gathered⟩ := taken [] rfl
  obtain rfl : descTake gathersUnsorted 0 0 = n := Host.Outcome.next.inj hn
  exact absurd (gathered (by decide) (by decide) (by decide)) (by decide)

end Sys2Proof.Machine
end

section
/-! What an access to memory leaves of the bytes and of the requests in flight (09, R207 to R214; 10, R225, R230): a read leaves the
bytes, and a write that does not wait places its own. -/

namespace Sys2Proof.Machine

variable {s n m : State}

/-! ### Reads leave the bytes -/

/-- Memory and the tiles are those of s. -/
structure BytesStay (s n : State) : Prop where
  mem : n.mem = s.mem
  tiles : n.tiles = s.tiles

theorem BytesStay.refl (s : State) : BytesStay s s := ⟨rfl, rfl⟩
theorem BytesStay.trans (h : BytesStay s n) (k : BytesStay n m) : BytesStay s m := ⟨k.mem.trans h.mem, k.tiles.trans h.tiles⟩
theorem BytesStay.ite {c : Prop} [Decidable c] (hn : BytesStay s n) (hm : BytesStay s m) : BytesStay s (if c then n else m) := by
  split <;> assumption

theorem raise_bytesStay (s : State) (space code detail : Nat) (h : Option Nat) (agent a0 : Nat) :
    BytesStay s (raise s space code detail h agent a0) := by
  have only := raise_only s space code detail h agent a0 0 0 false
  have mem : Part.mem.same s _ := only .mem (by decide)
  exact ⟨mem.1, only .tiles (by decide)⟩

theorem noteCodes_bytesStay (s : State) (a : Nat) (e : EccHits) : BytesStay s (noteCodes s a e) := by
  unfold noteCodes
  dsimp only
  split <;> exact ⟨rfl, rfl⟩

theorem mtlStat_bytesStay (s : State) (h : Option Nat) (word hi lo k : Nat) : BytesStay s (mtlStat s h word hi lo k) := by
  unfold mtlStat
  split <;> exact ⟨rfl, rfl⟩

theorem modPool_bytesStay (s : State) (p : Nat) (f : Pool → Pool) : BytesStay s (modPool s p f) := ⟨rfl, rfl⟩

theorem touchBlock_bytesStay {h : Option Nat} {hint : Hint} {a k b : Nat} {wr : Bool} {line : Option Nat}
    (e : touchBlock s h hint a k wr line b = some n) : BytesStay s n := by
  have found (u p f) : BytesStay u (modPool (mtlStat u h 0 31 0 1) p f) :=
    (mtlStat_bytesStay _ _ _ _ _ _).trans (modPool_bytesStay _ _ _)
  have missed (u p f) : BytesStay u (modPool (mtlStat u h 0 63 32 1) p f) :=
    (mtlStat_bytesStay _ _ _ _ _ _).trans (modPool_bytesStay _ _ _)
  unfold touchBlock at e
  dsimp only at e
  split at e
  · split at e
    · cases e
    · cases e; exact found _ _ _
  · split at e
    · split at e
      · cases e; exact missed _ _ _
      · cases e
    · cases e; exact mtlStat_bytesStay _ _ _ _ _ _

theorem touch_bytesStay {h : Option Nat} {hint : Hint} {a k : Nat} {wr : Bool} {line : Option Nat}
    (e : touch s h hint a k wr line = some n) : BytesStay s n := by
  unfold touch at e
  split at e
  · cases e
  · refine List.foldlRecOn (motive := fun o : Option State => ∀ n, o = some n → BytesStay s n) _ _ ?_ ?_ n e
    · rintro _ ⟨⟩; exact .refl _
    · intro o ho b _ v hv
      obtain ⟨u, hu, hv⟩ := Option.bind_eq_some_iff.1 hv
      exact (ho u hu).trans (touchBlock_bytesStay hv)

theorem dropDeep_bytesStay (s : State) (p : Nat → Bool) : BytesStay s (dropDeep s p) := ⟨rfl, rfl⟩

theorem dpmUe_bytesStay (s : State) (a : Nat) : BytesStay s (dpmUe s a) := by
  have raised := fun u => raise_bytesStay u 6 2 0 (regionHearth u (regionOf a)) 0 (a / 32 * 32)
  exact ⟨(raised _).mem, (raised _).tiles⟩

theorem seeDeep_bytesStay (s : State) (seen : Nat → Bool) : BytesStay s (seeDeep s seen).1 := by
  unfold seeDeep
  refine List.foldlRecOn (motive := fun r : State × List Nat => BytesStay s r.1) _ _ (.refl _) ?_
  intro r hr x _
  split
  · exact hr.trans ⟨rfl, rfl⟩
  · exact hr.trans (dpmUe_bytesStay _ _)
  · exact hr

theorem fillPoison_bytesStay (clean : Bool) (k : Nat) (s : State) : BytesStay s (fillPoison clean k s) := by
  unfold fillPoison
  exact .ite (.refl _) (.ite ⟨rfl, rfl⟩ ⟨rfl, rfl⟩)

theorem eccDeep_bytesStay (s₀ s : State) (a k : Nat) (wr : Bool) : BytesStay s (eccDeep s₀ s a k wr).1 := by
  have filled (seen : Nat → Bool) (l : List Nat) :
      BytesStay s (l.foldl (fun s k => fillPoison (!wr) k s) (seeDeep s seen).1) :=
    List.foldlRecOn (motive := BytesStay s) _ _ (seeDeep_bytesStay s seen) fun _ hu _ _ => hu.trans (fillPoison_bytesStay _ _ _)
  unfold eccDeep
  dsimp only
  split
  · exact .refl _
  · split
    · dsimp only
      refine BytesStay.trans ?_ (dropDeep_bytesStay _ _)
      exact List.foldlRecOn (motive := BytesStay s) _ _ (filled _ _) fun _ hu _ _ => hu.trans ⟨rfl, rfl⟩
    · exact filled _ _

/-! ### The requests of the tiles -/

/-- The requests of every tile, the reset that waits for them and the pair of the tile are those of s. -/
structure RequestsStay (s n : State) : Prop where
  reqs : ∀ u, (tileAt n u).blw.reqs = (tileAt s u).blw.reqs
  draining : ∀ u, (tileAt n u).blw.draining = (tileAt s u).blw.draining
  pair : ∀ u, (tileAt n u).misc.chkTcfg = (tileAt s u).misc.chkTcfg

theorem RequestsStay.refl (s : State) : RequestsStay s s := ⟨fun _ => rfl, fun _ => rfl, fun _ => rfl⟩
theorem RequestsStay.trans (h : RequestsStay s n) (k : RequestsStay n m) : RequestsStay s m :=
  ⟨fun u => (k.reqs u).trans (h.reqs u), fun u => (k.draining u).trans (h.draining u), fun u => (k.pair u).trans (h.pair u)⟩
theorem requestsStay_of_tiles (h : n.tiles = s.tiles) : RequestsStay s n := by
  constructor <;> intro u <;> simp only [tileAt, h]
theorem requestsStay_of_seen (h : Seen s n) : RequestsStay s n := by
  refine ⟨fun u => congrArg _ (h.blw u), fun u => congrArg _ (h.blw u), fun u => ?_⟩
  obtain ⟨e, he⟩ := h.tile u
  rw [he]; rfl

/-- A change of the bellows of a tile that leaves the requests and the reset that waits for them. -/
theorem requestsStay_modBlw {f : Bellows → Bellows} (hr : ∀ b, (f b).reqs = b.reqs) (hd : ∀ b, (f b).draining = b.draining)
    (s : State) (t : Nat) : RequestsStay s (modBlw s t f) := by
  constructor <;> intro u <;> rw [modBlw, tileAt_modTile] <;> split
  · next h => rw [h.1]; exact hr _
  · rfl
  · next h => rw [h.1]; exact hd _
  · rfl
  · next h => rw [h.1]
  · rfl

theorem devRead_some {h : Option Nat} {hint : Hint} {a k : Nat} {e : EccHits} {line : Option Nat} {bs : List Byte} {ps : List Nat}
    (read : devRead s h hint a k e line = some (n, bs, ps)) :
    RequestsStay s n ∧ n.mem = s.mem ∧ bs = readMem s.mem a k := by
  have noted := noteCodes_bytesStay s a e
  unfold devRead at read
  split at read
  · obtain ⟨u, hu, read⟩ := Option.map_eq_some_iff.1 read
    have stay := noted.trans ((touch_bytesStay hu).trans (eccDeep_bytesStay s u a k false))
    generalize eccDeep s u a k false = r at stay read
    cases read
    exact ⟨requestsStay_of_tiles stay.tiles, stay.mem, rfl⟩
  · cases read
    have seen := seen_seeWords (noteCodes s a e) a k
    exact ⟨(requestsStay_of_tiles noted.tiles).trans (requestsStay_of_seen seen), seen.mem.trans noted.mem, rfl⟩

/-! ### Writes place their bytes -/

theorem store_requestsStay (s : State) (a : Nat) (bs : List Byte) (src : List Nat) : RequestsStay s (store s a bs src) :=
  requestsStay_of_tiles (store_only_mem s a bs src .tiles (by decide))

theorem store_mem_poison (s : State) (a : Nat) (bs : List Byte) (src : List Nat) :
    (store s a bs src).mem = (store s a bs []).mem := by
  unfold store
  dsimp only
  split
  · split <;> rfl
  · rfl

theorem devWrite_some {h : Option Nat} {hint : Hint} {a : Nat} {bs : List Byte} {ps : List Nat}
    (write : devWrite s h hint a bs ps = some n) : RequestsStay s n ∧ n.mem = (store s a bs []).mem := by
  have noted := noteCodes_bytesStay s a []
  have stored {u : State} (hu : BytesStay s u) (hn : store u a bs ps = n) : RequestsStay s n ∧ n.mem = (store s a bs []).mem := by
    have stay := requestsStay_of_tiles hu.tiles
    subst hn
    exact ⟨stay.trans (store_requestsStay _ _ _ _), (store_mem_congr hu.mem stay.pair a bs ps).trans (store_mem_poison _ _ _ _)⟩
  unfold devWrite at write
  split at write
  · obtain ⟨u, hu, hn⟩ := Option.map_eq_some_iff.1 write
    exact stored (noted.trans ((touch_bytesStay hu).trans (eccDeep_bytesStay _ _ _ _ _))) hn
  · exact stored noted (Option.some.inj write)

/-! ### Bytes in the windows of tiles -/

theorem place_window {k o : Nat} (hk : k < 32) (ho : o < 0x2000000) : place (winBase k + o) = .win k o := by
  have base : winBase k + o = scrWin + (k * 0x2000000 + o) := Nat.add_assoc _ _ _
  have above : ¬ scrWin + (k * 0x2000000 + o) < deepTop := by simp only [scrWin, deepTop]; omega
  have within : scrWin ≤ scrWin + (k * 0x2000000 + o) ∧ scrWin + (k * 0x2000000 + o) < scrWin + 32 * 0x2000000 := by omega
  rw [base, place, if_neg above, if_pos within, Nat.add_sub_cancel_left]
  congr 1 <;> omega

/-- The window of tile k has these bytes from this offset on. -/
def WindowShows (m : List Host.Cell) (k off : Nat) (bs : List Byte) : Prop :=
  ∀ j < bs.length, readByte m (winBase k + off + j) = bs.getD j 0

theorem windowShows_writeMem (m : List Host.Cell) (k off : Nat) (bs : List Byte) :
    WindowShows (writeMem m (winBase k + off) bs) k off bs := by
  intro j hj
  rw [readByte_writeMem, if_pos (by omega)]
  congr 1; omega

/-- The same bytes at the same offset of another window leave them. -/
theorem WindowShows.writeMem {mem : List Host.Cell} {k off : Nat} {bs : List Byte} (h : WindowShows mem k off bs)
    (fits : off + bs.length ≤ 0x2000000) (u : Nat) : WindowShows (writeMem mem (winBase u + off) bs) k off bs := by
  by_cases e : u = k
  · subst e; exact windowShows_writeMem _ _ _ _
  · intro j hj
    rw [readByte_writeMem, if_neg, h j hj]
    simp only [winBase]; omega

theorem store_placed {a k o : Nat} {bs : List Byte} (placed : place a = .win k o) (s : State) (ps : List Nat) :
    (store s a bs ps).mem = writeMem s.mem a bs ∨
      (store s a bs ps).mem = writeMem (writeMem s.mem a bs) (winBase (partner s k) + o) bs := by
  simp only [store, placed]
  split
  · exact .inr rfl
  · exact .inl rfl

theorem store_window_shows {k off : Nat} {bs : List Byte} (hk : k < 32) (fits : off + bs.length ≤ 0x2000000) (s : State)
    (ps : List Nat) : WindowShows (store s (winBase k + off) bs ps).mem k off bs ∧
      ∀ u, WindowShows s.mem u off bs → WindowShows (store s (winBase k + off) bs ps).mem u off bs := by
  by_cases ho : off < 0x2000000
  · rcases store_placed (bs := bs) (place_window hk ho) s ps with e | e <;> rw [e]
    · exact ⟨windowShows_writeMem _ _ _ _, fun u hu => hu.writeMem fits k⟩
    · exact ⟨(windowShows_writeMem _ _ _ _).writeMem fits _, fun u hu => (hu.writeMem fits k).writeMem fits _⟩
  · have none : bs.length = 0 := by omega
    exact ⟨fun j hj => by omega, fun u _ j hj => by omega⟩

end Sys2Proof.Machine
end

section
/-! Commits of the requests of a tile, landings, and the threads that go on or stop (08, R185; 10, R225, R230, Table 10-1). -/

namespace Sys2Proof.Machine

variable {s n : State}

/-! ### Requests that are delivered (10, R225) -/

theorem dropMcst_stays (s : State) (h t off n : Nat) : RequestsStay s (dropMcst s h t off n) ∧ (dropMcst s h t off n).mem = s.mem :=
  List.foldlRecOn (motive := fun u => RequestsStay s u ∧ u.mem = s.mem) _ _ ⟨.refl _, rfl⟩ fun _ hu _ _ =>
    ⟨hu.1.trans (requestsStay_modBlw (fun _ => by rfl) (fun _ => by rfl) _ _), hu.2⟩

theorem noteMcst_stays (s : State) (t : Nat) (r : Req) : RequestsStay s (noteMcst s t r) ∧ (noteMcst s t r).mem = s.mem := by
  unfold noteMcst
  split
  · exact ⟨requestsStay_modBlw (fun _ => by rfl) (fun _ => by rfl) _ _, rfl⟩
  · exact ⟨.refl _, rfl⟩

theorem deliver_local {h t b : Nat} {r : Req} {bs : List Byte} {ps : List Nat} (dst : r.dst = .loc b)
    (d : deliver s h t r 0 bs ps = some n) : RequestsStay s n ∧ n.mem = (store s b bs []).mem := by
  have written {u : State} (hu : RequestsStay s u ∧ u.mem = s.mem) {ps : List Nat}
      (w : devWrite u (some h) r.hint b bs ps = some n) : RequestsStay s n ∧ n.mem = (store s b bs []).mem := by
    obtain ⟨stay, mem⟩ := devWrite_some w
    exact ⟨hu.1.trans stay, mem.trans (store_mem_congr hu.2 hu.1.pair b bs [])⟩
  unfold deliver at d
  rw [dst] at d
  dsimp only [Nat.add_zero] at d
  refine written ?_ d
  split
  · exact dropMcst_stays _ _ _ _ _
  · exact ⟨.refl _, rfl⟩

/-- A row comes to this offset of the window of tile k. -/
def rowComes (h off : Nat) (bs : List Byte) (ps : List Nat) (k : Nat) (s : State) : State :=
  store (dropMcst s h k off bs.length) (winBase k + off) bs (ps.map (· + (winBase k + off) / 32))

theorem deliver_tiles {h t off : Nat} {mask : BitVec 32} {r : Req} (dst : r.dst = .tiles mask off) (s : State) (bs : List Byte)
    (ps : List Nat) : deliver s h t r 0 bs ps = some (forEach (setBits mask) s (rowComes h off bs ps)) := by
  unfold deliver
  rw [dst]
  rfl

theorem deliver_none {h t : Nat} {r : Req} (dst : r.dst = .none) (s : State) (bs : List Byte) (ps : List Nat) :
    deliver s h t r 0 bs ps = some s := by
  unfold deliver
  rw [dst]

theorem rowComes_requestsStay (h off : Nat) (bs : List Byte) (ps : List Nat) (k : Nat) (s : State) :
    RequestsStay s (rowComes h off bs ps k s) := (dropMcst_stays _ _ _ _ _).1.trans (store_requestsStay _ _ _ _)

theorem rowComes_shows {h off k : Nat} {bs : List Byte} (ps : List Nat) (hk : k < 32) (fits : off + bs.length ≤ 0x2000000)
    (s : State) : WindowShows (rowComes h off bs ps k s).mem k off bs ∧
      ∀ u, WindowShows s.mem u off bs → WindowShows (rowComes h off bs ps k s).mem u off bs := by
  obtain ⟨own, others⟩ := store_window_shows hk fits (dropMcst s h k off bs.length) (ps.map (· + (winBase k + off) / 32))
  rw [(dropMcst_stays s h k off bs.length).2] at others
  exact ⟨own, others⟩

theorem rowsCome_requestsStay (h off : Nat) (bs : List Byte) (ps l : List Nat) (s : State) :
    RequestsStay s (forEach l s (rowComes h off bs ps)) :=
  List.foldlRecOn (motive := RequestsStay s) _ _ (.refl _) fun _ hu _ _ => hu.trans (rowComes_requestsStay _ _ _ _ _ _)

theorem forEach_cons {α σ : Type} (x : α) (l : List α) (u : σ) (f : α → σ → σ) :
    forEach (x :: l) u f = forEach l (f x u) f := rfl

/-- Each tile that a row comes to shows it when all have come, and one that shows it already goes on to. -/
theorem rowsCome_show {h off : Nat} {bs : List Byte} (ps : List Nat) (fits : off + bs.length ≤ 0x2000000) {l : List Nat}
    (hl : ∀ k ∈ l, k < 32) (s : State) {k : Nat} (hk : k ∈ l ∨ WindowShows s.mem k off bs) :
    WindowShows (forEach l s (rowComes h off bs ps)).mem k off bs := by
  induction l generalizing s with
  | nil => exact hk.resolve_left List.not_mem_nil
  | cons u l ih =>
    obtain ⟨own, others⟩ := rowComes_shows (h := h) ps (hl u (by simp)) fits s
    rw [forEach_cons]
    refine ih (fun k hk => hl k (by simp [hk])) (rowComes h off bs ps u s) ?_
    rcases hk with hk | hk
    · rcases List.mem_cons.1 hk with rfl | hk
      · exact .inr own
      · exact .inl hk
    · exact .inr (others k hk)

theorem lt_of_mem_setBits {m k : Nat} {mask : BitVec m} (hk : k ∈ setBits mask) : k < m :=
  List.mem_range.1 (List.mem_filter.1 hk).1

/-! ### Requests that are gone -/

theorem reqHearth_idle {t h : Nat} (hh : tileHearth s t = some h) (idle : (tileAt s t).blw.draining = none) :
    reqHearth s t = some h := by rw [reqHearth, idle]; exact hh

theorem drained_idle {t : Nat} (idle : (tileAt s t).blw.draining = none) : drained s t = s := by
  unfold drained
  dsimp only
  rw [idle]
  rfl

theorem removeReq_rows {t i : Nat} {r : Req} (idle : (tileAt s t).blw.draining = none) (hr : (tileAt s t).blw.reqs[i]? = some r)
    (rows : r.ent = none) : removeReq s t i = modBlw s t (fun b => { b with reqs := (tileAt s t).blw.reqs.eraseIdx i }) := by
  have stay : (tileAt (modBlw s t fun b => { b with reqs := (tileAt s t).blw.reqs.eraseIdx i }) t).blw.draining = none := by
    rw [modBlw, tileAt_modTile]
    split <;> exact idle
  unfold removeReq
  rw [hr]
  dsimp only
  rw [rows, drained_idle stay]

theorem removeReq_rows_reqs {t : TileId} {i : Nat} {r : Req} (idle : (tileAt s t.val).blw.draining = none)
    (hr : (tileAt s t.val).blw.reqs[i]? = some r) (rows : r.ent = none) :
    (tileAt (removeReq s t.val i) t.val).blw.reqs = (tileAt s t.val).blw.reqs.eraseIdx i ∧ (removeReq s t.val i).mem = s.mem := by
  rw [removeReq_rows idle hr rows, modBlw, tileAt_modTile_self]
  exact ⟨rfl, rfl⟩

/-! ### Commits (10, R225) -/

section Commit
variable {t : TileId} {h i : Nat} {r : Req} {e : EccHits} {s₁ s₂ : State} {bs : List Byte} {rel : List Nat}

theorem reqBytes_some (hb : reqBytes s h r e = some (s₁, bs, rel)) : RequestsStay s s₁ ∧ s₁.mem = s.mem := by
  unfold reqBytes at hb
  split at hb
  · cases hb; exact ⟨.refl _, rfl⟩
  · split at hb
    · cases hb; exact ⟨.refl _, rfl⟩
    · obtain ⟨q, read, hq⟩ := Option.map_eq_some_iff.1 hb
      cases hq
      obtain ⟨stay, mem, -⟩ := devRead_some read
      exact ⟨stay, mem⟩

theorem reqBytes_zero (zero : r.zero = true) (hb : reqBytes s h r e = some (s₁, bs, rel)) : bs = List.replicate r.len 0 := by
  rw [reqBytes, if_pos zero] at hb
  cases hb; rfl

theorem reqBytes_read (zero : r.zero = false) (data : r.data = []) (hb : reqBytes s h r e = some (s₁, bs, rel)) :
    bs = readMem s.mem r.src r.len := by
  rw [reqBytes, zero, data] at hb
  obtain ⟨q, read, hq⟩ := Option.map_eq_some_iff.1 hb
  cases hq
  exact (devRead_some read).2.2

/-- A request whose bytes stay in this device is delivered and gone. -/
theorem requestCommit_delivered (hr : (tileAt s t.val).blw.reqs[i]? = some r) (hh : reqHearth s t.val = some h)
    (unsent : r.sent = false) (hb : reqBytes s h r e = some (s₁, bs, rel)) (here : ∀ d a, r.dst ≠ .dev d a)
    (hd : deliver s₁ h t.val r 0 bs rel = some s₂) : requestCommit s t i e = removeReq (noteMcst s₂ t.val r) t.val i := by
  unfold requestCommit
  rw [hr, hh]
  dsimp only
  rw [unsent, if_neg (by decide), hb]
  dsimp only
  split
  · next d a dst => exact absurd dst (here d a)
  · rw [hd]

theorem requestCommit_sent {d : BitVec 20} {a : Nat} (hr : (tileAt s t.val).blw.reqs[i]? = some r)
    (hh : reqHearth s t.val = some h) (unsent : r.sent = false) (hb : reqBytes s h r e = some (s₁, bs, rel))
    (dst : r.dst = .dev d a) (first : firstUnsent (tileAt s t.val).blw.reqs i r = true) :
    requestCommit s t i e = sendWrite
      (modBlw s₁ t.val (fun b => { b with reqs := lmod b.reqs i (fun q => { q with sent := true }) }))
      (0x100000 + t.val) (some h) d.toNat a bs rel (.req t r.core r.grp) := by
  unfold requestCommit
  rw [hr, hh]
  dsimp only
  rw [unsent, if_neg (by decide), hb]
  dsimp only
  rw [dst]
  exact if_pos first

/-- What its delivery leaves of memory is there when the request is gone. -/
theorem requestCommit_delivered_reqs (hh : tileHearth s t.val = some h) (idle : (tileAt s t.val).blw.draining = none)
    (hr : (tileAt s t.val).blw.reqs[i]? = some r) (unsent : r.sent = false) (rows : r.ent = none)
    (hb : reqBytes s h r e = some (s₁, bs, rel)) (here : ∀ d a, r.dst ≠ .dev d a)
    (hd : deliver s₁ h t.val r 0 bs rel = some s₂) (stay : RequestsStay s₁ s₂) :
    (tileAt (requestCommit s t i e) t.val).blw.reqs = (tileAt s t.val).blw.reqs.eraseIdx i ∧
      (requestCommit s t i e).mem = s₂.mem := by
  obtain ⟨noted, mem⟩ := noteMcst_stays s₂ t.val r
  obtain ⟨read, -⟩ := reqBytes_some hb
  have all := (read.trans stay).trans noted
  rw [requestCommit_delivered hr (reqHearth_idle hh idle) unsent hb here hd]
  obtain ⟨gone, bytes⟩ := removeReq_rows_reqs ((all.draining _).trans idle) ((congrArg (·[i]?) (all.reqs _)).trans hr) rows
  exact ⟨gone.trans (by rw [all.reqs]), bytes.trans mem⟩

end Commit

/-! ### Landings (10, R230) -/

/-- The landing counts and the landings that wait are those of s. -/
def LandsStay (s n : State) : Prop :=
  ∀ u, (tileAt n u).blw.land = (tileAt s u).blw.land ∧ (tileAt n u).blw.landings = (tileAt s u).blw.landings

theorem landsStay_of_tiles (h : n.tiles = s.tiles) : LandsStay s n := fun u => by simp only [tileAt, h, and_self]
theorem LandsStay.trans (h : LandsStay s n) (k : LandsStay n m) : LandsStay s m :=
  fun u => ⟨(k u).1.trans (h u).1, (k u).2.trans (h u).2⟩

/-- A landing count with one landing more. -/
def landed (k : Nat) (b : Bellows) : Bellows := { b with land := vmod b.land k (fun r => bumpMod r 31 0 1) }

theorem lateEnds_landsStay (s : State) (t : Nat) : LandsStay s (modBlw s t (fun b => { b with late := none })) := by
  intro u
  rw [modBlw, tileAt_modTile]
  split
  · next hu => rw [hu.1]; exact ⟨rfl, rfl⟩
  · exact ⟨rfl, rfl⟩

/-- Beside the count, a landing increment ends at most the lateness of its tile. -/
theorem landInc_stays (s : State) (t k : Nat) :
    LandsStay (modBlw s t (landed k)) (landInc s t k) ∧ Only [.tiles, .hearths] s (landInc s t k) := by
  have counted : Only [.tiles, .hearths] s (modBlw s t (landed k)) := (modTile_only _ _ _).mono (by simp)
  have same : LandsStay (modBlw s t (landed k)) (modBlw s t (landed k)) ∧ Only [.tiles, .hearths] s (modBlw s t (landed k)) :=
    ⟨landsStay_of_tiles rfl, counted⟩
  unfold landInc
  dsimp only
  split
  · split
    · let u := modBlw (modBlw s t (landed k)) t (fun b => { b with late := none })
      have refreshed : Only [.hearths] u (lateRefreshed u t) := lateRefreshed_only u t
      exact ⟨(lateEnds_landsStay _ t).trans (landsStay_of_tiles (refreshed .tiles (by simp))),
        counted.trans (((modTile_only _ _ _).mono (by simp)).trans (refreshed.mono (by simp)))⟩
    · exact same
  · exact same

theorem landAt_landInc {t k : Nat} (ht : t < 32) (hk : k < 32) (s : State) (u : Nat) :
    landAt (tileAt (landInc s t k) u) k = if u = t then (landAt (tileAt s t) k + 1) % 2 ^ 32 else landAt (tileAt s u) k := by
  rw [landAt, ((landInc_stays s t k).1 u).1, modBlw, tileAt_modTile]
  by_cases hu : u = t
  · rw [if_pos ⟨hu, ht⟩, if_pos hu]
    simp only [landed, vget_vmod, hk, and_self, if_true, bumpMod]
    exact fld_setFld _ _ _ _ (by decide)
  · rw [if_neg (by simp [hu]), if_neg hu]
    rfl

theorem landInc_landings (s : State) (t k u : Nat) : (tileAt (landInc s t k) u).blw.landings = (tileAt s u).blw.landings := by
  rw [((landInc_stays s t k).1 u).2, modBlw, tileAt_modTile]
  split
  · next hu => rw [hu.1]; rfl
  · rfl

theorem landAt_landIncs {k : Nat} (hk : k < 32) {l : List Nat} (hl : ∀ t ∈ l, t < 32) (once : l.Nodup) (s : State) (u : Nat) :
    landAt (tileAt (forEach l s (fun t s => landInc s t k)) u) k =
      if u ∈ l then (landAt (tileAt s u) k + 1) % 2 ^ 32 else landAt (tileAt s u) k := by
  induction l generalizing s with
  | nil => rfl
  | cons t l ih =>
    obtain ⟨new, once⟩ := List.nodup_cons.1 once
    rw [forEach_cons, ih (fun t ht => hl t (by simp [ht])) once, landAt_landInc (hl t (by simp)) hk]
    by_cases hu : u = t
    · subst hu; simp [new]
    · simp [hu]

theorem landIncs_landings (l : List Nat) (s : State) (k u : Nat) :
    (tileAt (forEach l s (fun t s => landInc s t k)) u).blw.landings = (tileAt s u).blw.landings :=
  List.foldlRecOn (motive := fun n : State => (tileAt n u).blw.landings = (tileAt s u).blw.landings) _ _ rfl
    fun _ hn _ _ => (landInc_landings _ _ _ _).trans hn

theorem setBits_nodup {m : Nat} (mask : BitVec m) : (setBits mask).Nodup := List.nodup_range.filter _

/-- The landing leaves the queue of its tile. -/
def landingOut (s : State) (t i : Nat) : State := modBlw s t (fun b => { b with landings := b.landings.eraseIdx i })

theorem landingIncrement_commits {t i : Nat} {l : Landing} (hl : (tileAt s t).blw.landings[i]? = some l)
    (alone : ∀ r ∈ (tileAt s t).blw.reqs, r.grp ≠ l.grp) :
    landingIncrement s t i = forEach (setBits l.mask) (landingOut s t i) (fun k s => landInc s k l.land) := by
  unfold landingIncrement
  rw [hl]
  exact if_neg (by simpa using alone)

theorem landAt_landingOut (s : State) (t i u k : Nat) : landAt (tileAt (landingOut s t i) u) k = landAt (tileAt s u) k := by
  rw [landingOut, modBlw, tileAt_modTile]
  split
  · next hu => rw [hu.1]; rfl
  · rfl

/-! ### Threads (10, Table 10-1; 08, R185) -/

theorem look?_put {α : Type} (l : List (Nat × α)) (k : Nat) (x : α) : look? (put l k x) k = some x := by
  induction l with
  | nil => simp [put, look?]
  | cons c l ih =>
    obtain ⟨j, y⟩ := c
    unfold put
    split
    · simp [look?]
    · split
      · simp [look?]
      · next h => simpa [look?, h] using ih

theorem threadAt_withThread (s : State) (th : ThreadId) (x : Thread) :
    threadAt (tileAt (withThread s th x) th.tile.val) th.core.val th.thr.val = some x := by
  rw [withThread, setThread, modBlw, tileAt_modTile_self]
  exact look?_put _ _ _

theorem tileAt_stopStream_threads (s : State) (t : TileId) :
    (tileAt (stopStream s t.val) t.val).blw.threads = (tileAt s t.val).blw.threads := by
  rw [tileAt_stopStream]
  split <;> rfl

theorem tileAt_setFault_threads (s : State) (t : TileId) (v : Reg) :
    (tileAt (setFault s t.val spBLW v) t.val).blw.threads = (tileAt s t.val).blw.threads := by
  rw [setFault, tileAt_modTile_self]
  rfl

theorem faultStops_recs (s : State) (t : TileId) (v : Reg) (c : Prop) [Decidable c] :
    (stopStream (if c then setFault s t.val spBLW v else s) t.val).recs = s.recs := by
  have fault : Only [.tiles] s (if c then setFault s t.val spBLW v else s) := .ite (setFault_only _ _ _ _) (.refl _ _)
  exact (fault.trans (stopStream_only _ _)) .recs (by simp)

theorem faultStops_threads (s : State) (t : TileId) (v : Reg) (c : Prop) [Decidable c] :
    (tileAt (stopStream (if c then setFault s t.val spBLW v else s) t.val) t.val).blw.threads = (tileAt s t.val).blw.threads := by
  rw [tileAt_stopStream_threads]
  split
  · exact tileAt_setFault_threads _ _ _
  · rfl

/-- A thread that a fault has stopped at its word (10, R248). -/
def faulted (x : Thread) : Thread :=
  { x with st := .fault, going := false, step := 0, aux := 0, todo := [], stall := none, begun := false, tabs := [] }

theorem thFault_faults {th : ThreadId} {x : Thread} (hx : threadAt (tileAt s th.tile.val) th.core.val th.thr.val = some x)
    (code detail arg0 : Nat) : Recorded s (thFault s th code detail arg0) 0 7 code (detail % 256) ∧
      threadAt (tileAt (thFault s th code detail arg0) th.tile.val) th.core.val th.thr.val = some (faulted x) := by
  unfold thFault
  dsimp only
  rw [hx]
  dsimp only
  refine ⟨recorded_congr (raise_recorded _ _ _ _ _ _ _ _ _) (faultStops_recs (withThread s th (faulted x)) _ _ _), ?_⟩
  rw [tileAt_raise, threadAt]
  exact (congrArg (look? · _) (faultStops_threads (withThread s th (faulted x)) _ _ _)).trans (threadAt_withThread s th (faulted x))

theorem threadResume_ready {th : ThreadId} {x : Thread} {h : Nat} (hh : tileHearth s th.tile.val = some h)
    (hx : threadAt (tileAt s th.tile.val) th.core.val th.thr.val = some x) (waits : x.st = .wait) (ready : thReady s th h x = true) :
    threadResume s th = withThread s th { x with st := .run } := by
  unfold threadResume
  rw [hx, hh]
  exact if_pos ⟨waits, ready⟩

section Stall
variable {th : ThreadId} {x : Thread} {h since : Nat} {rel : Bool}

theorem ringResume_free (hh : tileHearth s th.tile.val = some h)
    (hx : threadAt (tileAt s th.tile.val) th.core.val th.thr.val = some x) (stall : x.stall = some (rel, since))
    (free : (if rel then relFull s h else freeEmpty s h) = false) : ringResume s th = withThread s th { x with stall := none } := by
  unfold ringResume
  rw [hx, hh]
  dsimp only
  rw [stall]
  exact if_neg (by rw [free]; decide)

theorem stallFault_late (hh : tileHearth s th.tile.val = some h)
    (hx : threadAt (tileAt s th.tile.val) th.core.val th.thr.val = some x) (stall : x.stall = some (rel, since))
    (bad : (if rel then relFull s h else freeEmpty s h) = true) (late : since + 2 ^ fld (hearthAt s h).mem.kvcfg 13 8 ≤ fc s)
    (code : Nat) : stallFault s th rel code =
      thFault s th code 0 (stallEntry x (look (tileAt s th.tile.val).blw.prog x.pc 0)) := by
  unfold stallFault
  rw [hx, hh]
  dsimp only
  rw [stall]
  exact if_pos ⟨rfl, bad, late⟩

/-- The stall of either ring ends the thread with the code of its ring. -/
theorem exec_stall_late (hh : tileHearth s th.tile.val = some h)
    (hx : threadAt (tileAt s th.tile.val) th.core.val th.thr.val = some x) (stall : x.stall = some (rel, since))
    (bad : (if rel then relFull s h else freeEmpty s h) = true) (late : since + 2 ^ fld (hearthAt s h).mem.kvcfg 13 8 ≤ fc s) :
    exec (if rel then .kvpRelfull th else .kvpNofree th) s = .next (thFault s th (if rel then 0xC4 else 0xC3) 0
      (stallEntry x (look (tileAt s th.tile.val).blw.prog x.pc 0))) := by
  have faults := stallFault_late hh hx stall bad late
  cases rel with
  | false => exact congrArg Host.Outcome.next (faults 0xC3)
  | true => exact congrArg Host.Outcome.next (faults 0xC4)

end Stall

/-- Settles O26: a commit is the delivery of the bytes and the end of the request, a landing adds one to the count of each
tile of its mask, and a thread whose stall is too old stops with the code of its ring. -/
theorem requestsAndResumes : Obligations.RequestsAndResumes := by
  unfold Obligations.RequestsAndResumes
  intro s t h i hh idle
  refine ⟨fun r e s₁ bs rel hr unsent rows hb => ?_, fun l hl alone fits => ?_, ?_⟩
  · obtain ⟨read, bytes⟩ := reqBytes_some hb
    have delivered {s₂ : State} := requestCommit_delivered_reqs (s₂ := s₂) hh idle hr unsent rows hb
    refine ⟨fun zero => reqBytes_zero zero hb, fun zero data => reqBytes_read zero data hb, fun b s₂ dst hd => ?_,
      fun mask off dst inside => ?_, fun dst => ?_, fun d a dst first => ?_⟩
    · obtain ⟨stay, mem⟩ := deliver_local dst hd
      obtain ⟨gone, kept⟩ := delivered (by simp [dst]) hd stay
      exact ⟨_, rfl, kept.trans (mem.trans (store_mem_congr bytes read.pair b bs [])), gone⟩
    · have hd := deliver_tiles (h := h) (t := t.val) dst s₁ bs rel
      obtain ⟨gone, kept⟩ := delivered (by simp [dst]) hd (rowsCome_requestsStay _ _ _ _ _ _)
      refine ⟨_, rfl, gone, fun k hk => ?_⟩
      rw [kept]
      exact rowsCome_show rel inside (fun _ => lt_of_mem_setBits) s₁ (.inl hk)
    · obtain ⟨gone, kept⟩ := delivered (by simp [dst]) (deliver_none dst s₁ bs rel) (.refl _)
      exact ⟨_, rfl, gone, kept.trans bytes⟩
    · exact congrArg Host.Outcome.next (requestCommit_sent hr (reqHearth_idle hh idle) unsent hb dst first)
  · refine ⟨_, congrArg Host.Outcome.next (landingIncrement_commits hl alone), ?_, fun k hk => ?_, ?_⟩
    · rw [landIncs_landings, landingOut, modBlw, tileAt_modTile_self]
    · rw [landAt_landIncs fits (fun _ => lt_of_mem_setBits) (setBits_nodup _), if_pos hk, landAt_landingOut]
    · exact ((modTile_only _ _ _).mono (by simp)).trans (Only.forEach _ _ (fun k u => (landInc_stays u k l.land).2) _)
  · rintro th x rfl hx
    refine ⟨fun waits ready => congrArg Host.Outcome.next (threadResume_ready hh hx waits ready), fun rel since stall =>
      ⟨fun free => congrArg Host.Outcome.next (ringResume_free hh hx stall free), fun bad late => ?_⟩⟩
    obtain ⟨record, stopped⟩ := thFault_faults hx (if rel then 0xC4 else 0xC3) 0
      (stallEntry x (look (tileAt s th.tile.val).blw.prog x.pc 0))
    exact ⟨_, faulted x, exec_stall_late hh hx stall bad late, record, stopped, rfl, rfl⟩

end Sys2Proof.Machine
end

section
/-! The device after reset (00, R13; 09, R220; 11, R250): every unit of a kind is at the same reset value, and no hearth exists. -/

namespace Sys2Proof.Machine

theorem vget_replicate {α : Type} (n i : Nat) (x : α) : vget (Vector.replicate n x) i x = x := by
  unfold vget
  rw [Vector.getElem?_replicate]
  split <;> rfl

theorem tileAt_reset (t : Nat) : tileAt State.reset t = {} := vget_replicate _ _ _
theorem hearthAt_reset (h : Nat) : hearthAt State.reset h = {} := vget_replicate _ _ _
theorem portAt_reset (p : Nat) : portAt State.reset p = {} := vget_replicate _ _ _
theorem queueAt_reset (q : Nat) : queueAt State.reset q = {} := vget_replicate _ _ _

theorem hOn_reset (h : Nat) : hOn State.reset h = false :=
  congrArg (fun c : HearthCfg => c.h.present) (vget_replicate 16 h ({} : HearthCfg))

theorem tileHearth_reset (t : Nat) : tileHearth State.reset t = none := by
  simp [tileHearth, ownerBy, hOn_reset]

/-- Settles O57: each value is read off the reset value of its unit. -/
theorem resetState : Obligations.ResetState := by
  unfold Obligations.ResetState
  refine ⟨⟨⟨.nil, nofun⟩, .nil⟩, rfl, rfl, rfl, by decide, by decide, by decide, fun _ => rfl, rfl, fun _ => ⟨rfl, rfl, rfl⟩,
    fun t => ?tile, fun h => ?hearth, fun p => ?port, fun q => ?queue, by decide, by decide, rfl, rfl⟩
  case tile =>
    rw [csState, tileAt_reset, tileHearth_reset]
    exact ⟨by revert t; decide, by revert t; decide, by decide, by decide, rfl⟩
  case hearth =>
    rw [ecState, hearthAt_reset, hOn_reset]
    decide
  case port =>
    rw [portState, portAt_reset]
    decide
  case queue =>
    rw [queueAt_reset]
    decide

end Sys2Proof.Machine
end

section
/-! What an access to memory leaves of the pools and of the registers of the stacks (09, R206 to R213, R216): no access comes to wait
and none ceases to. -/

namespace Sys2Proof.Machine

variable {s n m : State}

theorem poolAt_modPool (s : State) (p q : Nat) (f : Pool → Pool) :
    poolAt (modPool s p f) q = if q = p ∧ p < 2 then f (poolAt s p) else poolAt s q := vget_vmod _ _ _ _ _

/-- The accesses that wait and the registers of the stacks are those of s. -/
structure PoolsStay (s n : State) : Prop where
  waiting : ∀ p, (poolAt n p).waiting = (poolAt s p).waiting
  stk : n.msys.stk = s.msys.stk

theorem PoolsStay.refl (s : State) : PoolsStay s s := ⟨fun _ => rfl, rfl⟩
theorem PoolsStay.trans (h : PoolsStay s n) (k : PoolsStay n m) : PoolsStay s m :=
  ⟨fun p => (k.waiting p).trans (h.waiting p), k.stk.trans h.stk⟩
theorem PoolsStay.ite {c : Prop} [Decidable c] (hn : PoolsStay s n) (hm : PoolsStay s m) : PoolsStay s (if c then n else m) := by
  split <;> assumption

theorem poolsStay_of_msys (h : n.msys = s.msys) : PoolsStay s n := ⟨fun p => by simp only [poolAt, h], by rw [h]⟩

theorem modPool_poolsStay {f : Pool → Pool} (hf : ∀ x, (f x).waiting = x.waiting) (s : State) (p : Nat) :
    PoolsStay s (modPool s p f) := by
  refine ⟨fun q => ?_, rfl⟩
  rw [poolAt_modPool]
  split
  · next h => rw [hf, h.1]
  · rfl

theorem raise_poolsStay (s : State) (space code detail : Nat) (h : Option Nat) (agent a0 : Nat) :
    PoolsStay s (raise s space code detail h agent a0) :=
  poolsStay_of_msys (raise_only s space code detail h agent a0 0 0 false .msys (by decide))

theorem noteCodes_msys (s : State) (a : Nat) (e : EccHits) : (noteCodes s a e).msys = s.msys := by
  unfold noteCodes
  dsimp only
  split <;> rfl

theorem mtlStat_msys (s : State) (h : Option Nat) (word hi lo k : Nat) : (mtlStat s h word hi lo k).msys = s.msys := by
  unfold mtlStat
  split <;> rfl

section
variable {h : Option Nat} {hint : Hint} {a k b : Nat} {wr : Bool} {line : Option Nat}

/-- One block of an access counts a hit or a miss, and its mantel tile alone changes (09, R207 to R209). -/
theorem touchBlock_cases (e : touchBlock s h hint a k wr line b = some n) :
    n = mtlStat s h 0 63 32 1 ∨
      ∃ hi lo f, n = modPool (mtlStat s h 0 hi lo 1) (homePool s (b * 65536)) f ∧ ∀ x, (f x).waiting = x.waiting := by
  unfold touchBlock at e
  dsimp only at e
  split at e
  · split at e
    · cases e
    · cases e; exact .inr ⟨_, _, _, rfl, fun _ => rfl⟩
  · split at e
    · split at e
      · cases e; exact .inr ⟨_, _, _, rfl, fun _ => rfl⟩
      · cases e
    · cases e; exact .inl rfl

/-- What one block of an access leaves, all of them leave. -/
theorem touch_rel {R : State → State → Prop} (refl : ∀ s, R s s) (trans : ∀ s n m, R s n → R n m → R s m)
    (block : ∀ u v b, touchBlock u h hint a k wr line b = some v → R u v) (e : touch s h hint a k wr line = some n) : R s n := by
  unfold touch at e
  split at e
  · cases e
  · refine List.foldlRecOn (motive := fun o : Option State => ∀ n, o = some n → R s n) _ _ ?_ ?_ n e
    · rintro _ ⟨⟩; exact refl s
    · intro o ho b _ v hv
      obtain ⟨u, hu, hb⟩ := Option.bind_eq_some_iff.1 hv
      exact trans s u v (ho u hu) (block u v b hb)

theorem touch_poolsStay (e : touch s h hint a k wr line = some n) : PoolsStay s n := by
  refine touch_rel .refl (fun _ _ _ => .trans) (fun u v b hb => ?_) e
  have counted (hi lo) : PoolsStay u (mtlStat u h 0 hi lo 1) := poolsStay_of_msys (mtlStat_msys _ _ _ _ _ _)
  rcases touchBlock_cases hb with rfl | ⟨hi, lo, f, rfl, hf⟩
  · exact counted _ _
  · exact (counted _ _).trans (modPool_poolsStay hf _ _)
end

theorem dpmUe_poolsStay (s : State) (a : Nat) : PoolsStay s (dpmUe s a) := by
  have raised := fun u => raise_poolsStay u 6 2 0 (regionHearth u (regionOf a)) 0 (a / 32 * 32)
  exact ⟨(raised _).waiting, (raised _).stk⟩

theorem seeDeep_poolsStay (s : State) (seen : Nat → Bool) : PoolsStay s (seeDeep s seen).1 := by
  unfold seeDeep
  refine List.foldlRecOn (motive := fun r : State × List Nat => PoolsStay s r.1) _ _ (.refl s) ?_
  intro r hr x _
  split
  · exact hr.trans ⟨fun _ => rfl, rfl⟩
  · exact hr.trans (dpmUe_poolsStay _ _)
  · exact hr

theorem fillPoison_poolsStay (clean : Bool) (k : Nat) (s : State) : PoolsStay s (fillPoison clean k s) := by
  unfold fillPoison
  have noted : PoolsStay s { s with poison := insSet k s.poison } := poolsStay_of_msys rfl
  exact .ite (.refl s) (.ite (noted.trans (modPool_poolsStay (by exact fun _ => rfl) _ _)) noted)

theorem eccDeep_poolsStay (s₀ s : State) (a k : Nat) (wr : Bool) : PoolsStay s (eccDeep s₀ s a k wr).1 := by
  have filled (seen : Nat → Bool) (l : List Nat) :
      PoolsStay s (l.foldl (fun s k => fillPoison (!wr) k s) (seeDeep s seen).1) :=
    List.foldlRecOn (motive := PoolsStay s) _ _ (seeDeep_poolsStay s seen) fun _ hu _ _ => hu.trans (fillPoison_poolsStay _ _ _)
  unfold eccDeep
  dsimp only
  split
  · exact .refl s
  · split
    · have dropped (u p) : PoolsStay u (dropDeep u p) := poolsStay_of_msys rfl
      dsimp only
      refine PoolsStay.trans ?_ (dropped _ _)
      exact List.foldlRecOn (motive := PoolsStay s) _ _ (filled _ _) fun _ hu _ _ => hu.trans (poolsStay_of_msys rfl)
    · exact filled _ _

theorem seeWords_poolsStay (s : State) (a k : Nat) : PoolsStay s (seeWords s a k) := by
  have found (u : State) (t o : Nat) : PoolsStay u (scrUe u t o) := by
    have raised := fun v => raise_poolsStay v 6 6 0 (tileHearth v t) (0x100000 + t) (winBase t + o)
    exact ⟨(raised _).waiting, (raised _).stk⟩
  unfold seeWords
  refine List.foldlRecOn (motive := PoolsStay s) _ _ (.refl s) ?_
  intro u hu x _
  dsimp only
  split
  · exact hu.trans (poolsStay_of_msys rfl)
  · exact hu.trans (.trans (.ite (found _ _ _) (.refl _)) (poolsStay_of_msys rfl))
  · exact hu

section
variable {h : Option Nat} {hint : Hint} {a : Nat} {e : EccHits} {line : Option Nat}

theorem devWrite_poolsStay {bs : List Byte} {ps : List Nat} (hn : devWrite s h hint a bs ps line e = some n) : PoolsStay s n := by
  have noted : PoolsStay s (noteCodes s a e) := poolsStay_of_msys (noteCodes_msys _ _ _)
  have stored (u : State) : PoolsStay u (store u a bs ps) := poolsStay_of_msys (store_only_mem u a bs ps .msys (by decide))
  unfold devWrite at hn
  split at hn
  · obtain ⟨u, hu, rfl⟩ := Option.map_eq_some_iff.1 hn
    exact noted.trans ((touch_poolsStay hu).trans ((eccDeep_poolsStay _ _ _ _ _).trans (stored _)))
  · cases hn; exact noted.trans (stored _)

theorem devRead_poolsStay {k : Nat} {r : State × List Byte × List Nat} (hr : devRead s h hint a k e line = some r) :
    PoolsStay s r.1 := by
  have noted : PoolsStay s (noteCodes s a e) := poolsStay_of_msys (noteCodes_msys _ _ _)
  unfold devRead at hr
  split at hr
  · obtain ⟨u, hu, rfl⟩ := Option.map_eq_some_iff.1 hr
    exact noted.trans ((touch_poolsStay hu).trans (eccDeep_poolsStay _ _ _ _ _))
  · cases hr; exact noted.trans (seeWords_poolsStay _ _ _)
end

theorem serveAccess_poolsStay {x : MAccess} (hn : serveAccess s x = some n) : PoolsStay s n := by
  unfold serveAccess at hn
  dsimp only at hn
  split at hn
  · exact touch_poolsStay hn
  · split at hn
    · exact devWrite_poolsStay hn
    · obtain ⟨r, hr, rfl⟩ := Option.map_eq_some_iff.1 hn
      exact (devRead_poolsStay hr).trans (poolsStay_of_msys rfl)

/-- Accesses that are served or wait on leave the registers of the stacks (09, R209). -/
theorem serveWaiting_stk (s : State) (p : Nat) : (serveWaiting s p).msys.stk = s.msys.stk := by
  have waits (u : State) (x : MAccess) : (waitTile u x).msys.stk = u.msys.stk := by
    unfold waitTile
    dsimp only
    split <;> rfl
  unfold serveWaiting
  refine List.foldlRecOn (motive := fun u : State => u.msys.stk = s.msys.stk) _ _ rfl fun u hu x _ => ?_
  dsimp only
  split
  · next v hv => exact (serveAccess_poolsStay hv).stk.trans hu
  · split
    · exact hu
    · exact (waits _ _).trans hu

/-- The only access that waits at a pool is served, and leaves it (09, R209). -/
theorem serveWaiting_one {p : Nat} {x : MAccess} (alone : (poolAt s p).waiting = [x]) (hn : serveAccess s x = some n) :
    serveWaiting s p = modPool n p (fun y => { y with waiting := y.waiting.erase x }) := by
  unfold serveWaiting
  rw [alone]
  simp only [forEach, List.foldl_cons, List.foldl_nil, hn]

/-- Where no access waits, none is served. -/
theorem serveWaiting_nil {p : Nat} (h : (poolAt s p).waiting = []) : serveWaiting s p = s := by
  unfold serveWaiting
  rw [h]
  rfl

end Sys2Proof.Machine
end

section
/-! The operations that software starts on the mantel: what a write of MTL_OP marks, and what the end of the operation writes back
(09, R208, R211, Table 09-14). -/

namespace Sys2Proof.Machine

variable {s n : State}

theorem hearthAt_of_hearths (h : n.hearths = s.hearths) (k : Nat) : hearthAt n k = hearthAt s k := by simp only [hearthAt, h]

theorem hearthAt_raise (s : State) (space code detail : Nat) (h : Option Nat) (agent a0 k : Nat) :
    hearthAt (raise s space code detail h agent a0) k = hearthAt s k :=
  hearthAt_of_hearths (raise_only s space code detail h agent a0 0 0 false .hearths (by decide)) k

/-! ### The start of an operation -/

/-- The hearth once a write of MTL_OP has been answered with this code, and with DONE if it is turned away (09, Table 09-14). -/
def opShown (cyc code done : Nat) (y : Hearth) : Hearth :=
  { y with mem := { y.mem with
      mtlOp := setFld (setFld y.mem.mtlOp 15 8 code) 2 2 (if done = 1 then 1 else fld y.mem.mtlOp 2 2)
      mtlNow := if done = 1 then y.mem.mtlNow.note cyc 4 else y.mem.mtlNow } }

theorem opShown_code {code : Nat} (hc : code < 256) (cyc done : Nat) (y : Hearth) : fld (opShown cyc code done y).mem.mtlOp 15 8 = code := by
  rw [opShown, fld_setFld_apart _ _ _ _ _ _ (by decide) (by decide), fld_setFld _ _ _ _ (by decide)]
  exact Nat.mod_eq_of_lt hc

theorem bit_setFld_one (w : Reg) (i : Nat) (hi : i < 64) : bit (setFld w i i 1) i = true := by
  rw [bit, setFld_bit _ _ _ _ _ hi, if_pos (by omega), Nat.sub_self]
  decide

/-- The hearth with this operation under way. -/
def opRunning (inv : Bool) (base len : Nat) (y : Hearth) : Hearth := { y with run := { y.run with mtl := some ⟨inv, base, len⟩ } }

/-- The bytes of a mantel operation stand in deep memory that its hearth reaches (09, R211). -/
def MtlInRange (s : State) (h : Nat) : Prop :=
  let x := (hearthAt s h).mem
  let base := fld x.mtlOpadr 43 8 * 256
  let len := fld x.mtlOplen 43 8 * 256
  len = 0 ∨ (base + len ≤ deepTop ∧ reach s (some h) base len = true)

section
variable {a : Agent} {h : Nat} {inv : Bool}
variable (may : mayHearth s a h = true) (idle : (hearthAt s h).run.mtl = none)
include may idle

theorem mtlStart_inRange (range : MtlInRange s h) : mtlStart s a h inv =
    let x := (hearthAt s h).mem
    let base := fld x.mtlOpadr 43 8 * 256
    let len := fld x.mtlOplen 43 8 * 256
    markDirty (modHearth (modHearth s h (opShown s.cyc 0 0)) h (opRunning inv base len)) base len := by
  unfold mtlStart
  rw [if_neg (by simp [may]), if_neg (by simp [idle])]
  exact if_neg (by simpa [MtlInRange, or_iff_not_imp_left] using range)

theorem mtlStart_outOfRange (range : ¬ MtlInRange s h) : mtlStart s a h inv =
    raise (modHearth s h (opShown s.cyc 1 1)) 6 1 0 (some h) a.code (fld (hearthAt s h).mem.mtlOpadr 43 8 * 256) := by
  unfold mtlStart
  rw [if_neg (by simp [may]), if_neg (by simp [idle])]
  exact if_pos (by simpa [MtlInRange, imp_iff_not_or] using range)
end

theorem msys_update (s : State) (m : MemSys) : Only [.msys] s { s with msys := m } := by
  intro p hp; cases p <;> simp_all [Part.same]

theorem markDirty_only (s : State) (base len : Nat) : Only [.msys] s (markDirty s base len) :=
  Only.forEach _ _ (fun _ _ => msys_update _ _) s

/-- A change of each pool by itself. -/
theorem poolAt_forEach (s : State) (f : Pool → Pool) {p : Nat} (hp : p < 2) :
    poolAt (forEach (List.range 2) s (fun p s => modPool s p f)) p = f (poolAt s p) := by
  rw [show List.range 2 = [0, 1] from rfl]
  simp only [forEach, List.foldl_cons, List.foldl_nil, poolAt_modPool]
  obtain rfl | rfl : p = 0 ∨ p = 1 := by omega
  · simp
  · simp

theorem mtlStart_begins {a : Agent} {h : HearthId} {inv : Bool} (may : mayHearth s a h.val = true)
    (idle : (hearthAt s h.val).run.mtl = none) (range : MtlInRange s h.val) :
    let n := mtlStart s a h.val inv
    let base := fld (hearthAt s h.val).mem.mtlOpadr 43 8 * 256
    let len := fld (hearthAt s h.val).mem.mtlOplen 43 8 * 256
    (hearthAt n h.val).run.mtl = some ⟨inv, base, len⟩ ∧ fld (hearthAt n h.val).mem.mtlOp 15 8 = 0 ∧
      Only [.hearths, .msys] s n ∧ OnlyHearth h.val s n ∧ ∀ p < 2, (poolAt n p).tiles = (poolAt s p).tiles.map (fun m =>
        let k := granuleMask m.block base len
        { m with marked := (m.marked &&& ~~~k) ||| (m.dirty &&& k) }) := by
  rw [mtlStart_inRange may idle range]
  dsimp only
  generalize hx : modHearth (modHearth s h.val (opShown s.cyc 0 0)) h.val (opRunning inv _ _) = u
  have changed : hearthAt u h.val = opRunning inv (fld (hearthAt s h.val).mem.mtlOpadr 43 8 * 256)
      (fld (hearthAt s h.val).mem.mtlOplen 43 8 * 256) (opShown s.cyc 0 0 (hearthAt s h.val)) := by
    rw [← hx, hearthAt_modHearth_self, hearthAt_modHearth_self]
  have only : Only [.hearths] s u := hx ▸ (modHearth_only _ _ _).trans (modHearth_only _ _ _)
  have alone : OnlyHearth h.val s u := hx ▸ OnlyHearth.trans (modHearth_onlyHearth _ _ _) (modHearth_onlyHearth _ _ _)
  have marked := markDirty_only u (fld (hearthAt s h.val).mem.mtlOpadr 43 8 * 256) (fld (hearthAt s h.val).mem.mtlOplen 43 8 * 256)
  have hearths := hearthAt_of_hearths (marked .hearths (by decide))
  have pools : u.msys = s.msys := only .msys (by decide)
  refine ⟨?_, ?_, (only.mono (by simp)).trans (marked.mono (by simp)), fun k hk => (hearths k).trans (alone k hk), fun p hp => ?_⟩
  · rw [hearths, changed]; rfl
  · rw [hearths, changed]; exact opShown_code (by decide) s.cyc 0 (hearthAt s h.val)
  · rw [markDirty, poolAt_forEach _ _ hp]
    simp only [poolAt, pools]

theorem mtlStart_turnedAway {a : Agent} {h : HearthId} {inv : Bool} (may : mayHearth s a h.val = true)
    (idle : (hearthAt s h.val).run.mtl = none) (range : ¬ MtlInRange s h.val) :
    let n := mtlStart s a h.val inv
    (hearthAt n h.val).run.mtl = none ∧ fld (hearthAt n h.val).mem.mtlOp 15 8 = 1 ∧
      bit (hearthAt n h.val).mem.mtlOp 2 = true ∧ Recorded s n 0 6 1 0 := by
  rw [mtlStart_outOfRange may idle range]
  simp only [hearthAt_raise, hearthAt_modHearth_self]
  exact ⟨idle, opShown_code (by decide) _ _ _, bit_setFld_one _ 2 (by decide), recorded_congr (raise_recorded _ 6 1 0 _ _ _ _ _) rfl⟩

/-! ### The end of an operation -/

/-- Granules reached deep memory: memory and the pools are those of s, and no sector has become poisoned. -/
structure Reached (s n : State) : Prop where
  only : Only [.mem] s n
  mem : n.mem = s.mem
  poison : ∀ k ∈ n.poison, k ∈ s.poison

theorem Reached.refl (s : State) : Reached s s := ⟨Only.refl _ _, rfl, fun _ h => h⟩
theorem Reached.trans {m : State} (h : Reached s n) (k : Reached n m) : Reached s m :=
  ⟨h.only.trans k.only, k.mem.trans h.mem, fun x hx => h.poison x (k.poison x hx)⟩

theorem memParts_mem (s : State) (mem poison codes) : Only [.mem] s { s with mem := mem, poison := poison, codes := codes } := by
  intro p hp; cases p <;> simp_all [Part.same]

theorem toDeep_reached (s : State) (m : MTile) (mask : BitVec 256) : Reached s (toDeep s m mask) := by
  unfold toDeep
  split
  · exact .refl s
  · exact ⟨memParts_mem s _ _ _, rfl, fun _ h => h⟩

theorem toDeep_poison (s : State) (m : MTile) (mask : BitVec 256) : (toDeep s m mask).poison = s.poison := by
  unfold toDeep
  split <;> rfl

theorem dropFill_reached (m : MTile) (s : State) : Reached s (dropFill m s) := by
  unfold dropFill
  split
  · exact .refl s
  · exact ⟨memParts_mem s _ _ _, rfl, fun _ h => (List.mem_filter.1 h).1⟩

theorem reached_forEach {α : Type} {f : α → State → State} (hf : ∀ x u, Reached u (f x u)) (l : List α) (s : State) :
    Reached s (forEach l s f) :=
  List.foldlRecOn (motive := Reached s) _ _ (.refl s) fun _ hu x _ => hu.trans (hf x _)

section
variable (base len : Nat) (inv : Bool)

/-- WBINV frees the tile: it lies wholly within the range and is not in eviction (09, R211). -/
def freed (m : MTile) : Bool := inv && !m.busy && wholly m base len

/-- The granules of one pool reach deep memory, those of the tiles that are freed too (09, R208, R211). -/
def poolReached (p : Nat) (s : State) : State :=
  let u := forEach (poolAt s p).tiles s (fun m s => toDeep s m (backMask m base len inv))
  forEach ((poolAt u p).tiles.filter (freed base len inv)) u dropFill

/-- A pool after the write-back of the range. -/
def backPool (x : Pool) : Pool :=
  { x with tiles := (x.tiles.filter (fun m => !freed base len inv m)).map (fun m =>
      { m with dirty := m.dirty &&& ~~~(backMask m base len inv), marked := m.marked &&& ~~~(granuleMask m.block base len) }) }

theorem writeBack_eq (s : State) (h : Nat) : ∃ f, writeBack s h base len inv =
    modHearth (forEach (List.range 2) s (fun p s => modPool (poolReached base len inv p s) p (backPool base len inv))) h f :=
  ⟨_, rfl⟩

theorem poolReached_reached (p : Nat) (s : State) : Reached s (poolReached base len inv p s) :=
  (reached_forEach (fun _ _ => toDeep_reached _ _ _) _ _).trans (reached_forEach dropFill_reached _ _)

theorem poolReached_poison (p : Nat) (s : State) : (poolReached base len false p s).poison = s.poison := by
  have kept (l : List MTile) : l.filter (freed base len false) = [] := List.filter_eq_nil_iff.2 fun _ _ => by simp [freed]
  rw [poolReached, kept, show ∀ u : State, forEach [] u dropFill = u from fun _ => rfl, forEach]
  exact List.foldlRecOn (motive := fun u : State => u.poison = s.poison) _ _ rfl fun u hu m _ => (toDeep_poison u m _).trans hu

/-- What a tile keeps of its dirty granules: none that the operation marked and that are still dirty (09, R208, R211). -/
theorem dirty_backMask {m : MTile} (kept : freed base len inv m = false) : m.dirty &&& ~~~(backMask m base len inv) =
    if m.busy then m.dirty else m.dirty &&& ~~~(m.marked &&& granuleMask m.block base len) := by
  unfold backMask
  unfold freed at kept
  split
  · rw [show ~~~(0 : BitVec 256) = BitVec.allOnes 256 from rfl, BitVec.and_allOnes]
  · next idle =>
    rw [if_neg (by simpa [idle] using kept)]
    ext i hi
    simp only [BitVec.getElem_and, BitVec.getElem_not]
    cases m.dirty[i] <;> simp

theorem backPool_tiles (x : Pool) : (backPool base len inv x).tiles =
    (x.tiles.filter (fun m => !(inv && !m.busy && wholly m base len))).map (fun m =>
      let k := granuleMask m.block base len
      { m with dirty := if m.busy then m.dirty else m.dirty &&& ~~~(m.marked &&& k), marked := m.marked &&& ~~~k }) := by
  refine List.map_congr_left fun m hm => ?_
  have kept := (List.mem_filter.1 hm).2
  rw [dirty_backMask base len inv (by simpa using kept)]
end

/-- What the write-back of a range leaves: its pools, and memory with no sector newly poisoned. -/
structure BackAt (base len : Nat) (inv : Bool) (h : Nat) (s n : State) : Prop where
  pools : ∀ p < 2, poolAt n p = backPool base len inv (poolAt s p)
  mem : n.mem = s.mem
  poison : ∀ k ∈ n.poison, k ∈ s.poison
  clean : inv = false → n.poison = s.poison
  only : Only [.mem, .hearths, .msys] s n
  alone : OnlyHearth h s n

theorem writeBack_backAt (base len : Nat) (inv : Bool) (h : Nat) (s : State) : BackAt base len inv h s (writeBack s h base len inv) := by
  obtain ⟨f, e⟩ := writeBack_eq base len inv s h
  rw [show List.range 2 = [0, 1] from rfl] at e
  simp only [forEach, List.foldl_cons, List.foldl_nil] at e
  have r0 := poolReached_reached base len inv 0 s
  have clean0 : inv = false → (poolReached base len inv 0 s).poison = s.poison := by rintro rfl; exact poolReached_poison _ _ _ _
  generalize poolReached base len inv 0 s = w at e r0 clean0
  generalize hu : modPool w 0 (backPool base len inv) = u at e
  have r1 := poolReached_reached base len inv 1 u
  have clean1 : inv = false → (poolReached base len inv 1 u).poison = u.poison := by rintro rfl; exact poolReached_poison _ _ _ _
  generalize poolReached base len inv 1 u = x at e r1 clean1
  generalize hv : modPool x 1 (backPool base len inv) = v at e
  have onlyU : Only [.msys] w u := hu ▸ msys_update _ _
  have onlyV : Only [.msys] x v := hv ▸ msys_update _ _
  have memU : Part.mem.same w u := onlyU .mem (by decide)
  have memV : Part.mem.same x v := onlyV .mem (by decide)
  have only : Only [.mem, .msys] s v :=
    (r0.only.mono (by simp)).trans ((onlyU.mono (by simp)).trans ((r1.only.mono (by simp)).trans (onlyV.mono (by simp))))
  have m0 : w.msys = s.msys := r0.only .msys (by decide)
  have m1 : x.msys = u.msys := r1.only .msys (by decide)
  have first (q) : poolAt u q = if q = 0 ∧ 0 < 2 then backPool base len inv (poolAt s 0) else poolAt s q := by
    rw [← hu, poolAt_modPool]; simp only [poolAt, m0]
  have second (q) : poolAt v q = if q = 1 ∧ 1 < 2 then backPool base len inv (poolAt u 1) else poolAt u q := by
    rw [← hv, poolAt_modPool]; simp only [poolAt, m1]
  rw [e]
  refine ⟨fun p hp => (second p).trans ?_, memV.1.trans (r1.mem.trans (memU.1.trans r0.mem)), fun k hk => ?_, fun hi => ?_,
    (only.mono (by simp)).trans ((modHearth_only _ _ _).mono (by simp)),
    fun q hq => (modHearth_onlyHearth v h _ q hq).trans (hearthAt_of_hearths (only .hearths (by decide)) q)⟩
  · obtain rfl | rfl : p = 0 ∨ p = 1 := by omega
    · simp [first]
    · simp [first]
  · have hx : k ∈ x.poison := memV.2.1 ▸ hk
    exact r0.poison k (memU.2.1 ▸ r1.poison k hx)
  · exact memV.2.1.trans ((clean1 hi).trans (memU.2.1.trans (clean0 hi)))

/-- The hearth once its operation has ended: DONE shows, and none is under way (09, Table 09-14). -/
def opEnded (cyc : Nat) (y : Hearth) : Hearth :=
  { y with mem := { y.mem with mtlOp := setFld y.mem.mtlOp 2 2 1, mtlNow := y.mem.mtlNow.note cyc 4 }, run := { y.run with mtl := none } }

theorem serveBoth_nil (h : ∀ p < 2, (poolAt s p).waiting = []) : serveWaiting (serveWaiting s 0) 1 = s := by
  rw [serveWaiting_nil (h 0 (by decide)), serveWaiting_nil (h 1 (by decide))]

theorem mtlDone_blocked {h : Nat} {j : MtlJob} (hj : (hearthAt s h).run.mtl = some j) (blocked : backBlocked s j.base j.len j.inv = true) :
    mtlDone s h = s := by
  rw [mtlDone, hj]
  exact if_pos blocked

theorem mtlDone_ends {h : Nat} {j : MtlJob} (hj : (hearthAt s h).run.mtl = some j) (free : backBlocked s j.base j.len j.inv = false)
    (idle : ∀ p < 2, (poolAt s p).waiting = []) :
    mtlDone s h = modHearth (writeBack s h j.base j.len j.inv) h (opEnded (writeBack s h j.base j.len j.inv).cyc) := by
  have back := writeBack_backAt j.base j.len j.inv h s
  rw [mtlDone, hj]
  refine (if_neg (by simp [free])).trans ?_
  dsimp only
  generalize writeBack s h j.base j.len j.inv = w at back
  have empty (p) (hp : p < 2) : (poolAt (modHearth w h (opEnded w.cyc)) p).waiting = [] := by
    change (poolAt w p).waiting = []
    rw [back.pools p hp]
    exact idle p hp
  split
  · exact serveBoth_nil empty
  · rfl

end Sys2Proof.Machine
end

section
/-! Victims and evictions, ages, the patrol scrub, recalibration and the damper of a stack (09, R209, R213, R216 to R219). -/

namespace Sys2Proof.Machine

variable {s n : State}

/-! ### Victims and evictions (09, R208, R209) -/

theorem victim_mem {p h : Nat} {v : MTile} (e : victim s p h = some v) : v ∈ (poolAt s p).tiles := by
  refine List.foldlRecOn (motive := fun o : Option MTile => ∀ v, o = some v → v ∈ (poolAt s p).tiles) _ _ ?_ ?_ v e
  · rintro _ ⟨⟩
  · intro o ho m hm w hw
    have mem := List.mem_of_mem_filter hm
    split at hw
    · cases hw; exact mem
    · next b =>
      split at hw
      · cases hw; exact mem
      · cases hw; exact ho _ rfl

/-- The pool once victim v is in eviction: no Hob core holds a line of it (09, R208, R209). -/
def evicting (v : MTile) (x : Pool) : Pool :=
  { x with tiles := x.tiles.map (fun k => if k.idx = v.idx then { v with busy := true, hobs := [] } else k) }

section
variable {p g : Nat} {rest : List Nat} (wanted : tilesWanted s p = g :: rest)
include wanted

theorem victimFound_free (free : (freeTile (poolAt s p) g).isSome = true) : victimFound s p = serveWaiting s p := by
  rw [victimFound, wanted]
  exact if_pos free

theorem victimFound_victim {v : MTile} (full : freeTile (poolAt s p) g = none) (found : victim s p g = some v) :
    victimFound s p =
      let u := mtlStat s (some v.owner) 1 31 0 1
      if v.dirty = 0 then serveWaiting (leavePool u p v.idx) p else modPool u p (evicting v) := by
  rw [victimFound, wanted]
  dsimp only
  rw [full, found]
  rfl
end

theorem modPool_only (s : State) (p : Nat) (f : Pool → Pool) : Only [.msys] s (modPool s p f) := msys_update s _

theorem evicting_mem {x : Pool} {v : MTile} (h : v ∈ x.tiles) :
    ∃ k ∈ (evicting v x).tiles, k.idx = v.idx ∧ k.block = v.block ∧ k.busy = true ∧ k.hobs = [] :=
  ⟨_, List.mem_map.2 ⟨v, h, if_pos rfl⟩, rfl, rfl, rfl, rfl⟩

theorem serveWaiting_alone {p : Nat} (hp : p < 2) {x : MAccess} (alone : (poolAt s p).waiting = [x]) (hn : serveAccess s x = some n) :
    (poolAt (serveWaiting s p) p).waiting = [] ∧ (serveWaiting s p).mem = n.mem := by
  rw [serveWaiting_one alone hn]
  refine ⟨?_, rfl⟩
  rw [poolAt_modPool, if_pos ⟨rfl, hp⟩]
  simp [(serveAccess_poolsStay hn).waiting, alone]

theorem evictEnd_served {p i : Nat} {m : MTile} (found : (poolAt s p).tiles.find? (fun m => m.idx == i) = some m)
    (busy : m.busy = true) (free : backWaits s m m.dirty = false) :
    evictEnd s p i = serveWaiting (leavePool (mtlStat s (some m.owner) 1 63 32 (dirtyCount m)) p i) p := by
  rw [evictEnd, found]
  exact if_pos (by simp [busy, free])

theorem poolAt_ageTick (s : State) {p : Nat} (hp : p < 2) : poolAt (ageTick s) p =
    { poolAt s p with tiles := (poolAt s p).tiles.map (fun m => { m with age := min 65535 (m.age + 1) }) } := by
  simp only [poolAt, ageTick, vget, Vector.getElem?_map]
  rw [Vector.getElem?_eq_getElem hp]
  rfl

/-! ### The patrol scrub (09, R213) -/

/-- A counting field that saturates. -/
theorem fld_bumpSat {w : Reg} {hi lo : Nat} (h : hi < 64) (d : Nat) :
    fld (bumpSat w hi lo d) hi lo = min (2 ^ (hi + 1 - lo) - 1) (fld w hi lo + d) := by
  rw [bumpSat, fld_setFld _ _ _ _ h, satAdd]
  exact Nat.mod_eq_of_lt (by have := Nat.two_pow_pos (hi + 1 - lo); omega)

section
variable {sector : Nat} (deep : 32 * sector < deepTop)
include deep

theorem noteCodes_sector (fresh : s.codes = {}) (e : EccResult) : noteCodes s (32 * sector) [(sector % 8, e)] =
    if e = .clean then s else { s with codes := { deep := [(sector, e)] } } := by
  have key : 32 * sector / 256 * 8 + sector % 8 = sector := by omega
  have placed : place (32 * sector) = .deep (32 * sector) := if_pos deep
  unfold noteCodes
  rw [placed]
  dsimp only
  split
  · next clean => subst clean; rfl
  · next bad => simp [bad, put, key, fresh]

theorem patrol_awake (awake : tripped s (stackOf s (32 * sector)) = false) (fresh : s.codes = {}) (e : EccResult) :
    patrol s sector e =
      (seeDeep (if e = .clean then s else { s with codes := { deep := [(sector, e)] } }) (· == sector)).1 := by
  rw [patrol, if_neg (by simp [deep, awake]), noteCodes_sector deep fresh e]
end

theorem seeDeep_none (h : s.codes = {}) (seen : Nat → Bool) : seeDeep s seen = (s, []) := by
  rw [seeDeep, h]; rfl

theorem seeDeep_corrected (s : State) (sector : Nat) :
    (seeDeep { s with codes := { deep := [(sector, .corrected)] } } (· == sector)).1 = { dpmCe s with codes := {} } := by
  simp [seeDeep, deepCode, dropDeep, dpmCe]

theorem seeDeep_uncorrectable (s : State) (sector : Nat) :
    (seeDeep { s with codes := { deep := [(sector, .uncorrectable)] } } (· == sector)).1 =
      dpmUe { s with codes := { deep := [(sector, .uncorrectable)] } } (32 * sector) := by
  simp [seeDeep, deepCode]

theorem recorded_seq {u : State} {k space code detail : Nat} (h : Recorded u n k space code detail) (hr : u.recs.seq = s.recs.seq) :
    Recorded s n k space code detail := by rwa [Recorded, ← hr]

/-- An uncorrectable sector is recorded, counted and shown, and delivers nothing (09, R213). -/
theorem dpmUe_shows (s : State) (a : Nat) : Recorded s (dpmUe s a) 0 6 2 0 ∧ (dpmUe s a).mem = s.mem ∧
    (dpmUe s a).poison = s.poison ∧ (dpmUe s a).msys.ecc0 = bumpSat s.msys.ecc0 63 32 1 ∧
    (dpmUe s a).msys.ecc1 = setFld s.msys.ecc1 43 0 (a / 32 * 32) := by
  have record := fun u => raise_recorded u 6 2 0 (regionHearth u (regionOf a)) 0 (a / 32 * 32) 0 0
  have only := fun u => raise_only u 6 2 0 (regionHearth u (regionOf a)) 0 (a / 32 * 32) 0 0 false
  have mem := fun u => only u .mem (by decide)
  have msys := fun u => only u .msys (by decide)
  exact ⟨recorded_seq (record _) rfl, (mem _).1, (mem _).2.1, congrArg (·.ecc0) (msys _), congrArg (·.ecc1) (msys _)⟩

/-! ### Recalibration (09, R219) -/

theorem recalibrate_due {k ch : Nat} (due : recalDue s k ch = true) (ok : Bool) : recalibrate s k ch ok =
    let u := { s with msys := { s.msys with recal := put s.msys.recal (256 * k + ch) (fld (vget s.msys.stk k 0) 47 36, fc s) } }
    if ok then u else raise (setRcf u k) 6 5 0 none 0 k := by
  rw [recalibrate, if_neg (by simp [due])]

theorem recalDue_after (s : State) (k ch : Nat) :
    recalDue { s with msys := { s.msys with
      recal := put s.msys.recal (256 * k + ch) (fld (vget s.msys.stk k 0) 47 36, fc s) } } k ch = false := by
  simp [recalDue, look_put, fc]

theorem setRcf_bit (s : State) (k : StackId) : bit (vget (setRcf s k.val).msys.stk k.val 0) 2 = true := by
  have changed : vget (setRcf s k.val).msys.stk k.val 0 = setBit (vget s.msys.stk k.val 0) 2 true := vget_vmod_self _ _ _ _ k.isLt
  rw [changed]
  exact bit_setFld_one _ 2 (by decide)

/-! ### The damper of a stack (09, R216 to R218) -/

/-- TRIP of a stack after a sample: it rises at 108 °C and falls at 97 °C (09, R218). -/
def tripAfter (temp : Nat) (r : Reg) : Bool := if bit r 1 then decide (776 < temp) else decide (864 ≤ temp)

/-- The duty of a stack after a sample (09, R216, R218). -/
def dutyAfter (temp : Nat) (r : Reg) : Nat :=
  if bit r 1 ∧ !tripAfter temp r then 2 else if bit r 1 then fld r 27 24
  else if 800 ≤ temp then max 2 (fld r 27 24 - 1) else if temp ≤ 776 then min 8 (fld r 27 24 + 1) else fld r 27 24

/-- BRCH of a stack after a sample: it is tripped, or its duty is below the declared floor (09, R217). -/
def brchAfter (temp floor : Nat) (r : Reg) : Bool := tripAfter temp r || decide (dutyAfter temp r < floor)

/-- DPM_STK after a sample, but for the count of breaches (09, Table 09-14). -/
def sampled (temp floor : Nat) (r w : Reg) : Reg :=
  setBit (setBit (setFld (setFld (setFld w 47 36 temp) 27 24 (dutyAfter temp r)) 23 20 floor) 1 (tripAfter temp r)) 0 (brchAfter temp floor r)

/-- A breach of the floor is declared for every hearth that owns a region of the stack (09, R217). -/
def floorBreached (s : State) (k : Nat) : State :=
  let u := modStk s k (fun r => bumpSat r 63 48 1)
  forEach (stackHearths u k) u (fun h s => breach s h cDUTY none 0)

/-- The state after a sample, before the accesses that a tripped stack held are served (09, R216 to R218). -/
def damped (s : State) (k temp : Nat) : State :=
  let r := vget s.msys.stk k 0
  let starts := tripAfter temp r && !bit r 1
  let u := modStk s k (sampled temp (stackFloor s k) r)
  if starts || (brchAfter temp (stackFloor s k) r && !bit r 0) then
    raise (floorBreached u k) 6 (if starts then 4 else 3) 0 none 0 k
  else u

theorem damper_eq (s : State) (k temp : Nat) : damper s k temp =
    if bit (vget s.msys.stk k 0) 1 && !tripAfter temp (vget s.msys.stk k 0) then serveWaiting (serveWaiting (damped s k temp) 0) 1
    else damped s k temp := rfl

section
variable {temp floor : Nat} {r w : Reg}

theorem bit_setBit_self (w : Reg) {i : Nat} (hi : i < 64) (b : Bool) : bit (setBit w i b) i = b := by
  rw [bit, setBit, setFld_bit _ _ _ _ _ hi, if_pos (by omega), Nat.sub_self]
  cases b <;> rfl

theorem bit_setFld_apart (w : Reg) {hi lo i : Nat} (v : Nat) (hb : i < 64) (apart : i < lo ∨ hi < i) : bit (setFld w hi lo v) i = bit w i := by
  rw [bit, setFld_bit _ _ _ _ _ hb, if_neg (by omega)]
  rfl

theorem sampled_temp (h : temp < 4096) : fld (sampled temp floor r w) 47 36 = temp := by
  simp only [sampled, setBit]
  rw [fld_setFld_apart _ _ _ _ _ _ (by decide) (by decide), fld_setFld_apart _ _ _ _ _ _ (by decide) (by decide),
    fld_setFld_apart _ _ _ _ _ _ (by decide) (by decide), fld_setFld_apart _ _ _ _ _ _ (by decide) (by decide),
    fld_setFld _ _ _ _ (by decide)]
  exact Nat.mod_eq_of_lt h

theorem sampled_floor : fld (sampled temp floor r w) 23 20 = floor % 16 := by
  simp only [sampled, setBit]
  rw [fld_setFld_apart _ _ _ _ _ _ (by decide) (by decide), fld_setFld_apart _ _ _ _ _ _ (by decide) (by decide),
    fld_setFld _ _ _ _ (by decide)]
  rfl

theorem dutyAfter_lt : dutyAfter temp r < 16 := by
  have old : fld r 27 24 < 16 := fld_lt r 27 24
  unfold dutyAfter
  split
  · omega
  · split
    · exact old
    · split
      · omega
      · split <;> omega

theorem sampled_duty : fld (sampled temp floor r w) 27 24 = dutyAfter temp r := by
  simp only [sampled, setBit]
  rw [fld_setFld_apart _ _ _ _ _ _ (by decide) (by decide), fld_setFld_apart _ _ _ _ _ _ (by decide) (by decide),
    fld_setFld_apart _ _ _ _ _ _ (by decide) (by decide), fld_setFld _ _ _ _ (by decide)]
  exact Nat.mod_eq_of_lt dutyAfter_lt

theorem sampled_trip : bit (sampled temp floor r w) 1 = tripAfter temp r := by
  rw [sampled, setBit, bit_setFld_apart _ _ (by decide) (by decide), bit_setBit_self _ (by decide)]
end

/-- The registers of the stacks are those of s, and no record has gone from the count of them. -/
structure StacksStay (s n : State) : Prop where
  stk : n.msys.stk = s.msys.stk
  seq : s.recs.seq ≤ n.recs.seq

theorem StacksStay.refl (s : State) : StacksStay s s := ⟨rfl, Nat.le_refl _⟩
theorem StacksStay.trans {m : State} (h : StacksStay s n) (k : StacksStay n m) : StacksStay s m := ⟨k.stk.trans h.stk, h.seq.trans k.seq⟩

theorem raise_seq (s : State) (space code detail : Nat) (h : Option Nat) (agent a0 : Nat) :
    (raise s space code detail h agent a0).recs.seq = s.recs.seq + 1 := by
  simp only [raise, raiseWith, placeRec, tellHearth_recs, hostCopy_recs, putRec]

theorem raise_stacksStay (s : State) (space code detail : Nat) (h : Option Nat) (agent a0 : Nat) :
    StacksStay s (raise s space code detail h agent a0) :=
  ⟨(raise_poolsStay s space code detail h agent a0).stk, by rw [raise_seq]; omega⟩

/-- The hearth once a breach of this cause is shown, in this window of 2^16 fc (10, Table 10-9). -/
def breachShown (cause tile win : Nat) (x : Hearth) : Hearth :=
  { x with mem := { x.mem with brch := setFld (setFld (bumpSat x.mem.brch 63 32 1) 15 8 cause) 4 0 tile }
           run := { x.run with seen := vput x.run.seen cause (some win) } }

/-- A breach is shown, and recorded once in a window of 2^16 fc (10, R245). -/
def breachNoted (s : State) (h cause tile agent : Nat) : State :=
  let u := modHearth s h (breachShown cause tile (fc s / 2 ^ 16))
  if vget (hearthAt s h).run.seen cause none != some (fc s / 2 ^ 16) then raise u 0x08 cause 0 (some h) agent else u

theorem breach_duty (s : State) (h : Nat) :
    breach s h cDUTY none 0 = breachNoted (draw s).2 h cDUTY (Config.freeTile s.fresh).toNat 0 := rfl

theorem breachNoted_stacksStay (s : State) (h cause tile agent : Nat) : StacksStay s (breachNoted s h cause tile agent) := by
  have shown : StacksStay s (modHearth s h (breachShown cause tile (fc s / 2 ^ 16))) := ⟨rfl, Nat.le_refl _⟩
  unfold breachNoted
  dsimp only
  split
  · exact shown.trans (raise_stacksStay _ _ _ _ _ _ _)
  · exact shown

theorem breach_duty_stacksStay (s : State) (h : Nat) : StacksStay s (breach s h cDUTY none 0) := by
  have drawn : StacksStay s (draw s).2 := ⟨rfl, Nat.le_refl _⟩
  rw [breach_duty]
  exact drawn.trans (breachNoted_stacksStay _ _ _ _ _)

/-- The register of a stack after declared breaches: their count has risen (09, R217). -/
theorem floorBreached_stk (s : State) (k : StackId) :
    vget (floorBreached s k.val).msys.stk k.val 0 = bumpSat (vget s.msys.stk k.val 0) 63 48 1 ∧
      s.recs.seq ≤ (floorBreached s k.val).recs.seq := by
  have stay (u : State) (l : List Nat) : StacksStay u (forEach l u (fun h s => breach s h cDUTY none 0)) :=
    List.foldlRecOn (motive := StacksStay u) _ _ (.refl u) fun _ hu h _ => hu.trans (breach_duty_stacksStay _ h)
  have after := stay (modStk s k.val (fun r => bumpSat r 63 48 1)) (stackHearths (modStk s k.val (fun r => bumpSat r 63 48 1)) k.val)
  refine ⟨?_, after.seq⟩
  rw [floorBreached, after.stk]
  exact vget_vmod_self _ _ _ _ k.isLt

theorem damper_stk (s : State) (k temp : Nat) : (damper s k temp).msys.stk = (damped s k temp).msys.stk := by
  rw [damper_eq]
  split
  · rw [serveWaiting_stk, serveWaiting_stk]
  · rfl

/-- The register of a stack after a sample, but for the count of its breaches (09, R216 to R218). -/
theorem damped_stk (s : State) (k : StackId) (temp : Nat) :
    let q := sampled temp (stackFloor s k.val) (vget s.msys.stk k.val 0) (vget s.msys.stk k.val 0)
    vget (damped s k.val temp).msys.stk k.val 0 = q ∨ vget (damped s k.val temp).msys.stk k.val 0 = bumpSat q 63 48 1 := by
  unfold damped
  dsimp only
  generalize hu : modStk s k.val _ = u
  have stk : vget u.msys.stk k.val 0 = sampled temp (stackFloor s k.val) (vget s.msys.stk k.val 0) (vget s.msys.stk k.val 0) := by
    rw [← hu]; exact vget_vmod_self _ _ _ _ k.isLt
  rw [← stk]
  split
  · rw [(raise_poolsStay _ _ _ _ _ _ _).stk]
    exact .inr (floorBreached_stk u k).1
  · exact .inl rfl

theorem damper_shows (s : State) (k : StackId) {temp : Nat} (h : temp < 4096) :
    let r := vget s.msys.stk k.val 0
    let q := vget (damper s k.val temp).msys.stk k.val 0
    fld q 47 36 = temp ∧ fld q 23 20 = stackFloor s k.val % 16 ∧ fld q 27 24 = dutyAfter temp r ∧ bit q 1 = tripAfter temp r := by
  have apart (w : Reg) (hi lo : Nat) (below : hi < 48) : fld (bumpSat w 63 48 1) hi lo = fld w hi lo :=
    fld_setFld_apart _ _ _ _ _ _ (by omega) (.inl below)
  have flag (w : Reg) : bit (bumpSat w 63 48 1) 1 = bit w 1 := bit_setFld_apart _ _ (by decide) (by decide)
  dsimp only
  rw [damper_stk]
  rcases damped_stk s k temp with e | e <;> rw [e]
  · exact ⟨sampled_temp h, sampled_floor, sampled_duty, sampled_trip⟩
  · rw [apart _ _ _ (by decide), apart _ _ _ (by decide), apart _ _ _ (by decide), flag]
    exact ⟨sampled_temp h, sampled_floor, sampled_duty, sampled_trip⟩

/-- A trip that starts is recorded (09, R218). -/
theorem damper_trips (s : State) (k : StackId) {temp : Nat} (cool : bit (vget s.msys.stk k.val 0) 1 = false) (hot : 864 ≤ temp) :
    ∃ j, Recorded s (damper s k.val temp) j 6 4 0 := by
  have trips : tripAfter temp (vget s.msys.stk k.val 0) = true := by
    rw [tripAfter, cool]
    simpa using hot
  generalize hu : modStk s k.val (sampled temp (stackFloor s k.val) (vget s.msys.stk k.val 0)) = u
  have e : damper s k.val temp = raise (floorBreached u k.val) 6 4 0 none 0 k.val := by
    rw [damper_eq, damped, trips, cool, hu]
    rfl
  have seq : s.recs.seq ≤ (floorBreached u k.val).recs.seq := by
    rw [show s.recs = u.recs by rw [← hu]; rfl]
    exact (floorBreached_stk u k).2
  rw [e]
  obtain ⟨r, hr, at_, rest⟩ := raise_recorded (floorBreached u k.val) 6 4 0 none 0 k.val 0 0
  exact ⟨_, r, hr, at_.trans (Nat.add_sub_cancel' seq).symm, rest⟩

end Sys2Proof.Machine
end

section
/-! The tiers of memory: operations on the mantel, victims and ages, the scrub, recalibration and the damper (09, R209 to R213, R216 to
R219). -/

namespace Sys2Proof.Machine

variable {s : State}

/-- The end of an operation that awaits no stack (09, R208, R211). -/
theorem mtlDone_leaves {h : HearthId} {j : MtlJob} (hj : (hearthAt s h.val).run.mtl = some j)
    (free : backBlocked s j.base j.len j.inv = false) (idle : ∀ p < 2, (poolAt s p).waiting = []) :
    let n := mtlDone s h.val
    (hearthAt n h.val).run.mtl = none ∧ bit (hearthAt n h.val).mem.mtlOp 2 = true ∧
      (∀ p < 2, (poolAt n p).tiles = ((poolAt s p).tiles.filter (fun m => !(j.inv && !m.busy && wholly m j.base j.len))).map (fun m =>
        let k := granuleMask m.block j.base j.len
        { m with dirty := if m.busy then m.dirty else m.dirty &&& ~~~(m.marked &&& k), marked := m.marked &&& ~~~k })) ∧
      n.mem = s.mem ∧ (j.inv = false → n.poison = s.poison) ∧ (∀ k ∈ n.poison, k ∈ s.poison) ∧
      Only [.mem, .hearths, .msys] s n ∧ OnlyHearth h.val s n := by
  have back := writeBack_backAt j.base j.len j.inv h.val s
  dsimp only
  rw [mtlDone_ends hj free idle]
  generalize writeBack s h.val j.base j.len j.inv = w at back
  rw [hearthAt_modHearth_self]
  refine ⟨rfl, bit_setFld_one _ 2 (by decide), fun p hp => ?_, back.mem, back.clean, back.poison,
    back.only.trans ((modHearth_only _ _ _).mono (by simp)), OnlyHearth.trans back.alone (modHearth_onlyHearth _ _ _)⟩
  change (poolAt w p).tiles = _
  rw [back.pools p hp]
  exact backPool_tiles _ _ _ _

/-- A victim with a dirty granule goes into eviction (09, R208, R209). -/
theorem victimFound_evicts {p : Fin 2} {g : Nat} {rest : List Nat} {v : MTile} (wanted : tilesWanted s p.val = g :: rest)
    (full : freeTile (poolAt s p.val) g = none) (found : victim s p.val g = some v) (dirty : v.dirty ≠ 0) :
    let n := victimFound s p.val
    Only [.hearths, .msys] s n ∧ ∃ k ∈ (poolAt n p.val).tiles, k.idx = v.idx ∧ k.block = v.block ∧ k.busy = true ∧ k.hobs = [] := by
  have e := (victimFound_victim wanted full found).trans (if_neg dirty)
  dsimp only
  have pool : poolAt (mtlStat s (some v.owner) 1 31 0 1) p.val = poolAt s p.val := rfl
  rw [e, poolAt_modPool, if_pos ⟨rfl, p.isLt⟩, pool]
  exact ⟨Only.trans ((modHearth_only s v.owner _).mono (by simp)) ((modPool_only _ _ _).mono (by simp)), evicting_mem (victim_mem found)⟩

/-- What the patrol finds in a sector (09, R213). -/
theorem patrol_finds {sector : Nat} (deep : 32 * sector < deepTop) (awake : tripped s (stackOf s (32 * sector)) = false)
    (fresh : s.codes = {}) :
    patrol s sector .clean = s ∧
      (Only [.msys] s (patrol s sector .corrected) ∧
        fld (patrol s sector .corrected).msys.ecc0 31 0 = min (2 ^ 32 - 1) (fld s.msys.ecc0 31 0 + 1)) ∧
      let n := patrol s sector .uncorrectable
      Recorded s n 0 6 2 0 ∧ n.mem = s.mem ∧ n.poison = s.poison ∧
        fld n.msys.ecc0 63 32 = min (2 ^ 32 - 1) (fld s.msys.ecc0 63 32 + 1) ∧ fld n.msys.ecc1 43 0 = 32 * sector := by
  have finds := patrol_awake deep awake fresh
  refine ⟨?_, ?_, ?_⟩
  · rw [finds, if_pos rfl, seeDeep_none fresh]
  · have e : patrol s sector .corrected = { dpmCe s with codes := {} } :=
      (finds _).trans ((congrArg (fun u => (seeDeep u _).1) (if_neg (by decide))).trans (seeDeep_corrected s sector))
    have same : patrol s sector .corrected = dpmCe s := by rw [e, ← fresh]; rfl
    rw [same]
    exact ⟨msys_update s _, fld_bumpSat (by decide) 1⟩
  · have e : patrol s sector .uncorrectable = dpmUe { s with codes := { deep := [(sector, .uncorrectable)] } } (32 * sector) :=
      (finds _).trans ((congrArg (fun u => (seeDeep u _).1) (if_neg (by decide))).trans (seeDeep_uncorrectable s sector))
    obtain ⟨record, mem, poison, ecc0, ecc1⟩ := dpmUe_shows { s with codes := { deep := [(sector, .uncorrectable)] } } (32 * sector)
    dsimp only
    rw [e]
    refine ⟨recorded_seq record rfl, mem, poison, ?_, ?_⟩
    · rw [ecc0]; exact fld_bumpSat (by decide) 1
    · rw [ecc1, fld_setFld _ _ _ _ (by decide)]
      have : 32 * sector < 2 ^ 44 := by unfold deepTop at deep; omega
      omega

/-- A recalibration that is due keeps the temperature and the time, and one that fails shows RCF (09, R219). -/
theorem recalibrate_shows {k : StackId} {ch : Nat} (due : recalDue s k.val ch = true) :
    (look? (recalibrate s k.val ch true).msys.recal (256 * k.val + ch) = some (fld (vget s.msys.stk k.val 0) 47 36, fc s) ∧
        recalDue (recalibrate s k.val ch true) k.val ch = false ∧ Only [.msys] s (recalibrate s k.val ch true)) ∧
      let n := recalibrate s k.val ch false
      bit (vget n.msys.stk k.val 0) 2 = true ∧ Recorded s n 0 6 5 0 := by
  dsimp only
  rw [recalibrate_due due, recalibrate_due due]
  refine ⟨⟨look?_put _ _ _, recalDue_after s k.val ch, msys_update s _⟩, ?_, ?_⟩
  · exact (congrArg (fun x => bit (vget x k.val 0) 2) (raise_poolsStay _ 6 5 0 none 0 k.val).stk).trans (setRcf_bit _ k)
  · exact recorded_congr (raise_recorded _ 6 5 0 none 0 k.val 0 0) rfl

/-- The duty and TRIP of a stack after a sample, by its TRIP before (09, R216, R218). -/
theorem damper_steps (s : State) (k : StackId) {temp : Nat} (h : temp < 4096) :
    let n := damper s k.val temp
    let r := vget s.msys.stk k.val 0
    let q := vget n.msys.stk k.val 0
    let duty := fld r 27 24
    fld q 47 36 = temp ∧ fld q 23 20 = stackFloor s k.val % 16 ∧
      (bit r 1 = false → fld q 27 24 = (if 800 ≤ temp then max 2 (duty - 1) else if temp ≤ 776 then min 8 (duty + 1) else duty) ∧
        bit q 1 = decide (864 ≤ temp) ∧ (864 ≤ temp → ∃ j, Recorded s n j 6 4 0)) ∧
      (bit r 1 = true → fld q 27 24 = (if temp ≤ 776 then 2 else duty) ∧ bit q 1 = decide (776 < temp)) := by
  obtain ⟨temperature, floor, duty, trip⟩ := damper_shows s k h
  refine ⟨temperature, floor, fun cool => ?_, fun hot => ?_⟩
  · rw [duty, trip, tripAfter, dutyAfter, cool]
    exact ⟨by simp, rfl, damper_trips s k cool⟩
  · rw [duty, trip, tripAfter, dutyAfter, tripAfter, hot]
    by_cases falls : temp ≤ 776
    · simp [falls]
    · simp [falls]

/-- Settles O42, clause by clause through what each event leaves. -/
theorem memoryTiers : Obligations.MemoryTiers := by
  intro s
  refine ⟨?_, ?_, ?_, ?_, ?_, ?_, ?_, ?_, ?_, ?_, ?_⟩
  · intro a h may idle
    refine ⟨fun range => ?_, fun range => ?_⟩
    · exact ⟨⟨_, rfl, mtlStart_begins may idle range⟩, ⟨_, rfl, mtlStart_begins may idle range⟩⟩
    · exact ⟨⟨_, rfl, mtlStart_turnedAway may idle range⟩, ⟨_, rfl, mtlStart_turnedAway may idle range⟩⟩
  · intro h j hj blocked
    exact congrArg Host.Outcome.next (mtlDone_blocked hj blocked)
  · intro h j hj free idle
    exact ⟨_, rfl, mtlDone_leaves hj free idle⟩
  · intro p wanted
    have e : victimFound s p.val = serveWaiting s p.val := by rw [victimFound, wanted]
    exact congrArg Host.Outcome.next e
  · intro p m alone u hu
    exact serveWaiting_alone p.isLt alone hu
  · intro p g rest wanted
    refine ⟨fun free => congrArg Host.Outcome.next (victimFound_free wanted free), fun full v found => ⟨fun clean => ?_, fun dirty => ?_⟩⟩
    · exact congrArg Host.Outcome.next ((victimFound_victim wanted full found).trans (if_pos clean))
    · exact ⟨_, rfl, victimFound_evicts wanted full found dirty⟩
  · exact ⟨_, rfl, msys_update s _, fun p hp => congrArg Pool.tiles (poolAt_ageTick s hp)⟩
  · intro p i m found busy free
    exact congrArg Host.Outcome.next (evictEnd_served found busy free)
  · intro sector deep awake fresh
    obtain ⟨clean, corrected, uncorrectable⟩ := patrol_finds deep awake fresh
    exact ⟨congrArg Host.Outcome.next clean, ⟨_, rfl, corrected⟩, ⟨_, rfl, uncorrectable⟩⟩
  · exact fun k ch => rfl
  · intro k
    refine ⟨fun ch => ⟨fun due => ?_, fun idle ok => ?_⟩, fun temp h => ⟨_, rfl, damper_steps s k h⟩⟩
    · obtain ⟨done, failed⟩ := recalibrate_shows due
      exact ⟨⟨_, rfl, done⟩, ⟨_, rfl, failed⟩⟩
    · have e : recalibrate s k.val ch.val ok = s := by rw [recalibrate, if_pos (by simp [idle])]
      exact congrArg Host.Outcome.next e

end Sys2Proof.Machine
end

section
/-! An access to deep memory through the mantel: what its blocks touch, when it does not wait, and the sectors that it finds
uncorrectable (09, R206 to R209, R213, R214, R218). -/

namespace Sys2Proof.Machine

variable {s n m : State}

/-! ### Blocks that find their tile or need none -/

/-- Hits and misses count in the hearth, tiles age in their pools, and nothing else changes (09, R207 to R209). -/
structure Touched (s n : State) : Prop where
  only : Only [.hearths, .msys] s n
  ecc0 : n.msys.ecc0 = s.msys.ecc0

theorem Touched.refl (s : State) : Touched s s := ⟨Only.refl _ _, rfl⟩
theorem Touched.trans (h : Touched s n) (k : Touched n m) : Touched s m := ⟨h.only.trans k.only, k.ecc0.trans h.ecc0⟩

theorem mtlStat_touched (s : State) (h : Option Nat) (word hi lo k : Nat) : Touched s (mtlStat s h word hi lo k) := by
  unfold mtlStat
  split
  · exact ⟨(modHearth_only _ _ _).mono (by simp), rfl⟩
  · exact .refl s

theorem modPool_touched (s : State) (p : Nat) (f : Pool → Pool) : Touched s (modPool s p f) :=
  ⟨(modPool_only s p f).mono (by simp), rfl⟩

/-- No mantel tile is in eviction. -/
def NoneBusy (s : State) : Prop := ∀ p, ∀ m ∈ (poolAt s p).tiles, m.busy = false

theorem poolAt_beyond (s : State) {p : Nat} (h : ¬ p < 2) : poolAt s p = {} := by
  have outside : s.msys.pool[p]? = none := Vector.getElem?_eq_none (by omega)
  rw [poolAt, vget, outside]
  rfl

theorem noneBusy_of_calm (h : Calm s) : NoneBusy s := by
  intro p m hm
  by_cases hp : p < 2
  · exact h.1 p hp m hm
  · rw [poolAt_beyond s hp] at hm
    nomatch hm

theorem tripped_of_calm (h : Calm s) (k : Nat) : tripped s k = false := by
  by_cases hk : k < 12
  · exact h.2 k hk
  · have outside : s.msys.stk[k]? = none := Vector.getElem?_eq_none (by omega)
    rw [tripped, vget, outside]
    decide

theorem noneBusy_congr (h : n.msys = s.msys) (hs : NoneBusy s) : NoneBusy n := by
  intro p m hm
  refine hs p m ?_
  rwa [poolAt, h] at hm

/-- A change of the tiles of a pool that puts none into eviction. -/
theorem noneBusy_modPool {f : MTile → MTile} (hf : ∀ k, k.busy = false → (f k).busy = false) (hs : NoneBusy s) (p : Nat) :
    NoneBusy (modPool s p (fun x => { x with tiles := x.tiles.map f })) := by
  intro q m hm
  rw [poolAt_modPool] at hm
  split at hm
  · obtain ⟨k, hk, rfl⟩ := List.mem_map.1 hm
    exact hf k (hs p k hk)
  · exact hs q m hm

section
variable {h : Option Nat} {hint : Hint} {a k b : Nat} {wr : Bool} {line : Option Nat}

theorem touch_touched (e : touch s h hint a k wr line = some n) : Touched s n := by
  refine touch_rel .refl (fun _ _ _ => .trans) (fun u v b hb => ?_) e
  rcases touchBlock_cases hb with rfl | ⟨hi, lo, f, rfl, -⟩
  · exact mtlStat_touched _ _ _ _ _ _
  · exact (mtlStat_touched _ _ _ _ _ _).trans (modPool_touched _ _ _)

/-- A block waits for no tile: it needs none, or the one that holds it is not in eviction (09, R207, R209). -/
theorem touchBlock_goes (idle : NoneBusy s) (hh : hint ≠ .alloc) :
    ∃ n, touchBlock s h hint a k wr line b = some n ∧ NoneBusy n := by
  have counted (hi lo) : NoneBusy (mtlStat s h 0 hi lo 1) := noneBusy_congr (mtlStat_msys _ _ _ _ _ _) idle
  unfold touchBlock
  dsimp only
  split
  · next m hm =>
    have free : m.busy = false := idle _ m (List.mem_of_find?_eq_some hm)
    rw [if_neg (by simp [free])]
    refine ⟨_, rfl, noneBusy_modPool (fun x hx => ?_) (counted _ _) _⟩
    split
    · exact free
    · exact hx
  · split
    · exact absurd rfl hh
    · exact ⟨_, rfl, counted _ _⟩

theorem touch_goes (idle : NoneBusy s) (cool : ∀ j, tripped s j = false) (hh : hint ≠ .alloc) :
    ∃ n, touch s h hint a k wr line = some n := by
  have awake : stackWaits s a k = false := by simp [stackWaits, cool]
  unfold touch
  rw [if_neg (by simp [awake])]
  generalize blocksOf a k = bs
  induction bs generalizing s with
  | nil => exact ⟨s, rfl⟩
  | cons b bs ih =>
    obtain ⟨u, hu, idle'⟩ := touchBlock_goes (h := h) (a := a) (k := k) (b := b) (wr := wr) (line := line) idle hh
    have stay := touchBlock_cases hu
    have cool' (j) : tripped u j = false := by
      have stk : u.msys.stk = s.msys.stk := by
        rcases stay with rfl | ⟨hi, lo, f, rfl, -⟩
        · rw [mtlStat_msys]
        · exact congrArg (·.stk) (mtlStat_msys s h 0 hi lo 1)
      rw [tripped, stk]; exact cool j
    rw [List.foldl_cons, Option.bind_some, hu]
    exact ih idle' cool' (by simp [stackWaits, cool'])
end

/-! ### Accesses that find no bad word -/

theorem noteCodes_nil (s : State) (a : Nat) : noteCodes s a [] = s := by
  unfold noteCodes
  dsimp only
  split <;> rfl

theorem eccDeep_clean (h : s.codes.deep = []) (s₀ : State) (a k : Nat) (wr : Bool) : eccDeep s₀ s a k wr = (s, []) := by
  rw [eccDeep, h]; rfl

theorem seeWords_clean (h : s.codes.words = []) (a k : Nat) : seeWords s a k = s := by
  rw [seeWords, h]; rfl

theorem store_poison_congr (hp : n.poison = s.poison) (ht : n.tiles = s.tiles) (a : Nat) (bs : List Byte) (src : List Nat) :
    (store n a bs src).poison = (store s a bs src).poison := by
  have role (u : Nat) : tileRole n u = tileRole s u := by simp only [tileRole, tileAt, ht]
  have pair (u : Nat) : partner n u = partner s u := by simp only [partner, tileAt, ht]
  unfold store
  dsimp only
  split
  · simp only [role, pair]
    split <;> simp only [storeAt, hp]
  · simp only [storeAt, hp]

section
variable {h : Option Nat} {hint : Hint} {a k : Nat} {line : Option Nat} {d : List Byte}

/-- A write places its bytes, whatever words it finds (09, R209, R213). -/
theorem devWrite_mem {e : EccHits} (w : devWrite s h hint a d [] line e = some n) : n.mem = (store s a d []).mem := by
  have noted := noteCodes_bytesStay s a e
  have stored {u : State} (hu : BytesStay s u) : (store u a d []).mem = (store s a d []).mem :=
    store_mem_congr hu.mem (fun t => by simp only [tileAt, hu.tiles]) a d []
  unfold devWrite at w
  split at w
  · obtain ⟨u, hu, rfl⟩ := Option.map_eq_some_iff.1 w
    exact stored (noted.trans ((touch_bytesStay hu).trans (eccDeep_bytesStay _ _ _ _ _)))
  · cases w
    exact stored noted

/-- An access that is not to be given a tile does not wait where memory is calm (09, R207, R209, R218). -/
theorem devWrite_goes (calm : Calm s) (hh : hint ≠ .alloc) (e : EccHits) :
    ∃ n, devWrite s h hint a d [] line e = some n := by
  unfold devWrite
  split
  · have idle : NoneBusy (noteCodes s a e) := noneBusy_congr (noteCodes_msys _ _ _) (noneBusy_of_calm calm)
    have cool (j) : tripped (noteCodes s a e) j = false := by rw [tripped, noteCodes_msys]; exact tripped_of_calm calm j
    obtain ⟨u, hu⟩ := touch_goes (h := h) (a := a) (k := d.length) (wr := true) (line := line) idle cool hh
    exact ⟨_, congrArg (Option.map _) hu⟩
  · exact ⟨_, rfl⟩

theorem devWrite_clean (fresh : s.codes = {}) (w : devWrite s h hint a d [] line [] = some n) :
    n.poison = (store s a d []).poison ∧ Only [.mem, .hearths, .msys] s n := by
  have stored (u : State) : Only [.mem, .hearths, .msys] u (store u a d []) := (store_only_mem u a d []).mono (by simp)
  unfold devWrite at w
  simp only [noteCodes_nil] at w
  split at w
  · obtain ⟨u, hu, rfl⟩ := Option.map_eq_some_iff.1 w
    have only := (touch_touched hu).only
    have mem : Part.mem.same s u := only .mem (by decide)
    have clean : u.codes.deep = [] := by rw [mem.2.2, fresh]
    rw [eccDeep_clean clean]
    exact ⟨store_poison_congr mem.2.1 (only .tiles (by decide)) _ _ _, (only.mono (by simp)).trans (stored u)⟩
  · cases w
    exact ⟨rfl, stored s⟩

theorem devRead_clean (calm : Calm s) (fresh : s.codes = {}) (hh : hint ≠ .alloc) :
    ∃ n, devRead s h hint a k [] line = some (n, readMem s.mem a k, poisoned s a k) ∧ Only [.hearths, .msys] s n := by
  unfold devRead
  simp only [noteCodes_nil]
  split
  · obtain ⟨u, hu⟩ := touch_goes (h := h) (a := a) (k := k) (wr := false) (line := line) (noneBusy_of_calm calm) (tripped_of_calm calm) hh
    have only := (touch_touched hu).only
    have mem : Part.mem.same s u := only .mem (by decide)
    have clean : u.codes.deep = [] := by rw [mem.2.2, fresh]
    refine ⟨u, ?_, only⟩
    rw [hu, Option.map_some, eccDeep_clean clean]
    simp
  · have clean : s.codes.words = [] := by rw [fresh]
    refine ⟨s, ?_, Only.refl _ _⟩
    rw [seeWords_clean clean]
end

/-! ### A sector that is found uncorrectable (09, R213, R214) -/

theorem mem_insSet_self (k : Nat) (l : List Nat) : k ∈ insSet k l := by
  induction l with
  | nil => simp [insSet]
  | cons x l ih =>
    unfold insSet
    split
    · simp
    · split
      · next h => simp [h]
      · exact List.mem_cons_of_mem _ ih

theorem fillPoison_mem (clean : Bool) (k : Nat) (s : State) : k ∈ (fillPoison clean k s).poison := by
  unfold fillPoison
  split
  · next h => simpa using h
  · split <;> exact mem_insSet_self k _

theorem fillPoison_leaves (clean : Bool) (k : Nat) (s : State) : (fillPoison clean k s).recs = s.recs ∧
    (fillPoison clean k s).mem = s.mem ∧ (fillPoison clean k s).msys.ecc0 = s.msys.ecc0 := by
  unfold fillPoison
  split
  · exact ⟨rfl, rfl, rfl⟩
  · split <;> exact ⟨rfl, rfl, rfl⟩

theorem fromDeep_congr (hp : n.msys.pool = s.msys.pool) (hr : n.msys.rgn = s.msys.rgn) (a k : Nat) : fromDeep n a k = fromDeep s a k := by
  have split_ (r : Nat) : isSplit n r = isSplit s r := by simp only [isSplit, hr]
  have home (b : Nat) : homePool n b = homePool s b := by simp only [homePool, split_]
  have tile (b : Nat) : tileOf n b = tileOf s b := by simp only [tileOf, home, poolAt, hp]
  simp only [fromDeep, tile]

theorem dpmUe_fromDeep (s : State) (b a k : Nat) : fromDeep (dpmUe s b) a k = fromDeep s a k := by
  have raised := fun u => raise_only u 6 2 0 (regionHearth u (regionOf b)) 0 (b / 32 * 32) 0 0 false .msys (by decide)
  exact fromDeep_congr (congrArg (·.pool) (raised _)) (congrArg (·.rgn) (raised _)) a k

/-- The state of a read that finds sector k uncorrectable, and fills a mantel tile with it where one comes to hold it. -/
def foundBad (u : State) (k : Nat) : State :=
  if fromDeep u (32 * k) 32 then dpmUe u (32 * k) else fillPoison true k (dpmUe u (32 * k))

theorem eccDeep_bad {s₀ u : State} {a len k : Nat} (word : u.codes.deep = [(k, .uncorrectable)]) (within : inBytes a len k = true)
    (deep : fromDeep s₀ (32 * k) 32 = true) : eccDeep s₀ u a len false = (foundBad u k, [k]) := by
  unfold eccDeep
  simp only [word, seeDeep, deepCode]
  by_cases held : fromDeep u (32 * k) 32 = true
  · simp [held, deep, within, foundBad]
  · simp [held, deep, within, foundBad]

/-- What a read that finds sector k uncorrectable leaves. -/
theorem foundBad_shows (u : State) (k : Nat) : Recorded u (foundBad u k) 0 6 2 0 ∧ (foundBad u k).mem = u.mem ∧
    (foundBad u k).msys.ecc0 = bumpSat u.msys.ecc0 63 32 1 ∧ (fromDeep (foundBad u k) (32 * k) 32 = false → k ∈ (foundBad u k).poison) := by
  obtain ⟨record, mem, -, ecc0, -⟩ := dpmUe_shows u (32 * k)
  unfold foundBad
  split
  · next held => exact ⟨record, mem, ecc0, fun h => by rw [dpmUe_fromDeep, held] at h; nomatch h⟩
  · obtain ⟨recs, mem', ecc0'⟩ := fillPoison_leaves true k (dpmUe u (32 * k))
    refine ⟨?_, mem'.trans mem, ecc0'.trans ecc0, fun _ => fillPoison_mem _ _ _⟩
    rw [Recorded, recs]
    exact record

theorem noteCodes_bad {a len k : Nat} (fresh : s.codes = {}) (deep : place a = .deep a) (within : inBytes a len k = true) :
    noteCodes s a [(k - a / 256 * 8, .uncorrectable)] = { s with codes := { deep := [(k, .uncorrectable)] } } := by
  have key : a / 256 * 8 + (k - a / 256 * 8) = k := by
    simp only [inBytes, Bool.and_eq_true, decide_eq_true_eq] at within
    omega
  unfold noteCodes
  rw [deep]
  simp [put, key, fresh]

/-- A read of a sector of deep memory found uncorrectable delivers it poisoned, and records and counts it (09, R213). -/
theorem devRead_bad {h : Option Nat} {hint : Hint} {a len k : Nat} {line : Option Nat} (calm : Calm s) (fresh : s.codes = {})
    (hh : hint ≠ .alloc) (deep : place a = .deep a) (within : inBytes a len k = true) (stored : fromDeep s (32 * k) 32 = true) :
    ∃ n, devRead s h hint a len [(k - a / 256 * 8, .uncorrectable)] line = some (n, readMem s.mem a len, poisoned s a len ++ [k]) ∧
      Recorded s n 0 6 2 0 ∧ n.mem = s.mem ∧ n.msys.ecc0 = bumpSat s.msys.ecc0 63 32 1 ∧
      (fromDeep n (32 * k) 32 = false → k ∈ n.poison) := by
  have noted := noteCodes_bad fresh deep within
  obtain ⟨u, hu⟩ := touch_goes (s := { s with codes := { deep := [(k, .uncorrectable)] } }) (h := h) (a := a) (k := len) (wr := false)
    (line := line) (noneBusy_congr (s := s) rfl (noneBusy_of_calm calm)) (tripped_of_calm calm) hh
  obtain ⟨only, ecc0⟩ := touch_touched hu
  have mem : Part.mem.same _ u := only .mem (by decide)
  have recs : u.recs = s.recs := only .recs (by decide)
  obtain ⟨record, mem', ecc0', fills⟩ := foundBad_shows u k
  refine ⟨foundBad u k, ?_, recorded_congr record recs, mem'.trans mem.1, by rw [ecc0', ecc0], fills⟩
  unfold devRead
  rw [deep]
  dsimp only
  rw [noted, hu, Option.map_some, eccDeep_bad (by rw [mem.2.2]) within stored]

end Sys2Proof.Machine
end

section
/-! Accesses to memory by an agent, and the requests of the host to a function's windows (09, R201, R207 to R214; 20, R463, R465, R466,
R468, R472). -/

namespace Sys2Proof.Machine

variable {s n : State}

/-! ### Agents (09, R201, R207, R209) -/

section
variable {a : Agent} {addr len : Nat} {d : List Byte} {hint : Hint} {ecc : EccHits}

/-- The hint of an access: the host gives none (20, R466). -/
def agentHint (a : Agent) (hint : Hint) : Hint := match a with | .host _ => .noalloc | _ => hint

/-- The Hob core whose line an access takes (09, R195). -/
def agentLine (a : Agent) : Option Nat := match a with | .hob c => some c.val | _ => none

theorem agentHint_ne_alloc (a : Agent) (h : hint ≠ .alloc) : agentHint a hint ≠ .alloc := by
  cases a with
  | host f => exact fun e => nomatch e
  | _ => exact h

variable (hl : 0 < len)
include hl

theorem memAccess_write_refused (may : mayMem s a addr len = false) (hd : d.length = len) :
    memAccess s a addr len true d hint ecc = misuse s 1 a addr := by
  simp [memAccess, hd, may, SYS_UNMAPPED, show len ≠ 0 by omega]

theorem memAccess_read_refused (may : mayMem s a addr len = false) : memAccess s a addr len false d hint ecc =
    emit (misuse s 1 a addr) (.readData a (List.replicate len 0) (sectors addr len)) := by
  simp [memAccess, may, SYS_UNMAPPED, show len ≠ 0 by omega]

variable (may : mayMem s a addr len = true)
include may

theorem memAccess_write (hd : d.length = len) : memAccess s a addr len true d hint ecc =
    (devWrite s (agentHearth s a) (agentHint a hint) addr d [] (agentLine a) ecc).getD (waitTile s
      { agent := a, hearth := (agentHearth s a).getD 255, addr := addr, len := len, wr := true, data := d, poison := [],
        hint := agentHint a hint }) := by
  have whole : d.take len = d := List.take_of_length_le (by omega)
  unfold memAccess
  simp only [whole, hd, if_true]
  rw [if_neg (by omega), if_neg (by simp [may])]
  rfl

theorem memAccess_read {r : State × List Byte × List Nat}
    (read : devRead s (agentHearth s a) (agentHint a hint) addr len ecc (agentLine a) = some r) :
    memAccess s a addr len false d hint ecc = emit (countPoison r.1 a r.2.2) (.readData a r.2.1 r.2.2) := by
  have e : memAccess s a addr len false d hint ecc =
      match devRead s (agentHearth s a) (agentHint a hint) addr len ecc (agentLine a) with
      | some r => emit (countPoison r.1 a r.2.2) (.readData a r.2.1 r.2.2)
      | none => waitTile s { agent := a, hearth := (agentHearth s a).getD 255, addr := addr, len := len, wr := false, data := [],
                             poison := [], hint := agentHint a hint } := by
    unfold memAccess
    simp only [Bool.false_eq_true, if_false]
    rw [if_neg (by omega), if_neg (by simp [may])]
    rfl
  rw [e, read]
end

theorem countPoison_only (s : State) (a : Agent) (ps : List Nat) : Only [.hif] s (countPoison s a ps) := by
  unfold countPoison
  split
  · exact Only.ite (Only.refl _ _) (modFn_only _ _ _)
  · exact Only.refl _ _

section
variable {a : Agent} {addr len : Nat} {d : List Byte} {hint : Hint} (hl : 0 < len) (may : mayMem s a addr len = true)
  (settled : Settled s []) (hh : hint ≠ .alloc)
include hl may settled hh

/-- A write that is not to be given a tile stores its bytes (09, R207, R209). -/
theorem memAccess_stores (hd : d.length = len) (ecc : EccHits) :
    let n := memAccess s a addr len true d hint ecc
    n.mem = (store s addr d []).mem ∧ (ecc = [] → n.poison = (store s addr d []).poison ∧ Only [.mem, .hearths, .msys] s n) := by
  obtain ⟨n, hn⟩ := devWrite_goes (h := agentHearth s a) (a := addr) (line := agentLine a) (d := d) settled.1 (agentHint_ne_alloc a hh) ecc
  have e : memAccess s a addr len true d hint ecc = n := by rw [memAccess_write hl may hd, hn]; rfl
  dsimp only
  rw [e]
  refine ⟨devWrite_mem hn, ?_⟩
  rintro rfl
  exact devWrite_clean settled.2.1 hn

/-- A read that is not to be given a tile delivers its bytes, and the sectors of them that are poisoned (09, R207, R209). -/
theorem memAccess_delivers :
    let n := memAccess s a addr len false d hint []
    n.out = .readData a (readMem s.mem addr len) (poisoned s addr len) :: s.out ∧ Only [.hearths, .msys, .hif, .out] s n := by
  obtain ⟨n, hn, only⟩ := devRead_clean (h := agentHearth s a) (a := addr) (k := len) (line := agentLine a) settled.1 settled.2.1
    (agentHint_ne_alloc a hh)
  have counted := countPoison_only n a (poisoned s addr len)
  have out : (countPoison n a (poisoned s addr len)).out = s.out := Eq.trans (counted .out (by decide)) (only .out (by decide))
  dsimp only
  rw [memAccess_read hl may hn]
  refine ⟨congrArg _ out, ?_⟩
  exact (only.mono (by simp)).trans ((counted.mono (by simp)).trans ((emit_only _ _).mono (by simp)))

/-- A read of a sector found uncorrectable delivers it poisoned (09, R213, R214). -/
theorem memAccess_delivers_bad {k : Nat} (deep : place addr = .deep addr) (within : inBytes addr len k = true)
    (stored : fromDeep s (32 * k) 32 = true) :
    let n := memAccess s a addr len false d hint [(k - addr / 256 * 8, .uncorrectable)]
    ∃ ps, n.out.head? = some (.readData a (readMem s.mem addr len) ps) ∧ k ∈ ps ∧ Recorded s n 0 6 2 0 ∧ n.mem = s.mem ∧
      fld n.msys.ecc0 63 32 = min (2 ^ 32 - 1) (fld s.msys.ecc0 63 32 + 1) ∧ (fromDeep n (32 * k) 32 = false → k ∈ n.poison) := by
  obtain ⟨n, hn, record, mem, ecc0, fills⟩ := devRead_bad (h := agentHearth s a) (line := agentLine a) settled.1 settled.2.1
    (agentHint_ne_alloc a hh) deep within stored
  have counted := countPoison_only n a (poisoned s addr len ++ [k])
  have recs : (countPoison n a (poisoned s addr len ++ [k])).recs = n.recs := counted .recs (by decide)
  have msys : (countPoison n a (poisoned s addr len ++ [k])).msys = n.msys := counted .msys (by decide)
  have memory : Part.mem.same n _ := counted .mem (by decide)
  dsimp only
  rw [memAccess_read hl may hn]
  refine ⟨_, rfl, by simp, ?_, memory.1.trans mem, ?_, fun held => ?_⟩
  · obtain ⟨r, hr, shown⟩ := record
    exact ⟨r, by rw [emit, recs]; exact hr, shown⟩
  · rw [emit, msys, ecc0]
    exact fld_bumpSat (by decide) 1
  · change fromDeep (countPoison n a _) _ _ = false at held
    rw [fromDeep_congr (s := n) (congrArg (·.pool) msys) (congrArg (·.rgn) msys)] at held
    exact memory.2.1 ▸ fills held
end

/-! ### Accesses that wait (09, R209) -/

theorem parity_lt (k v : Nat) : parity k v < 2 := by
  cases k with
  | zero => simp [parity]
  | succ k => exact Nat.mod_lt _ (by decide)

theorem homePool_lt (s : State) (a : Nat) : homePool s a < 2 := by
  unfold homePool
  split
  · exact Nat.mod_lt _ (by decide)
  · exact parity_lt _ _

theorem waitPool_lt (s : State) (x : MAccess) : waitPool s x < 2 := by
  unfold waitPool
  split <;> exact homePool_lt _ _

theorem waitTile_waits {x : MAccess} (first : x.again = false) :
    Only [.msys] s (waitTile s x) ∧ x ∈ (poolAt (waitTile s x) (waitPool s x)).waiting := by
  have e : waitTile s x = modPool s (waitPool s x) (fun y => { y with waiting := y.waiting ++ [x] }) := by
    rw [waitTile, if_neg (by simp [first])]
  rw [e]
  refine ⟨modPool_only _ _ _, ?_⟩
  rw [poolAt_modPool, if_pos ⟨rfl, waitPool_lt s x⟩]
  simp

/-! ### Requests of the host (20, R463, R465, R468, R472) -/

section
variable {f : FnId} {bar off size value : Nat} {wr ide : Bool}

/-- A function answers while the device is on, and counts a request that its streams forbid (20, R472). -/
theorem barOk_cases (s : State) (f : FnId) (ide : Bool) : (barOk s f.val ide = (true, s) ∧ s.pwr.off = false) ∨
    ((barOk s f.val ide).1 = false ∧ Only [.hif] s (barOk s f.val ide).2) := by
  unfold barOk
  dsimp only
  generalize (if ide = true then _ else _) = allowed
  split
  · exact .inr ⟨rfl, Only.refl _ _⟩
  · next answers =>
    have on : s.pwr.off = false := by cases h : s.pwr.off <;> simp_all
    split
    · exact .inl ⟨rfl, on⟩
    · exact .inr ⟨rfl, modFn_only _ _ _⟩

theorem barOk_state (ok : (barOk s f.val ide).1 = true) : (barOk s f.val ide).2 = s ∧ s.pwr.off = false := by
  rcases barOk_cases s f ide with ⟨e, on⟩ | ⟨refused, -⟩
  · exact ⟨by rw [e], on⟩
  · rw [refused] at ok; nomatch ok

theorem barOk_only : Only [.hif] s (barOk s f.val ide).2 := by
  rcases barOk_cases s f ide with ⟨e, -⟩ | ⟨-, only⟩
  · rw [e]; exact Only.refl _ _
  · exact only

theorem barAccess_refused (ok : (barOk s f.val ide).1 = false) : barAccess s f bar off size wr value ide = (barOk s f.val ide).2 := by
  rw [barAccess, if_pos (by simp [ok])]

section
variable (ok : (barOk s f.val ide).1 = true)
include ok

/-- A warm reset keeps the request from its target (19, R457; 20, R463). -/
theorem barAccess_warm (warm : s.pwr.bootWarm = true) : barAccess s f bar off size wr value ide = noData s f off size wr := by
  rw [barAccess, if_neg (by simp [ok]), (barOk_state ok).1, if_pos warm]

variable (cold : s.pwr.bootWarm = false)
include cold

theorem barAccess_registers (h : off < 2 ^ 30) : barAccess s f 0 off size wr value ide =
    if wr then regWrite s (.host f) (ctlBase + off) size value else regLoad s (.host f) (ctlBase + off) size := by
  rw [barAccess, if_neg (by simp [ok]), (barOk_state ok).1, if_neg (by simp [cold]), if_pos ⟨rfl, h⟩]

theorem barAccess_memory (h : off < 2 ^ 36) : barAccess s f 2 off size wr value ide =
    memAccess s (.host f) (fld (vget (vget s.hif.fns f.val {}).ap (off / 2 ^ 34) 0) 43 34 * 2 ^ 34 + off % 2 ^ 34) size wr
      (leBytes size value) .noalloc [] := by
  rw [barAccess, if_neg (by simp [ok]), (barOk_state ok).1, if_neg (by simp [cold]), if_neg (by simp), if_pos ⟨rfl, h⟩]

theorem barAccess_msix (h : off < 2 ^ 16) : barAccess s f 4 off size wr value ide = msixAccess s f off size wr value := by
  rw [barAccess, if_neg (by simp [ok]), (barOk_state ok).1, if_neg (by simp [cold]), if_neg (by simp), if_neg (by simp),
    if_pos ⟨rfl, h⟩]
end

theorem look_put_other {α : Type} (l : List (Nat × α)) {k j : Nat} (h : j ≠ k) (x d : α) : look (put l k x) j d = look l j d := by
  induction l with
  | nil => simp [put, look, Ne.symm h]
  | cons c l ih =>
    obtain ⟨i, y⟩ := c
    unfold put
    split
    · simp [look, Ne.symm h]
    · split
      · next e => subst e; simp [look, Ne.symm h]
      · simp [look, ih]

/-- The MSI-X table with bytes written at an offset. -/
def msixPut (l : List (Nat × Byte)) (off : Nat) (bs : List Byte) : List (Nat × Byte) :=
  (bs.zipIdx off).foldl (fun l e => if e.2 < 0x8000 then put l e.2 e.1 else l) l

theorem look_msixPut_below (bs : List Byte) (l : List (Nat × Byte)) {off j : Nat} (h : j < off) :
    look (msixPut l off bs) j 0 = look l j 0 := by
  induction bs generalizing l off with
  | nil => rfl
  | cons b bs ih =>
    rw [msixPut, List.zipIdx_cons, List.foldl_cons]
    refine (ih _ (by omega : j < off + 1)).trans ?_
    dsimp only
    split
    · exact look_put_other _ (by omega) _ _
    · rfl

theorem look_msixPut (bs : List Byte) (l : List (Nat × Byte)) (off : Nat) {i : Nat} (h : i < bs.length) (inside : off + i < 0x8000) :
    look (msixPut l off bs) (off + i) 0 = bs.getD i 0 := by
  induction bs generalizing l off i with
  | nil => nomatch h
  | cons b bs ih =>
    rw [msixPut, List.zipIdx_cons, List.foldl_cons]
    cases i with
    | zero =>
      refine (look_msixPut_below bs _ (by omega : off + 0 < off + 1)).trans ?_
      dsimp only
      rw [if_pos (by omega)]
      exact look_put _ _ _ _
    | succ i =>
      rw [show off + (i + 1) = off + 1 + i by omega] at inside ⊢
      exact ih _ _ (by simpa using h) inside

theorem msixAccess_writes : Only [.hif] s (msixAccess s f off size true value) ∧ ∀ i < size, off + i < 0x8000 →
    look (vget (msixAccess s f off size true value).hif.fns f.val {}).msix (off + i) 0 = (leBytes size value).getD i 0 := by
  refine ⟨modFn_only _ _ _, fun i hi inside => ?_⟩
  have table : (vget (msixAccess s f off size true value).hif.fns f.val {}).msix =
      msixPut (vget s.hif.fns f.val {}).msix off (leBytes size value) :=
    congrArg HostFn.msix (vget_vmod_self s.hif.fns f.val _ {} f.isLt)
  rw [table]
  exact look_msixPut _ _ _ (by simpa using hi) inside
end

/-! ### The statement -/

/-- Settles O40: an agent's access by its reach and by whether it waits, then the host's requests by their window. -/
theorem memoryAccesses : Obligations.MemoryAccesses := by
  intro s
  refine ⟨?_, ?_⟩
  · intro a addr len hint on away hl
    have access (wr d ecc) : exec (.memoryAccess a addr len wr d hint ecc) s = .next (memAccess s a addr len wr d hint ecc) :=
      exec_access_mem on away wr
    refine ⟨fun may => ⟨fun d ecc => ?_, fun d ecc hd => ?_⟩, fun may settled hh => ⟨fun d ecc hd => ?_, fun d => ?_, ?_⟩, ?_, fun value => ?_⟩
    · rw [access, memAccess_read_refused hl may]
    · rw [access, memAccess_write_refused hl may hd]
    · exact ⟨_, access _ _ _, memAccess_stores hl may settled hh hd ecc⟩
    · exact ⟨_, access _ _ _, memAccess_delivers hl may settled hh⟩
    · intro d k _ deep within stored
      obtain ⟨ps, shown⟩ := memAccess_delivers_bad (d := d) hl may settled hh deep within stored
      exact ⟨_, ps, access _ _ _, shown⟩
    · rintro t d ecc rfl may hd waits
      refine ⟨_, access _ _ _, ?_⟩
      rw [memAccess_write hl may hd, show devWrite s (agentHearth s (.tile t)) (agentHint (.tile t) hint) addr d [] (agentLine (.tile t)) ecc = none
        from waits, Option.getD_none]
      obtain ⟨only, waiting⟩ := waitTile_waits (s := s) (x :=
        { agent := .tile t, hearth := (agentHearth s (.tile t)).getD 255, addr := addr, len := len, wr := true, data := d, poison := []
          hint := agentHint (.tile t) hint }) rfl
      exact ⟨only, _, rfl, rfl, rfl, waiting⟩
    · rw [exec_registerWrite_mem on away, exec_access_mem on away]
  · intro f off size value ide
    refine ⟨fun ok cold => ⟨fun h => ⟨?_, ?_⟩, fun wr h => ?_, fun h => ?_⟩, fun bar wr ok => ?_, fun bar ok warm => ⟨?_, ?_⟩⟩
    · have ctl := place_ctl (addr := ctlBase + off) (by omega) (by unfold ctlBase; omega)
      rw [exec_registerWrite_ctl (barOk_state ok).2 ctl]
      exact congrArg Host.Outcome.next (barAccess_registers ok cold h)
    · have ctl := place_ctl (addr := ctlBase + off) (by omega) (by unfold ctlBase; omega)
      rw [exec_read_ctl (barOk_state ok).2 ctl]
      exact congrArg Host.Outcome.next (barAccess_registers ok cold h)
    · intro addr away
      rw [exec_access_mem (barOk_state ok).2 away]
      exact congrArg Host.Outcome.next (barAccess_memory ok cold h)
    · exact ⟨_, congrArg Host.Outcome.next (barAccess_msix ok cold h), msixAccess_writes⟩
    · exact ⟨_, congrArg Host.Outcome.next (barAccess_refused ok), barOk_only⟩
    · exact congrArg Host.Outcome.next (barAccess_warm ok warm)
    · exact congrArg Host.Outcome.next (barAccess_warm ok warm)

end Sys2Proof.Machine
end

section
/-! Marks, launches and late landings of a tile (10, R226, R228, R229, R231, R245, R246; 11, R254, R275). -/

namespace Sys2Proof.Machine

variable {s n : State}

/-! ### Marks (10, R229) -/

section
variable {x : Tile} {m d : MarkOp} {rest : List MarkOp}

/-- The instructions of the pipes that a mark names are done (10, R229). -/
def markDone (x : Tile) (m : MarkOp) : Bool := (List.range 5).all (fun p => !m.pipes.testBit p || pipeDone x p m.seq)

theorem markDone_iff : markDone x m = true ↔ ∀ p < 5, m.pipes.testBit p = true → pipeDone x p m.seq = true := by
  simp only [markDone, List.all_eq_true, List.mem_range, Bool.or_eq_true, Bool.not_eq_true']
  exact forall₂_congr fun p _ => by cases m.pipes.testBit p <;> simp

theorem markReady_head (hm : x.blw.marks = m :: rest) (done : markDone x m = true) : markReady x = some m := by
  unfold markReady
  rw [hm]
  exact if_pos done

theorem markReady_mark (hm : x.blw.marks = m :: rest) (waits : markDone x m = false)
    (found : x.blw.marks.find? (fun k => k.sinc.isNone) = some d) (done : markDone x d = true) : markReady x = some d := by
  unfold markReady
  rw [found, hm]
  have kept : (some d).filter (markDone x) = some d := by simp [done]
  exact (if_neg (fun h => absurd (h : markDone x m = true) (by simp [waits]))).trans kept
end

section
variable {t : TileId} {m : MarkOp}

/-- A mark that takes effect is counted (10, R229). -/
theorem markEffect_counts (ready : markReady (tileAt s t.val) = some m) (mark : m.sinc = none) :
    markEffect s t.val = putTile s t { tileAt s t.val with blw := { (tileAt s t.val).blw with
      marks := (tileAt s t.val).blw.marks.erase m, mark := bumpMod (tileAt s t.val).blw.mark 31 0 1 } } := by
  rw [markEffect, ready]
  dsimp only
  rw [mark]
  simp only [modBlw, modTile_put, tileAt_put, putTile_putTile]

/-- The tile has the increment behind it. -/
def markTaken (s : State) (t : TileId) (m : MarkOp) : State := modBlw s t.val (fun b => { b with marks := b.marks.erase m })

theorem markEffect_increment {c : SincOp} (ready : markReady (tileAt s t.val) = some m) (sinc : m.sinc = some c) :
    markEffect s t.val =
      if c.remote then
        match (tileHearth s t.val).bind toHid with
        | some k => issueRemote (markTaken s t m) k (0x100000 + t.val) c.dev c.ctr c.amt
        | none => markTaken s t m
      else issueLocal (markTaken s t m) (tileHearth s t.val) c.ctr c.amt := by
  rw [markEffect, ready]
  dsimp only
  rw [sinc]
  rfl

theorem markTaken_marks : (tileAt (markTaken s t m) t.val).blw.marks = (tileAt s t.val).blw.marks.erase m := by
  rw [markTaken, modBlw, tileAt_modTile_self]
end

/-! ### Increments of the tile (11, R254, R275) -/

theorem issueLocal_flight (s : State) (h : Option Nat) (c amt : Nat) : Only [.hearths, .flights] s (issueLocal s h c amt) ∧
    (issueLocal s h c amt).flights = s.flights ++ [{ ctr := c, amt := amt, hearth := h.bind toHid, remote := false }] := by
  have flights (u : State) (l : List Flight) : Only [.flights] u { u with flights := l } := by
    intro p hp; cases p <;> simp_all [Part.same]
  unfold issueLocal issueWith
  cases h with
  | none => exact ⟨(flights s _).mono (by simp), rfl⟩
  | some k => exact ⟨Only.trans ((modHearth_only s k _).mono (by simp)) ((flights _ _).mono (by simp)), rfl⟩

theorem launch_only (s : State) (f : Frame) : Only ([.ports, .lnk] ++ recParts) s (launch s f) := by
  have put (p : Nat) (f : Frame) : Only ([.ports, .lnk] ++ recParts) s (putOut s p 12 f) := (putOut_only s p 12 f).mono (by simp [recParts])
  unfold launch
  dsimp only
  split
  · exact put _ _
  · exact put _ _
  · exact Only.trans ((modPort_only _ _ _).mono (by simp)) ((rxRaise_only _ _ _ _ _ _ _).mono (by simp [recParts]))
  · exact Only.refl _ _

/-- An increment to an admitted device takes its place among the frames, and no hearth changes (11, R267; 12, R290). -/
theorem sendFrame_increment_hearths {e : SendEntry} {h : HearthId} {amt : Nat} (inc : e.use = .inc h amt)
    (adm : admitted s e.dev.toNat = true) : (sendFrame s e).hearths = s.hearths := by
  unfold sendFrame
  dsimp only
  rw [if_neg (by simp [adm])]
  split
  · unfold enterSend
    split
    · rfl
    · rw [inc]
      exact launch_only _ _ .hearths (by decide)
  · split <;> rfl

theorem sendFrame_increment_tiles {e : SendEntry} {h : HearthId} {amt : Nat} (inc : e.use = .inc h amt) : (sendFrame s e).tiles = s.tiles :=
  (sendFrame_extends (e := e) (fun _ _ _ => by rw [inc]; exact fun h => nomatch h) s).only .tiles (by decide)

theorem issueRemote_tiles (s : State) (h : HearthId) (agent dev ctr amt : Nat) : (issueRemote s h agent dev ctr amt).tiles = s.tiles :=
  sendFrame_increment_tiles rfl

/-- The books of the hearth show what is on its way out, unless the device is not admitted (11, R254, R273). -/
theorem issueRemote_books (s : State) (h : HearthId) (agent dev ctr amt : Nat) :
    (hearthAt (issueRemote s h agent dev ctr amt) h.val).net.out = (hearthAt s h.val).net.out + BitVec.ofNat 64 amt ∨
      admitted s (dev % 2 ^ 20) = false := by
  have booked : (hearthAt (bookIssue s h.val amt true) h.val).net.out = (hearthAt s h.val).net.out + BitVec.ofNat 64 amt := by
    rw [bookIssue, modNet, hearthAt_modHearth_self]; rfl
  have same (d : Nat) : admitted (bookIssue s h.val amt true) d = admitted s d := admitted_congr rfl rfl d
  by_cases adm : admitted s (dev % 2 ^ 20) = true
  · refine .inl ((congrArg (fun x : Hearth => x.net.out) (hearthAt_of_hearths ?_ h.val)).trans booked)
    exact sendFrame_increment_hearths rfl (by rw [same]; simpa using adm)
  · exact .inr (by simpa using adm)

/-- What a mark at the head of the tile's queue leaves once its pipes are done (10, R229; 11, R254, R275). -/
theorem markEffect_head {t : TileId} {m : MarkOp} {rest : List MarkOp} (hm : (tileAt s t.val).blw.marks = m :: rest)
    (done : markDone (tileAt s t.val) m = true) :
    let x := tileAt s t.val
    let n := markEffect s t.val
    (tileAt n t.val).blw.marks = rest ∧
      (m.sinc = none → n = putTile s t { x with blw := { x.blw with marks := rest, mark := bumpMod x.blw.mark 31 0 1 } }) ∧
      (∀ c, m.sinc = some c → c.remote = false → Only [.tiles, .hearths, .flights] s n ∧
        n.flights = s.flights ++ [{ ctr := c.ctr, amt := c.amt, hearth := (tileHearth s t.val).bind toHid, remote := false }]) ∧
      (∀ c h, m.sinc = some c → c.remote = true → tileHearth s t.val = some h → h < 16 →
        (hearthAt n h).net.out = (hearthAt s h).net.out + BitVec.ofNat 64 c.amt ∨ admitted s (c.dev % 2 ^ 20) = false) := by
  have ready := markReady_head hm done
  have erased : (tileAt s t.val).blw.marks.erase m = rest := by rw [hm, List.erase_cons_head]
  have taken : (tileAt (markTaken s t m) t.val).blw.marks = rest := markTaken_marks.trans erased
  dsimp only
  cases sinc : m.sinc with
  | none =>
    have e := markEffect_counts ready sinc
    rw [erased] at e
    refine ⟨?_, fun _ => e, by nofun, by nofun⟩
    rw [e, tileAt_put]
  | some c =>
    have e := markEffect_increment ready sinc
    refine ⟨?_, by nofun, ?_, ?_⟩
    · rw [e]
      split
      · split
        · rw [tileAt, issueRemote_tiles]; exact taken
        · exact taken
      · have same : (issueLocal (markTaken s t m) (tileHearth s t.val) c.ctr c.amt).tiles = (markTaken s t m).tiles :=
          (issueLocal_flight _ _ _ _).1 .tiles (by decide)
        rw [tileAt, same]; exact taken
    · rintro _ ⟨⟩ isLocal
      rw [e, if_neg (by simp [isLocal])]
      obtain ⟨only, flights⟩ := issueLocal_flight (markTaken s t m) (tileHearth s t.val) c.ctr c.amt
      exact ⟨Only.trans ((modTile_only s t.val _).mono (by simp)) (only.mono (by simp)), flights⟩
    · rintro _ h ⟨⟩ remote hh lt
      have hid : (tileHearth s t.val).bind toHid = some ⟨h, lt⟩ := by rw [hh, Option.bind_some, toHid, dif_pos lt]
      rw [e, if_pos remote, hid]
      rcases issueRemote_books (markTaken s t m) ⟨h, lt⟩ (0x100000 + t.val) c.dev c.ctr c.amt with books | refused
      · exact .inl books
      · exact .inr ((admitted_congr (n := markTaken s t m) rfl rfl _).symm.trans refused)

end Sys2Proof.Machine
end

section
/-! Threads that a tile launches, and a landing that comes late (10, R226, R228, R231, R245, R246). -/

namespace Sys2Proof.Machine

variable {s n : State}

/-! ### Threads (10, R228) -/

theorem look?_put_other {α : Type} (l : List (Nat × α)) {k j : Nat} (h : j ≠ k) (x : α) : look? (put l k x) j = look? l j := by
  induction l with
  | nil => simp [put, look?, Ne.symm h]
  | cons c l ih =>
    obtain ⟨i, y⟩ := c
    unfold put
    split
    · simp [look?, Ne.symm h]
    · split
      · next e => subst e; simp [look?, Ne.symm h]
      · simp [look?, ih]

/-- Thread thr starts on k cores from this one on. -/
def launched (core thr : Nat) (start : Nat → Thread) (t k : Nat) (s : State) : State :=
  forEach (List.range k) s (fun i s => setThread s t (core + i) thr (some (start i)))

section
variable {core thr : Nat} {start : Nat → Thread} {t : TileId}

theorem launched_succ (k : Nat) (s : State) : launched core thr start t.val (k + 1) s =
    setThread (launched core thr start t.val k s) t.val (core + k) thr (some (start k)) := by
  simp only [launched, forEach, List.range_succ, List.foldl_append, List.foldl_cons, List.foldl_nil]

theorem threadAt_setThread (s : State) (t : TileId) (core thr core' : Nat) (x : Thread) :
    threadAt (tileAt (setThread s t.val core thr (some x)) t.val) core' thr =
      if core' = core then some x else threadAt (tileAt s t.val) core' thr := by
  rw [setThread, modBlw, tileAt_modTile_self]
  change look? (put _ _ _) _ = _
  split
  · next h => rw [h, look?_put]
  · next h => exact look?_put_other _ (by simp only [thKey]; omega) _

theorem launched_threads (k : Nat) (s : State) {i : Nat} (hi : i < k) :
    threadAt (tileAt (launched core thr start t.val k s) t.val) (core + i) thr = some (start i) := by
  induction k with
  | zero => nomatch hi
  | succ k ih =>
    rw [launched_succ, threadAt_setThread]
    by_cases h : i = k
    · rw [h, if_pos rfl]
    · rw [if_neg (by omega), ih (by omega)]

theorem launched_leaves (k : Nat) (s : State) : Only [.tiles] s (launched core thr start t.val k s) ∧
    OnlyTile t.val s (launched core thr start t.val k s) ∧
    (tileAt (launched core thr start t.val k s) t.val).blw.csCtl = (tileAt s t.val).blw.csCtl := by
  induction k with
  | zero => exact ⟨Only.refl _ _, fun _ _ => rfl, rfl⟩
  | succ k ih =>
    obtain ⟨only, alone, word⟩ := ih
    rw [launched_succ]
    refine ⟨only.trans (modTile_only _ _ _), OnlyTile.trans alone (modTile_onlyTile _ _ _), ?_⟩
    rw [setThread, modBlw, tileAt_modTile_self]
    exact word
end

section
variable {t : TileId} {w : Word128}

/-- The arguments of a launch, from scratch (10, R228). -/
def launchArgs (s : State) (t : TileId) (w : Word128) : List Nat :=
  (List.range (wf w 69 66)).map (fun i => leNat (scrRead s t.val (32 * wf w 89 70 + 8 * i) 8))

theorem issueBln_done (thr : wf w 105 102 < 4 * 2 ^ fld (tileAt s t.val).blw.cfg 2 1) (cores : wf w 119 113 + (wf w 112 106 + 1) ≤ 128)
    (args : wf w 69 66 ≠ 15) (inside : wf w 69 66 ≠ 0 → 32 * wf w 89 70 + 8 * wf w 69 66 ≤ scrSize s t.val)
    (free : ∀ i ≤ wf w 112 106, threadAt (tileAt s t.val) (wf w 119 113 + i) (wf w 105 102) = none) :
    issueBln t.val w s = .done (launched (wf w 119 113) (wf w 105 102) (newThread (wf w 101 90) (launchArgs s t w)) t.val
      (wf w 112 106 + 1) (scrSee s t.val (32 * wf w 89 70) (8 * wf w 69 66))) := by
  have named (p : Option Thread → Bool) (hp : p none = false) :
      ((List.range (wf w 112 106 + 1)).map (fun i => threadAt (tileAt s t.val) (wf w 119 113 + i) (wf w 105 102))).any p = false := by
    simp only [List.any_map, List.any_eq_false, List.mem_range, Function.comp_apply]
    intro i hi
    rw [free i (by omega), hp]
    decide
  unfold issueBln
  dsimp only
  rw [if_neg (by simp only [thrCount]; omega), named _ (by rfl), if_neg (by decide), if_neg args,
    if_neg (by simpa [inScratch] using inside), named _ (by rfl), if_neg (by decide)]
  rfl

theorem threadAt_seen (seen : Seen s n) (u : Nat) : (tileAt n u).blw = (tileAt s u).blw := by
  obtain ⟨e, he⟩ := seen.tile u
  rw [he]; rfl

theorem advance_leaves (s : State) (t : TileId) (v : Nat) : Only [.tiles] s (advance s t.val v) ∧ OnlyTile t.val s (advance s t.val v) ∧
    csWord (advance s t.val v) t.val = v % 2 ^ 32 ∧
    (tileAt (advance s t.val v) t.val).blw.threads = (tileAt s t.val).blw.threads := by
  refine ⟨(modTile_only _ _ _).trans (modTile_only _ _ _), OnlyTile.trans (modTile_onlyTile _ _ _) (modTile_onlyTile _ _ _), ?_, ?_⟩
  · rw [csWord, advance, tileAt_modTile_self, setCsWord, tileAt_modTile_self]
    exact fld_setFld _ _ _ _ (by decide)
  · rw [advance, tileAt_modTile_self, setCsWord, tileAt_modTile_self]

/-- A launch starts one thread number on every core it names (10, R228). -/
theorem bln_launches (stands : Stands s t w 0x82) (thr : wf w 105 102 < 4 * 2 ^ fld (tileAt s t.val).blw.cfg 2 1)
    (cores : wf w 119 113 + (wf w 112 106 + 1) ≤ 128)
    (args : wf w 69 66 ≠ 15) (inside : wf w 69 66 ≠ 0 → 32 * wf w 89 70 + 8 * wf w 69 66 ≤ scrSize s t.val)
    (free : ∀ i ≤ wf w 112 106, threadAt (tileAt s t.val) (wf w 119 113 + i) (wf w 105 102) = none) :
    let u := scrSee s t.val (32 * wf w 89 70) (8 * wf w 69 66)
    ∃ n, exec (.bln t w) s = .next n ∧ csWord n t.val = (csWord s t.val + 1) % 2 ^ 32 ∧ Only [.tiles] u n ∧ OnlyTile t.val u n ∧
      ∀ i ≤ wf w 112 106, threadAt (tileAt n t.val) (wf w 119 113 + i) (wf w 105 102) =
        some (newThread (wf w 101 90) (launchArgs s t w) i) := by
  have issued := issueCmd_done' (f := issueBln t.val w) stands (issueBln_done thr cores args inside free)
  have seen := threadAt_seen (seen_scrSee s t.val (32 * wf w 89 70) (8 * wf w 69 66)) t.val
  dsimp only
  generalize scrSee s t.val (32 * wf w 89 70) (8 * wf w 69 66) = u at issued seen
  obtain ⟨only, alone, word⟩ := launched_leaves (core := wf w 119 113) (thr := wf w 105 102)
    (start := newThread (wf w 101 90) (launchArgs s t w)) (t := t) (wf w 112 106 + 1) u
  have threads := fun i (hi : i < wf w 112 106 + 1) => launched_threads (core := wf w 119 113) (thr := wf w 105 102)
    (start := newThread (wf w 101 90) (launchArgs s t w)) (t := t) (wf w 112 106 + 1) u hi
  generalize launched _ _ _ _ _ u = v at issued only alone word threads
  obtain ⟨only', alone', moved, kept⟩ := advance_leaves v t (csWord v t.val + 1)
  have at_ : csWord v t.val = csWord s t.val := by rw [csWord, word, seen]; rfl
  refine ⟨_, issued, by rw [moved, at_], only.trans only', OnlyTile.trans alone alone', fun i hi => ?_⟩
  rw [threadAt, kept]
  exact threads i (by omega)
end

/-- A launch by register write starts a thread that is idle or stopped by a fault (10, R228). -/
theorem blwLaunch_starts {a : Agent} {t value : Nat} (may : mayTile s a t = true) (role : tileRole s t ≠ 2)
    (owned : (tileHearth s t).isSome = true) (ready : (tileAt s t).blw.draining = none)
    (thr : fld (BitVec.ofNat 32 value) 24 21 < 4 * 2 ^ fld (tileAt s t).blw.cfg 2 1)
    (idle : ∀ th, threadAt (tileAt s t) (fld (BitVec.ofNat 32 value) 31 25) (fld (BitVec.ofNat 32 value) 24 21) = some th → th.st = .fault) :
    blwLaunch s a t value = setThread s t (fld (BitVec.ofNat 32 value) 31 25) (fld (BitVec.ofNat 32 value) 24 21)
      (some (newThread (fld (BitVec.ofNat 32 value) 11 0) [] 0)) := by
  unfold blwLaunch tileStart tileWrite
  dsimp only
  rw [if_neg (by simp [may]), if_neg role, if_neg (by cases h : tileHearth s t <;> simp_all), if_neg (by simp [ready]),
    if_neg (by simp only [thrCount]; omega)]
  split
  · next th found => exact if_pos (idle th found)
  · rfl

/-! ### A landing that comes late (10, R231, R245, R246) -/

theorem breachNoted_leaves (s : State) (h : HearthId) (cause tile agent : Nat) :
    Only ([.hearths] ++ recParts) s (breachNoted s h.val cause tile agent) ∧
      hearthAt (breachNoted s h.val cause tile agent) h.val = breachShown cause tile (fc s / 2 ^ 16) (hearthAt s h.val) := by
  unfold breachNoted
  dsimp only
  split
  · refine ⟨Only.trans ((modHearth_only _ _ _).mono (by simp)) ((raise_only _ _ _ _ _ _ _ _ _ _).mono fun _ => List.mem_append_right _), ?_⟩
    rw [hearthAt_raise, hearthAt_modHearth_self]
  · exact ⟨(modHearth_only _ _ _).mono (by simp), hearthAt_modHearth_self _ _ _⟩

theorem breach_tile (s : State) (h cause t agent : Nat) (hc : cause ≠ cDUTY) : breach s h cause (some t) agent =
    let u := setCause (breachNoted s h cause t agent) h cause true
    if holdState u h = 0 ∨ holdState u h = 3 then setHold u h 1 else u :=
  if_neg hc

theorem breach_land (s : State) (h : HearthId) {t : Nat} (ht : t < 32) (agent : Nat) :
    let n := breach s h.val cLAND (some t) agent
    Only ([.hearths] ++ recParts) s n ∧ bit (hearthAt n h.val).mem.sched 40 = true ∧
      (holdState s h.val = 0 → holdState n h.val = 1) ∧ fld (hearthAt n h.val).mem.brch 15 8 = 1 ∧
      fld (hearthAt n h.val).mem.brch 4 0 = t := by
  obtain ⟨only, shown⟩ := breachNoted_leaves s h cLAND t agent
  dsimp only
  rw [breach_tile _ _ _ _ _ (by decide)]
  dsimp only
  generalize breachNoted s h.val cLAND t agent = u at only shown
  have caused : hearthAt (setCause u h.val cLAND true) h.val =
      { hearthAt u h.val with mem := { (hearthAt u h.val).mem with sched := setBit (hearthAt u h.val).mem.sched (39 + cLAND) true } } :=
    hearthAt_modHearth_self _ _ _
  have only' : Only ([.hearths] ++ recParts) s (setCause u h.val cLAND true) := only.trans ((modHearth_only _ _ _).mono (by simp))
  have late : bit (hearthAt (setCause u h.val cLAND true) h.val).mem.sched 40 = true := by
    rw [caused]; exact bit_setBit_self _ (by decide) true
  have state : holdState (setCause u h.val cLAND true) h.val = holdState s h.val := by
    rw [holdState, caused, shown]
    exact fld_setFld_apart _ _ _ _ _ _ (by decide) (by decide)
  have brch : (hearthAt (setCause u h.val cLAND true) h.val).mem.brch =
      setFld (setFld (bumpSat (hearthAt s h.val).mem.brch 63 32 1) 15 8 cLAND) 4 0 t := by rw [caused, shown]; rfl
  have code : fld (hearthAt (setCause u h.val cLAND true) h.val).mem.brch 15 8 = 1 := by
    rw [brch, fld_setFld_apart _ _ _ _ _ _ (by decide) (by decide), fld_setFld _ _ _ _ (by decide)]; rfl
  have tile : fld (hearthAt (setCause u h.val cLAND true) h.val).mem.brch 4 0 = t := by
    rw [brch, fld_setFld _ _ _ _ (by decide)]
    exact Nat.mod_eq_of_lt ht
  generalize setCause u h.val cLAND true = v at only' late state code tile
  split
  · have held : hearthAt (setHold v h.val 1) h.val =
        { hearthAt v h.val with
          mem := { (hearthAt v h.val).mem with sched := setFld (hearthAt v h.val).mem.sched 34 32 1 }
          run := { (hearthAt v h.val).run with since := fc v } } := hearthAt_modHearth_self _ _ _
    refine ⟨only'.trans ((setHold_only _ _ _).mono (by simp)), ?_, fun _ => holdState_setHold _ h.isLt _, ?_, ?_⟩
    · rw [held]
      exact (bit_setFld_apart _ _ (by decide) (by decide)).trans late
    · rw [held]; exact code
    · rw [held]; exact tile
  · next running => exact ⟨only', late, fun h => absurd (.inl (state.trans h)) running, code, tile⟩

/-- A tile that waits for its landing with its pipes empty is late for it (10, R231, R245). -/
theorem landLate_breaches {t : TileId} {w : Word128} {h : HearthId} (pend : (tileAt s t.val).blw.pend = some w) (op : wf w 127 120 = 0x81)
    (runs : csState s t.val = 1) (owned : tileHearth s t.val = some h.val) (first : (tileAt s t.val).blw.late = none)
    (waits : reached (landAt (tileAt s t.val) (wf w 119 115)) (wf w 114 83) = false) (idle : tileIdle (tileAt s t.val) = true) :
    landLate s t.val = breach (modBlw s t.val (fun b => { b with late := some (wf w 119 115, wf w 114 83) })) h.val cLAND (some t.val)
      (0x100000 + t.val) := by
  unfold landLate
  dsimp only
  rw [pend, owned]
  exact if_pos ⟨op, runs, first, by simp [waits], idle⟩

theorem putTile_self (s : State) (t : TileId) : putTile s t (tileAt s t.val) = s := by
  have same : s.tiles.setIfInBounds t.val (tileAt s t.val) = s.tiles := by
    refine Vector.ext fun i hi => ?_
    rw [Vector.getElem_setIfInBounds]
    split
    · next e => subst e; rw [tileAt, vget, Vector.getElem?_eq_getElem hi]; rfl
    · rfl
  rw [putTile, vput, same]

/-! ### The statement -/

/-- Settles O16: the words of a stream through their issue, marks through `markEffect`, a late landing through its breach. -/
theorem marksAndLaunches : Obligations.MarksAndLaunches := by
  refine ⟨fun s t w => ?_, fun s t => ⟨?_, ?_⟩⟩
  · dsimp only
    refine ⟨fun stands named => ?dmk, fun stands there => ?dwt, fun stands thr cores args inside free => ?bln,
      fun stands own remote => ?sinc, fun m rest d hm waits found done => ?past, fun m rest hm done => ?head⟩
    case dmk =>
      refine issueCmd_done (f := issueDmk t.val w) stands ?_ rfl
      rw [issueDmk, if_neg named, modBlw, modTile_put]
    case dwt =>
      refine issueCmd_done (f := issueDwt t.val w) stands ?_ rfl
      rw [issueDwt, if_pos there, putTile_self]
    case bln => exact bln_launches stands thr cores args inside free
    case sinc =>
      refine issueCmd_done (f := issueSinc t.val w) stands ?_ rfl
      have localOk : ¬ (wf w 114 114 = 0 ∧ (!tileCtr s t.val (wf w 93 78)) = true) := fun h => by simp [own h.1] at h
      have remoteOk : ¬ (wf w 114 114 = 1 ∧ (wf w 113 94 = 0xFFFFF ∨ wf w 113 94 = devNo s ∨ (!admitted s (wf w 113 94)) = true)) := by
        rintro ⟨h, e⟩
        obtain ⟨notAll, notSelf, adm⟩ := remote h
        simp [notAll, notSelf, adm] at e
      exact ((if_neg localOk).trans (if_neg remoteOk)).trans (by rw [modTile_put]; rfl)
    case past =>
      obtain ⟨p, hp, named, busy⟩ := waits
      have held : markDone (tileAt s t.val) m = false := by
        refine Bool.eq_false_iff.2 fun h => ?_
        rw [markDone_iff.1 h p hp named] at busy
        nomatch busy
      have mark : d.sinc = none := by simpa using List.find?_some found
      exact congrArg Host.Outcome.next (markEffect_counts (markReady_mark hm held found (markDone_iff.2 done)) mark)
    case head => exact ⟨_, rfl, markEffect_head hm (markDone_iff.2 done)⟩
  · intro a value may role owned ready v thr idle
    exact congrArg Host.Outcome.next (blwLaunch_starts may role owned ready thr idle)
  · intro w h pend op runs owned first waits idle
    have e := landLate_breaches pend op runs owned first waits idle
    obtain ⟨only, late, hold, code, tile⟩ := breach_land (modBlw s t.val (fun b => { b with late := some (wf w 119 115, wf w 114 83) })) h
      t.isLt (0x100000 + t.val)
    have tiles : (landLate s t.val).tiles = (modBlw s t.val (fun b => { b with late := some (wf w 119 115, wf w 114 83) })).tiles := by
      rw [e]; exact only .tiles (by decide)
    rw [← e] at only late hold code tile
    refine ⟨_, rfl, ?_, late, hold, code, tile, Only.trans ((modTile_only _ _ _).mono (by simp)) (only.mono (by simp +contextual)), fun u hu => ?_⟩
    · rw [tileAt, tiles]
      exact congrArg (fun x : Tile => x.blw.late) (tileAt_modTile_self s t _)
    · rw [tileAt, tiles]
      exact modTile_onlyTile s t.val _ u hu

end Sys2Proof.Machine
end

section
/-! What the end of work leaves: windows, requests in flight, increments, sessions and owners end (10, R226; 11, R264, R268, R273,
R278; 13, R331), and the clock, the configurations, the ledger, the Stoker's audit and keys, the functions, the steps of the boot, the
epochs of the hearths, the queues that stand enabled and the owners of the counters stay. One rule for each operation, in the order of
the model. -/

namespace Sys2Proof.Machine

-- Each proof is finished before the next: many short ones at once hold more threads than the check's memory has room for.
set_option Elab.async false

/-- Work has ended between two states; a counter that had lost its owner has still lost it. -/
structure Ends (s n : State) : Prop where
  pending : n.pending = s.pending
  cyc : n.cyc = s.cyc
  cur : n.tmp.cur = s.tmp.cur
  durable : n.tmp.durable = s.tmp.durable
  lgr : n.lgr = s.lgr
  audit : n.stk.audit = s.stk.audit
  keys : n.stk.keys = s.stk.keys
  fn : n.pwr.fn = s.pwr.fn
  booted : n.pwr.booted = s.pwr.booted
  epoch : ∀ h, (hearthAt n h).chk.epoch = (hearthAt s h).chk.epoch
  queue : ∀ q, qEn (queueAt n q) = qEn (queueAt s q)
  owner : ∀ c, (ctrAt n c).owner = (ctrAt s c).owner
  lost : ∀ c, (ctrAt s c).lost = true → (ctrAt n c).lost = true

variable {s₀ s n : State} {α : Type}

theorem Ends.refl (s : State) : Ends s s :=
  ⟨rfl, rfl, rfl, rfl, rfl, rfl, rfl, rfl, rfl, fun _ => rfl, fun _ => rfl, fun _ => rfl, fun _ => id⟩

theorem Ends.trans (h : Ends s₀ s) (k : Ends s n) : Ends s₀ n where
  pending := k.pending.trans h.pending
  cyc := k.cyc.trans h.cyc
  cur := k.cur.trans h.cur
  durable := k.durable.trans h.durable
  lgr := k.lgr.trans h.lgr
  audit := k.audit.trans h.audit
  keys := k.keys.trans h.keys
  fn := k.fn.trans h.fn
  booted := k.booted.trans h.booted
  epoch j := (k.epoch j).trans (h.epoch j)
  queue q := (k.queue q).trans (h.queue q)
  owner c := (k.owner c).trans (h.owner c)
  lost c l := k.lost c (h.lost c l)

/-- An update of parts in which nothing of it stands. -/
theorem Ends.update {a₀ a₁ tiles ports hobs flights claims lnk mem poison codes msys recs hif out fresh} (h : Ends s₀ s) : Ends s₀ { s with
      anchor0 := a₀, anchor1 := a₁, tiles := tiles, ports := ports, hobs := hobs, flights := flights, claims := claims, lnk := lnk
      mem := mem, poison := poison, codes := codes, msys := msys, recs := recs, hif := hif, out := out, fresh := fresh } :=
  ⟨h.pending, h.cyc, h.cur, h.durable, h.lgr, h.audit, h.keys, h.fn, h.booted, h.epoch, h.queue, h.owner, h.lost⟩

theorem Ends.of_only {ps : List Part} (h : Ends s₀ s) (only : Only ps s n)
    (apart : ∀ p ∈ [Part.pending, .cyc, .tmp, .lgr, .stk, .pwr, .hearths, .queues, .counters], p ∉ ps := by decide) : Ends s₀ n := by
  have same {p : Part} (hp : p ∈ [Part.pending, .cyc, .tmp, .lgr, .stk, .pwr, .hearths, .queues, .counters]) : p.same s n :=
    only p (apart p hp)
  have hearths : n.hearths = s.hearths := same (p := .hearths) (by decide)
  have queues : n.queues = s.queues := same (p := .queues) (by decide)
  have tmp : n.tmp = s.tmp := same (p := .tmp) (by decide)
  have stk : n.stk = s.stk := same (p := .stk) (by decide)
  have pwr : n.pwr = s.pwr := same (p := .pwr) (by decide)
  have counters : n.counters = s.counters := (same (p := .counters) (by decide) : Part.counters.same s n).1
  refine h.trans ⟨same (p := .pending) (by decide), same (p := .cyc) (by decide), congrArg (·.cur) tmp, congrArg (·.durable) tmp,
    same (p := .lgr) (by decide), congrArg (·.audit) stk, congrArg (·.keys) stk, congrArg (·.fn) pwr, congrArg (·.booted) pwr,
    fun h => by simp only [hearthAt, hearths], fun q => by simp only [queueAt, queues], fun c => by simp only [ctrAt, counters],
    fun c => by simp only [ctrAt, counters]; exact id⟩

theorem Ends.fst {x : α} (h : Ends s₀ s) : Ends s₀ (s, x).1 := h
theorem Ends.ite {c : Prop} [Decidable c] (hs : Ends s₀ s) (hn : Ends s₀ n) : Ends s₀ (if c then s else n) := by
  split <;> assumption
theorem Ends.maybe {c : Prop} [Decidable c] (hs : Ends s₀ s) (hn : Ends s₀ s → Ends s₀ n) : Ends s₀ (if c then n else s) :=
  .ite (hn hs) hs
theorem Ends.unless {c : Prop} [Decidable c] (hs : Ends s₀ s) (hn : Ends s₀ s → Ends s₀ n) : Ends s₀ (if c then s else n) :=
  .ite hs (hn hs)

theorem foldl_ends {f : State → α → State} (hf : ∀ x s, Ends s₀ s → Ends s₀ (f s x)) (h : Ends s₀ s) (l : List α) :
    Ends s₀ (l.foldl f s) := by
  induction l generalizing s with
  | nil => exact h
  | cons x l ih => exact ih (hf x s h)
theorem forEach_ends {f : α → State → State} {l : List α} (hf : ∀ x s, Ends s₀ s → Ends s₀ (f x s)) (h : Ends s₀ s) :
    Ends s₀ (forEach l s f) := foldl_ends hf h l

theorem getD_ends {o : Option State} (ho : ∀ n, o = some n → Ends s₀ n) (hs : Ends s₀ s) : Ends s₀ (o.getD s) := by
  cases o with
  | none => exact hs
  | some n => exact ho n rfl

/-! ### Units, queues and counters -/

theorem modHearth_ends {h : Nat} {f : Hearth → Hearth} (hs : Ends s₀ s)
    (hf : ∀ x, (f x).chk.epoch = x.chk.epoch := by intro x; rfl) : Ends s₀ (modHearth s h f) := by
  refine hs.trans ⟨rfl, rfl, rfl, rfl, rfl, rfl, rfl, rfl, rfl, fun k => ?_, fun _ => rfl, fun _ => rfl, fun _ => id⟩
  rw [hearthAt_modHearth]
  split
  · next e => rw [hf, e.1]
  · rfl
theorem modQueue_ends {q : Nat} {f : WorkQ → WorkQ} (hs : Ends s₀ s) (hf : ∀ w, qEn (f w) = qEn w := by intro w; rfl) :
    Ends s₀ (modQueue s q f) := by
  refine hs.trans ⟨rfl, rfl, rfl, rfl, rfl, rfl, rfl, rfl, rfl, fun _ => rfl, fun k => ?_, fun _ => rfl, fun _ => id⟩
  rw [queueAt_modQueue]
  split
  · next e => rw [hf, e.1]
  · rfl
theorem ctrAt_modCtr (s : State) (c k : Nat) (f : Counter → Counter) :
    ctrAt (modCtr s c f) k = if k = c then f (ctrAt s c) else ctrAt s k := by
  split
  · next e => rw [e]; exact look_put _ _ _ _
  · next e => exact look_put_other _ e _ _
theorem modCtr_ends {c : Nat} {f : Counter → Counter} (hs : Ends s₀ s) (ho : ∀ x, (f x).owner = x.owner := by intro x; rfl)
    (hl : ∀ x, x.lost = true → (f x).lost = true := by intro x h; exact h) : Ends s₀ (modCtr s c f) := by
  refine hs.trans ⟨rfl, rfl, rfl, rfl, rfl, rfl, rfl, rfl, rfl, fun _ => rfl, fun _ => rfl, fun k => ?_, fun k l => ?_⟩
  · rw [ctrAt_modCtr]
    split
    · next e => rw [ho, e]
    · rfl
  · rw [ctrAt_modCtr]
    split
    · next e => exact hl _ (e ▸ l)
    · exact l
theorem modPwr_ends {f : Power → Power} (hs : Ends s₀ s) (hf : (f s.pwr).fn = s.pwr.fn := by rfl)
    (hb : (f s.pwr).booted = s.pwr.booted := by rfl) : Ends s₀ (modPwr s f) :=
  hs.trans ⟨rfl, rfl, rfl, rfl, rfl, rfl, rfl, hf, hb, fun _ => rfl, fun _ => rfl, fun _ => rfl, fun _ => id⟩
theorem modTile_ends {t f} (hs : Ends s₀ s) : Ends s₀ (modTile s t f) := .update hs
theorem modBlw_ends {t f} (hs : Ends s₀ s) : Ends s₀ (modBlw s t f) := .update hs
theorem modPort_ends {p f} (hs : Ends s₀ s) : Ends s₀ (modPort s p f) := .update hs
theorem modPool_ends {p f} (hs : Ends s₀ s) : Ends s₀ (modPool s p f) := .update hs
theorem modNet_ends {h f} (hs : Ends s₀ s) : Ends s₀ (modNet s h f) := modHearth_ends hs
theorem modRun_ends {h f} (hs : Ends s₀ s) : Ends s₀ (modRun s h f) := modHearth_ends hs
theorem modChk_ends {h : Nat} {f : HChk → HChk} (hs : Ends s₀ s) (hf : ∀ x, (f x).epoch = x.epoch := by intro x; rfl) :
    Ends s₀ (modChk s h f) := modHearth_ends hs fun x => hf x.chk
theorem modItem_ends {q seq f} (hs : Ends s₀ s) : Ends s₀ (modItem s q seq f) := modQueue_ends hs
theorem raise_ends {space code detail h agent arg0 arg1 arg2 alt} (hs : Ends s₀ s) :
    Ends s₀ (raise s space code detail h agent arg0 arg1 arg2 alt) := .of_only hs (raise_only s _ _ _ _ _ _ _ _ _)
theorem store_ends {a bs src} (hs : Ends s₀ s) : Ends s₀ (store s a bs src) := .of_only hs (store_only_mem s a bs src)
theorem zeroRange_ends {a k} (hs : Ends s₀ s) : Ends s₀ (zeroRange s a k) := .update hs

/-! ### Accesses to memory (09, R207 to R213) -/

theorem noteCodes_ends {a e} (hs : Ends s₀ s) : Ends s₀ (noteCodes s a e) := by
  unfold noteCodes
  dsimp only
  split
  · exact .update hs
  · exact .update hs
  · exact hs
theorem dpmUe_ends {a} (hs : Ends s₀ s) : Ends s₀ (dpmUe s a) := raise_ends (.update (.update hs))
theorem dropDeep_ends {p} (hs : Ends s₀ s) : Ends s₀ (dropDeep s p) := .update hs
theorem dropWord_ends {k} (hs : Ends s₀ s) : Ends s₀ (dropWord s k) := .update hs
theorem insSet_ends {k : Nat} (hs : Ends s₀ s) : Ends s₀ { s with poison := insSet k s.poison } := .update hs
theorem dpmCe_ends (hs : Ends s₀ s) : Ends s₀ (dpmCe s) := .update hs
theorem scrUe_ends {t o} (hs : Ends s₀ s) : Ends s₀ (scrUe s t o) := raise_ends (insSet_ends (modTile_ends hs))
theorem seeDeep_ends {seen} (hs : Ends s₀ s) : Ends s₀ (seeDeep s seen).1 := by
  unfold seeDeep
  refine List.foldlRecOn (motive := fun r : State × List Nat => Ends s₀ r.1) _ _ hs ?_
  intro r hr x _
  split
  · exact .fst (dropDeep_ends (dpmCe_ends hr))
  · exact dpmUe_ends hr
  · exact hr
theorem seeWords_ends {a k} (hs : Ends s₀ s) : Ends s₀ (seeWords s a k) := by
  unfold seeWords
  refine foldl_ends (fun _ _ hu => ?_) hs _
  split
  · exact dropWord_ends (modTile_ends hu)
  · exact dropWord_ends (.ite (scrUe_ends hu) hu)
  · exact hu
theorem mtlStat_ends {h word hi lo k} (hs : Ends s₀ s) : Ends s₀ (mtlStat s h word hi lo k) := by
  unfold mtlStat
  split
  · exact modHearth_ends hs
  · exact hs
theorem touch_ends {h hint a k wr line} (hs : Ends s₀ s) (e : touch s h hint a k wr line = some n) : Ends s₀ n := by
  refine hs.trans (touch_rel Ends.refl (fun _ _ _ => Ends.trans) (fun u v b hb => ?_) e)
  rcases touchBlock_cases hb with rfl | ⟨hi, lo, f, rfl, -⟩
  · exact mtlStat_ends (.refl u)
  · exact modPool_ends (mtlStat_ends (.refl u))
theorem fillPoison_ends {clean k} (hs : Ends s₀ s) : Ends s₀ (fillPoison clean k s) :=
  .ite hs (.ite (modPool_ends (insSet_ends hs)) (insSet_ends hs))
theorem eccDeep_ends {s' a k wr} (hs : Ends s₀ s) : Ends s₀ (eccDeep s' s a k wr).1 := by
  have filled (seen : Nat → Bool) (l : List Nat) : Ends s₀ (l.foldl (fun s k => fillPoison (!wr) k s) (seeDeep s seen).1) :=
    foldl_ends (fun _ _ => fillPoison_ends) (seeDeep_ends hs) l
  unfold eccDeep
  dsimp only
  split
  · exact hs
  · split
    · exact .fst (dropDeep_ends (foldl_ends (fun k _ hu => insSet_ends (k := k) hu) (filled _ _) _))
    · exact filled _ _
theorem devWrite_ends {h hint a bs poison line e} (hs : Ends s₀ s) (w : devWrite s h hint a bs poison line e = some n) : Ends s₀ n := by
  unfold devWrite at w
  split at w
  · obtain ⟨u, hu, rfl⟩ := Option.map_eq_some_iff.1 w
    exact store_ends (eccDeep_ends (touch_ends (noteCodes_ends hs) hu))
  · cases w
    exact store_ends (noteCodes_ends hs)
theorem devRead_ends {h hint a k e line r} (hs : Ends s₀ s) (w : devRead s h hint a k e line = some r) : Ends s₀ r.1 := by
  unfold devRead at w
  split at w
  · obtain ⟨u, hu, rfl⟩ := Option.map_eq_some_iff.1 w
    exact eccDeep_ends (touch_ends (noteCodes_ends hs) hu)
  · cases w
    exact seeWords_ends (noteCodes_ends hs)
theorem waitTile_ends {m} (hs : Ends s₀ s) : Ends s₀ (waitTile s m) := .ite hs (modPool_ends hs)
theorem waitOp_ends {a h addr k hint} (hs : Ends s₀ s) : Ends s₀ (waitOp s a h addr k hint) := .ite (waitTile_ends hs) hs
theorem postWrite_ends {a h hint addr bs ps} (hs : Ends s₀ s) : Ends s₀ (postWrite s a h hint addr bs ps) :=
  getD_ends (fun _ => devWrite_ends hs) (waitTile_ends hs)
theorem dropFill_ends {m} (hs : Ends s₀ s) : Ends s₀ (dropFill m s) := .ite hs (.update hs)
theorem dropAccesses_ends {p} (hs : Ends s₀ s) : Ends s₀ (dropAccesses s p) := forEach_ends (fun _ _ => modPool_ends) hs

/-! ### Windows (13, R331) -/

theorem phaseEntry_ends {h start tag agent kind} (hs : Ends s₀ s) : Ends s₀ (phaseEntry s h start tag agent kind) :=
  .ite (postWrite_ends (modNet_ends hs)) (.unless (modNet_ends hs) fun h1 => raise_ends (modRun_ends h1))
theorem endTilePhase_ends {t} (hs : Ends s₀ s) : Ends s₀ (endTilePhase s t) := by
  unfold endTilePhase
  split
  · exact phaseEntry_ends (modTile_ends hs)
  · exact hs
theorem endItemWindow_ends {q h i} (hs : Ends s₀ s) : Ends s₀ (endItemWindow s q h i) :=
  .maybe hs fun h1 => phaseEntry_ends (modItem_ends h1)
theorem dropActive_ends {p h} (hs : Ends s₀ s) : Ends s₀ (dropActive s p h) := by
  unfold dropActive
  split
  · exact phaseEntry_ends (modPort_ends hs)
  · exact hs
theorem endWindows_ends {h} (hs : Ends s₀ s) : Ends s₀ (endWindows s h) := by
  unfold endWindows
  refine forEach_ends (fun _ _ hu => dropActive_ends (forEach_ends (fun _ _ hv => ?_) hu))
    (.update (forEach_ends (fun _ _ hu => forEach_ends (fun _ _ => endItemWindow_ends) hu) (forEach_ends (fun _ _ => endTilePhase_ends) hs)))
  split
  · exact .ite (phaseEntry_ends hv) hv
  · exact hv

/-! ### Increments and owners (11, R264, R268, R273) -/

theorem bookIssue_ends {h amt remote} (hs : Ends s₀ s) : Ends s₀ (bookIssue s h amt remote) := modNet_ends hs
theorem bookDone_ends {h amt remote} (hs : Ends s₀ s) : Ends s₀ (bookDone s h amt remote) := modNet_ends hs
theorem fixWaits_ends {c o ok} (hs : Ends s₀ s) : Ends s₀ (fixWaits s c o ok) := by
  refine hs.trans ⟨rfl, rfl, rfl, rfl, rfl, rfl, rfl, rfl, rfl, fun h => ?_, fun _ => rfl, fun _ => rfl, fun _ => id⟩
  unfold fixWaits hearthAt vget
  dsimp only
  rw [Vector.getElem?_map]
  cases s.hearths[h]? <;> rfl
theorem applyInc_ends {c amt} (hs : Ends s₀ s) : Ends s₀ (applyInc s c amt) := by
  unfold applyInc
  exact fixWaits_ends (.maybe (.ite hs (modCtr_ends hs)) raise_ends)
theorem loseOwner_ends {c} (hs : Ends s₀ s) : Ends s₀ (loseOwner s c) :=
  .ite hs (raise_ends (fixWaits_ends (modCtr_ends hs (fun _ => rfl) fun _ _ => rfl)))
theorem ownerGone_ends {code} (hs : Ends s₀ s) : Ends s₀ (ownerGone s code) := forEach_ends (fun _ _ => loseOwner_ends) hs
theorem hearthOwnersGone_ends {h} (hs : Ends s₀ s) : Ends s₀ (hearthOwnersGone s h) := forEach_ends (fun _ _ => loseOwner_ends) hs

/-! ### Frames (12, R290, R302) -/

theorem rxRaise_ends {code dev arg0 detail h space} (hs : Ends s₀ s) : Ends s₀ (rxRaise s code dev arg0 detail h space) :=
  .of_only hs (rxRaise_only s _ _ _ _ _ _)
theorem launch_ends {f} (hs : Ends s₀ s) : Ends s₀ (launch s f) := .of_only hs (launch_only s f)
theorem emit_ends {o} (hs : Ends s₀ s) : Ends s₀ (emit s o) := .update hs
theorem modSess_ends {dev f} (hs : Ends s₀ s) : Ends s₀ (modSess s dev f) := .update hs
theorem bindReq_ends {t core grp dev fnum} (hs : Ends s₀ s) : Ends s₀ (bindReq s t core grp dev fnum) := modTile_ends hs
theorem enterSend_ends {e} (hs : Ends s₀ s) : Ends s₀ (enterSend s e) := by
  unfold enterSend
  split
  · exact hs
  · refine launch_ends ?_
    split
    · exact bindReq_ends (.update (modSess_ends hs))
    · exact .update (modSess_ends hs)
theorem drained_ends {t} (hs : Ends s₀ s) : Ends s₀ (drained s t) := .ite (zeroRange_ends (modBlw_ends hs)) hs
theorem removeReq_ends {t i} (hs : Ends s₀ s) : Ends s₀ (removeReq s t i) := by
  unfold removeReq
  split
  · exact hs
  · dsimp only
    split
    · refine .ite (drained_ends (modBlw_ends hs)) ?_
      split
      · exact drained_ends (modBlw_ends hs)
      · exact .ite (drained_ends (modHearth_ends (modBlw_ends hs))) (modBlw_ends hs)
    · exact drained_ends (modBlw_ends hs)
theorem dropMcst_ends {h t off k} (hs : Ends s₀ s) : Ends s₀ (dropMcst s h t off k) := forEach_ends (fun _ _ => modBlw_ends) hs
theorem deliver_ends {h t r off bs ps} (hs : Ends s₀ s) (d : deliver s h t r off bs ps = some n) : Ends s₀ n := by
  unfold deliver at d
  split at d
  · refine devWrite_ends ?_ d
    split
    · exact dropMcst_ends hs
    · exact hs
  · cases d; exact forEach_ends (fun _ _ hu => store_ends (dropMcst_ends hu)) hs
  · cases d; exact modBlw_ends hs
  · cases d; exact hs
theorem delivered_ends {h t r off bs ps} (hs : Ends s₀ s) : Ends s₀ ((deliver s h t r off bs ps).getD s) :=
  getD_ends (fun _ => deliver_ends hs) hs
theorem reqFail_ends {t core grp fnum dev} (hs : Ends s₀ s) : Ends s₀ (reqFail s t core grp fnum dev) := by
  unfold reqFail
  split
  · refine removeReq_ends ?_
    dsimp only
    split
    · refine .ite hs ?_
      split
      · exact postWrite_ends hs
      · exact delivered_ends hs
    · exact hs
  · exact removeReq_ends hs
  · exact hs
theorem entryFail_ends {e} (hs : Ends s₀ s) : Ends s₀ (entryFail s e) := by
  unfold entryFail
  split
  · exact reqFail_ends hs
  · exact bookDone_ends hs
  · exact .maybe (modRun_ends hs) bookDone_ends
  · exact hs
theorem sendFrame_ends {e} (hs : Ends s₀ s) : Ends s₀ (sendFrame s e) :=
  .ite (rxRaise_ends (entryFail_ends hs)) (.ite (enterSend_ends hs) (.update (.ite hs (emit_ends hs))))
theorem issueRemoteUse_ends {h agent dev ctr amt use} (hs : Ends s₀ s) : Ends s₀ (issueRemoteUse s h agent dev ctr amt use) :=
  sendFrame_ends (bookIssue_ends hs)
theorem sendWrite_ends {agent h dev addr bs poison use} (hs : Ends s₀ s) : Ends s₀ (sendWrite s agent h dev addr bs poison use) :=
  sendFrame_ends hs

/-! ### Requests in flight (10, R226) -/

theorem reqBytes_ends {h r e x} (hs : Ends s₀ s) (read : reqBytes s h r e = some x) : Ends s₀ x.1 := by
  unfold reqBytes at read
  split at read
  · cases read; exact hs
  · split at read
    · cases read; exact hs
    · obtain ⟨u, hu, rfl⟩ := Option.map_eq_some_iff.1 read
      have h := devRead_ends hs hu
      exact h
theorem noteMcst_ends {t r} (hs : Ends s₀ s) : Ends s₀ (noteMcst s t r) := by
  unfold noteMcst
  split
  · exact modBlw_ends hs
  · exact hs
theorem requestCommit_ends {t i e} (hs : Ends s₀ s) : Ends s₀ (requestCommit s t i e) := by
  unfold requestCommit
  split
  · refine .ite hs ?_
    split
    · exact waitOp_ends hs
    · next read =>
      have hu := reqBytes_ends hs read
      split
      · exact .ite (sendWrite_ends (modBlw_ends hu)) hs
      · split
        · next d => exact removeReq_ends (noteMcst_ends (deliver_ends hu d))
        · split
          · exact waitOp_ends hs
          · exact hs
  · exact hs
theorem forceReq_ends {t i} (hs : Ends s₀ s) : Ends s₀ (forceReq s t i) := by
  unfold forceReq
  split
  · refine .ite hs ?_
    dsimp only
    split
    · exact sendWrite_ends (modBlw_ends hs)
    · exact removeReq_ends (store_ends hs)
    · exact removeReq_ends (delivered_ends hs)
  · exact hs
theorem commitAll_ends {t} (hs : Ends s₀ s) : Ends s₀ (commitAll s t) :=
  forEach_ends (fun _ _ hu => forEach_ends (fun _ _ => requestCommit_ends) hu) hs
theorem quiesce_ends {t warm} (hs : Ends s₀ s) : Ends s₀ (quiesce s t warm) :=
  .unless (.unless (modBlw_ends (commitAll_ends hs)) fun h1 => modBlw_ends
    (forEach_ends (fun _ _ hu => forEach_ends (fun _ _ => forceReq_ends) hu) h1)) modBlw_ends

end Sys2Proof.Machine
end

section
/-! What the end of an epoch, of a session, of a unit's work and of the device's leaves of the state (11, R268; 12, R302; 15, R362 to
R367; 19, R457, R459). -/

namespace Sys2Proof.Machine

variable {s₀ s n : State}

/-! ### Retracted epochs (15, R362 to R367) -/

theorem setCs_ends {t st} (hs : Ends s₀ s) : Ends s₀ (setCs s t st) := modTile_ends hs
theorem stopStream_ends {t} (hs : Ends s₀ s) : Ends s₀ (stopStream s t) := .ite (modTile_ends (setCs_ends hs)) hs
theorem setFault_ends {t space v} (hs : Ends s₀ s) : Ends s₀ (setFault s t space v) := modTile_ends hs
theorem stopHearth_ends {h chk} (hs : Ends s₀ s) : Ends s₀ (stopHearth s h chk) := by
  unfold stopHearth
  refine forEach_ends (fun _ _ hu => .ite (stopStream_ends ?_) hu) hs
  split
  · exact setFault_ends hu
  · exact hu
theorem endCause_ends {h cause} (hs : Ends s₀ s) : Ends s₀ (endCause s h cause) := modHearth_ends hs
theorem dropRefetch_ends {h p} (hs : Ends s₀ s) : Ends s₀ (dropRefetch s h p) := .update hs
theorem quenchStop_ends {p h} (hs : Ends s₀ s) : Ends s₀ (quenchStop s p h) := modPort_ends hs
theorem endItems_ends {h p outcome detail esq} (hs : Ends s₀ s) : Ends s₀ (endItems s h p outcome detail esq) :=
  forEach_ends (fun _ _ hu => modQueue_ends hu) hs
theorem collFailed_ends {p h idx} (hs : Ends s₀ s) : Ends s₀ (collFailed s p h idx) := forEach_ends (fun _ _ hu => modQueue_ends hu) hs
theorem becomeRetracted_ends {h trig} (hs : Ends s₀ s) : Ends s₀ (becomeRetracted s h trig) := by
  unfold becomeRetracted
  refine forEach_ends (fun _ _ => modTile_ends) (forEach_ends (fun _ u hu => ?_) (endItems_ends (stopHearth_ends (endCause_ends
    (dropRefetch_ends (modRun_ends (modChk_ends (modChk_ends hs))))))))
  have dropped {c : Prop} [Decidable c] {p k} : Ends s₀ (if c then dropActive (collFailed u p h k) p h else u) :=
    .maybe hu fun h1 => dropActive_ends (collFailed_ends h1)
  dsimp only
  split
  · refine .maybe ?_ quenchStop_ends
    split <;> [exact dropped; exact hu]
  · split <;> [exact dropped; exact hu]
theorem noticeNext_ends {h rank} (hs : Ends s₀ s) : Ends s₀ (noticeNext s h rank) := by
  unfold noticeNext
  refine .ite hs ?_
  split
  · exact hs
  · exact issueRemoteUse_ends (sendWrite_ends (modRun_ends hs))
theorem postNotice_ends {h kind trig} (hs : Ends s₀ s) : Ends s₀ (postNotice s h kind trig) := by
  unfold postNotice
  split
  · exact .ite (forEach_ends (fun _ _ hu => noticeNext_ends (modRun_ends hu)) hs) hs
  · exact hs
theorem retractEpoch_ends {h trig} (hs : Ends s₀ s) : Ends s₀ (retractEpoch s h trig) :=
  .ite (postNotice_ends (raise_ends (modChk_ends (becomeRetracted_ends hs)))) hs
theorem dropRecovery_ends {h g} (hs : Ends s₀ s) : Ends s₀ (dropRecovery s h g) :=
  .maybe (dropRefetch_ends (modRun_ends hs)) endCause_ends
theorem refetchFail_ends {h g} (hs : Ends s₀ s) : Ends s₀ (refetchFail s h g) :=
  .ite hs (retractEpoch_ends (dropRecovery_ends (forEach_ends (fun _ _ => raise_ends) hs)))

/-! ### Sessions (11, R268; 12, R302) -/

theorem itemEnd_ends {q seq outcome detail} (hs : Ends s₀ s) : Ends s₀ (itemEnd s q seq outcome detail) := modItem_ends hs
theorem itemFrameFail_ends {q seq remote} (hs : Ends s₀ s) : Ends s₀ (itemFrameFail s q seq remote) := by
  unfold itemFrameFail
  split
  · exact itemEnd_ends hs
  · exact hs
theorem entryLost_ends {code status e} (hs : Ends s₀ s) : Ends s₀ (entryLost s code status e) := by
  have recorded : Ends s₀ (if e.frame.ftype = fWRITE ∨ e.frame.ftype = fREAD then lostRecord (entryFail s e) code status e
      else entryFail s e) := .maybe (entryFail_ends hs) raise_ends
  unfold entryLost
  dsimp only
  split
  · exact refetchFail_ends recorded
  · exact itemFrameFail_ends recorded
  · exact recorded
theorem colStop_ends {p h code dseq group arg0 arg1} (hs : Ends s₀ s) : Ends s₀ (colStop s p h code dseq group arg0 arg1) :=
  raise_ends (modPort_ends (collFailed_ends hs))
theorem cyclesLost_ends {p h code g a arg} (hs : Ends s₀ s) : Ends s₀ (cyclesLost s p h code g a arg) :=
  forEach_ends (fun _ _ => raise_ends) hs
theorem colPeerLost_ends {dev} (hs : Ends s₀ s) : Ends s₀ (colPeerLost s dev) := by
  unfold colPeerLost
  refine forEach_ends (fun _ _ hu => forEach_ends (fun _ _ hv => ?_) hu) hs
  split
  · dsimp only
    split
    · exact .ite hv (retractEpoch_ends (cyclesLost_ends (colStop_ends hv)))
    · exact hv
  · exact hv
theorem freeCr_ends {p ch k} (hs : Ends s₀ s) : Ends s₀ (freeCr s p ch k) := modPort_ends hs
theorem dropPend_ends {x} (hs : Ends s₀ s) : Ends s₀ (dropPend s x) := by
  unfold dropPend
  refine forEach_ends (fun _ _ hu => forEach_ends (fun _ _ hv => ?_) hu) hs
  dsimp only
  split
  · exact modNet_ends (freeCr_ends hv)
  · exact freeCr_ends hv
theorem endSession_ends {dev} (hs : Ends s₀ s) : Ends s₀ (endSession s dev) := by
  have freed {u : State} (hu : Ends s₀ u) : Ends s₀ (forEach (List.range 12) u (fun p s =>
      forEach ((portAt s p).held.filter (fun f => f.sdev == dev)) s (fun f s =>
        freeRx (modPort s p (fun x => { x with held := x.held.erase f })) p f))) :=
    forEach_ends (fun _ _ hv => forEach_ends (fun _ _ hw => freeCr_ends (modPort_ends hw)) hv) hu
  unfold endSession
  refine colPeerLost_ends (ownerGone_ends (forEach_ends (fun _ _ => entryLost_ends) ?_))
  dsimp only
  split
  · exact .update (freed (dropPend_ends hs))
  · exact .update (freed hs)

/-! ### The work of the device (19, R459) -/

theorem commitWaiting_ends (hs : Ends s₀ s) : Ends s₀ (commitWaiting s) :=
  forEach_ends (fun _ _ hu => forEach_ends (fun _ _ => store_ends) hu) hs
theorem writePools_ends (hs : Ends s₀ s) : Ends s₀ (writePools s) :=
  forEach_ends (fun _ _ hu => modPool_ends (forEach_ends (fun _ _ hv => dropFill_ends (mtlStat_ends hv)) hu)) hs
theorem endWork_ends (hs : Ends s₀ s) : Ends s₀ (endWork s) := by
  unfold endWork
  refine writePools_ends (commitWaiting_ends (forEach_ends (fun _ _ => loseOwner_ends) (forEach_ends (fun _ _ => entryFail_ends)
    (forEach_ends (fun _ _ => endSession_ends) (forEach_ends (fun _ _ hu => applyInc_ends ?_)
    (.update (forEach_ends (fun _ _ => quiesce_ends) (forEach_ends (fun _ _ => endWindows_ends) hs))))))))
  split
  · exact bookDone_ends hu
  · exact hu
theorem mbxOutcome_ends {code} (hs : Ends s₀ s) : Ends s₀ (mbxOutcome s code) := by
  unfold mbxOutcome
  split
  · exact hs.trans ⟨rfl, rfl, rfl, rfl, rfl, rfl, rfl, rfl, rfl, fun _ => rfl, fun _ => rfl, fun _ => rfl, fun _ => id⟩
  · exact hs

/-! ### Units that start and stop (09, R198; 10, R226; 12, Table 12-9; 19, R457) -/

theorem temperTile_ends {t} (hs : Ends s₀ s) : Ends s₀ (temperTile s t) := by
  have noted {f : Power → Power} (hf : (f s.pwr).fn = s.pwr.fn) (hb : (f s.pwr).booted = s.pwr.booted) := modPwr_ends hs hf hb
  unfold temperTile
  dsimp only
  split
  · exact noted rfl rfl
  · exact modTile_ends (noted rfl rfl)
theorem resetTile_ends {t warm} (hs : Ends s₀ s) : Ends s₀ (resetTile s t warm) :=
  temperTile_ends (.unless (modTile_ends (dropAccesses_ends (ownerGone_ends (quiesce_ends (endTilePhase_ends hs))))) zeroRange_ends)
theorem resetHob_ends {c} (hs : Ends s₀ s) : Ends s₀ (resetHob s c) :=
  Ends.trans (forEach_ends (fun _ _ => modPool_ends) (dropAccesses_ends (ownerGone_ends hs)))
    ⟨rfl, rfl, rfl, rfl, rfl, rfl, rfl, rfl, rfl, fun _ => rfl, fun _ => rfl, fun _ => rfl, fun _ => id⟩
theorem setPort_ends {p st} (hs : Ends s₀ s) : Ends s₀ (setPort s p st) := modPort_ends hs
theorem portEnable_ends {p} (hs : Ends s₀ s) : Ends s₀ (portEnable s p) := .ite (setPort_ends hs) hs
theorem startWork_ends {f} (hs : Ends s₀ s) : Ends s₀ (startWork s f) :=
  .ite (resetTile_ends hs) (.ite (resetHob_ends hs) (.ite (portEnable_ends hs) (.ite (.update hs) hs)))

theorem haltTile_ends {t} (hs : Ends s₀ s) : Ends s₀ (haltTile s t) := modTile_ends (.ite (modTile_ends (setCs_ends hs)) hs)
theorem stopItem_ends {q i} (hs : Ends s₀ s) : Ends s₀ (stopItem s q i) :=
  .ite (forEach_ends (fun _ _ hu => modTile_ends (stopStream_ends hu)) hs)
    (.ite (modPort_ends (.ite (quenchStop_ends (dropActive_ends hs)) hs)) (.update hs))
theorem hobItems_ends {c} (hs : Ends s₀ s) : Ends s₀ (hobItems s c) :=
  forEach_ends (fun _ _ hu => .ite (forEach_ends (fun _ _ hv => forEach_ends
    (fun _ _ hw => .ite (modItem_ends (endItemWindow_ends (stopItem_ends hw)))
      (raise_ends (modItem_ends (endItemWindow_ends (stopItem_ends hw))))) hv) hu) hu) hs
theorem putOut_ends {p grp f} (hs : Ends s₀ s) : Ends s₀ (putOut s p grp f) := .of_only hs (putOut_only s p grp f)
theorem noRoute_ends {p f} (hs : Ends s₀ s) : Ends s₀ (noRoute s p f) := rxRaise_ends (modPort_ends hs)
theorem reroute_ends {p} (hs : Ends s₀ s) : Ends s₀ (reroute s p) := by
  unfold reroute
  refine forEach_ends (fun _ _ hu => ?_) (modPort_ends hs)
  dsimp only
  split
  · exact putOut_ends hu
  · exact .ite (noRoute_ends hu) (putOut_ends hu)
  · exact noRoute_ends hu
theorem portDisable_ends {p} (hs : Ends s₀ s) : Ends s₀ (portDisable s p) :=
  .ite (reroute_ends (ownerGone_ends (setPort_ends hs))) (.ite (setPort_ends hs) hs)
theorem temperFns_ends (hs : Ends s₀ s) : Ends s₀ (temperFns s) := forEach_ends (fun _ _ hu => .update hu) hs
theorem linkDown_ends (hs : Ends s₀ s) : Ends s₀ (linkDown s) := by
  have reset {u : State} {hif mbx} (hu : Ends s₀ u) : Ends s₀ { u with hif := hif, tmp := { u.tmp with mbx := mbx } } :=
    hu.trans ⟨rfl, rfl, rfl, rfl, rfl, rfl, rfl, rfl, rfl, fun _ => rfl, fun _ => rfl, fun _ => rfl, fun _ => id⟩
  exact .ite hs (raise_ends (temperFns_ends (reset (forEach_ends (fun _ _ => ownerGone_ends) hs))))
theorem stopWork_ends {f} (hs : Ends s₀ s) : Ends s₀ (stopWork s f) :=
  .ite (haltTile_ends hs) (.ite (.update (hobItems_ends (ownerGone_ends hs))) (.ite (portDisable_ends hs) (.ite (linkDown_ends hs) hs)))

end Sys2Proof.Machine
end

section
/-! The states of the functions (19, R457, Table 19-6). -/

namespace Sys2Proof.Machine

variable {s n : State}

theorem fnSt_congr (h : n.pwr.fn = s.pwr.fn) (f : Nat) : fnSt n f = fnSt s f := by rw [fnSt, h]; rfl

theorem fnSt_setFn (s : State) (f : Fin 76) (st : Nat) : fnSt (setFn s f.val st) f.val = st % 8 := by
  have changed : vget (setFn s f.val st).pwr.fn f.val 0 = setFld (vget s.pwr.fn f.val 0) 2 0 st := vget_vmod_self _ _ _ _ f.isLt
  rw [fnSt, changed]
  exact fld_setFld _ _ _ _ (by decide)

section
variable {f : Fin 76}

/-- An enable that is not dropped moves its function on, and what the start does leaves the states of the functions (19, R457). -/
theorem functionEnable_state (goes : enableDropped s f.val = false) :
    fnSt (functionEnable s f.val) f.val = afterEnable (fnSt s f.val) % 8 := by
  have enabled : fnSt (enableFn (noteEnable s f.val) f.val) f.val = afterEnable (fnSt s f.val) % 8 := fnSt_setFn _ f _
  rw [functionEnable, if_neg (by simp [goes]), startFn]
  split
  · exact (fnSt_congr (startWork_ends (.refl _)).fn _).trans enabled
  · exact enabled

theorem functionDisable_state : fnSt (functionDisable s f.val) f.val = afterDisable (fnBefore s f.val) % 8 := by
  have disabled : fnSt (disableFn s f.val) f.val = afterDisable (fnBefore s f.val) % 8 := fnSt_setFn _ f _
  rw [functionDisable]
  split
  · exact (fnSt_congr (stopWork_ends (.refl _)).fn _).trans disabled
  · exact disabled

theorem functionStarted_state (starts : fnSt s f.val = 1) (ready : startReady s f.val = true) :
    fnSt (functionStarted s f.val) f.val = 2 := by
  have on : fnSt (setFn s f.val fON) f.val = 2 := fnSt_setFn _ f _
  rw [functionStarted, if_pos (by simp [starts, ready, fSTARTING])]
  dsimp only
  split
  · exact on
  · split <;> exact on

theorem functionStopped_state (ready : stopReady s f.val = true) (stops : fnSt s f.val = 3 ∨ fnSt s f.val = 4) :
    fnSt (functionStopped s f.val) f.val = afterShutdown (fnSt s f.val) % 8 := by
  have down : fnSt (setFn s f.val (afterShutdown (fnSt s f.val))) f.val = afterShutdown (fnSt s f.val) % 8 := fnSt_setFn _ f _
  have noted : fnSt (if f.val = 73 then modLgr (setFn s f.val (afterShutdown (fnSt s f.val))) (fun l => { l with dev := setFld l.dev 1 0 0 })
      else setFn s f.val (afterShutdown (fnSt s f.val))) f.val = afterShutdown (fnSt s f.val) % 8 := by
    split <;> exact down
  rw [functionStopped]
  dsimp only
  rw [if_pos ⟨stops, ready⟩]
  split
  · exact (fnSt_congr (startWork_ends (.refl _)).fn _).trans noted
  · exact noted

/-! ### A start that fails (19, R457) -/

/-- The register of a function whose start has failed. -/
def failedFn (r : Reg) : Reg := setFld (bumpSat (setFld r 2 0 fFAILED) 63 48 1) 15 8 8

theorem failFn_shows (s : State) (f : Fin 76) : vget (failFn s f.val).pwr.fn f.val 0 = failedFn (vget s.pwr.fn f.val 0) ∧
    Recorded s (failFn s f.val) 0 0x10 8 f.val := by
  have only := fun u => raise_only u gPWR 8 f.val none 0 0 0 0 false
  have record := fun u => raise_recorded u gPWR 8 f.val none 0 0 0 0
  have pwr := fun u => only u .pwr (by decide)
  have small : f.val % 256 = f.val := Nat.mod_eq_of_lt (by omega)
  refine ⟨?_, ?_⟩
  · refine (congrArg (fun p : Power => vget p.fn f.val 0) (pwr _)).trans ?_
    exact (vget_vmod_self _ _ _ _ f.isLt).trans (congrArg (fun r => setFld (bumpSat r 63 48 1) 15 8 8) (vget_vmod_self _ _ _ _ f.isLt))
  · rw [small] at record
    exact recorded_congr (record _) rfl

theorem failedFn_state (r : Reg) : fld (failedFn r) 2 0 = 5 := by
  rw [failedFn, fld_setFld_apart _ _ _ _ _ _ (by decide) (by decide), bumpSat, fld_setFld_apart _ _ _ _ _ _ (by decide) (by decide),
    fld_setFld _ _ _ _ (by decide)]
  rfl
theorem failedFn_fails (r : Reg) : fld (failedFn r) 63 48 = min 65535 (fld r 63 48 + 1) := by
  rw [failedFn, fld_setFld_apart _ _ _ _ _ _ (by decide) (by decide), fld_bumpSat (by decide),
    fld_setFld_apart _ _ _ _ _ _ (by decide) (by decide)]
  rfl

theorem bootStops_leaves (s : State) (k : Nat) : (bootStops s k).pwr = { s.pwr with bootStop := some k } ∧ LogGrows s (bootStops s k) ∧
    Recorded s (bootStops s k) 0 0x10 9 (k % 256) := by
  have raised := fun u => raise_extends u gPWR 9 k none 0 0 0 0
  exact ⟨(raised _).only .pwr (by decide), (raised (modPwr s (fun p => { p with bootStop := some k }))).log,
    recorded_congr (raise_recorded (modPwr s (fun p => { p with bootStop := some k })) gPWR 9 k none 0 0 0 0) rfl⟩

theorem functionFails_shows (starts : fnSt s f.val = 1) : fnSt (functionFails s f.val) f.val = 5 ∧
    Recorded s (functionFails s f.val) 0 0x10 8 f.val ∧
    fld (vget (functionFails s f.val).pwr.fn f.val 0) 63 48 = min 65535 (fld (vget s.pwr.fn f.val 0) 63 48 + 1) := by
  obtain ⟨reg, record⟩ := failFn_shows s f
  have failed (u : State) (fn : u.pwr.fn = (failFn s f.val).pwr.fn) (grows : LogGrows (failFn s f.val) u) : fnSt u f.val = 5 ∧
      Recorded s u 0 0x10 8 f.val ∧ fld (vget u.pwr.fn f.val 0) 63 48 = min 65535 (fld (vget s.pwr.fn f.val 0) 63 48 + 1) := by
    refine ⟨?_, recorded_grows record grows, ?_⟩
    · rw [fnSt, fn, reg, failedFn_state]
    · rw [fn, reg, failedFn_fails]
  have e : functionFails s f.val = _ := if_pos starts
  rw [e]
  dsimp only
  split
  · split
    · next k _ =>
      obtain ⟨pwr, log, -⟩ := bootStops_leaves (failFn s f.val) k
      exact failed _ (congrArg (·.fn) pwr) log
    · exact failed _ rfl fun _ => id
  · exact failed _ rfl fun _ => id
end

/-- The states that the commands of a function move it to (19, Table 19-6). -/
theorem functions_move (s : State) (f : Fin 76) :
    let st := fnSt s f.val
    let moves := fun (c : Instr) (v : Nat) => ∃ n, exec c s = .next n ∧ fnSt n f.val = v
    let was := fnBefore s f.val
    (enableDropped s f.val = true → exec (.functionEnable f) s = .next s) ∧
      (enableDropped s f.val = false → (st = 0 ∨ st = 5 → moves (.functionEnable f) 1) ∧ (st = 3 → moves (.functionEnable f) 4) ∧
        (st = 1 ∨ st = 2 ∨ st = 4 → moves (.functionEnable f) st)) ∧
      ((was = 1 ∨ was = 2 ∨ was = 4) → moves (.functionDisable f) 3) ∧ (was = 5 → moves (.functionDisable f) 0) ∧
      ((was = 0 ∨ was = 3) → moves (.functionDisable f) was) ∧
      (st = 1 → startReady s f.val = true → moves (.functionStartComplete f) 2) ∧
      (st = 1 → ∃ n, exec (.pwrFnfail f) s = .next n ∧ fnSt n f.val = 5 ∧ Recorded s n 0 0x10 8 f.val ∧
        fld (vget n.pwr.fn f.val 0) 63 48 = min 65535 (fld (vget s.pwr.fn f.val 0) 63 48 + 1)) ∧
      (stopReady s f.val = true → (st = 3 → moves (.functionShutdownComplete f) 0) ∧ (st = 4 → moves (.functionShutdownComplete f) 1)) := by
  have enable (goes) {v : Nat} (hv : afterEnable (fnSt s f.val) % 8 = v) : ∃ n, exec (.functionEnable f) s = .next n ∧ fnSt n f.val = v :=
    ⟨_, rfl, (functionEnable_state goes).trans hv⟩
  have disable {v : Nat} (hv : afterDisable (fnBefore s f.val) % 8 = v) : ∃ n, exec (.functionDisable f) s = .next n ∧ fnSt n f.val = v :=
    ⟨_, rfl, functionDisable_state.trans hv⟩
  have shutdown (ready) (stops) {v : Nat} (hv : afterShutdown (fnSt s f.val) % 8 = v) :
      ∃ n, exec (.functionShutdownComplete f) s = .next n ∧ fnSt n f.val = v := ⟨_, rfl, (functionStopped_state ready stops).trans hv⟩
  dsimp only
  refine ⟨fun dropped => ?_, fun goes => ⟨?_, fun e => ?_, ?_⟩, ?_, fun e => ?_, ?_, fun e ready => ⟨_, rfl, functionStarted_state e ready⟩,
    fun e => ⟨_, rfl, functionFails_shows e⟩, fun ready => ⟨fun e => ?_, fun e => ?_⟩⟩
  · exact congrArg Host.Outcome.next (if_pos dropped)
  · rintro (e | e) <;> exact enable goes (by rw [e]; rfl)
  · exact enable goes (by rw [e]; rfl)
  · rintro (e | e | e) <;> rw [e] <;> exact enable goes (by rw [e]; rfl)
  · rintro (e | e | e) <;> exact disable (by rw [e]; rfl)
  · exact disable (by rw [e]; rfl)
  · rintro (e | e) <;> rw [e] <;> exact disable (by rw [e]; rfl)
  · exact shutdown ready (.inl e) (by rw [e]; rfl)
  · exact shutdown ready (.inr e) (by rw [e]; rfl)

end Sys2Proof.Machine
end

section
/-! What the power manager and the configuration of a hearth write (17, R416; 19, R451 to R456): no step of the boot, no lock of a
hearth, no state of a queue and none of its items. -/

namespace Sys2Proof.Machine

-- Each proof is finished before the next: many short ones at once hold more threads than the check's memory has room for.
set_option Elab.async false

variable {s₀ s n : State} {α : Type}

/-- A fact that every turn of a loop keeps holds after the loop. -/
theorem forEach_inv {P : State → Prop} {l : List α} {f : α → State → State} (hf : ∀ x s, P s → P (f x s)) (hs : P s) :
    P (forEach l s f) := by
  unfold forEach
  exact List.foldlRecOn (motive := P) l _ hs fun u hu x _ => hf x u hu

/-- The parts that grants and the Temper-set registers of a hearth touch. -/
def tunedParts : List Part := [.pwr, .hearths, .queues, .fresh] ++ recParts

/-- Budgets and registers have been set between two states. -/
structure Tuned (s n : State) : Prop where
  only : Only tunedParts s n
  booted : n.pwr.booted = s.pwr.booted
  locked : ∀ h, (hearthAt n h).run.locked = (hearthAt s h).run.locked
  stat : ∀ q, (queueAt n q).stat = (queueAt s q).stat
  items : ∀ q, (queueAt n q).items = (queueAt s q).items

theorem Tuned.refl (s : State) : Tuned s s := ⟨.refl _ s, rfl, fun _ => rfl, fun _ => rfl, fun _ => rfl⟩
theorem Tuned.trans (h : Tuned s₀ s) (k : Tuned s n) : Tuned s₀ n :=
  ⟨h.only.trans k.only, k.booted.trans h.booted, fun j => (k.locked j).trans (h.locked j), fun q => (k.stat q).trans (h.stat q),
    fun q => (k.items q).trans (h.items q)⟩
theorem Tuned.ite {c : Prop} [Decidable c] (hs : Tuned s₀ s) (hn : Tuned s₀ n) : Tuned s₀ (if c then s else n) := by
  split <;> assumption
theorem forEach_tuned {f : α → State → State} {l : List α} (hf : ∀ x s, Tuned s₀ s → Tuned s₀ (f x s)) (h : Tuned s₀ s) :
    Tuned s₀ (forEach l s f) := forEach_inv hf h

theorem Tuned.of_only {ps : List Part} (h : Tuned s₀ s) (only : Only ps s n) (sub : ∀ p ∈ ps, p ∈ tunedParts := by decide)
    (apart : ∀ p ∈ [Part.pwr, .hearths, .queues], p ∉ ps := by decide) : Tuned s₀ n := by
  have pwr : n.pwr = s.pwr := only .pwr (apart _ (by decide))
  have hearths : n.hearths = s.hearths := only .hearths (apart _ (by decide))
  have queues : n.queues = s.queues := only .queues (apart _ (by decide))
  exact h.trans ⟨only.mono sub, congrArg (·.booted) pwr, fun h => by simp only [hearthAt, hearths],
    fun q => by simp only [queueAt, queues], fun q => by simp only [queueAt, queues]⟩
theorem modPwr_tuned {f : Power → Power} (hs : Tuned s₀ s) (hb : (f s.pwr).booted = s.pwr.booted := by rfl) : Tuned s₀ (modPwr s f) :=
  hs.trans ⟨(modPwr_only s f).mono (by decide), hb, fun _ => rfl, fun _ => rfl, fun _ => rfl⟩
theorem modHearth_tuned {h : Nat} {f : Hearth → Hearth} (hs : Tuned s₀ s)
    (hf : ∀ x, (f x).run.locked = x.run.locked := by intro x; rfl) : Tuned s₀ (modHearth s h f) := by
  refine hs.trans ⟨(modHearth_only s h f).mono (by decide), rfl, fun k => ?_, fun _ => rfl, fun _ => rfl⟩
  rw [hearthAt_modHearth]
  split
  · next e => rw [hf, e.1]
  · rfl
theorem modChk_tuned {h f} (hs : Tuned s₀ s) : Tuned s₀ (modChk s h f) := modHearth_tuned hs
theorem modQueue_tuned {q : Nat} {f : WorkQ → WorkQ} (hs : Tuned s₀ s) (hf : ∀ w, (f w).stat = w.stat := by intro w; rfl)
    (hi : ∀ w, (f w).items = w.items := by intro w; rfl) : Tuned s₀ (modQueue s q f) := by
  refine hs.trans ⟨(modQueue_only s q f).mono (by decide), rfl, fun _ => rfl, fun k => ?_, fun k => ?_⟩
  · rw [queueAt_modQueue]
    split
    · next e => rw [hf, e.1]
    · rfl
  · rw [queueAt_modQueue]
    split
    · next e => rw [hi, e.1]
    · rfl
theorem raise_tuned {space code detail h agent arg0 arg1 arg2 alt} (hs : Tuned s₀ s) :
    Tuned s₀ (raise s space code detail h agent arg0 arg1 arg2 alt) := .of_only hs (raise_only s _ _ _ _ _ _ _ _ _)
theorem draw_only (s : State) : Only [.fresh] s (draw s).2 := by
  intro p hp; cases p <;> simp_all [Part.same, draw]
theorem draw_tuned (hs : Tuned s₀ s) : Tuned s₀ (draw s).2 := .of_only hs (draw_only s)

/-! ### Budgets and grants (10, R245; 19, R451 to R456) -/

theorem setCause_tuned {h cause on} (hs : Tuned s₀ s) : Tuned s₀ (setCause s h cause on) := modHearth_tuned hs
theorem setHold_tuned {h st} (hs : Tuned s₀ s) : Tuned s₀ (setHold s h st) := modHearth_tuned hs
theorem breach_tuned {h cause tile agent} (hs : Tuned s₀ s) : Tuned s₀ (breach s h cause tile agent) := by
  have shown {u : State} {f : Hearth → Hearth} {c : Prop} [Decidable c] (hu : Tuned s₀ u)
      (hf : ∀ x, (f x).run.locked = x.run.locked) : Tuned s₀ (if c then raise (modHearth u h f) 0x08 cause 0 (some h) agent else modHearth u h f) :=
    .ite (raise_tuned (modHearth_tuned hu hf)) (modHearth_tuned hu hf)
  have held {u : State} (hu : Tuned s₀ u) : Tuned s₀ (if cause = cDUTY then u else
      if holdState (setCause u h cause true) h = 0 ∨ holdState (setCause u h cause true) h = 3 then setHold (setCause u h cause true) h 1
      else setCause u h cause true) :=
    .ite hu (.ite (setHold_tuned (setCause_tuned hu)) (setCause_tuned hu))
  unfold breach
  cases tile with
  | some t => exact held (shown hs fun _ => rfl)
  | none => exact held (shown (draw_tuned hs) fun _ => rfl)
theorem emergency_tuned {code detail} (hs : Tuned s₀ s) : Tuned s₀ (emergency s code detail) :=
  .ite (modPwr_tuned hs) (forEach_tuned (fun _ _ hu => .ite (breach_tuned hu) hu) (raise_tuned (modPwr_tuned hs)))
theorem budgetAlarms_tuned (hs : Tuned s₀ s) : Tuned s₀ (budgetAlarms s) := by
  have scaled : Tuned s₀ (if scaled s && decide (s.pwr.scaledFor ≠ some (basePower s, capNow s)) then
      raise (modPwr s (fun p => { p with scaledFor := some (basePower s, capNow s) })) 0x10 7 0 none 0 else s) :=
    .ite (raise_tuned (modPwr_tuned hs)) hs
  exact .ite (emergency_tuned scaled) scaled
theorem decideStep_tuned {t step em} (hs : Tuned s₀ s) : Tuned s₀ (decideStep s t step em) := modPwr_tuned hs
theorem takeGrants_tuned {gs} (hs : Tuned s₀ s) : Tuned s₀ (takeGrants s gs) := by
  unfold takeGrants
  refine forEach_tuned (fun _ _ hu => ?_) (modPwr_tuned hs)
  split
  · exact forEach_tuned (fun _ _ hv => .ite hv (decideStep_tuned hv)) (modChk_tuned hu)
  · exact modChk_tuned hu
theorem recompute_tuned (hs : Tuned s₀ s) : Tuned s₀ (recompute s) := by
  unfold recompute
  exact takeGrants_tuned (budgetAlarms_tuned hs)

/-! ### The registers that a configuration sets (17, R416) -/

theorem storeHearth_tuned {h o v} (hs : Tuned s₀ s) : Tuned s₀ (storeHearth s h o v) :=
  have kept {f : Hearth → Hearth} (hf : ∀ x, (f x).run.locked = x.run.locked := by intro x; rfl) : Tuned s₀ (modHearth s h f) :=
    modHearth_tuned hs hf
  .ite kept (.ite kept (.ite kept (.ite kept (.ite kept (.ite kept (.ite kept (.ite kept (.ite kept (.ite kept (.ite kept (.ite kept
    (.ite kept (.ite kept (.ite kept (.ite (.ite kept kept) (.ite kept (.ite kept (.ite kept (.ite kept (.ite kept (.ite kept (.ite kept
      (.ite kept hs)))))))))))))))))))))))

/-- The words with fields of type RWL are those of a hearth, of a queue and of a hearth's work (00, Table 00-5). -/
theorem rwlStored_tuned {l v en} (hs : Tuned s₀ s) (rwl : (maskLoc l).rwl ≠ []) : Tuned s₀ (storeLoc s l v en) := by
  cases l with
  | hearth h o => exact storeHearth_tuned hs
  | queue q o => exact modQueue_tuned hs (fun w => by split <;> [rfl; split <;> rfl]) (fun w => by split <;> [rfl; split <;> rfl])
  | hwork h o => exact modHearth_tuned hs
  | tile t o | blw t o | port p o | fpage f o =>
    refine absurd ?_ rwl
    simp only [maskLoc, maskTile, maskBlw, maskPort, maskPage]
    repeat' split
    all_goals rfl
  | dev o | ctr c o | plat o =>
    refine absurd ?_ rwl
    simp only [maskLoc]
    split <;> rfl
  | lgr o | rsvd | gap => exact absurd rfl rwl
theorem writeRwl_tuned {l v en} (hs : Tuned s₀ s) : Tuned s₀ (writeFields s l (maskLoc l).rwl [] v en) := by
  by_cases rwl : (maskLoc l).rwl = []
  · rw [rwl, writeFields_nil]
    exact hs
  · exact .ite hs (rwlStored_tuned hs rwl)
theorem temperRegs_tuned {h} (hs : Tuned s₀ s) : Tuned s₀ (temperRegs s h) := forEach_tuned (fun _ _ => writeRwl_tuned) hs
theorem temperHearth_tuned {h} (hs : Tuned s₀ s) : Tuned s₀ (temperHearth s h) := modHearth_tuned hs

end Sys2Proof.Machine
end

section
/-! The steps of a boot (19, R458, Table 19-8). -/

namespace Sys2Proof.Machine

variable {s₀ s n : State}

theorem bit_setBit_true {w : Nat} (x : BitVec w) {k : Nat} (hk : k < w) : bit (setBit x k true) k = true := by
  rw [setBit, bit, setFld_bit _ _ _ _ _ hk]
  simp

/-! ### The device's registers that follow the configuration (17, Table 17-12) -/

theorem temperPool_ends {half} (hs : Ends s₀ s) : Ends s₀ (temperPool s half) :=
  Ends.update (modPool_ends (forEach_ends (fun _ _ => dropFill_ends) (forEach_ends (fun _ _ => mtlStat_ends) hs)))
theorem temperDevice_ends (hs : Ends s₀ s) : Ends s₀ (temperDevice s) := by
  have pairs := forEach_ends (l := List.range 32) (f := fun p s => temperPair s p) (fun _ _ hu => Ends.update hu) hs
  have cubes := forEach_ends (l := List.range 12) (f := fun k s => modStk s k (fun r => setFld r 23 20 (stackFloor s k)))
    (fun _ _ hu => Ends.update hu) (temperPool_ends (half := 1) (temperPool_ends (half := 0) pairs))
  have capped {u : State} {v : Nat} (hu : Ends s₀ u) : Ends s₀ (modPwr u (fun p => { p with dev := setFld p.dev 15 0 v })) := modPwr_ends hu
  unfold temperDevice
  exact temperFns_ends (capped cubes)
theorem temperLink_ends (hs : Ends s₀ s) : Ends s₀ (temperLink s) := by
  unfold temperLink
  refine forEach_ends (fun _ _ hu => ?_) (.update hs)
  split
  · exact modPort_ends hu
  · exact hu

/-! ### The steps that have begun -/

theorem startFn_booted (s : State) (f : Nat) : (startFn s f).pwr.booted = s.pwr.booted := by
  rw [startFn]
  split
  · exact (startWork_ends (.refl _)).booted
  · rfl
theorem calCheck_booted (s : State) : (calCheck s).pwr.booted = s.pwr.booted := by
  unfold calCheck
  split
  · dsimp only
    split
    · exact (raise_ends (.refl _)).booted
    · rfl
  · rfl
theorem bootTemper_booted (s : State) : (bootTemper s).pwr.booted = s.pwr.booted := by
  let P : State → Prop := fun u => u.pwr.booted = s.pwr.booted
  have recorded {d : Cfg} {u : State} (hu : P u) :
      P (if d = {} then u else raise (setTmp u (fun t => { t with code := tCOMMIT })) 0x0E tCOMMIT 0 none 0 d.serDev) := by
    split
    · exact hu
    · exact (raise_ends (.refl _)).booted.trans hu
  have tuned {u n : State} (h : Tuned u n) (hu : P u) : P n := h.booted.trans hu
  have ended {u n : State} (h : Ends u n) (hu : P u) : P n := h.booted.trans hu
  unfold bootTemper
  refine tuned (recompute_tuned (.refl _)) (recorded (forEach_inv (P := P) ?hearth (forEach_inv (P := P) (fun _ _ hu => hu)
    (forEach_inv (P := P) ?tile (ended (temperLink_ends (temperDevice_ends (.refl _))) rfl)))))
  case hearth =>
    intro h u hu
    have regs : P (temperRegs (temperHearth u h) h) := tuned (temperRegs_tuned (temperHearth_tuned (.refl u))) hu
    split
    · exact regs
    · exact hu
  case tile =>
    intro t u hu
    have tile : P (temperTile u t) := ended (temperTile_ends (.refl u)) hu
    dsimp only
    split <;> exact tile

/-- The work of a step leaves which steps have begun. -/
theorem bootWork_booted (s : State) (k : Nat) : (bootWork s k).pwr.booted = s.pwr.booted := by
  have started : (forEach (bootFns s k) s (fun f s => startFn s f)).pwr.booted = s.pwr.booted :=
    forEach_inv (P := fun u => u.pwr.booted = s.pwr.booted) (fun f u hu => (startFn_booted u f).trans hu) rfl
  unfold bootWork
  generalize forEach (bootFns s k) s (fun f s => startFn s f) = u at started
  dsimp only
  split
  · exact (calCheck_booted u).trans started
  · exact started
  · exact forEach_inv (P := fun u => u.pwr.booted = s.pwr.booted) (fun _ _ hu => hu) started
  · exact (bootTemper_booted u).trans started
  · split
    · refine forEach_inv (P := fun u => u.pwr.booted = s.pwr.booted) (fun _ _ hu => ?_) started
      split <;> exact hu
    · exact (congrArg (·.booted) (bootStops_leaves u 11).1).trans started
  · exact started

/-- Step 7 clears deep memory and touches no other byte (09, R220; 19, Table 19-8). -/
theorem bootWork_clears (s : State) : (bootWork s 7).mem = zeroMem s.mem 0 deepTop := by
  have pools (u : State) : (forEach (List.range 2) u (fun i s => modPool s i (fun x => { x with tiles := [], waiting := [] }))).mem = u.mem :=
    forEach_inv (P := fun v => v.mem = u.mem) (fun _ _ hv => hv) rfl
  exact congrArg (zeroMem · 0 deepTop) (pools s)

/-! ### The command -/

theorem bootNext_range {k : Nat} (next : bootNext s = some k) : 1 ≤ k ∧ k ≤ 11 := by
  have mem := List.mem_of_find?_eq_some next
  simp only [List.mem_map, List.mem_range] at mem
  omega

/-- The state in which the work of a step starts: the step has begun. -/
def bootStarts (s : State) (k : Nat) : State :=
  modPwr (if s.pwr.warming.isSome then countReset (modPwr s (fun p => { p with warming := none })) 2 else s)
    (fun p => { p with booted := setBit p.booted k true })

theorem boot_next {k : Nat} (on : s.pwr.off = false) (goes : s.pwr.bootStop = none) (next : bootNext s = some k)
    (idle : k = 9 → s.tmp.st = .idle) :
    (boot s true).mem = (bootWork (bootStarts s k) k).mem ∧ (boot s true).pwr.booted = (bootWork (bootStarts s k) k).pwr.booted := by
  have e : boot s true = if k = 9 ∧ s.tmp.st ≠ .idle then s else
      if k = 11 ∧ (List.range 256).all (fun q => decide (qState (queueAt (bootWork (bootStarts s k) k) q) ≠ qRECOVERING))
      then modPwr (bootWork (bootStarts s k) k) (fun p => { p with bootWarm := false }) else bootWork (bootStarts s k) k := by
    simp only [boot, on, goes, next]
    rfl
  rw [e, if_neg fun h => h.2 (idle h.1)]
  split <;> exact ⟨rfl, rfl⟩

theorem boot_begins {k : Nat} (on : s.pwr.off = false) (goes : s.pwr.bootStop = none) (next : bootNext s = some k)
    (idle : k = 9 → s.tmp.st = .idle) :
    bootBegun (boot s true) k = true ∧ (k = 7 → (boot s true).mem = zeroMem s.mem 0 deepTop) := by
  obtain ⟨mem, booted⟩ := boot_next on goes next idle
  obtain ⟨-, high⟩ := bootNext_range next
  refine ⟨?_, fun e => ?_⟩
  · rw [bootBegun, booted, bootWork_booted]
    exact bit_setBit_true _ (by omega)
  · have same : (bootStarts s k).mem = s.mem := by
      rw [bootStarts]
      split <;> rfl
    rw [mem, e, bootWork_clears, ← e, same]

/-- A step that does not begin, with no other under way, ends the boot there (19, R458). -/
theorem boot_stops {k : Nat} (on : s.pwr.off = false) (goes : s.pwr.bootStop = none) (next : bootNext s = some k)
    (ended : ∀ j, 1 ≤ j → j ≤ 11 → bootBegun s j = true → bootEnded s j = true) : boot s false = bootStops s k := by
  have none : ((List.range 11).map (· + 1)).find? (fun n => bootBegun s n && !bootEnded s n) = none := by
    rw [List.find?_eq_none]
    intro j hj
    simp only [List.mem_map, List.mem_range] at hj
    have both := ended j (by omega) (by omega)
    simpa using both
  simp [boot, on, goes, none, next]

/-- The commands of a boot (19, R458, Table 19-8). -/
theorem boot_moves (s : State) (on : s.pwr.off = false) (goes : s.pwr.bootStop = none) :
    (∀ k, bootNext s = some k → (k = 9 → s.tmp.st = .idle) → ∃ n, exec (.boot true) s = .next n ∧ bootBegun n k = true ∧
        (k = 7 → n.mem = (zeroMem s.mem 0 deepTop))) ∧
      (∀ k, bootBegun s k = false → bootNext s = some k → (∀ j, 1 ≤ j → j ≤ 11 → bootBegun s j = true → bootEnded s j = true) →
        ∃ n, exec (.boot false) s = .next n ∧ n.pwr.bootStop = some k ∧ Recorded s n 0 0x10 9 k) := by
  refine ⟨fun k next idle => ⟨_, rfl, boot_begins on goes next idle⟩, fun k _ next ended => ⟨_, rfl, ?_⟩⟩
  obtain ⟨pwr, -, record⟩ := bootStops_leaves s k
  obtain ⟨-, high⟩ := bootNext_range next
  rw [Nat.mod_eq_of_lt (by omega)] at record
  rw [boot_stops on goes next ended]
  exact ⟨congrArg (·.bootStop) pwr, record⟩

end Sys2Proof.Machine
end

section
/-! The end of windows and of requests in flight does not depend on the records, on what has left the block, or on what the Stoker's
mailbox tells a host function (10, R226; 13, R331; 15, R374; 20, R471): from two states that differ in nothing else, it leads to two
such states. One rule for each operation, in the order of the model. -/

namespace Sys2Proof.Machine

-- Each proof is finished before the next: many short ones at once hold more threads than the check's memory has room for.
set_option Elab.async false

/-- The state with other records, interrupts, host functions, outputs and another mailbox. -/
def mailed (s : State) (recs : Records) (hobs : Vector Hob 16) (hif : HostIf) (out : List Output) (mbx : Option Nat) : State :=
  { s with recs := recs, hobs := hobs, hif := hif, out := out, tmp := { s.tmp with mbx := mbx } }

/-- The states differ in their records, in what has left the block and in the mailbox alone. -/
def Alike (s n : State) : Prop := ∃ recs hobs hif out mbx, n = mailed s recs hobs hif out mbx

variable {s n m : State} {α : Type}

theorem Alike.refl (s : State) : Alike s s := ⟨_, _, _, _, _, rfl⟩
theorem Alike.symm (h : Alike s n) : Alike n s := by
  obtain ⟨_, _, _, _, _, rfl⟩ := h
  exact ⟨s.recs, s.hobs, s.hif, s.out, s.tmp.mbx, rfl⟩
theorem Alike.trans (h : Alike s n) (k : Alike n m) : Alike s m := by
  obtain ⟨_, _, _, _, _, rfl⟩ := h
  obtain ⟨recs, hobs, hif, out, mbx, rfl⟩ := k
  exact ⟨recs, hobs, hif, out, mbx, rfl⟩

/-- What does not read those parts is the same in both. -/
theorem Alike.same {β : Type} (F : State → β) (h : Alike s n)
    (hF : ∀ recs hobs hif out mbx, F (mailed s recs hobs hif out mbx) = F s := by intros; rfl) : F n = F s := by
  obtain ⟨_, _, _, _, _, rfl⟩ := h
  exact hF _ _ _ _ _

/-- What a record touches does not count. -/
theorem alike_of_only (h : Only recParts s n) : Alike s n := by
  refine ⟨n.recs, n.hobs, n.hif, n.out, n.tmp.mbx, ?_⟩
  have pending := h .pending (by decide)
  have cyc := h .cyc (by decide)
  have anchors := h .anchors (by decide)
  have tiles := h .tiles (by decide)
  have hearths := h .hearths (by decide)
  have ports := h .ports (by decide)
  have queues := h .queues (by decide)
  have counters := h .counters (by decide)
  have flights := h .flights (by decide)
  have lnk := h .lnk (by decide)
  have tmp := h .tmp (by decide)
  have lgr := h .lgr (by decide)
  have mem := h .mem (by decide)
  have msys := h .msys (by decide)
  have stk := h .stk (by decide)
  have pwr := h .pwr (by decide)
  have fresh := h .fresh (by decide)
  simp only [Part.same] at *
  cases s
  cases n
  simp_all [mailed]

theorem Alike.ite {s' n' : State} {c : Prop} [Decidable c] (hs : Alike s n) (hn : Alike s' n') :
    Alike (if c then s else s') (if c then n else n') := by split <;> assumption
theorem foldl_alike {l : List α} {f : State → α → State} (hf : ∀ x s n, Alike s n → Alike (f s x) (f n x)) (h : Alike s n) :
    Alike (l.foldl f s) (l.foldl f n) := List.foldl_rel h fun x _ s n e => hf x s n e
theorem forEach_alike {l : List α} {f : α → State → State} (hf : ∀ x s n, Alike s n → Alike (f x s) (f x n)) (h : Alike s n) :
    Alike (forEach l s f) (forEach l n f) := foldl_alike (f := fun s x => f x s) hf h

/-- The states are alike and what is read in them is the same. -/
def AlikeWith (x y : State × α) : Prop := Alike x.1 y.1 ∧ x.2 = y.2

/-- The results of an access that may have to wait: both wait, or neither. -/
def AlikeOpt (o p : Option State) : Prop := Option.Rel Alike o p

theorem rel_map {β γ : Type} {r : β → β → Prop} {q : γ → γ → Prop} {o p : Option β} {f g : β → γ} (h : Option.Rel r o p)
    (k : ∀ x y, r x y → q (f x) (g y)) : Option.Rel q (o.map f) (p.map g) := by
  cases h with
  | some e => exact .some (k _ _ e)
  | none => exact .none
theorem AlikeOpt.getD {o p : Option State} (h : AlikeOpt o p) (k : Alike s n) : Alike (o.getD s) (p.getD n) := by
  cases h with
  | some e => exact e
  | none => exact k

/-! ### Units, queues, records -/

theorem modTile_alike {t f} (h : Alike s n) : Alike (modTile s t f) (modTile n t f) := by
  obtain ⟨_, _, _, _, _, rfl⟩ := h
  exact ⟨_, _, _, _, _, rfl⟩
theorem modBlw_alike {t f} (h : Alike s n) : Alike (modBlw s t f) (modBlw n t f) := modTile_alike h
theorem modHearth_alike {k f} (h : Alike s n) : Alike (modHearth s k f) (modHearth n k f) := by
  obtain ⟨_, _, _, _, _, rfl⟩ := h
  exact ⟨_, _, _, _, _, rfl⟩
theorem modNet_alike {k f} (h : Alike s n) : Alike (modNet s k f) (modNet n k f) := modHearth_alike h
theorem modRun_alike {k f} (h : Alike s n) : Alike (modRun s k f) (modRun n k f) := modHearth_alike h
theorem modPort_alike {p f} (h : Alike s n) : Alike (modPort s p f) (modPort n p f) := by
  obtain ⟨_, _, _, _, _, rfl⟩ := h
  exact ⟨_, _, _, _, _, rfl⟩
theorem modPool_alike {p f} (h : Alike s n) : Alike (modPool s p f) (modPool n p f) := by
  obtain ⟨_, _, _, _, _, rfl⟩ := h
  exact ⟨_, _, _, _, _, rfl⟩
theorem modItem_alike {q seq f} (h : Alike s n) : Alike (modItem s q seq f) (modItem n q seq f) := by
  obtain ⟨_, _, _, _, _, rfl⟩ := h
  exact ⟨_, _, _, _, _, rfl⟩
theorem raise_alike {space space' code code' detail detail' h h' agent agent' arg0 arg0' arg1 arg1' arg2 arg2' alt alt'} (e : Alike s n) :
    Alike (raise s space code detail h agent arg0 arg1 arg2 alt) (raise n space' code' detail' h' agent' arg0' arg1' arg2' alt') :=
  (alike_of_only (raise_only s _ _ _ _ _ _ _ _ _)).symm.trans (e.trans (alike_of_only (raise_only n _ _ _ _ _ _ _ _ _)))
theorem emit_alike {o o'} (h : Alike s n) : Alike (emit s o) (emit n o') := by
  obtain ⟨_, _, _, _, _, rfl⟩ := h
  exact ⟨_, _, _, _, _, rfl⟩
theorem zeroRange_alike {a k} (h : Alike s n) : Alike (zeroRange s a k) (zeroRange n a k) := by
  obtain ⟨_, _, _, _, _, rfl⟩ := h
  exact ⟨_, _, _, _, _, rfl⟩
theorem storeAt_alike {a bs src} (h : Alike s n) : Alike (storeAt s a bs src) (storeAt n a bs src) := by
  obtain ⟨_, _, _, _, _, rfl⟩ := h
  exact ⟨_, _, _, _, _, rfl⟩
theorem store_alike {a bs src} (h : Alike s n) : Alike (store s a bs src) (store n a bs src) := by
  have stored := storeAt_alike (a := a) (bs := bs) (src := src) h
  unfold store
  dsimp only
  cases place a with
  | win t o =>
    dsimp only
    rw [h.same (tileRole · t), h.same (partner · t)]
    exact .ite (storeAt_alike stored) stored
  | deep | ctl | unmapped => exact stored

/-! ### Accesses to memory (09, R207 to R213) -/

theorem noteCodes_alike {a e} (h : Alike s n) : Alike (noteCodes s a e) (noteCodes n a e) := by
  obtain ⟨_, _, _, _, _, rfl⟩ := h
  unfold noteCodes
  cases place a <;> exact ⟨_, _, _, _, _, rfl⟩
theorem dpmUe_alike {a} (h : Alike s n) : Alike (dpmUe s a) (dpmUe n a) := by
  obtain ⟨_, _, _, _, _, rfl⟩ := h
  exact raise_alike ⟨_, _, _, _, _, rfl⟩
theorem dropDeep_alike {p} (h : Alike s n) : Alike (dropDeep s p) (dropDeep n p) := by
  obtain ⟨_, _, _, _, _, rfl⟩ := h
  exact ⟨_, _, _, _, _, rfl⟩
theorem dropWord_alike {k} (h : Alike s n) : Alike (dropWord s k) (dropWord n k) := by
  obtain ⟨_, _, _, _, _, rfl⟩ := h
  exact ⟨_, _, _, _, _, rfl⟩
theorem insSet_alike {k : Nat} (h : Alike s n) : Alike { s with poison := insSet k s.poison } { n with poison := insSet k n.poison } := by
  obtain ⟨_, _, _, _, _, rfl⟩ := h
  exact ⟨_, _, _, _, _, rfl⟩
theorem dpmCe_alike (h : Alike s n) : Alike (dpmCe s) (dpmCe n) := by
  obtain ⟨_, _, _, _, _, rfl⟩ := h
  exact ⟨_, _, _, _, _, rfl⟩
theorem scrUe_alike {t o} (h : Alike s n) : Alike (scrUe s t o) (scrUe n t o) := raise_alike (insSet_alike (modTile_alike h))
theorem seeDeep_alike {seen} (h : Alike s n) : AlikeWith (seeDeep s seen) (seeDeep n seen) := by
  unfold seeDeep
  rw [h.same (·.codes)]
  refine List.foldl_rel (r := AlikeWith) ⟨h, rfl⟩ fun x _ u v e => ?_
  obtain ⟨alike, found⟩ := e
  split
  · exact ⟨dropDeep_alike (p := (· == x.1)) (dpmCe_alike alike), found⟩
  · exact ⟨dpmUe_alike alike, congrArg (· ++ [x.1]) found⟩
  · exact ⟨alike, found⟩
theorem seeWords_alike {a k} (h : Alike s n) : Alike (seeWords s a k) (seeWords n a k) := by
  unfold seeWords
  rw [h.same (·.codes)]
  refine foldl_alike (fun x u v e => ?_) h
  split
  · exact dropWord_alike (modTile_alike e)
  · exact dropWord_alike (.ite (scrUe_alike e) e)
  · exact e
theorem mtlStat_alike {h word hi lo k} (e : Alike s n) : Alike (mtlStat s h word hi lo k) (mtlStat n h word hi lo k) := by
  cases h with
  | some k => exact modHearth_alike e
  | none => exact e
theorem homePool_alike (e : Alike s n) (a : Nat) : homePool n a = homePool s a := by
  rw [homePool, homePool, e.same (isSplit · _)]
theorem tileOf_alike (e : Alike s n) (b : Nat) : tileOf n b = tileOf s b := by
  rw [tileOf, tileOf, homePool_alike e, e.same (poolAt · _)]
theorem fromDeep_alike (e : Alike s n) (a k : Nat) : fromDeep n a k = fromDeep s a k := by
  unfold fromDeep
  simp only [tileOf_alike e]
theorem stackWaits_alike (e : Alike s n) (a k : Nat) : stackWaits n a k = stackWaits s a k := by
  have trips (j : Nat) : tripped n j = tripped s j := e.same (tripped · j)
  have homes (b : Nat) : stackOf n b = stackOf s b := e.same (stackOf · b)
  simp only [stackWaits, fromDeep_alike e, trips, homes]
theorem touchBlock_alike {h hint a k wr line b} (e : Alike s n) :
    AlikeOpt (touchBlock s h hint a k wr line b) (touchBlock n h hint a k wr line b) := by
  simp only [touchBlock]
  rw [tileOf_alike e, homePool_alike e, e.same (poolAt · _)]
  split
  · split
    · exact .none
    · exact .some (modPool_alike (mtlStat_alike e))
  · split
    · split
      · exact .some (modPool_alike (mtlStat_alike e))
      · exact .none
    · exact .some (mtlStat_alike e)
theorem touch_alike {h hint a k wr line} (e : Alike s n) : AlikeOpt (touch s h hint a k wr line) (touch n h hint a k wr line) := by
  unfold touch
  rw [stackWaits_alike e]
  split
  · exact .none
  · refine List.foldl_rel (r := AlikeOpt) (.some e) fun b _ o p blocks => ?_
    cases blocks with
    | some r =>
      rw [Option.bind_some, Option.bind_some]
      exact touchBlock_alike r
    | none => exact .none
theorem fillPoison_alike {clean k} (h : Alike s n) : Alike (fillPoison clean k s) (fillPoison clean k n) := by
  have noted := insSet_alike (k := k) h
  unfold fillPoison
  dsimp only
  rw [h.same (·.poison), homePool_alike noted] at *
  exact .ite h (.ite (modPool_alike noted) noted)
/-- What an access makes of the code words that it sees, of those that the mantel fills and of those that it passes by. -/
def seenDeep (s : State) (seen filled direct : Nat → Bool) (a k : Nat) (wr : Bool) : State × List Nat :=
  let (s, p) := seeDeep s seen
  let s := (p.filter filled).foldl (fun s k => fillPoison (!wr) k s) s
  if wr then (dropDeep ((p.filter direct).foldl (fun s k => { s with poison := insSet k s.poison }) s) direct, [])
  else (s, p.filter (inBytes a k))
theorem seenDeep_alike {seen filled direct a k wr} (h : Alike s n) :
    AlikeWith (seenDeep s seen filled direct a k wr) (seenDeep n seen filled direct a k wr) := by
  obtain ⟨alike, found⟩ := seeDeep_alike (seen := seen) h
  unfold seenDeep
  dsimp only
  rw [found]
  have fill := foldl_alike (f := fun s j => fillPoison (!wr) j s) (l := (seeDeep n seen).2.filter filled) (fun _ _ _ => fillPoison_alike) alike
  split
  · exact ⟨dropDeep_alike (foldl_alike (f := fun s k => { s with poison := insSet k s.poison }) (fun _ _ _ => insSet_alike) fill), rfl⟩
  · exact ⟨fill, rfl⟩
theorem eccDeep_eq (s' s : State) (a k : Nat) (wr : Bool) : eccDeep s' s a k wr =
    let deep := fun j => fromDeep s' (32 * j) 32
    let filled := fun j => deep j && !fromDeep s (32 * j) 32 && (!wr || fillsPart a k j)
    let direct := fun j => inBytes a k j && deep j && fromDeep s (32 * j) 32
    if s.codes.deep.isEmpty then (s, [])
    else seenDeep s (fun j => filled j || (direct j && (!wr || !wholeIn a k j))) filled direct a k wr := rfl
theorem eccDeep_alike {s' n' : State} {a k wr} (h : Alike s n) (h' : Alike s' n') :
    AlikeWith (eccDeep s' s a k wr) (eccDeep n' n a k wr) := by
  rw [eccDeep_eq, eccDeep_eq, h.same (·.codes)]
  simp only [fromDeep_alike h', fromDeep_alike h]
  split
  · exact ⟨h, rfl⟩
  · exact seenDeep_alike h
theorem devWrite_alike {h hint a bs poison line e} (r : Alike s n) :
    AlikeOpt (devWrite s h hint a bs poison line e) (devWrite n h hint a bs poison line e) := by
  have coded := noteCodes_alike (a := a) (e := e) r
  unfold devWrite
  split
  · exact rel_map (touch_alike coded) fun _ _ u => store_alike (eccDeep_alike u r).1
  · exact .some (store_alike coded)
theorem devRead_alike {h hint a k e line} (r : Alike s n) :
    Option.Rel AlikeWith (devRead s h hint a k e line) (devRead n h hint a k e line) := by
  have coded := noteCodes_alike (a := a) (e := e) r
  unfold devRead
  split
  · refine rel_map (touch_alike coded) fun _ _ u => ?_
    obtain ⟨alike, found⟩ := eccDeep_alike (a := a) (k := k) (wr := false) u r
    refine ⟨alike, ?_⟩
    dsimp only
    rw [found, r.same (·.mem), r.same (poisoned · a k)]
  · have seen := seeWords_alike (a := a) (k := k) coded
    dsimp only
    rw [r.same (·.mem), seen.same (poisoned · a k)]
    exact .some ⟨seen, rfl⟩
theorem waitTile_alike {m : MAccess} (h : Alike s n) : Alike (waitTile s m) (waitTile n m) := by
  unfold waitTile
  dsimp only
  rw [h.same (waitPool · m), h.same (poolAt · _)]
  exact .ite h (modPool_alike h)
theorem waitOp_alike {a h addr k hint} (e : Alike s n) : Alike (waitOp s a h addr k hint) (waitOp n a h addr k hint) := by
  unfold waitOp
  rw [stackWaits_alike e]
  exact .ite (waitTile_alike e) e
theorem postWrite_alike {a h hint addr bs ps} (e : Alike s n) :
    Alike (postWrite s a h hint addr bs ps) (postWrite n a h hint addr bs ps) := (devWrite_alike e).getD (waitTile_alike e)

/-! ### Windows (13, R331) -/

theorem reach_alike (e : Alike s n) (h : Option Nat) (a k : Nat) : reach n h a k = reach s h a k := by
  have regions (r : Nat) : regionHearth n r = regionHearth s r := e.same (regionHearth · r)
  have windows (t lo hi : Nat) : winOk n h t lo hi = winOk s h t lo hi := e.same (winOk · h t lo hi)
  simp only [reach, regions, windows]
theorem phaseEntry_alike {h start tag agent kind} (e : Alike s n) :
    Alike (phaseEntry s h start tag agent kind) (phaseEntry n h start tag agent kind) := by
  unfold phaseEntry
  dsimp only
  rw [e.same (hearthAt · h), e.same (·.cyc)]
  have noted := modNet_alike (k := h) (f := fun x => { x with phPtr := x.phPtr + 1 }) e
  rw [reach_alike noted, noted.same fc, noted.same (hearthAt · h)]
  exact .ite (postWrite_alike noted) (.ite noted (raise_alike (modRun_alike noted)))
theorem endTilePhase_alike {t} (e : Alike s n) : Alike (endTilePhase s t) (endTilePhase n t) := by
  unfold endTilePhase
  rw [e.same (tileAt · t), e.same (tileHearth · t)]
  split
  · exact phaseEntry_alike (modTile_alike e)
  · exact e
theorem endItemWindow_alike {q h i} (e : Alike s n) : Alike (endItemWindow s q h i) (endItemWindow n q h i) := by
  unfold endItemWindow
  rw [e.same (svcAgent · h)]
  exact .ite (phaseEntry_alike (modItem_alike e)) e
theorem dropActive_alike {p h} (e : Alike s n) : Alike (dropActive s p h) (dropActive n p h) := by
  unfold dropActive
  rw [e.same (portAt · p)]
  split
  · exact phaseEntry_alike (modPort_alike e)
  · exact e
theorem endTileWindows_alike {h} (e : Alike s n) : Alike (forEach (hTiles s h) s (fun t s => endTilePhase s t))
    (forEach (hTiles n h) n (fun t s => endTilePhase s t)) := by
  rw [e.same (hTiles · h)]
  exact forEach_alike (fun _ _ _ => endTilePhase_alike) e
theorem endItemWindows_alike {h} (e : Alike s n) :
    Alike (forEach ((List.range 256).filter (fun q => queueHearth s q = some h)) s (fun q s =>
        forEach (queueAt s q).items s (fun i s => endItemWindow s q h i)))
      (forEach ((List.range 256).filter (fun q => queueHearth n q = some h)) n (fun q s =>
        forEach (queueAt s q).items s (fun i s => endItemWindow s q h i))) := by
  have owner (q : Nat) := e.same (queueHearth · q)
  simp only [owner]
  refine forEach_alike (fun q u v r => ?_) e
  rw [r.same (queueAt · q)]
  exact forEach_alike (fun _ _ _ => endItemWindow_alike) r
theorem endWindows_alike {h} (e : Alike s n) : Alike (endWindows s h) (endWindows n h) := by
  have items := endItemWindows_alike (h := h) (endTileWindows_alike (h := h) e)
  unfold endWindows
  dsimp only
  rw [items.same (·.flights)]
  refine forEach_alike (fun p u v r => dropActive_alike (forEach_alike (fun f u v r => ?_) r)) ?_
  · split
    · exact .ite (phaseEntry_alike r) r
    · exact r
  · obtain ⟨_, _, _, _, _, same⟩ := items
    rw [same]
    exact ⟨_, _, _, _, _, rfl⟩

/-! ### Frames (12, R290, R295) -/

theorem bookDone_alike {h amt remote} (e : Alike s n) : Alike (bookDone s h amt remote) (bookDone n h amt remote) := modNet_alike e
/-- The window in which a source and cause have been recorded (12, R303). -/
def rxNoted (s : State) (dev key : Nat) : State :=
  let w := fc s / 2 ^ 16
  if s.lnk.seen.any (fun e => decide (e.1 = dev ∧ e.2.1 = key ∧ e.2.2 = w)) then s
  else { s with lnk := { s.lnk with seen := (dev, key, w) :: s.lnk.seen.filter (fun e => decide (e.2.2 = w)) } }
theorem rxRaise_alike_noted (s : State) (code dev arg0 detail : Nat) (h : Option Nat) (space : Nat) :
    Alike (rxNoted s dev (code + 256 * space)) (rxRaise s code dev arg0 detail h space) := by
  unfold rxNoted rxRaise
  dsimp only
  split
  · exact .refl s
  · split
    · exact ⟨_, _, _, _, _, rfl⟩
    · exact alike_of_only (raise_only _ _ _ _ _ _ _ _ _ _)
theorem rxRaise_alike {code dev arg0 detail h space} (e : Alike s n) :
    Alike (rxRaise s code dev arg0 detail h space) (rxRaise n code dev arg0 detail h space) := by
  refine (rxRaise_alike_noted s _ _ _ _ _ _).symm.trans (.trans ?_ (rxRaise_alike_noted n _ _ _ _ _ _))
  obtain ⟨_, _, _, _, _, rfl⟩ := e
  exact .ite ⟨_, _, _, _, _, rfl⟩ ⟨_, _, _, _, _, rfl⟩
theorem sendFlit_alike {p ft} (e : Alike s n) : Alike (sendFlit s p ft) (sendFlit n p ft) := by
  obtain ⟨_, _, _, _, _, rfl⟩ := e
  exact ⟨_, _, _, _, _, rfl⟩
theorem serveOut_alike {p} (e : Alike s n) : Alike (serveOut s p) (serveOut n p) := by
  unfold serveOut
  dsimp only
  rw [e.same (portUp · p), e.same (portAt · p), e.same fc]
  exact .ite (forEach_alike (fun _ _ _ r => forEach_alike (fun _ _ _ => sendFlit_alike) (emit_alike r)) (modPort_alike e)) e
theorem putOut_alike {p grp f} (e : Alike s n) : Alike (putOut s p grp f) (putOut n p grp f) := serveOut_alike (modPort_alike e)
theorem noRoute_alike {p f} (e : Alike s n) : Alike (noRoute s p f) (noRoute n p f) := rxRaise_alike (modPort_alike e)
theorem launch_alike {f} (e : Alike s n) : Alike (launch s f) (launch n f) := by
  unfold launch
  dsimp only
  rw [e.same (route · _ _), e.same switched, e.same (dimPort · _)]
  split
  · rw [e.same (classAfter · _ _ _ _)]
    exact putOut_alike e
  · exact putOut_alike e
  · exact noRoute_alike e
  · exact e
theorem bindReq_alike {t core grp dev fnum} (e : Alike s n) : Alike (bindReq s t core grp dev fnum) (bindReq n t core grp dev fnum) :=
  modTile_alike e
theorem enterSend_alike {x} (e : Alike s n) : Alike (enterSend s x) (enterSend n x) := by
  unfold enterSend
  rw [e.same (sessOf · _)]
  split
  · exact e
  · dsimp only
    rw [e.same devNo, e.same fc]
    obtain ⟨_, _, _, _, _, rfl⟩ := e
    refine launch_alike ?_
    split
    · exact bindReq_alike ⟨_, _, _, _, _, rfl⟩
    · exact ⟨_, _, _, _, _, rfl⟩

/-! ### Requests (10, R225, R226; 12, R290) -/

theorem drained_alike {t} (e : Alike s n) : Alike (drained s t) (drained n t) := by
  unfold drained
  dsimp only
  rw [e.same (tileAt · t)]
  exact .ite (zeroRange_alike (modBlw_alike e)) e
theorem removeReq_alike {t i} (e : Alike s n) : Alike (removeReq s t i) (removeReq n t i) := by
  unfold removeReq
  rw [e.same (tileAt · t), e.same (reqHearth · t)]
  split
  · exact e
  · dsimp only
    split
    · refine .ite (drained_alike (modBlw_alike e)) ?_
      rw [e.same (hearthAt · _)]
      split
      · exact drained_alike (modBlw_alike e)
      · exact .ite (drained_alike (modHearth_alike (modBlw_alike e))) (modBlw_alike e)
    · exact drained_alike (modBlw_alike e)
theorem dropMcst_alike {h t off k} (e : Alike s n) : Alike (dropMcst s h t off k) (dropMcst n h t off k) := by
  unfold dropMcst
  rw [e.same (hTiles · h)]
  exact forEach_alike (fun _ _ _ => modBlw_alike) e
theorem deliver_alike {h t r off bs ps} (e : Alike s n) : AlikeOpt (deliver s h t r off bs ps) (deliver n h t r off bs ps) := by
  unfold deliver
  split
  · refine devWrite_alike ?_
    split
    · exact dropMcst_alike e
    · exact e
  · exact .some (forEach_alike (fun _ _ _ u => store_alike (dropMcst_alike u)) e)
  · exact .some (modBlw_alike e)
  · exact .some e
theorem reqFail_alike {t core grp fnum dev} (e : Alike s n) : Alike (reqFail s t core grp fnum dev) (reqFail n t core grp fnum dev) := by
  unfold reqFail
  rw [e.same (reqIdx · t core grp fnum dev), e.same (reqHearth · t)]
  split
  · refine removeReq_alike ?_
    dsimp only
    rw [e.same (tileAt · t)]
    split
    · refine .ite e ?_
      split
      · exact postWrite_alike e
      · exact (deliver_alike e).getD e
    · exact e
  · exact removeReq_alike e
  · exact e
theorem entryFail_alike {x} (e : Alike s n) : Alike (entryFail s x) (entryFail n x) := by
  unfold entryFail
  split
  · exact reqFail_alike e
  · exact bookDone_alike e
  · exact .ite (bookDone_alike (modRun_alike e)) (modRun_alike e)
  · exact e
theorem sendFrame_alike {x} (e : Alike s n) : Alike (sendFrame s x) (sendFrame n x) := by
  unfold sendFrame
  dsimp only
  rw [e.same (admitted · _), e.same (mayEnter · _), e.same (·.lnk), e.same (sessOf · _)]
  refine .ite (rxRaise_alike (entryFail_alike e)) (.ite (enterSend_alike e) ?_)
  have shaken : Alike (if (sessOf s x.dev.toNat).isSome || s.lnk.waiting.any (fun w => w.dev == x.dev) then s
        else emit s (.handshake x.dev.toNat 1))
      (if (sessOf s x.dev.toNat).isSome || s.lnk.waiting.any (fun w => w.dev == x.dev) then n else emit n (.handshake x.dev.toNat 1)) :=
    .ite e (emit_alike e)
  obtain ⟨_, _, _, _, _, same⟩ := shaken
  rw [same]
  exact ⟨_, _, _, _, _, rfl⟩
theorem sendWrite_alike {agent h dev addr bs poison use} (e : Alike s n) :
    Alike (sendWrite s agent h dev addr bs poison use) (sendWrite n agent h dev addr bs poison use) := by
  unfold sendWrite
  dsimp only
  rw [show epochOf n = epochOf s from funext fun k => e.same (epochOf · k), e.same fc, e.same devNo]
  exact sendFrame_alike e
theorem reqBytes_alike {h r x} (e : Alike s n) : Option.Rel AlikeWith (reqBytes s h r x) (reqBytes n h r x) := by
  unfold reqBytes
  split
  · exact .some ⟨e, rfl⟩
  · split
    · exact .some ⟨e, rfl⟩
    · refine rel_map (devRead_alike e) fun u v k => ?_
      obtain ⟨alike, found⟩ := k
      exact ⟨alike, by rw [found]⟩
theorem noteMcst_alike {t r} (e : Alike s n) : Alike (noteMcst s t r) (noteMcst n t r) := by
  unfold noteMcst
  split
  · exact modBlw_alike e
  · exact e
theorem requestCommit_alike {t i x} (e : Alike s n) : Alike (requestCommit s t i x) (requestCommit n t i x) := by
  unfold requestCommit
  rw [e.same (tileAt · t), e.same (reqHearth · t)]
  split
  · next r h _ _ =>
    refine .ite e ?_
    have read := reqBytes_alike (h := h) (r := r) (x := x) e
    revert read
    generalize reqBytes s h r x = o
    generalize reqBytes n h r x = q
    intro read
    cases read with
    | none => exact waitOp_alike e
    | @some u v k =>
      obtain ⟨u, data⟩ := u
      obtain ⟨v, data'⟩ := v
      obtain ⟨alike, rfl⟩ := k
      dsimp only
      split
      · exact .ite (sendWrite_alike (modBlw_alike alike)) e
      · have given := deliver_alike (h := h) (t := t) (r := r) (off := 0) (bs := data.1) (ps := data.2) alike
        revert given
        generalize deliver u h t r 0 data.1 data.2 = o
        generalize deliver v h t r 0 data.1 data.2 = q
        intro given
        cases given with
        | some k => exact removeReq_alike (noteMcst_alike k)
        | none =>
          dsimp only
          split
          · exact waitOp_alike e
          · exact e
  · exact e
theorem forceReq_alike {t i} (e : Alike s n) : Alike (forceReq s t i) (forceReq n t i) := by
  unfold forceReq
  rw [e.same (tileAt · t), e.same (reqHearth · t), e.same (·.mem)]
  split
  · next r h _ _ =>
    refine .ite e ?_
    rw [e.same (poisoned · r.src r.len)]
    dsimp only
    split
    · exact sendWrite_alike (modBlw_alike e)
    · exact removeReq_alike (store_alike e)
    · exact removeReq_alike ((deliver_alike e).getD e)
  · exact e
/-- Two rounds over the requests of a tile, the last first. -/
theorem rounds_alike {t : TileId} {f : Nat → State → State} (hf : ∀ i s n, Alike s n → Alike (f i s) (f i n)) (e : Alike s n) :
    Alike (forEach (List.range 2) s (fun _ s => forEach (List.range (tileAt s t).blw.reqs.length).reverse s f))
      (forEach (List.range 2) n (fun _ s => forEach (List.range (tileAt s t).blw.reqs.length).reverse s f)) := by
  refine forEach_alike (fun _ u v r => ?_) e
  rw [r.same (tileAt · t)]
  exact forEach_alike hf r
theorem quiesce_alike {t warm} (e : Alike s n) : Alike (quiesce s t warm) (quiesce n t warm) := by
  have committed : Alike (commitAll s t) (commitAll n t) := rounds_alike (fun _ _ _ => requestCommit_alike) e
  have forced {u v : State} (k : Alike u v) := rounds_alike (t := t) (f := fun i s => forceReq s t i) (fun _ _ _ => forceReq_alike) k
  have left {u v : State} (k : Alike u v) :
      Alike (if (tileAt u t).blw.reqs.isEmpty then u else modBlw u t (fun b => { b with draining := reqHearth u t }))
        (if (tileAt v t).blw.reqs.isEmpty then v else modBlw v t (fun b => { b with draining := reqHearth v t })) := by
    rw [k.same (tileAt · t), k.same (reqHearth · t)]
    exact .ite k (modBlw_alike k)
  unfold quiesce
  dsimp only
  refine left ?_
  exact .ite (modBlw_alike committed) (modBlw_alike (forced (modBlw_alike committed)))

end Sys2Proof.Machine
end

section
/-! A reset of the device to the cold state (09, R220; 16, R384, Table 16-17; 19, R459). -/

namespace Sys2Proof.Machine

variable {s n m : State}

/-- Queues have closed and the Stoker has taken records between two states. -/
def Closed (s n : State) : Prop :=
  n = { s with queues := n.queues, recs := n.recs, out := n.out, stk := { s.stk with collectors := n.stk.collectors } }

theorem Closed.refl (s : State) : Closed s s := rfl
theorem Closed.trans (h : Closed s n) (k : Closed n m) : Closed s m := by
  rw [Closed] at h k ⊢
  rw [k, h]
theorem Closed.only (h : Closed s n) : Only [.queues, .recs, .out, .stk] s n := by
  have update (queues : Vector WorkQ 256) (recs : Records) (out : List Output) (stk : Stoker) :
      Only [.queues, .recs, .out, .stk] s { s with queues := queues, recs := recs, out := out, stk := stk } := by
    intro p hp; cases p <;> simp_all [Part.same]
  rw [Closed] at h
  rw [h]
  exact update _ _ _ _
theorem toCollector_closed (s : State) (i : Nat) (r : Rec) : Closed s (toCollector s i r) := by
  unfold toCollector
  dsimp only
  split <;> exact rfl
theorem recordForward_closed (s : State) : Closed s (recordForward s) := by
  unfold recordForward
  split
  · exact rfl
  · split
    · exact rfl
    · refine Closed.trans ?_ ((toCollector_closed _ 0 _).trans (toCollector_closed _ 1 _))
      exact rfl
theorem queueClosed_closed (s : State) (q cls : Nat) :
    Closed s (modQueue (queueReset s q cls qCLOSED) q (fun w => { w with cfg := 0x80000 })) := rfl
theorem takeRecords_closed (s : State) : Closed s (takeRecords s) :=
  forEach_inv (P := Closed s) (fun _ _ hu => hu.trans (recordForward_closed _)) (.refl s)

/-- The work that ends before a reset of a class of the device. -/
def endingWork (s : State) (cls : Nat) : State := if cls = 2 then endWork (mbxOutcome s 0) else mbxOutcome s 0
theorem endingWork_ends (s : State) (cls : Nat) : Ends s (endingWork s cls) :=
  .ite (endWork_ends (mbxOutcome_ends (.refl s))) (mbxOutcome_ends (.refl s))
theorem endDevice_closed (s : State) (cls : Nat) : Closed (endingWork s cls) (endDevice s cls) :=
  Closed.trans (forEach_inv (P := Closed (endingWork s cls)) (fun q u hu => hu.trans (queueClosed_closed u q cls)) (.refl _))
    (takeRecords_closed _)

/-! ### The counts of the ledger (16, R384, Table 16-17) -/

/-- The device header of the ledger without what a reset of the device clears. -/
theorem fld_headerKept (r : Reg) : fld (r &&& 0xFFFFFFFFFFFFFF00) 63 40 = fld r 63 40 := by
  have ones : ∀ i < 24, (0xFFFFFFFFFFFFFF00 : Reg).getLsbD (40 + i) = true := by decide
  refine Nat.eq_of_testBit_eq fun i => ?_
  rw [fld_bit, fld_bit, BitVec.getLsbD_and]
  by_cases hi : i < 24
  · rw [ones i hi, Bool.and_true]
  · simp [hi]
theorem countReset_class (s : State) {cls : Nat} (h : cls < 16) : fld (countReset s cls).lgr.dev 11 8 = cls := by
  have e : fld (countReset s cls).lgr.dev 11 8 = cls % 2 ^ (11 + 1 - 8) := fld_setFld _ _ _ _ (by decide)
  rw [e]
  exact Nat.mod_eq_of_lt h
theorem countReset_cold (s : State) {cls : Nat} (h : cls % 2 ≠ 0) :
    fld (countReset s cls).lgr.dev 63 40 = min (2 ^ 24 - 1) (fld s.lgr.dev 63 40 + 1) := by
  have e : (countReset s cls).lgr.dev = setFld (bumpSat s.lgr.dev 63 40 1) 11 8 cls := by
    simp only [countReset, h, if_false]; rfl
  rw [e, fld_setFld_apart _ _ _ _ _ _ (by decide) (by decide)]
  exact fld_bumpSat (by decide) 1
theorem countReset_warm (s : State) {cls : Nat} (h : cls % 2 = 0) :
    fld (countReset s cls).lgr.dev 39 16 = min (2 ^ 24 - 1) (fld s.lgr.dev 39 16 + 1) := by
  have e : (countReset s cls).lgr.dev = setFld (bumpSat s.lgr.dev 39 16 1) 11 8 cls := by
    simp only [countReset, h, if_true]; rfl
  rw [e, fld_setFld_apart _ _ _ _ _ _ (by decide) (by decide)]
  exact fld_bumpSat (by decide) 1

/-! ### The cold state -/

/-- The volatile parts stand as at a reset, and the reset is counted. -/
def ColdAfter (s n : State) : Prop :=
  n.mem = [] ∧ n.poison = [] ∧ n.cyc = 0 ∧ n.tiles = State.reset.tiles ∧ n.hearths = State.reset.hearths ∧
    n.ports = State.reset.ports ∧ n.counters = [] ∧ n.lnk = State.reset.lnk ∧ n.hif = State.reset.hif ∧ n.msys = State.reset.msys ∧
    fld n.lgr.dev 63 40 = min (2 ^ 24 - 1) (fld s.lgr.dev 63 40 + 1) ∧ fld n.lgr.dev 11 8 = 3

/-- What every reset of the device leaves. -/
def KeptBy (s n : State) : Prop :=
  n.stk.audit = s.stk.audit ∧ n.stk.keys = s.stk.keys ∧ n.tmp.durable = s.tmp.durable ∧ n.lgr.bytes = s.lgr.bytes ∧ n.pending = s.pending

theorem KeptBy.trans (h : KeptBy s n) (k : KeptBy n m) : KeptBy s m := by
  obtain ⟨audit, keys, durable, bytes, pending⟩ := h
  obtain ⟨audit', keys', durable', bytes', pending'⟩ := k
  exact ⟨audit'.trans audit, keys'.trans keys, durable'.trans durable, bytes'.trans bytes, pending'.trans pending⟩
theorem ColdAfter.withPower (h : ColdAfter s n) (p : Power) : ColdAfter s { n with pwr := p } := h
theorem KeptBy.counted (h : KeptBy s n) (cls : Nat) : KeptBy s (countReset n cls) := h
theorem KeptBy.withPower (h : KeptBy s n) (p : Power) : KeptBy s { n with pwr := p } := h

/-- The device ends as it stood in the parts that a cold reset takes over. -/
theorem endDevice_keeps_store (s : State) (cls : Nat) : KeptBy s (endDevice s cls) ∧ (endDevice s cls).lgr = s.lgr := by
  have ends := endingWork_ends s cls
  have closed := endDevice_closed s cls
  rw [Closed] at closed
  rw [closed]
  exact ⟨⟨ends.audit, ends.keys, ends.durable, congrArg (·.bytes) ends.lgr, ends.pending⟩, ends.lgr⟩

theorem coldState_kept (s : State) :
    KeptBy (endDevice s 3) (coldState s) ∧ (coldState s).lgr.dev = (endDevice s 3).lgr.dev &&& 0xFFFFFFFFFFFFFF00 := by
  unfold coldState
  generalize endDevice s 3 = u
  exact ⟨⟨rfl, rfl, rfl, rfl, rfl⟩, rfl⟩
theorem deviceCold_leaves (s : State) : ColdAfter s (deviceCold s) ∧ KeptBy s (deviceCold s) := by
  obtain ⟨kept, lgr⟩ := endDevice_keeps_store s 3
  obtain ⟨cold, dev⟩ := coldState_kept s
  have counted : fld (deviceCold s).lgr.dev 63 40 = min (2 ^ 24 - 1) (fld s.lgr.dev 63 40 + 1) := by
    rw [deviceCold, countReset_cold _ (by decide), dev, fld_headerKept, lgr]
  have named : fld (deviceCold s).lgr.dev 11 8 = 3 := countReset_class (coldState s) (cls := 3) (by decide)
  exact ⟨⟨rfl, rfl, rfl, rfl, rfl, rfl, rfl, rfl, rfl, rfl, counted, named⟩, (kept.trans cold).counted 3⟩

/-- A warm reset that boot does not take up within 2^20 fc falls back to the cold state (09, R221; 19, R459). -/
theorem warmFallback_leaves {f : Nat} (warming : s.pwr.warming = some f) (late : f + 2 ^ 20 ≤ fc s) :
    ColdAfter s (warmFallback s) ∧ KeptBy s (warmFallback s) ∧ (warmFallback s).pwr.booted = 0xE := by
  obtain ⟨cold, kept⟩ := deviceCold_leaves s
  rw [warmFallback, warming]
  dsimp only
  rw [if_pos late]
  exact ⟨cold.withPower _, kept.withPower _, rfl⟩
theorem warmFallback_waits {f : Nat} (warming : s.pwr.warming = some f) (early : fc s < f + 2 ^ 20) : warmFallback s = s := by
  rw [warmFallback, warming]
  exact if_neg (Nat.not_le.2 early)

end Sys2Proof.Machine
end

section
/-! A warm reset of the device (09, R221; 19, R459). -/

namespace Sys2Proof.Machine

variable {s n m : State}

theorem zeroRange_only (s : State) (a k : Nat) : Only [.mem] s (zeroRange s a k) := by
  intro p hp; cases p <;> simp_all [Part.same, zeroRange]
theorem dropAccesses_only (s : State) (p : MAccess → Bool) : Only [.msys] s (dropAccesses s p) :=
  Only.forEach _ _ (fun _ _ => modPool_only _ _ _) s
theorem zeroRegion_only (s : State) (r : Nat) : Only [.mem, .msys] s (zeroRegion s r) :=
  ((dropAccesses_only s _).mono (by decide)).trans (((Only.forEach _ _ (fun _ _ => modPool_only _ _ _) _).mono (by decide)).trans
    ((zeroRange_only _ _ _).mono (by decide)))
theorem temperFns_only (s : State) : Only [.hif] s (temperFns s) := Only.forEach _ _ (fun _ _ => modFn_only _ _ _) s
theorem clearDurable_only (s : State) : Only [.mem, .msys, .counters] s (clearDurable s) := by
  have cleared (u : State) : Only [.mem, .msys, .counters] u (forEach (movedRegions s u) u (fun r s => zeroRegion s r)) :=
    Only.forEach _ _ (fun r v => (zeroRegion_only v r).mono (by decide)) u
  have h := cleared { s with tmp := { s.tmp with cur := { s.tmp.durable with serDev := s.tmp.cur.serDev } } }
  intro p hp
  have same := h p hp
  unfold clearDurable clearMoved
  dsimp only
  revert same
  generalize forEach _ _ _ = u
  intro same
  cases p <;> simp_all [Part.same]

/-- What a warm reset makes of the state in which the work has ended and what passes on is clear. -/
structure Warmed (u n : State) : Prop where
  tiles : n.tiles = u.tiles.map (fun x => freshTile x true)
  hearths : n.hearths = u.hearths.map (fun x => freshHearth x true)
  counters : n.counters = u.counters
  mem : n.mem = u.mem
  cyc : n.cyc = u.cyc
  pending : n.pending = u.pending
  stk : n.stk = u.stk
  durable : n.tmp.durable = u.tmp.durable
  bytes : n.lgr.bytes = u.lgr.bytes
  sessions : n.lnk.sessions = []
  ring : n.recs.ring = []
  claims : n.claims = []
  warming : n.pwr.warming = some (fc u)

/-- The state whose parts a warm reset sets: the device has ended, and the scratch windows are zero. -/
def warmBase (s : State) : State := zeroRange (clearDurable (endDevice s 2)) scrWin (32 * 0x2000000)

theorem deviceWarm_warmed (on : s.pwr.off = false) (up : bit s.pwr.booted 3 = true) : Warmed (warmBase s) (deviceWarm s) := by
  have goes : ¬ (s.pwr.off ∨ !bit s.pwr.booted 3) := by simp [on, up]
  have told (v : State) {u : State} (h : Warmed u v) : Warmed u (temperFns v) := by
    have only := temperFns_only v
    have counters : (temperFns v).counters = v.counters ∧ (temperFns v).claims = v.claims := only .counters (by decide)
    have mem : (temperFns v).mem = v.mem ∧ _ := only .mem (by decide)
    have tmp : (temperFns v).tmp = v.tmp := only .tmp (by decide)
    have lgr : (temperFns v).lgr = v.lgr := only .lgr (by decide)
    have lnk : (temperFns v).lnk = v.lnk := only .lnk (by decide)
    have recs : (temperFns v).recs = v.recs := only .recs (by decide)
    have pwr : (temperFns v).pwr = v.pwr := only .pwr (by decide)
    exact ⟨(only .tiles (by decide)).trans h.tiles, (only .hearths (by decide)).trans h.hearths, counters.1.trans h.counters,
      mem.1.trans h.mem, (only .cyc (by decide)).trans h.cyc, (only .pending (by decide)).trans h.pending,
      (only .stk (by decide)).trans h.stk, (congrArg (·.durable) tmp).trans h.durable, (congrArg (·.bytes) lgr).trans h.bytes,
      (congrArg (·.sessions) lnk).trans h.sessions, (congrArg (·.ring) recs).trans h.ring, counters.2.trans h.claims,
      (congrArg (·.warming) pwr).trans h.warming⟩
  rw [deviceWarm, if_neg goes, warmBase]
  dsimp only
  generalize zeroRange _ _ _ = u
  refine told _ ?_
  exact ⟨rfl, rfl, rfl, rfl, rfl, rfl, rfl, rfl, rfl, rfl, rfl, rfl, rfl⟩

/-! ### What it leaves in every state -/

/-- The parts of the state that the clearing of the mantel, of scratch and of counters leaves. -/
theorem warmBase_only (s : State) : Only [.mem, .msys, .counters] (endDevice s 2) (warmBase s) :=
  (clearDurable_only _).trans ((zeroRange_only _ _ _).mono (by decide))

theorem warmBase_leaves (s : State) : KeptBy s (warmBase s) ∧ (warmBase s).cyc = s.cyc ∧
    ∀ h, (hearthAt (warmBase s) h).chk.epoch = (hearthAt s h).chk.epoch := by
  have only := warmBase_only s
  have ends := endingWork_ends s 2
  have closed := (endDevice_closed s 2).only
  obtain ⟨⟨audit, keys, durable, bytes, pending⟩, -⟩ := endDevice_keeps_store s 2
  have stk : (warmBase s).stk = (endDevice s 2).stk := only .stk (by decide)
  have tmp : (warmBase s).tmp = (endDevice s 2).tmp := only .tmp (by decide)
  have lgr : (warmBase s).lgr = (endDevice s 2).lgr := only .lgr (by decide)
  have hearths : (warmBase s).hearths = (endDevice s 2).hearths := only .hearths (by decide)
  have before : (endDevice s 2).hearths = (endingWork s 2).hearths := closed .hearths (by decide)
  refine ⟨⟨(congrArg (·.audit) stk).trans audit, (congrArg (·.keys) stk).trans keys, (congrArg (·.durable) tmp).trans durable,
    (congrArg (·.bytes) lgr).trans bytes, Eq.trans (only .pending (by decide)) pending⟩,
    Eq.trans (only .cyc (by decide)) (Eq.trans (closed .cyc (by decide)) ends.cyc), fun h => ?_⟩
  have same : hearthAt (warmBase s) h = hearthAt (endingWork s 2) h := by rw [hearthAt, hearthAt, hearths, before]
  rw [same]
  exact ends.epoch h

theorem vget_map {α β : Type} {k : Nat} (v : Vector α k) (f : α → β) (i : Nat) (d : α) (e : β) (h : i < k) :
    vget (v.map f) i e = f (vget v i d) := by
  simp [vget, h]

theorem freshHearth_warm (x : Hearth) : (freshHearth x true).chk.epoch = x.chk.epoch ∧ (freshHearth x true).run.locked = false := ⟨rfl, rfl⟩

theorem Warmed.hearth {u : State} (w : Warmed u n) (h : HearthId) : hearthAt n h.val = freshHearth (hearthAt u h.val) true := by
  rw [hearthAt, w.hearths, hearthAt]
  exact vget_map _ _ _ _ _ h.isLt

theorem deviceWarm_leaves (on : s.pwr.off = false) (up : bit s.pwr.booted 3 = true) :
    KeptBy s (deviceWarm s) ∧ (deviceWarm s).cyc = s.cyc ∧ (deviceWarm s).lnk.sessions = [] ∧ (deviceWarm s).recs.ring = [] ∧
      (deviceWarm s).claims = [] ∧ (deviceWarm s).pwr.warming = some (fc s) ∧
      ∀ h : HearthId, (hearthAt (deviceWarm s) h.val).chk.epoch = (hearthAt s h.val).chk.epoch ∧
        (hearthAt (deviceWarm s) h.val).run.locked = false := by
  have w := deviceWarm_warmed on up
  obtain ⟨⟨audit, keys, durable, bytes, pending⟩, cyc, epoch⟩ := warmBase_leaves s
  have clock : fc (warmBase s) = fc s := by rw [fc, cyc, fc]
  refine ⟨⟨?_, ?_, w.durable.trans durable, w.bytes.trans bytes, w.pending.trans pending⟩, w.cyc.trans cyc, w.sessions, w.ring,
    w.claims, clock ▸ w.warming, fun h => ?_⟩
  · rw [w.stk, audit]
  · rw [w.stk, keys]
  · obtain ⟨kept, unlocked⟩ := freshHearth_warm (hearthAt (warmBase s) h.val)
    rw [w.hearth h]
    exact ⟨kept.trans (epoch _), unlocked⟩

end Sys2Proof.Machine
end

section
/-! A warm reset of a device at rest, whose windows are closed and whose requests have committed (09, R202, R221; 11, R250, R265;
19, R459). -/

namespace Sys2Proof.Machine

variable {s₀ s n m : State} {α : Type}

/-! ### Counters whose owner is gone (11, R265) -/

theorem loseOwner_lost {c : Nat} (owned : (ctrAt s c).owner ≠ 0) : (ctrAt (loseOwner s c) c).lost = true := by
  unfold loseOwner
  dsimp only
  split
  · next h => exact h.resolve_left owned
  · refine (raise_ends (.refl _)).lost c ((fixWaits_ends (.refl _)).lost c ?_)
    rw [ctrAt_modCtr, if_pos rfl]
theorem owners_lost {l : List Nat} {c : Nat} (hc : c ∈ l) (owned : (ctrAt s c).owner ≠ 0) :
    (ctrAt (forEach l s (fun c s => loseOwner s c)) c).lost = true := by
  induction l generalizing s with
  | nil => cases hc
  | cons k l ih =>
    show (ctrAt (forEach l (loseOwner s k) (fun c s => loseOwner s c)) c).lost = true
    rcases List.mem_cons.1 hc with rfl | later
    · exact (forEach_ends (fun _ _ => loseOwner_ends) (.refl _)).lost c (loseOwner_lost owned)
    · exact ih later (by rwa [(loseOwner_ends (.refl s)).owner])

/-- A counter with an owner has an entry. -/
theorem owned_mem {c : Nat} (owned : (ctrAt s c).owner ≠ 0) : ∃ x, (c, x) ∈ s.counters ∧ x.owner ≠ 0 := by
  rw [ctrAt] at owned
  revert owned
  generalize s.counters = l
  intro owned
  induction l with
  | nil => exact absurd rfl owned
  | cons e l ih =>
    obtain ⟨j, x⟩ := e
    rw [look] at owned
    split at owned
    · next same => exact ⟨x, same ▸ List.mem_cons_self, owned⟩
    · obtain ⟨y, hy, hn⟩ := ih owned
      exact ⟨y, List.mem_cons_of_mem _ hy, hn⟩
theorem mem_ownedKeys {c : Nat} (owned : (ctrAt s c).owner ≠ 0) :
    c ∈ s.counters.filterMap (fun e => if e.2.owner = 0 then none else some e.1) := by
  obtain ⟨x, hx, hn⟩ := owned_mem owned
  exact List.mem_filterMap.2 ⟨(c, x), hx, if_neg hn⟩

/-- Memory, the configuration, the modes of deep memory, the values of the counters and what a warm reset leaves of a tile are the same. -/
structure Untouched (s n : State) : Prop where
  mem : n.mem = s.mem
  cur : n.tmp.cur = s.tmp.cur
  rgn : n.msys.rgn = s.msys.rgn
  tile : ∀ t, freshTile (tileAt n t) true = freshTile (tileAt s t) true
  value : ∀ c, (ctrAt n c).value = (ctrAt s c).value

theorem Untouched.refl (s : State) : Untouched s s := ⟨rfl, rfl, rfl, fun _ => rfl, fun _ => rfl⟩
theorem Untouched.trans (h : Untouched s n) (k : Untouched n m) : Untouched s m :=
  ⟨k.mem.trans h.mem, k.cur.trans h.cur, k.rgn.trans h.rgn, fun t => (k.tile t).trans (h.tile t), fun c => (k.value c).trans (h.value c)⟩
theorem Untouched.of_only {ps : List Part} (only : Only ps s n)
    (apart : ∀ p ∈ [Part.tmp, .mem, .msys, .tiles, .counters], p ∉ ps := by decide) : Untouched s n := by
  have mem : n.mem = s.mem := (only .mem (apart _ (by decide)) : n.mem = s.mem ∧ _).1
  have tmp : n.tmp = s.tmp := only .tmp (apart _ (by decide))
  have msys : n.msys = s.msys := only .msys (apart _ (by decide))
  have tiles : n.tiles = s.tiles := only .tiles (apart _ (by decide))
  have counters : n.counters = s.counters := (only .counters (apart _ (by decide)) : n.counters = s.counters ∧ _).1
  exact ⟨mem, congrArg (·.cur) tmp, congrArg (·.rgn) msys, fun t => by simp only [tileAt, tiles], fun c => by simp only [ctrAt, counters]⟩
theorem Untouched.of_alike (h : Alike s n) : Untouched s n :=
  ⟨h.same (·.mem), h.same (·.tmp.cur), h.same (·.msys.rgn), fun t => h.same (fun u => freshTile (tileAt u t) true),
    fun c => h.same (fun u => (ctrAt u c).value)⟩

theorem raise_untouched {space code detail h agent arg0 arg1 arg2 alt} : Untouched s (raise s space code detail h agent arg0 arg1 arg2 alt) :=
  .of_only (raise_only s _ _ _ _ _ _ _ _ _)
theorem raise_msys {space code detail h agent arg0 arg1 arg2 alt} : (raise s space code detail h agent arg0 arg1 arg2 alt).msys = s.msys :=
  raise_only s _ _ _ _ _ _ _ _ _ .msys (by decide)
theorem fixWaits_untouched (s : State) (c : Nat) (o : WaitEnd) (ok : Nat → Bool) : Untouched s (fixWaits s c o ok) := by
  refine ⟨rfl, rfl, rfl, fun t => ?_, fun _ => rfl⟩
  have each : ∀ x : Tile, freshTile (match x.misc.wait with
      | some w => if w.ctr = c ∧ ok w.tgt ∧ endsWith w.ended w.endFc (fc s) o then
          { x with misc := { x.misc with wait := some (endWait s o w) } } else x
      | none => x) true = freshTile x true := by
    intro x
    split
    · split <;> rfl
    · rfl
  unfold fixWaits tileAt vget
  dsimp only
  rw [Vector.getElem?_map]
  cases s.tiles[t]? with
  | none => rfl
  | some x => exact each x
theorem modCtr_untouched {c : Nat} {f : Counter → Counter} (hf : ∀ x, (f x).value = x.value) : Untouched s (modCtr s c f) := by
  refine ⟨rfl, rfl, rfl, fun _ => rfl, fun k => ?_⟩
  rw [ctrAt_modCtr]
  split
  · next e => rw [hf, e]
  · rfl
theorem loseOwner_untouched (s : State) (c : Nat) : Untouched s (loseOwner s c) := by
  unfold loseOwner
  dsimp only
  split
  · exact .refl s
  · refine Untouched.trans ?_ raise_untouched
    refine Untouched.trans ?_ (fixWaits_untouched _ _ _ _)
    exact modCtr_untouched fun _ => rfl
theorem loseOwner_msys (s : State) (c : Nat) : (loseOwner s c).msys = s.msys := by
  unfold loseOwner
  dsimp only
  split
  · rfl
  · exact raise_msys
theorem mtlStat_untouched (s : State) (h : Option Nat) (word hi lo k : Nat) : Untouched s (mtlStat s h word hi lo k) := by
  cases h with
  | some j => exact ⟨rfl, rfl, rfl, fun _ => rfl, fun _ => rfl⟩
  | none => exact .refl s
theorem dropFill_untouched (t : MTile) (s : State) : Untouched s (dropFill t s) := by
  unfold dropFill
  split
  · exact .refl s
  · exact ⟨rfl, rfl, rfl, fun _ => rfl, fun _ => rfl⟩
theorem modPool_untouched (s : State) (p : Nat) (f : Pool → Pool) : Untouched s (modPool s p f) := ⟨rfl, rfl, rfl, fun _ => rfl, fun _ => rfl⟩
theorem writePools_untouched (s : State) : Untouched s (writePools s) :=
  forEach_inv (P := Untouched s) (fun _ _ hu => Untouched.trans (forEach_inv (P := Untouched s)
    (fun _ _ hv => hv.trans ((mtlStat_untouched _ _ _ _ _ _).trans (dropFill_untouched _ _))) hu) (modPool_untouched _ _ _)) (.refl s)

/-! ### A device at rest -/

/-- No window is open, no request, increment or write is on its way, and the durable configuration stands. -/
structure AtRest (s : State) : Prop where
  flights : s.flights = []
  sessions : s.lnk.sessions = []
  waiting : s.lnk.waiting = []
  pools : ∀ p < 2, (poolAt s p).waiting = []
  windows : ∀ h < 16, endWindows s h = s
  requests : ∀ t : TileId, quiesce s t false = s
  durable : s.tmp.cur = { s.tmp.durable with serDev := s.tmp.cur.serDev }
  regions : movedRegions s s = []

/-- A loop whose turns leave s leads from a state alike to one alike. -/
theorem forEach_alike_fixed {l : List α} {f : α → State → State} (fixed : ∀ x ∈ l, f x s = s)
    (hf : ∀ x s n, Alike s n → Alike (f x s) (f x n)) (h : Alike s n) : Alike s (forEach l n f) := by
  unfold forEach
  refine List.foldlRecOn (motive := Alike s) l _ h fun u hu x hx => ?_
  have step := hf x s u hu
  rwa [fixed x hx] at step

theorem mbxOutcome_alike (s : State) (code : Nat) : Alike s (mbxOutcome s code) := by
  unfold mbxOutcome
  split
  · exact ⟨_, _, _, _, _, rfl⟩
  · exact .refl s

theorem forEach_fixed {l : List α} {f : α → State → State} (fixed : ∀ x ∈ l, f x s = s) : forEach l s f = s := by
  unfold forEach
  refine List.foldlRecOn (motive := fun u => u = s) l _ rfl fun u hu x hx => ?_
  rw [hu, fixed x hx]

theorem commitWaiting_none (idle : ∀ p < 2, (poolAt s p).waiting = []) : commitWaiting s = s := by
  refine forEach_fixed fun p hp => ?_
  rw [idle p (List.mem_range.1 hp)]
  rfl

/-- The owners that a reset of the device ends. -/
def ownersEnd (s : State) : State :=
  forEach (s.counters.filterMap (fun e => if e.2.owner = 0 then none else some e.1)) s (fun c s => loseOwner s c)

theorem ownersEnd_untouched (s : State) : Untouched s (ownersEnd s) :=
  forEach_inv (P := Untouched s) (fun c u hu => hu.trans (loseOwner_untouched u c)) (.refl s)
theorem ownersEnd_msys (s : State) : (ownersEnd s).msys = s.msys :=
  forEach_inv (P := fun u => u.msys = s.msys) (fun c u hu => (loseOwner_msys u c).trans hu) rfl
theorem ownersEnd_lost {c : Nat} (owned : (ctrAt s c).owner ≠ 0) : (ctrAt (ownersEnd s) c).lost = true :=
  owners_lost (mem_ownedKeys owned) owned

/-- With nothing under way, the end of work takes the counters' owners and empties the pools. -/
theorem endWork_atRest (rest : AtRest s) (h : Alike s n) :
    ∃ u, Alike s u ∧ endWork n = writePools (commitWaiting (ownersEnd u)) := by
  have windows : Alike s (forEach (List.range 16) n (fun h s => endWindows s h)) :=
    forEach_alike_fixed (fun k hk => rest.windows k (List.mem_range.1 hk)) (fun _ _ _ => endWindows_alike) h
  have requests := forEach_alike_fixed (l := List.range 32) (f := fun t s => quiesce s (Fin.ofNat 32 t) false)
    (fun t _ => rest.requests (Fin.ofNat 32 t)) (fun _ _ _ => quiesce_alike) windows
  unfold endWork
  dsimp only
  revert requests
  generalize forEach (List.range 32) _ _ = v
  intro quiet
  have flights : v.flights = [] := (quiet.same (·.flights)).trans rest.flights
  have links : v.lnk = s.lnk := quiet.same (·.lnk)
  refine ⟨v, quiet, ?_⟩
  have landed : { v with flights := [] } = v := by rw [← flights]
  rw [flights, landed]
  simp only [forEach, List.foldl_nil, links, rest.sessions, rest.waiting, List.map_nil]
  rfl

theorem endWork_untouched (rest : AtRest s) (h : Alike s n) :
    Untouched s (endWork n) ∧ ∀ c, (ctrAt s c).owner ≠ 0 → (ctrAt (endWork n) c).lost = true := by
  obtain ⟨u, alike, e⟩ := endWork_atRest rest h
  have pools : ∀ p < 2, (poolAt (ownersEnd u) p).waiting = [] := by
    intro p hp
    rw [poolAt, ownersEnd_msys, ← poolAt, alike.same (poolAt · p), rest.pools p hp]
  rw [e, commitWaiting_none pools]
  refine ⟨(Untouched.of_alike alike).trans ((ownersEnd_untouched u).trans (writePools_untouched _)), fun c owned => ?_⟩
  refine (writePools_ends (.refl _)).lost c (ownersEnd_lost ?_)
  rwa [alike.same (ctrAt · c)]

/-- The configuration and the modes of deep memory on which the regions that pass on depend. -/
def regionProbe (cur : Cfg) (rgn : Vector Reg 32) : State :=
  { State.reset with tmp := { State.reset.tmp with cur := cur }, msys := { State.reset.msys with rgn := rgn } }
theorem movedRegions_probe (s : State) :
    movedRegions s s = movedRegions (regionProbe s.tmp.cur s.msys.rgn) (regionProbe s.tmp.cur s.msys.rgn) := rfl

/-- Nothing passes on when the configuration in force is the durable one. -/
theorem clearDurable_atRest (durable : s.tmp.cur = { s.tmp.durable with serDev := s.tmp.cur.serDev }) (none : movedRegions s s = []) :
    (clearDurable s).mem = s.mem ∧ (clearDurable s).counters = s.counters := by
  have same : { s with tmp := { s.tmp with cur := { s.tmp.durable with serDev := s.tmp.cur.serDev } } } = s := by rw [← durable]
  rw [clearDurable, same, clearMoved, none]
  refine ⟨rfl, ?_⟩
  show s.counters.filter _ = s.counters
  rw [List.filter_eq_self]
  intro e _
  show ((ctrHearth s e.1).isNone || ctrHearth s e.1 == ctrHearth s e.1) = true
  simp

/-- The state in which the device has ended at rest: its counters have lost their owners, all else that stays stands. -/
theorem endDevice_atRest (rest : AtRest s) :
    Untouched s (endDevice s 2) ∧ ∀ c, (ctrAt s c).owner ≠ 0 → (ctrAt (endDevice s 2) c).lost = true := by
  have closed := (endDevice_closed s 2).only
  have counters : (endDevice s 2).counters = (endingWork s 2).counters := (closed .counters (by decide) : _ = _ ∧ _).1
  have ending : endingWork s 2 = endWork (mbxOutcome s 0) := if_pos rfl
  obtain ⟨untouched, lost⟩ := endWork_untouched rest (mbxOutcome_alike s 0)
  refine ⟨untouched.trans (ending ▸ .of_only closed), fun c owned => ?_⟩
  rw [ctrAt, counters, ending]
  exact lost c owned

theorem zeroRange_counters (s : State) (a k : Nat) : (zeroRange s a k).counters = s.counters := rfl
theorem zeroRange_mem (s : State) (a k : Nat) : (zeroRange s a k).mem = zeroMem s.mem a k := rfl

/-- The base of a warm reset of a device at rest. -/
theorem warmBase_atRest (rest : AtRest s) : (warmBase s).tiles = (endDevice s 2).tiles ∧ (warmBase s).counters = (endDevice s 2).counters ∧
    (warmBase s).mem = zeroMem s.mem scrWin (32 * 0x2000000) := by
  obtain ⟨untouched, -⟩ := endDevice_atRest rest
  obtain ⟨⟨-, -, stored, -, -⟩, -⟩ := endDevice_keeps_store s 2
  have durable : (endDevice s 2).tmp.cur = { (endDevice s 2).tmp.durable with serDev := (endDevice s 2).tmp.cur.serDev } := by
    rw [untouched.cur, stored]
    exact rest.durable
  have regions : movedRegions (endDevice s 2) (endDevice s 2) = [] := by
    rw [movedRegions_probe, untouched.cur, untouched.rgn, ← movedRegions_probe]
    exact rest.regions
  obtain ⟨mem, counters⟩ := clearDurable_atRest durable regions
  exact ⟨warmBase_only s .tiles (by decide), (zeroRange_counters _ _ _).trans counters, by rw [warmBase, zeroRange_mem, mem, untouched.mem]⟩

/-- A warm reset of a device at rest (09, R197, R221; 10, R226; 11, R265; 19, R459). -/
theorem deviceWarm_atRest (rest : AtRest s) (on : s.pwr.off = false) (up : bit s.pwr.booted 3 = true) :
    (∀ t : TileId, tileAt (deviceWarm s) t.val = freshTile (tileAt s t.val) true) ∧
      (∀ c, (ctrAt s c).owner ≠ 0 → (ctrAt (deviceWarm s) c).lost = true ∧ (ctrAt (deviceWarm s) c).value = (ctrAt s c).value) ∧
      ∀ a, readByte (deviceWarm s).mem a = if scrWin ≤ a ∧ a < scrWin + 32 * 0x2000000 then 0 else readByte s.mem a := by
  have w := deviceWarm_warmed on up
  obtain ⟨untouched, lost⟩ := endDevice_atRest rest
  obtain ⟨tiles, counters, mem⟩ := warmBase_atRest rest
  have counter (c : Nat) : ctrAt (deviceWarm s) c = ctrAt (endDevice s 2) c := by rw [ctrAt, w.counters, counters, ctrAt]
  refine ⟨fun t => ?_, fun c owned => ?_, fun a => ?_⟩
  · rw [← untouched.tile, tileAt, w.tiles, tiles, tileAt]
    exact vget_map _ _ _ _ _ t.isLt
  · rw [counter]
    exact ⟨lost c owned, untouched.value c⟩
  · rw [w.mem, mem]
    exact readByte_zeroMem _ _ _ _

/-- What the resets of the device leave (09, R220, R221; 19, R459). -/
theorem device_resets (s : State) :
    let kept := fun (n : State) => n.stk.audit = s.stk.audit ∧ n.stk.keys = s.stk.keys ∧ n.tmp.durable = s.tmp.durable ∧
      n.lgr.bytes = s.lgr.bytes ∧ n.pending = s.pending
    let cold := fun (n : State) => n.mem = [] ∧ n.poison = [] ∧ n.cyc = 0 ∧ n.tiles = State.reset.tiles ∧ n.hearths = State.reset.hearths ∧
      n.ports = State.reset.ports ∧ n.counters = [] ∧ n.lnk = State.reset.lnk ∧ n.hif = State.reset.hif ∧ n.msys = State.reset.msys ∧
      fld n.lgr.dev 63 40 = min (2 ^ 24 - 1) (fld s.lgr.dev 63 40 + 1) ∧ fld n.lgr.dev 11 8 = 3
    (∃ n, exec .deviceColdReset s = .next n ∧ cold n ∧ kept n) ∧
    (∀ f, s.pwr.warming = some f →
      (f + 2 ^ 20 ≤ fc s → ∃ n, exec .warmResetFallback s = .next n ∧ cold n ∧ kept n ∧ n.pwr.booted = 0xE) ∧
      (fc s < f + 2 ^ 20 → exec .warmResetFallback s = .next s)) ∧
    (s.pwr.off = false → bit s.pwr.booted 3 = true →
      ∃ n, exec .deviceWarmReset s = .next n ∧ kept n ∧ n.cyc = s.cyc ∧ n.lnk.sessions = [] ∧ n.recs.ring = [] ∧ n.claims = [] ∧
        n.pwr.warming = some (fc s) ∧
        (∀ h : HearthId, (hearthAt n h.val).chk.epoch = (hearthAt s h.val).chk.epoch ∧ (hearthAt n h.val).run.locked = false) ∧
        (s.flights = [] → s.lnk.sessions = [] → s.lnk.waiting = [] → (∀ p < 2, (poolAt s p).waiting = []) →
          (∀ h < 16, endWindows s h = s) → (∀ t : TileId, quiesce s t false = s) →
          s.tmp.cur = { s.tmp.durable with serDev := s.tmp.cur.serDev } → movedRegions s s = [] →
          (∀ t : TileId, tileAt n t.val = freshTile (tileAt s t.val) true) ∧
          (∀ c, (ctrAt s c).owner ≠ 0 → (ctrAt n c).lost = true ∧ (ctrAt n c).value = (ctrAt s c).value) ∧
          ∀ a, readByte n.mem a = if scrWin ≤ a ∧ a < scrWin + 32 * 0x2000000 then 0 else readByte s.mem a)) := by
  dsimp only
  obtain ⟨cold, kept⟩ := deviceCold_leaves s
  refine ⟨⟨_, rfl, cold, kept⟩, fun f warming => ⟨fun late => ?_, fun early => ?_⟩, fun on up => ?_⟩
  · obtain ⟨cold, kept, booted⟩ := warmFallback_leaves warming late
    exact ⟨_, rfl, cold, kept, booted⟩
  · exact congrArg Host.Outcome.next (warmFallback_waits warming early)
  · obtain ⟨kept, cyc, sessions, ring, claims, warming, hearths⟩ := deviceWarm_leaves on up
    exact ⟨_, rfl, kept, cyc, sessions, ring, claims, warming, hearths, fun flights sessions waiting pools windows requests durable regions =>
      deviceWarm_atRest ⟨flights, sessions, waiting, pools, windows, requests, durable, regions⟩ on up⟩

end Sys2Proof.Machine
end

section
/-! What a reset of a hearth leaves of the scratch windows: bytes outside deep memory that are zero stay zero, and a tile without
requests stays without (09, R198; 10, R226; 13, R331). One rule for each operation, in the order of the model. -/

namespace Sys2Proof.Machine

-- Each proof is finished before the next: many short ones at once hold more threads than the check's memory has room for.
set_option Elab.async false

variable {s₀ s n : State} {α : Type}

/-- The tile has no request, and no reset of it waits for one. -/
def TileIdle (s : State) (t : Nat) : Prop := (tileAt s t).blw.reqs = [] ∧ (tileAt s t).blw.draining = none

structure WindowsStay (s n : State) : Prop where
  bytes : ∀ a, deepTop ≤ a → readByte s.mem a = 0 → readByte n.mem a = 0
  idle : ∀ t, TileIdle s t → TileIdle n t

theorem WindowsStay.refl (s : State) : WindowsStay s s := ⟨fun _ _ h => h, fun _ h => h⟩
theorem WindowsStay.trans (h : WindowsStay s₀ s) (k : WindowsStay s n) : WindowsStay s₀ n :=
  ⟨fun a high zero => k.bytes a high (h.bytes a high zero), fun t idle => k.idle t (h.idle t idle)⟩
theorem WindowsStay.of_same (h : WindowsStay s₀ s) (mem : n.mem = s.mem := by rfl) (tiles : n.tiles = s.tiles := by rfl) :
    WindowsStay s₀ n :=
  h.trans ⟨fun a _ zero => by rwa [mem], fun t idle => by rwa [TileIdle, tileAt, tiles]⟩
theorem WindowsStay.of_only {ps : List Part} (h : WindowsStay s₀ s) (only : Only ps s n)
    (apart : ∀ p ∈ [Part.mem, .tiles], p ∉ ps := by decide) : WindowsStay s₀ n := by
  have mem : n.mem = s.mem := (only .mem (apart _ (by decide)) : n.mem = s.mem ∧ _).1
  exact h.of_same mem (only .tiles (apart _ (by decide)))
theorem WindowsStay.ite {c : Prop} [Decidable c] (hs : WindowsStay s₀ s) (hn : WindowsStay s₀ n) :
    WindowsStay s₀ (if c then s else n) := by split <;> assumption
theorem forEach_windows {f : α → State → State} {l : List α} (hf : ∀ x s, WindowsStay s₀ s → WindowsStay s₀ (f x s))
    (h : WindowsStay s₀ s) : WindowsStay s₀ (forEach l s f) := forEach_inv hf h

/-! ### Units, records, memory -/

theorem modTile_windows {t : Nat} {f : Tile → Tile} (hs : WindowsStay s₀ s)
    (hf : ∀ x, x.blw.reqs = [] → x.blw.draining = none → (f x).blw.reqs = [] ∧ (f x).blw.draining = none := by
      intro x reqs draining; exact ⟨reqs, draining⟩) : WindowsStay s₀ (modTile s t f) := by
  refine hs.trans ⟨fun _ _ zero => zero, fun u idle => ?_⟩
  rw [TileIdle, tileAt_modTile]
  split
  · next e => exact hf _ (e.1 ▸ idle.1) (e.1 ▸ idle.2)
  · exact idle
theorem raise_windows {space code detail h agent arg0 arg1 arg2 alt} (hs : WindowsStay s₀ s) :
    WindowsStay s₀ (raise s space code detail h agent arg0 arg1 arg2 alt) := .of_only hs (raise_only s _ _ _ _ _ _ _ _ _)
theorem zeroRange_windows {a k} (hs : WindowsStay s₀ s) : WindowsStay s₀ (zeroRange s a k) := by
  refine hs.trans ⟨fun b _ zero => ?_, fun _ idle => idle⟩
  rw [zeroRange_mem, readByte_zeroMem]
  split
  · rfl
  · exact zero
theorem devWrite_windows {h hint addr bs} (deep : addr + bs.length ≤ deepTop) (long : 0 < bs.length)
    (w : devWrite s h hint addr bs [] = some n) : WindowsStay s n := by
  have here : place addr = .deep addr := if_pos (by omega)
  have mem : n.mem = writeMem s.mem addr bs := by
    rw [devWrite_mem w, store, here]
    rfl
  unfold devWrite at w
  rw [here] at w
  obtain ⟨u, hu, rfl⟩ := Option.map_eq_some_iff.1 w
  have stay := (noteCodes_bytesStay s addr []).trans ((touch_bytesStay hu).trans (eccDeep_bytesStay s u addr bs.length true))
  have tiles := (store_only_mem (eccDeep s u addr bs.length true).1 addr bs [] .tiles (by decide)).trans stay.tiles
  refine ⟨fun b high zero => ?_, fun t idle => ?_⟩
  · rw [mem, readByte_writeMem, if_neg (by omega)]
    exact zero
  · rw [TileIdle, tileAt, tiles]
    exact idle
theorem waitTile_windows {m : MAccess} (hs : WindowsStay s₀ s) : WindowsStay s₀ (waitTile s m) := .ite hs (.of_same hs)
theorem postWrite_windows {a h hint addr bs} (hs : WindowsStay s₀ s) (deep : addr + bs.length ≤ deepTop) (long : 0 < bs.length) :
    WindowsStay s₀ (postWrite s a h hint addr bs []) := by
  unfold postWrite
  cases w : devWrite s (Option.some h) hint addr bs [] with
  | some n => exact hs.trans (devWrite_windows deep long w)
  | none =>
    rw [Option.getD_none]
    exact waitTile_windows hs

/-! ### Windows that close (13, R331) -/

theorem phaseEntry_windows {h start tag agent kind} (hs : WindowsStay s₀ s) : WindowsStay s₀ (phaseEntry s h start tag agent kind) := by
  unfold phaseEntry
  dsimp only
  split
  · next fits =>
    have deep := of_decide_eq_true (Bool.and_eq_true_iff.1 fits).1
    refine postWrite_windows (.of_same hs) ?_ ?_
    · simpa using deep
    · simp
  · exact .ite (.of_same hs) (raise_windows (.of_same hs))
theorem endTilePhase_windows {t} (hs : WindowsStay s₀ s) : WindowsStay s₀ (endTilePhase s t) := by
  unfold endTilePhase
  split
  · exact phaseEntry_windows (modTile_windows hs)
  · exact hs
theorem endItemWindow_windows {q h i} (hs : WindowsStay s₀ s) : WindowsStay s₀ (endItemWindow s q h i) :=
  .ite (phaseEntry_windows (.of_same hs)) hs
theorem dropActive_windows {p h} (hs : WindowsStay s₀ s) : WindowsStay s₀ (dropActive s p h) := by
  unfold dropActive
  split
  · exact phaseEntry_windows (.of_same hs)
  · exact hs
theorem endWindows_windows {h} (hs : WindowsStay s₀ s) : WindowsStay s₀ (endWindows s h) := by
  have items := forEach_windows
    (l := (List.range 256).filter (fun q => queueHearth (forEach (hTiles s h) s (fun t s => endTilePhase s t)) q = some h))
    (f := fun q s => forEach (queueAt s q).items s (fun i s => endItemWindow s q h i))
    (fun _ _ hu => forEach_windows (fun _ _ => endItemWindow_windows) hu) (forEach_windows (l := hTiles s h) (f := fun t s => endTilePhase s t)
      (fun _ _ => endTilePhase_windows) hs)
  unfold endWindows
  refine forEach_windows (fun _ _ hu => dropActive_windows (forEach_windows (fun _ _ hv => ?_) hu)) (.of_same items)
  split
  · exact .ite (phaseEntry_windows hv) hv
  · exact hv

/-! ### Owners and accesses (11, R264; 09, R207) -/

theorem fixWaits_windows {c o ok} (hs : WindowsStay s₀ s) : WindowsStay s₀ (fixWaits s c o ok) := by
  have each : ∀ x : Tile, (match x.misc.wait with
      | some w => if w.ctr = c ∧ ok w.tgt ∧ endsWith w.ended w.endFc (fc s) o then
          { x with misc := { x.misc with wait := some (endWait s o w) } } else x
      | none => x).blw = x.blw := by
    intro x
    split
    · split <;> rfl
    · rfl
  refine hs.trans ⟨fun _ _ zero => zero, fun t idle => ?_⟩
  have same : (tileAt (fixWaits s c o ok) t).blw = (tileAt s t).blw := by
    unfold fixWaits tileAt vget
    dsimp only
    rw [Vector.getElem?_map]
    cases s.tiles[t]? with
    | none => rfl
    | some x => exact each x
  rwa [TileIdle, same]
theorem loseOwner_windows {c} (hs : WindowsStay s₀ s) : WindowsStay s₀ (loseOwner s c) :=
  .ite hs (raise_windows (fixWaits_windows (.of_same hs)))
theorem ownerGone_windows {code} (hs : WindowsStay s₀ s) : WindowsStay s₀ (ownerGone s code) :=
  forEach_windows (fun _ _ => loseOwner_windows) hs
theorem hearthOwnersGone_windows {h} (hs : WindowsStay s₀ s) : WindowsStay s₀ (hearthOwnersGone s h) :=
  forEach_windows (fun _ _ => loseOwner_windows) hs
theorem dropAccesses_windows {p} (hs : WindowsStay s₀ s) : WindowsStay s₀ (dropAccesses s p) := .of_only hs (dropAccesses_only s p)

/-! ### Tiles and Hob cores (09, R198; 10, R226; 11, R264) -/

theorem vmod_self {k : Nat} (v : Vector α k) (i : Nat) (f : α → α) (d : α) (h : f (vget v i d) = vget v i d) : vmod v i f = v := by
  unfold vmod
  split
  · next x hx =>
    rw [vget, hx] at h
    obtain ⟨hi, rfl⟩ := Vector.getElem?_eq_some_iff.1 hx
    rw [show f v[i] = v[i] from h]
    refine Vector.ext fun j hj => ?_
    rw [Vector.getElem_setIfInBounds]
    split
    · next e => simp only [e]
    · rfl
  · rfl
/-- Two rounds over no requests. -/
theorem rounds_idle {t : TileId} {f : Nat → State → State} (idle : (tileAt s t).blw.reqs = []) :
    forEach (List.range 2) s (fun _ s => forEach (List.range (tileAt s t).blw.reqs.length).reverse s f) = s := by
  refine forEach_fixed fun _ _ => ?_
  rw [idle]
  rfl
/-- A tile without requests has nothing to commit (10, R226). -/
theorem quiesce_idle {t : TileId} {warm} (idle : (tileAt s t).blw.reqs = []) : quiesce s t warm = s := by
  have none (f : List Req → List Req) (hf : f [] = []) : modBlw s t (fun b => { b with reqs := f b.reqs }) = s := by
    have same : vmod s.tiles t.val (fun x => { x with blw := { x.blw with reqs := f x.blw.reqs } }) = s.tiles := by
      refine vmod_self _ _ _ {} ?_
      show { tileAt s t with blw := { (tileAt s t).blw with reqs := f (tileAt s t).blw.reqs } } = tileAt s t
      rw [idle, hf, ← idle]
    rw [modBlw, modTile, same]
  have committed : commitAll s t = s := rounds_idle idle
  have forced : forEach (List.range 2) s (fun _ s => forEach (List.range (tileAt s t).blw.reqs.length).reverse s
      (fun i s => forceReq s t i)) = s := rounds_idle idle
  unfold quiesce
  dsimp only
  rw [committed, none (·.filter _) rfl, forced, none (·.map _) rfl, ite_self, idle]
  rfl
theorem temperTile_windows {t} (hs : WindowsStay s₀ s) : WindowsStay s₀ (temperTile s t) := by
  unfold temperTile
  dsimp only
  split
  · exact .of_same hs
  · exact modTile_windows (.of_same hs)
theorem resetHob_windows {c} (hs : WindowsStay s₀ s) : WindowsStay s₀ (resetHob s c) := by
  have dropped := dropAccesses_windows (p := fun m => m.agent.code == 0x200000 + c) (ownerGone_windows (code := 0x200000 + c) hs)
  have lines := Only.forEach (List.range 2) (fun p s => modPool s p (fun x => { x with tiles := x.tiles.map (fun m => { m with
    hobs := m.hobs.filterMap (fun e => let k := e.2 &&& ~~~(1#16 <<< c); if k = 0 then none else some (e.1, k)) }) }))
    (fun p u => modPool_only u p _) (dropAccesses (ownerGone s (0x200000 + c)) (fun m => m.agent.code == 0x200000 + c))
  unfold resetHob
  dsimp only
  exact .of_same (.of_only dropped lines)

end Sys2Proof.Machine
end

section
/-! The resets of a hearth (09, R220; 11, R264; 16, R384, R392, Table 16-17; 17, R416; 19, R457). -/

namespace Sys2Proof.Machine

variable {s₀ s n : State} {α : Type}

/-! ### The work of the hearth ends -/

/-- The tiles of the hearth are reset when its windows, its jobs and its sends have ended. -/
def tilesReset (s : State) (h : Nat) (warm : Bool) : State :=
  forEach (hTiles s h) s (fun t s => resetTile s t warm)
def hobsReset (s : State) (h : Nat) : State := forEach (hHobs s h) s (fun c s => resetHob s c)
def sendsEnded (s : State) (h : Nat) (warm : Bool) : State :=
  let s := dropHearthSends (forEach (List.range 12) (endWindows s h) (fun p s => quenchStop s p h)) h warm
  if warm then s else leaveBooks s h
/-- The hearth's work has ended and its counters have lost their owners. -/
def hearthEnded (s : State) (h : Nat) (warm : Bool) : State :=
  hearthOwnersGone (hobsReset (tilesReset (sendsEnded s h warm) h warm) h) h
/-- Its registers are fresh. -/
def hearthFresh (s : State) (h : Nat) (warm : Bool) : State :=
  forEach (List.range 12) (modHearth s h (fun x => freshHearth x warm)) (fun p s => modPort s p (fun x => { x with ring2 := vput x.ring2 h 0 }))
def regionsZero (s : State) (h : Nat) : State := forEach (setBits (hsec s h).h.regions) s (fun r s => zeroRegion s r)
def ringsFresh (s : State) (h : Nat) : State :=
  forEach (List.range 12) s (fun p s => modPort s p (fun x => { x with ring0 := vput x.ring0 h 6, ring1 := vput x.ring1 h 0 }))
/-- After a cold reset its memory and its rings are fresh, too. -/
def hearthCleared (s : State) (h : Nat) (warm : Bool) : State :=
  if warm then hearthFresh s h warm else ringsFresh (regionsZero (hearthFresh s h warm) h) h
/-- Its queues wait for recovery. -/
def queuesReset (s : State) (h : Nat) (warm : Bool) : State :=
  forEach (setBits (hsec s h).h.queues) s (fun q s => queueReset s q (if warm then 0 else 1) qRECOVERING)
/-- The configuration is applied, the hearth is locked and the reset is counted. -/
def hearthLocked (s : State) (h : Nat) (warm : Bool) : State :=
  countReset (modRun (temperRegs (temperHearth s h) h) h (fun r => { r with locked := true })) (if warm then 0 else 1)

theorem hearthReset_eq {h : Nat} {warm : Bool} (low : h < 16) (on : hOn s h = true) (idle : s.tmp.st = .idle)
    (durable : vget s.tmp.durable.hearths h {} = hsec s h) :
    hearthReset s h warm = recompute (hearthLocked (queuesReset (hearthCleared (hearthEnded s h warm) h warm) h warm) h warm) := by
  have image : imageOf s h = false := by simp [imageOf, idle]
  have stands : vget (durableOf s 1 h).hearths h {} = hsec s h := by
    rw [show (durableOf s 1 h).hearths = vput s.tmp.cur.hearths h (vget s.tmp.durable.hearths h {}) from rfl, vget_vput, if_pos ⟨rfl, low⟩, durable]
  have off : ¬ (!hOn s h) = true := by simp [on]
  rw [hearthReset, if_neg off, image]
  simp only [Bool.false_eq_true, if_false, stands, if_true]
  rfl

theorem sendsEnded_ends (hs : Ends s₀ s) {h warm} : Ends s₀ (sendsEnded s h warm) := by
  have sends : Ends s₀ (dropHearthSends (forEach (List.range 12) (endWindows s h) (fun p s => quenchStop s p h)) h warm) :=
    .update (forEach_ends (fun _ _ => quenchStop_ends) (endWindows_ends hs))
  exact .ite sends (.update sends)
theorem hearthEnded_ends (hs : Ends s₀ s) {h warm} : Ends s₀ (hearthEnded s h warm) :=
  hearthOwnersGone_ends (forEach_ends (fun _ _ => resetHob_ends) (forEach_ends (fun _ _ => resetTile_ends) (sendsEnded_ends hs)))

theorem hsec_congr (cur : n.tmp.cur = s.tmp.cur) (h : Nat) : hsec n h = hsec s h := by rw [hsec, hsec, cur]
theorem hTiles_congr (cur : n.tmp.cur = s.tmp.cur) (h : Nat) : hTiles n h = hTiles s h := by
  rw [hTiles, hTiles, hOn, hOn, hsec_congr cur]
theorem ctrIn_congr (cur : n.tmp.cur = s.tmp.cur) (h k : Nat) : ctrIn n h k = ctrIn s h k := by simp only [ctrIn, hsec_congr cur]

/-- Every owned counter of the hearth's range has lost its owner (11, R264). -/
theorem hearthEnded_lost {h k : Nat} {warm : Bool} (within : ctrIn s h k = true) (owned : (ctrAt s k).owner ≠ 0) :
    (ctrAt (hearthEnded s h warm) k).lost = true := by
  have ends : Ends s (hobsReset (tilesReset (sendsEnded s h warm) h warm) h) :=
    forEach_ends (fun _ _ => resetHob_ends) (forEach_ends (fun _ _ => resetTile_ends) (sendsEnded_ends (.refl s)))
  unfold hearthEnded
  revert ends
  generalize hobsReset _ h = u
  intro ends
  have still : (ctrAt u k).owner ≠ 0 := by rwa [ends.owner]
  obtain ⟨x, hx, hn⟩ := owned_mem still
  refine owners_lost (List.mem_filterMap.2 ⟨(k, x), hx, if_pos ⟨?_, hn⟩⟩) still
  rwa [ctrIn_congr ends.cur]

/-! ### The scratch windows of its tiles (09, R198) -/

/-- The window of a tile is zero. -/
def WindowZero (s : State) (t : Nat) : Prop := ∀ o < 0x2000000, readByte s.mem (winBase t + o) = 0

theorem WindowsStay.zero {t : Nat} (h : WindowsStay s n) (zero : WindowZero s t) : WindowZero n t :=
  fun o ho => h.bytes _ (by unfold deepTop winBase scrWin; omega) (zero o ho)
theorem resetTile_windows {t : Nat} {warm : Bool} (ht : t < 32) (idle : TileIdle s t) :
    WindowsStay s (resetTile s t warm) ∧ WindowZero (resetTile s t warm) t := by
  have closed := endTilePhase_windows (t := t) (.refl s)
  have quiet : quiesce (endTilePhase s t) (Fin.ofNat 32 t) warm = endTilePhase s t := by
    refine quiesce_idle ?_
    have same : (Fin.ofNat 32 t).val = t := Nat.mod_eq_of_lt ht
    rw [same]
    exact (closed.idle t idle).1
  have ended := dropAccesses_windows (p := fun m => m.agent.code == 0x100000 + t && !m.wr) (ownerGone_windows (code := 0x100000 + t) closed)
  unfold resetTile
  dsimp only
  rw [quiet]
  revert ended
  generalize dropAccesses _ _ = u
  intro ended
  have fresh : WindowsStay s (modTile u t (fun x => freshTile x warm)) := by
    refine modTile_windows ended fun x reqs draining => ?_
    have kept : (freshTile x warm).blw = {} := by
      rw [freshTile, draining]
      cases warm <;> rfl
    rw [kept]
    exact ⟨rfl, rfl⟩
  have drained : ¬ (tileAt (modTile u t (fun x => freshTile x warm)) t).blw.draining.isSome := by
    rw [(fresh.idle t idle).2]
    simp
  rw [if_neg drained]
  refine ⟨temperTile_windows (zeroRange_windows fresh), (temperTile_windows (.refl _)).zero fun o ho => ?_⟩
  rw [zeroRange_mem, readByte_zeroMem, if_pos (by omega)]

/-- The windows of the tiles in a list are reset, the tiles being idle. -/
theorem resetTiles_windows {l : List Nat} {warm : Bool} (low : ∀ t ∈ l, t < 32) (idle : ∀ t ∈ l, TileIdle s t) :
    WindowsStay s (forEach l s (fun t s => resetTile s t warm)) ∧ ∀ t ∈ l, WindowZero (forEach l s (fun t s => resetTile s t warm)) t := by
  induction l generalizing s with
  | nil => exact ⟨.refl s, fun _ h => nomatch h⟩
  | cons k l ih =>
    obtain ⟨first, zero⟩ := resetTile_windows (warm := warm) (low k List.mem_cons_self) (idle k List.mem_cons_self)
    obtain ⟨rest, zeros⟩ := ih (s := resetTile s k warm) (fun t ht => low t (List.mem_cons_of_mem _ ht))
      (fun t ht => first.idle t (idle t (List.mem_cons_of_mem _ ht)))
    refine ⟨first.trans rest, fun t ht => ?_⟩
    rcases List.mem_cons.1 ht with rfl | later
    · exact rest.zero zero
    · exact zeros t later

theorem dropHearthSends_windows {h warm} (hs : WindowsStay s₀ s) : WindowsStay s₀ (dropHearthSends s h warm) := .of_same hs
theorem leaveBooks_windows {h} (hs : WindowsStay s₀ s) : WindowsStay s₀ (leaveBooks s h) := .of_same hs
theorem sendsEnded_windows {h : Nat} {warm : Bool} : WindowsStay s (sendsEnded s h warm) := by
  have jobs : WindowsStay s (forEach (List.range 12) (endWindows s h) (fun p s => quenchStop s p h)) :=
    forEach_windows (fun _ _ hu => .of_same hu) (endWindows_windows (.refl s))
  exact .ite (dropHearthSends_windows jobs) (leaveBooks_windows (dropHearthSends_windows jobs))

theorem hearthEnded_windows {h t : Nat} {warm : Bool} (idle : ∀ t ∈ hTiles s h, TileIdle s t) (ht : t ∈ hTiles s h) :
    WindowZero (hearthEnded s h warm) t := by
  have stay := sendsEnded_windows (s := s) (h := h) (warm := warm)
  have tiles : hTiles (sendsEnded s h warm) h = hTiles s h := hTiles_congr (sendsEnded_ends (.refl s)).cur h
  have low : ∀ u ∈ hTiles s h, u < 32 := by
    intro u hu
    rw [hTiles] at hu
    split at hu
    · exact lt_of_mem_setBits hu
    · nomatch hu
  obtain ⟨-, zero⟩ := resetTiles_windows (s := sendsEnded s h warm) (warm := warm) low fun u hu => stay.idle u (idle u hu)
  have reset : WindowZero (tilesReset (sendsEnded s h warm) h warm) t := by
    rw [tilesReset, tiles]
    exact zero t ht
  exact (hearthOwnersGone_windows (forEach_windows (fun _ _ => resetHob_windows) (.refl _))).zero reset

end Sys2Proof.Machine
end

section
/-! What the resets of a hearth leave of its memory, its queues, its lock and the counts of the ledger (09, R220; 16, R384, R392,
R393, Table 16-17; 17, R416). -/

namespace Sys2Proof.Machine

variable {s n : State}

/-! ### Memory that becomes fresh (09, R220) -/

theorem zeroRegion_byte {r a : Nat} (zero : regionOf a = r ∨ readByte s.mem a = 0) : readByte (zeroRegion s r).mem a = 0 := by
  have mem : (zeroRegion s r).mem = zeroMem s.mem (r * 0x600000000) 0x600000000 := by
    have dropped : _ ∧ _ := dropAccesses_only s (fun m => decide (m.addr < deepTop) && decide (regionOf m.addr = r)) .mem (by decide)
    have pools (u : State) (f : Pool → Pool) : (forEach (List.range 2) u (fun p s => modPool s p f)).mem = u.mem :=
      forEach_inv (P := fun v => v.mem = u.mem) (fun _ _ hv => hv) rfl
    rw [zeroRegion, zeroRange_mem, pools, dropped.1]
  rw [mem, readByte_zeroMem]
  split
  · rfl
  · next out =>
    refine zero.resolve_left fun here => out ?_
    unfold regionOf at here
    omega
theorem zeroRegions_byte {l : List Nat} {a : Nat} (zero : regionOf a ∈ l ∨ readByte s.mem a = 0) :
    readByte (forEach l s (fun r s => zeroRegion s r)).mem a = 0 := by
  induction l generalizing s with
  | nil => exact zero.resolve_left (List.not_mem_nil)
  | cons r l ih =>
    rw [forEach_cons]
    refine ih ?_
    rcases zero with within | zero
    · rcases List.mem_cons.1 within with here | later
      · exact .inr (zeroRegion_byte (.inl here))
      · exact .inl later
    · exact .inr (zeroRegion_byte (.inr zero))

theorem modPorts_only (s : State) (f : Nat → Port → Port) : Only [.ports] s (forEach (List.range 12) s (fun p s => modPort s p (f p))) :=
  Only.forEach _ _ (fun p u => modPort_only u p (f p)) s
theorem hearthFresh_only (s : State) (h : Nat) (warm : Bool) : Only [.hearths, .ports] s (hearthFresh s h warm) :=
  Only.trans ((modHearth_only _ _ _).mono (by decide)) ((modPorts_only _ _).mono (by decide))
theorem ringsFresh_only (s : State) (h : Nat) : Only [.ports] s (ringsFresh s h) := modPorts_only _ _
theorem regionsZero_only (s : State) (h : Nat) : Only [.mem, .msys] s (regionsZero s h) := Only.forEach _ _ (fun r u => zeroRegion_only u r) s
/-- The parts that become fresh. -/
theorem hearthCleared_only (s : State) (h : Nat) (warm : Bool) : Only [.hearths, .ports, .mem, .msys] s (hearthCleared s h warm) := by
  have fresh := (hearthFresh_only s h warm).mono (qs := [.hearths, .ports, .mem, .msys]) (by decide)
  exact .ite fresh (fresh.trans (((regionsZero_only _ _).mono (by decide)).trans ((ringsFresh_only _ _).mono (by decide))))

/-- What is zero outside deep memory stays zero, and so do the regions of the hearth after a cold reset. -/
theorem hearthCleared_byte {h a : Nat} {warm : Bool}
    (zero : readByte s.mem a = 0 ∨ (warm = false ∧ regionOf a ∈ setBits (hsec s h).h.regions)) :
    readByte (hearthCleared s h warm).mem a = 0 := by
  have fresh := hearthFresh_only s h warm
  have same : (hearthFresh s h warm).mem = s.mem ∧ _ := fresh .mem (by decide)
  have tmp : (hearthFresh s h warm).tmp = s.tmp := fresh .tmp (by decide)
  unfold hearthCleared
  cases warm with
  | true =>
    rw [if_pos rfl, same.1]
    exact zero.resolve_right fun h => nomatch h.1
  | false =>
    have rings : (ringsFresh (regionsZero (hearthFresh s h false) h) h).mem = _ ∧ _ := ringsFresh_only _ h .mem (by decide)
    rw [if_neg Bool.false_ne_true, rings.1]
    refine zeroRegions_byte ?_
    rw [hsec_congr (congrArg (·.cur) tmp), same.1]
    exact zero.symm.imp_left And.right

/-! ### Queues that wait for recovery (16, R392, R393) -/

/-- The queue waits for recovery and holds no item. -/
def Recovering (s : State) (q : Nat) : Prop := qState (queueAt s q) = qRECOVERING ∧ (queueAt s q).items = []

theorem queueReset_queue (s : State) (q : QueueId) (k cls : Nat) (en : qEn (queueAt s q.val) = true) :
    qEn (queueAt (queueReset s k cls qRECOVERING) q.val) = true ∧
      (k = q.val ∨ Recovering s q.val → Recovering (queueReset s k cls qRECOVERING) q.val) := by
  by_cases here : k = q.val
  · subst here
    have same : queueAt (queueReset s q.val cls qRECOVERING) q.val = _ := queueAt_modQueue_self s q _
    unfold Recovering
    rw [same]
    refine ⟨?_, fun _ => ⟨?_, rfl⟩⟩
    · exact (bit_setFld_apart _ _ (by decide) (by decide)).trans en
    · rw [qState, if_pos en]
      show fld (BitVec.ofNat 64 qRECOVERING) 1 0 = qRECOVERING
      decide
  · have other : queueAt (queueReset s k cls qRECOVERING) q.val = queueAt s q.val := by
      rw [queueReset, queueAt_modQueue, if_neg fun e => here e.1.symm]
    unfold Recovering
    rw [other]
    exact ⟨en, fun h => h.resolve_left here⟩
theorem queueResets_recover {l : List Nat} {cls : Nat} (q : QueueId) (en : qEn (queueAt s q.val) = true)
    (h : q.val ∈ l ∨ Recovering s q.val) : Recovering (forEach l s (fun k s => queueReset s k cls qRECOVERING)) q.val := by
  induction l generalizing s with
  | nil => exact h.resolve_left (List.not_mem_nil)
  | cons k l ih =>
    obtain ⟨en', done⟩ := queueReset_queue s q k cls en
    rw [forEach_cons]
    refine ih en' ?_
    rcases h with within | already
    · rcases List.mem_cons.1 within with here | later
      · exact .inr (done (.inl here.symm))
      · exact .inl later
    · exact .inr (done (.inr already))

/-! ### The configuration, the lock and the count (16, Table 16-17; 17, R416) -/

theorem queuesReset_only (s : State) (h : Nat) (warm : Bool) : Only [.queues] s (queuesReset s h warm) :=
  Only.forEach _ _ (fun q u => modQueue_only u q _) s

/-- The hearth is locked, the reset is counted, and no queue and no counter changes. -/
theorem hearthLocked_leaves (s : State) (h : HearthId) (warm : Bool) :
    let n := recompute (hearthLocked s h.val warm)
    (hearthAt n h.val).run.locked = true ∧ n.mem = s.mem ∧ n.counters = s.counters ∧
      (∀ q, (queueAt n q).stat = (queueAt s q).stat ∧ (queueAt n q).items = (queueAt s q).items) ∧
      n.lgr = (countReset s (if warm then 0 else 1)).lgr := by
  have regs := temperRegs_tuned (temperHearth_tuned (h := h.val) (.refl s)) (h := h.val)
  unfold hearthLocked
  revert regs
  generalize temperRegs (temperHearth s h.val) h.val = u
  intro regs
  have locked : (hearthAt (modRun u h.val (fun r => { r with locked := true })) h.val).run.locked = true := by
    rw [modRun, hearthAt_modHearth_self]
  have last := recompute_tuned (.refl (countReset (modRun u h.val (fun r => { r with locked := true })) (if warm then 0 else 1)))
  have mem : u.mem = s.mem ∧ _ := regs.only .mem (by decide)
  have counters : u.counters = s.counters ∧ _ := regs.only .counters (by decide)
  have lgr : u.lgr = s.lgr := regs.only .lgr (by decide)
  dsimp only
  revert last
  generalize recompute _ = n
  intro last
  have mem' : n.mem = u.mem ∧ _ := last.only .mem (by decide)
  have counters' : n.counters = u.counters ∧ _ := last.only .counters (by decide)
  refine ⟨(last.locked h.val).trans locked, mem'.1.trans mem.1, counters'.1.trans counters.1,
    fun q => ⟨(last.stat q).trans (regs.stat q), (last.items q).trans (regs.items q)⟩, ?_⟩
  refine Eq.trans (last.only .lgr (by decide)) ?_
  simp only [countReset, modLgr, modRun_lgr, lgr]

/-! ### The reset -/

/-- What a reset of a hearth leaves. -/
structure HearthAfter (s n : State) (h : Nat) (warm : Bool) : Prop where
  locked : (hearthAt n h).run.locked = true
  lost : ∀ k, ctrIn s h k = true → (ctrAt s k).owner ≠ 0 → (ctrAt n k).lost = true
  queues : ∀ q : QueueId, bit (hsec s h).h.queues q.val = true → qEn (queueAt s q.val) = true → Recovering n q.val
  windows : (∀ t ∈ hTiles s h, TileIdle s t) → ∀ t ∈ hTiles s h, WindowZero n t
  deep : warm = false → ∀ a < deepTop, regionHearth s (regionOf a) = some h → readByte n.mem a = 0
  lgr : n.lgr = (countReset s (if warm then 0 else 1)).lgr

theorem mem_setBits {k i : Nat} {x : BitVec k} (h : bit x i = true) : i ∈ setBits x :=
  List.mem_filter.2 ⟨List.mem_range.2 (BitVec.lt_of_getLsbD h), h⟩
theorem regionHearth_bit {r h : Nat} (owner : regionHearth s r = some h) : bit (hsec s h).h.regions r = true := by
  have found := List.find?_some owner
  exact (Bool.and_eq_true_iff.1 found).2

theorem hearthReset_leaves {h : HearthId} {warm : Bool} (on : hOn s h.val = true) (idle : s.tmp.st = .idle)
    (durable : vget s.tmp.durable.hearths h.val {} = hsec s h.val) : HearthAfter s (hearthReset s h.val warm) h.val warm := by
  rw [hearthReset_eq h.isLt on idle durable]
  have ends := hearthEnded_ends (h := h.val) (warm := warm) (.refl s)
  have lost := fun k => hearthEnded_lost (s := s) (h := h.val) (k := k) (warm := warm)
  have windows := fun t => hearthEnded_windows (s := s) (h := h.val) (t := t) (warm := warm)
  generalize hearthEnded s h.val warm = u at ends lost windows
  have cleared := hearthCleared_only u h.val warm
  have byte := fun a => hearthCleared_byte (s := u) (h := h.val) (a := a) (warm := warm)
  generalize hearthCleared u h.val warm = v at cleared byte
  have reset := queuesReset_only v h.val warm
  have tmp : v.tmp = u.tmp := cleared .tmp (by decide)
  have cur : v.tmp.cur = s.tmp.cur := (congrArg (·.cur) tmp).trans ends.cur
  have recovering (q : QueueId) (own : bit (hsec s h.val).h.queues q.val = true) (en : qEn (queueAt s q.val) = true) :
      Recovering (queuesReset v h.val warm) q.val := by
    have queues : v.queues = u.queues := cleared .queues (by decide)
    refine queueResets_recover q ?_ (.inl ?_)
    · rw [queueAt, queues]
      exact (ends.queue q.val).trans en
    · rw [hsec_congr cur]
      exact mem_setBits own
  generalize queuesReset v h.val warm = w at reset recovering
  obtain ⟨locked, mem, counters, kept, lgr⟩ := hearthLocked_leaves w h warm
  have wmem : w.mem = v.mem ∧ _ := reset .mem (by decide)
  have zero {a : Nat} (h0 : readByte u.mem a = 0 ∨ (warm = false ∧ regionOf a ∈ setBits (hsec u h.val).h.regions)) :
      readByte (recompute (hearthLocked w h.val warm)).mem a = 0 := by
    rw [mem, wmem.1]
    exact byte a h0
  refine ⟨locked, fun k within owned => ?_, fun q own en => ?_, fun still t ht o ho => zero (.inl (windows t still ht o ho)),
    fun cold a _ owner => zero (.inr ⟨cold, ?_⟩), ?_⟩
  · have first : v.counters = u.counters ∧ _ := cleared .counters (by decide)
    have second : w.counters = v.counters ∧ _ := reset .counters (by decide)
    rw [ctrAt, counters, second.1, first.1]
    exact lost k within owned
  · obtain ⟨state, items⟩ := recovering q own en
    obtain ⟨stat, same⟩ := kept q.val
    exact ⟨by rw [qState, stat]; exact state, same.trans items⟩
  · rw [hsec_congr ends.cur]
    exact mem_setBits (regionHearth_bit owner)
  · have first : v.lgr = u.lgr := cleared .lgr (by decide)
    have second : w.lgr = v.lgr := reset .lgr (by decide)
    rw [lgr]
    simp only [countReset, modLgr, second, first, ends.lgr]

/-- What the resets of a hearth leave (09, R220; 16, R392, Table 16-17; 19, R457). -/
theorem hearth_resets (s : State) (h : HearthId) (on : hOn s h.val = true) (idle : s.tmp.st = .idle)
    (durable : vget s.tmp.durable.hearths h.val {} = hsec s h.val) :
    let ends := fun (c : Instr) (warm : Bool) => ∃ n, exec c s = .next n ∧ (hearthAt n h.val).run.locked = true ∧
      (∀ k, ctrIn s h.val k = true → (ctrAt s k).owner ≠ 0 → (ctrAt n k).lost = true) ∧
      (∀ q : QueueId, bit (hsec s h.val).h.queues q.val = true → qEn (queueAt s q.val) = true →
        qState (queueAt n q.val) = qRECOVERING ∧ (queueAt n q.val).items = []) ∧
      ((∀ t ∈ hTiles s h.val, (tileAt s t).blw.reqs = [] ∧ (tileAt s t).blw.draining = none) →
        ∀ t ∈ hTiles s h.val, ∀ o < 0x2000000, readByte n.mem (winBase t + o) = 0) ∧
      (warm = false → ∀ a < deepTop, regionHearth s (regionOf a) = some h.val → readByte n.mem a = 0) ∧
      fld n.lgr.dev 11 8 = (if warm then 0 else 1) ∧
      (warm = true → fld n.lgr.dev 39 16 = min (2 ^ 24 - 1) (fld s.lgr.dev 39 16 + 1)) ∧
      (warm = false → fld n.lgr.dev 63 40 = min (2 ^ 24 - 1) (fld s.lgr.dev 63 40 + 1))
    ends (.hearthWarmReset h) true ∧ ends (.hearthColdReset h) false := by
  dsimp only
  have after (warm : Bool) := hearthReset_leaves (warm := warm) on idle durable
  refine ⟨⟨hearthReset s h.val true, rfl, ?_⟩, ⟨hearthReset s h.val false, rfl, ?_⟩⟩
  · obtain ⟨locked, lost, queues, windows, deep, lgr⟩ := after true
    rw [lgr]
    exact ⟨locked, lost, queues, windows, deep, countReset_class s (cls := 0) (by decide),
      fun _ => countReset_warm s (cls := 0) rfl, fun h => nomatch h⟩
  · obtain ⟨locked, lost, queues, windows, deep, lgr⟩ := after false
    rw [lgr]
    exact ⟨locked, lost, queues, windows, deep, countReset_class s (cls := 1) (by decide),
      fun h => absurd h Bool.false_ne_true, fun _ => countReset_cold s (cls := 1) (by decide)⟩

/-- Settles O44: the states of the functions, the steps of a boot, and what the resets leave. -/
theorem functionsBootAndResets : Obligations.FunctionsBootAndResets :=
  fun s => ⟨functions_move s, boot_moves s, device_resets s, hearth_resets s⟩

end Sys2Proof.Machine
end

section
/-! Fetch and issue of the words of a command stream (10, R233). -/

namespace Sys2Proof.Machine

variable {s u : State} {t : TileId} {w : Word128}

/-- A command that carries a tile instruction issues its word as the opcode of the word says. -/
theorem issueCmd_issueWord {op : Nat} {f : State → Issue} (carries : wf w 127 120 = op) (names : issueOf t.val w = some f) :
    issueCmd op t.val w f s = .next (issueWord s t.val w) := by
  rw [issueCmd, opOf_wf, if_pos carries, issueWord, names]

theorem csWordIssue_held (runs : csState s t.val = 1) (held : (tileAt s t.val).blw.pend = some w) :
    csWordIssue s t = issueWord s t.val w := by
  simp only [csWordIssue, csRunning, runs, held, ne_eq, not_true_eq_false, if_false]

/-- A word within the limit that the hearth of the tile may read issues as its 16 bytes say. -/
theorem csWordIssue_fetched {h : Nat} {bs : List Byte} {ps : List Nat} (runs : csState s t.val = 1)
    (free : (tileAt s t.val).blw.pend = none) (below : csWord s t.val < fld (tileAt s t.val).blw.csLim 31 0)
    (run : tileRuns s t.val = true) (role : tileRole s t.val ≠ 2) (owned : tileHearth s t.val = some h)
    (within : reach s (some h) (16 * (fld (tileAt s t.val).blw.csBase 39 0 + csWord s t.val)) 16 = true)
    (read : devRead s (some h) .alloc (16 * (fld (tileAt s t.val).blw.csBase 39 0 + csWord s t.val)) 16 [] = some (u, bs, ps)) :
    csWordIssue s t = issueWord u t.val (word128 bs) := by
  simp only [csWordIssue, csRunning, runs, free, below, run, role, owned, within, read, ne_eq, not_true_eq_false, not_false_eq_true,
    and_self, if_true, if_false, Option.isNone_some, Bool.false_eq_true, Bool.not_true, or_self]

/-- Settles O18: a held word issues as it is, another as it is fetched, and the command of each instruction issues its word by the
opcode that the word names. -/
theorem streamsFetchAndIssue : Obligations.StreamsFetchAndIssue := by
  refine ⟨fun s t runs => ⟨fun w held => ?held, fun h u bs ps free below run role owned within read => ?fetched⟩, fun s t w => ?named⟩
  case held => exact congrArg Host.Outcome.next (csWordIssue_held runs held)
  case fetched => exact congrArg Host.Outcome.next (csWordIssue_fetched runs free below run role owned within read)
  case named =>
    dsimp only
    repeat' apply And.intro
    all_goals exact fun op => issueCmd_issueWord op (by rw [issueOf, opOf_wf, op]; rfl)

end Sys2Proof.Machine
end

section
/-! Words of a bellows thread (10, R223, R224, R229, R234, R235, Table 10-3): a thread that stands at its word takes its turn, and the
word's outcome says where it goes on. -/

namespace Sys2Proof.Machine

variable {s n : State} {th : ThreadId} {h k : Nat} {x y : Thread} {w : BWord} {f : State → Nat → Thread → BWord → TRes}

/-! ### The rights of the hearths and of the devices -/

/-- Nothing differs that says who may reach what: the sections in force, the device numbers, and the pair and the lent scratch of
each tile (00, R8; 09, R201; 12, R299). -/
structure SameRights (s n : State) : Prop where
  cur : n.tmp.cur = s.tmp.cur
  topo : n.lnk.topo = s.lnk.topo
  ids : n.lnk.ids = s.lnk.ids
  pair : ∀ u, (tileAt n u).misc.chkTcfg = (tileAt s u).misc.chkTcfg
  lend : ∀ u, (tileAt n u).misc.lend = (tileAt s u).misc.lend

namespace SameRights

theorem refl (s : State) : SameRights s s := ⟨rfl, rfl, rfl, fun _ => rfl, fun _ => rfl⟩
theorem trans {m : State} (r : SameRights s n) (q : SameRights n m) : SameRights s m :=
  ⟨q.cur.trans r.cur, q.topo.trans r.topo, q.ids.trans r.ids, fun u => (q.pair u).trans (r.pair u),
    fun u => (q.lend u).trans (r.lend u)⟩

theorem modBlw (s : State) (t : Nat) (f : Bellows → Bellows) : SameRights s (modBlw s t f) := by
  have misc (u : Nat) : (tileAt (Machine.modBlw s t f) u).misc = (tileAt s u).misc := by
    rw [Machine.modBlw, tileAt_modTile]
    split
    · next e => rw [e.1]
    · rfl
  exact ⟨rfl, rfl, rfl, fun u => congrArg _ (misc u), fun u => congrArg _ (misc u)⟩

variable (r : SameRights s n)
include r

theorem isLocal (a : Nat) : isLocal n a = isLocal s a := by simp only [Machine.isLocal, devNo, r.topo]
theorem admitted (d : Nat) : admitted n d = admitted s d := by simp only [Machine.admitted, revoked, r.cur, r.ids]
theorem tileRole (t : Nat) : tileRole n t = tileRole s t := by simp only [Machine.tileRole, r.pair]
theorem tileHearth (t : Nat) : tileHearth n t = tileHearth s t := by
  simp only [Machine.tileHearth, ownerBy, hOn, hsec, r.cur]
theorem regionHearth (a : Nat) : regionHearth n a = regionHearth s a := by
  simp only [Machine.regionHearth, ownerBy, hOn, hsec, r.cur]
theorem ctrIn (h c : Nat) : ctrIn n h c = ctrIn s h c := by unfold Machine.ctrIn hsec; rw [r.cur]
theorem scrSize (t : Nat) : scrSize n t = scrSize s t := by simp only [Machine.scrSize, r.lend]
theorem inScratch (t off k : Nat) : inScratch n t off k = inScratch s t off k := by simp only [Machine.inScratch, r.scrSize]
theorem winOk (h : Option Nat) (t lo hi : Nat) : winOk n h t lo hi = winOk s h t lo hi := by
  simp only [Machine.winOk, r.scrSize, r.tileRole, r.tileHearth]
theorem reach (h : Option Nat) (a k : Nat) : reach n h a k = reach s h a k := by
  simp only [Machine.reach, r.regionHearth, r.winOk]
theorem lOk (h a k : Nat) : lOk n h a k = lOk s h a k := by simp only [Machine.lOk, r.isLocal, r.reach]
theorem gOk (h a k : Nat) : gOk n h a k = gOk s h a k := by simp only [Machine.gOk, r.isLocal, r.reach, r.admitted]
theorem tileNamed (h own : Nat) (w : BWord) (k : Nat) : tileNamed n h own w k = tileNamed s h own w k := by
  simp only [Machine.tileNamed, r.tileHearth]
theorem landMask (t dst : Nat) : landMask n t dst = landMask s t dst := by simp only [Machine.landMask, r.isLocal]

end SameRights

/-! ### A turn -/

theorem tookTurn_modBlw (s : State) (th : ThreadId) :
    tookTurn s th = modBlw s th.tile.val (fun b => { b with turns := put b.turns th.core.val th.thr.val }) := by
  rw [modBlw, modTile_put]
  rfl

theorem tookTurn_rights (s : State) (th : ThreadId) : SameRights s (tookTurn s th) := by
  rw [tookTurn_modBlw]
  exact .modBlw _ _ _

theorem tookTurn_only (s : State) (th : ThreadId) : Only [.tiles] s (tookTurn s th) := putTile_only _ _ _
theorem tookTurn_onlyTile (s : State) (th : ThreadId) : OnlyTile th.tile.val s (tookTurn s th) := putTile_onlyTile _ _ _

/-- What a turn changes of the bellows of a tile is whose turn it was. -/
theorem blw_tookTurn (s : State) (th : ThreadId) (u : Nat) :
    ∃ l, (tileAt (tookTurn s th) u).blw = { (tileAt s u).blw with turns := l } := by
  rw [tookTurn_modBlw, modBlw, tileAt_modTile]
  split
  · next e => exact ⟨_, by rw [e.1]⟩
  · exact ⟨_, rfl⟩

theorem reqs_tookTurn (s : State) (th : ThreadId) (u : Nat) : (tileAt (tookTurn s th) u).blw.reqs = (tileAt s u).blw.reqs := by
  obtain ⟨l, e⟩ := blw_tookTurn s th u
  rw [e]

theorem reqsOf_tookTurn (s : State) (th : ThreadId) (u core thr : Nat) :
    reqsOf (tileAt (tookTurn s th) u) core thr = reqsOf (tileAt s u) core thr := by
  simp only [reqsOf, reqs_tookTurn]

theorem mark_tookTurn (s : State) (th : ThreadId) (u : Nat) : (tileAt (tookTurn s th) u).blw.mark = (tileAt s u).blw.mark := by
  obtain ⟨l, e⟩ := blw_tookTurn s th u
  rw [e]

/-- Where a thread that had its turn goes on, by what its word came to (10, R223, R235). -/
def wordEnds (s : State) (th : ThreadId) : TRes → State
  | .next s' x' => thGo s' th x' (x'.pc + 1) s
  | .jump s' x' pc => thGo s' th x' pc s
  | .wait s' x' => setThread s' th.tile.val th.core.val th.thr.val (some { x' with st := .wait })
  | .stay s' x' => setThread s' th.tile.val th.core.val th.thr.val (some x')
  | .fault s' c d a => thFault s' th c d a
  | .idle s' => setThread s' th.tile.val th.core.val th.thr.val none

/-- A thread at its word executes it, the last word of program memory only where it chooses the next one (10, R223, R235). -/
theorem thRun_atWord (atWord : AtWord s th h x w) (op : fld w 63 58 = k) (defined : bwDefined k = true)
    (room : x.pc < 4095 ∨ branches k = true) : thRun th (isOp k) f s = wordEnds (tookTurn s th) th (f (tookTurn s th) h x w) := by
  obtain ⟨found, owned, -, -, turn, role, ready, rfl⟩ := atWord
  have code : Bw.op (look (tileAt s th.tile.val).blw.prog x.pc 0) = k := op
  have selected : isOp k (look (tileAt s th.tile.val).blw.prog x.pc 0) = true := beq_iff_eq.2 code
  have inside : ¬ (4095 ≤ x.pc ∧ (!branches k) = true) := by
    rintro ⟨last, plain⟩
    rcases room with lt | chooses
    · omega
    · rw [chooses] at plain
      nomatch plain
  unfold thRun
  dsimp only
  rw [found, owned]
  dsimp only
  rw [if_neg (by simp [turn, role, ready]), code, defined, selected, if_neg (by decide), if_neg (by decide), if_neg inside,
    Bool.true_or, if_pos rfl, ← tookTurn_modBlw]
  rfl

theorem wordEnds_next (pc : y.pc < 4095) : wordEnds s th (.next n y) = withThread n th (threadTo (y.pc + 1) y) :=
  if_neg (by omega)
theorem wordEnds_jump {pc : Nat} (inside : pc ≤ 4095) : wordEnds s th (.jump n y pc) = withThread n th (threadTo pc y) :=
  if_neg (by omega)

theorem setBreg_pc (x : Thread) (i : Nat) (v : BitVec 64) : (setBreg x i v).pc = x.pc := by
  unfold setBreg
  split <;> rfl

section
variable (atWord : AtWord s th h x w) (op : fld w 63 58 = k) (defined : bwDefined k = true)
include atWord op defined

/-- A word that is done: the thread goes on at the next one. -/
theorem thRun_next (room : x.pc < 4095) (done : f (tookTurn s th) h x w = .next n y) (same : y.pc = x.pc) :
    thRun th (isOp k) f s = withThread n th (threadTo (x.pc + 1) y) := by
  rw [thRun_atWord atWord op defined (.inl room), done, wordEnds_next (same ▸ room), same]

/-- A word that chooses the next one. -/
theorem thRun_jump {pc : Nat} (chooses : branches k = true) (done : f (tookTurn s th) h x w = .jump n y pc) (inside : pc ≤ 4095) :
    thRun th (isOp k) f s = withThread n th (threadTo pc y) := by
  rw [thRun_atWord atWord op defined (.inr chooses), done, wordEnds_jump inside]

/-- A word that only writes a register. -/
theorem thRun_write {v : Thread → BWord → BitVec 64} (room : x.pc < 4095) :
    thRun th (isOp k) (thWrite v) s = withThread (tookTurn s th) th (threadTo (x.pc + 1) (setBreg x (Bw.rd w) (v x w))) :=
  thRun_next atWord op defined room rfl (setBreg_pc _ _ _)

end

/-! ### Arithmetic (10, R224, Table 10-3) -/

/-- A word of memory without poison in reach of the hearth is read (10, R235). -/
theorem thLdw_reads {u : State} {bs : List Byte} (aligned : (breg x (Bw.ra w) + Bw.imm w).toNat % 8 = 0)
    (within : lOk s h (breg x (Bw.ra w) + Bw.imm w).toNat 8 = true)
    (read : devRead s (some h) .alloc (gLoc (breg x (Bw.ra w) + Bw.imm w).toNat) 8 [] = some (u, bs, [])) :
    thLdw th s h x w = .next u (setBreg x (Bw.rd w) (BitVec.ofNat 64 (leNat bs))) := by
  unfold thLdw
  dsimp only
  rw [if_neg (fun e => e aligned), if_neg (by rw [within]; decide), read]
  rfl

/-- Settles O20: every word but LDW only writes a register, and LDW writes what it reads. -/
theorem threadArithmetic : Obligations.ThreadArithmetic := by
  intro s th h x w atWord room
  dsimp only
  have writes {k : Nat} (v : Thread → BWord → BitVec 64) (defined : bwDefined k = true) (op : fld w 63 58 = k) :=
    congrArg (Host.Outcome.next (φ := Fault) (ρ := Refusal)) (thRun_write (v := v) atWord op defined room)
  refine ⟨writes valLi rfl, writes valLih rfl, writes valAdd rfl, writes valAddi rfl, writes valSub rfl, writes valMuli rfl,
    writes valShli rfl, writes valShri rfl, writes valAndi rfl, fun op u bs aligned within read => ?_⟩
  rw [← (tookTurn_rights s th).lOk] at within
  exact congrArg Host.Outcome.next
    (thRun_next atWord op rfl room (thLdw_reads aligned within read) (setBreg_pc _ _ _))

/-! ### Loops and branches (10, R234, R235) -/

theorem thLoop_skips (depth : Bw.rd w = x.loops.length) (fits : Bw.rd w ≤ 5) (none : fld (breg x (Bw.ra w)) 31 0 = 0) :
    thLoop s h x w = .jump s x (target w 1) := by
  unfold thLoop
  dsimp only
  rw [if_neg (by omega), if_pos none]

theorem thLoop_enters (depth : Bw.rd w = x.loops.length) (fits : Bw.rd w ≤ 5) (some : fld (breg x (Bw.ra w)) 31 0 ≠ 0) :
    thLoop s h x w = .jump s { x with loops := x.loops ++ [(x.pc + 1, fld (breg x (Bw.ra w)) 31 0)] } (x.pc + 1) := by
  unfold thLoop
  dsimp only
  rw [if_neg (by omega), if_neg some]

section
variable {outer : List (Nat × Nat)} {first c : Nat} (level : x.loops = outer ++ [(first, c)]) (depth : Bw.rd w = outer.length)
include level depth

theorem thEndl_returns (more : 1 < c) : thEndl s h x w = .jump s { x with loops := outer ++ [(first, c - 1)] } first := by
  simp [thEndl, level, depth, more]

theorem thEndl_leaves (last : c ≤ 1) : thEndl s h x w = .jump s { x with loops := outer } (x.pc + 1) := by
  simp [thEndl, level, depth, Nat.not_lt.2 last]

end

/-- Settles O21: loops and branches choose the next word, END makes the thread idle, and MWT and FEN are done as their condition
holds after the turn. -/
theorem threadControl : Obligations.ThreadControl := by
  intro s th h x w atWord
  dsimp only
  have jumps {k pc : Nat} {f : State → Nat → Thread → BWord → TRes} {y : Thread} (defined : bwDefined k = true)
      (chooses : branches k = true) (op : fld w 63 58 = k) (done : f (tookTurn s th) h x w = .jump (tookTurn s th) y pc)
      (inside : pc ≤ 4095) :=
    congrArg (Host.Outcome.next (φ := Fault) (ρ := Refusal)) (thRun_jump atWord op defined chooses done inside)
  refine ⟨fun op depth fits => ⟨fun zero inside => ?skip, fun some room => ?enter⟩,
    fun outer first c op level depth => ⟨fun more inside => ?again, fun last room => ?leave⟩,
    fun op => ⟨fun taken inside => ?taken, fun passed room => ?passed⟩, fun op quiet => ?endT,
    fun k op room named met => ?mwt, fun op room quiet => ?fen⟩
  case skip => exact jumps rfl rfl op (thLoop_skips depth fits zero) inside
  case enter => exact jumps rfl rfl op (thLoop_enters depth fits some) room
  case again => exact jumps rfl rfl op (thEndl_returns level depth more) inside
  case leave => exact jumps rfl rfl op (thEndl_leaves level depth last) room
  case taken => exact jumps rfl rfl op (congrArg (TRes.jump _ x) (if_neg taken)) inside
  case passed => exact jumps rfl rfl op (congrArg (TRes.jump _ x) (if_pos passed)) room
  case endT =>
    have idle : thEnd th (tookTurn s th) h x w = .idle (tookTurn s th) :=
      if_neg (by rw [reqsOf_tookTurn, quiet]; decide)
    exact congrArg Host.Outcome.next ((thRun_atWord atWord op rfl (.inr rfl)).trans (congrArg (wordEnds _ th) idle))
  case mwt =>
    have done : thMwt th (tookTurn s th) h x w = .next (tookTurn s th) x := by
      unfold thMwt
      rw [(tookTurn_rights s th).tileNamed, named]
      exact if_pos (by rw [markMet, mark_tookTurn]; exact met)
    exact congrArg Host.Outcome.next (thRun_next atWord op rfl room done rfl)
  case fen =>
    have done : thFen th (tookTurn s th) h x w = .next (tookTurn s th) x :=
      if_neg (by rw [reqsOf_tookTurn, quiet]; decide)
    exact congrArg Host.Outcome.next (thRun_next atWord op rfl room done rfl)

end Sys2Proof.Machine
end

section
/-! LND, CINC and ARS of a bellows thread (10, R230, R243; 11, R252, R254, R273). -/

namespace Sys2Proof.Machine

variable {s n : State} {th : ThreadId} {h : HearthId} {x y : Thread} {w : BWord} {f : State → Nat → Thread → BWord → TRes} {k : Nat}

theorem withThread_only (n : State) (th : ThreadId) (y : Thread) : Only [.tiles] n (withThread n th y) := modTile_only _ _ _
theorem withThread_onlyTile (n : State) (th : ThreadId) (y : Thread) : OnlyTile th.tile.val n (withThread n th y) := modTile_onlyTile _ _ _

theorem hearthAt_withThread (n : State) (th : ThreadId) (y : Thread) (k : Nat) : hearthAt (withThread n th y) k = hearthAt n k := rfl

theorem landAt_withThread (n : State) (th : ThreadId) (y : Thread) (u k : Nat) :
    landAt (tileAt (withThread n th y) u) k = landAt (tileAt n u) k := by
  rw [withThread, setThread, modBlw, tileAt_modTile]
  split
  · next e => rw [e.1]; rfl
  · rfl

theorem landAt_tookTurn (s : State) (th : ThreadId) (u k : Nat) : landAt (tileAt (tookTurn s th) u) k = landAt (tileAt s u) k := by
  obtain ⟨l, e⟩ := blw_tookTurn s th u
  rw [landAt, landAt, e]

/-- A turn and a new state of the thread are of the tiles alone. -/
theorem turn_only {ps : List Part} (tiles : .tiles ∈ ps) (done : Only ps (tookTurn s th) n) : Only ps s (withThread n th y) :=
  have sub : ∀ p ∈ [Part.tiles], p ∈ ps := fun _ hp => List.mem_singleton.1 hp ▸ tiles
  ((tookTurn_only s th).mono sub).trans (done.trans ((withThread_only n th y).mono sub))

/-! ### What the words do -/

theorem thLnd_done (quiet : reqsOf (tileAt s th.tile.val) th.core.val th.thr.val = false)
    (named : tileNamed s h.val th.tile.val w (fld w 12 8) = some k) : thLnd th s h.val x w = .next (landInc s k (fld w 4 0)) x := by
  unfold thLnd
  rw [named]
  dsimp only
  rw [quiet]
  rfl

theorem amtBad_none {v : BitVec 64} (small : v.toNat < 2 ^ 32) : amtBad v = none := by
  have sign : bit v 63 = false := by
    rw [bit, BitVec.getLsbD, Nat.testBit_lt_two_pow (by omega)]
  have high : fld v 62 32 = 0 := by rw [fld_eq, Nat.div_eq_of_lt small, Nat.zero_mod]
  rw [amtBad, sign, high]
  rfl

section
variable (quiet : reqsOf (tileAt s th.tile.val) th.core.val th.thr.val = false) (zero : fld (breg x (Bw.ra w)) 43 16 = 0)
  (small : (breg x (Bw.rb w)).toNat < 2 ^ 32)
include quiet zero small

theorem thCinc_local (loc : fld (breg x (Bw.ra w)) 63 44 = 0xFFFFF ∨ fld (breg x (Bw.ra w)) 63 44 = devNo s)
    (within : ctrIn s h.val (fld (breg x (Bw.ra w)) 15 0) = true) :
    thCinc th s h.val x w = .next (issueLocal s (some h.val) (fld (breg x (Bw.ra w)) 15 0) (breg x (Bw.rb w)).toNat) x := by
  unfold thCinc
  dsimp only
  rw [quiet, if_neg Bool.false_ne_true, if_neg (fun e => e zero), if_neg (by simp [within]), if_neg (fun e => e.1 loc),
    amtBad_none small]
  exact if_pos loc

theorem thCinc_remote (loc : ¬ (fld (breg x (Bw.ra w)) 63 44 = 0xFFFFF ∨ fld (breg x (Bw.ra w)) 63 44 = devNo s))
    (adm : admitted s (fld (breg x (Bw.ra w)) 63 44) = true) :
    thCinc th s h.val x w = .next (issueRemote s h (0x100000 + th.tile.val) (fld (breg x (Bw.ra w)) 63 44)
      (fld (breg x (Bw.ra w)) 15 0) (breg x (Bw.rb w)).toNat) x := by
  unfold thCinc
  dsimp only
  rw [quiet, if_neg Bool.false_ne_true, if_neg (fun e => e zero), if_neg (fun e => loc e.1), if_neg (by simp [adm]),
    amtBad_none small]
  dsimp only
  rw [if_neg loc, toHid, dif_pos h.isLt]

end

theorem thArs_done (below : (breg x (Bw.ra w)).toNat ≤ (hearthAt s h.val).mem.actUsed.toNat)
    (aligned : (breg x (Bw.ra w)).toNat % 32 = 0) : thArs s h.val x w =
      .next (modHearth s h.val (fun y => { y with mem := { y.mem with actUsed := breg x (Bw.ra w) } })) x := by
  unfold thArs
  dsimp only
  rw [if_neg (by simp [odd32, aligned, Nat.not_lt.2 below])]

/-! ### The books of an increment that a hearth issues (11, R273) -/

theorem bookIssue_only (s : State) (k amt : Nat) (remote : Bool) : Only [.hearths] s (bookIssue s k amt remote) := modHearth_only _ _ _

theorem bookIssue_books (s : State) (h : HearthId) (amt : Nat) (remote : Bool) :
    (hearthAt (bookIssue s h.val amt remote) h.val).net = { (hearthAt s h.val).net with
      issued := (hearthAt s h.val).net.issued + BitVec.ofNat 64 amt
      loc := if remote then (hearthAt s h.val).net.loc else (hearthAt s h.val).net.loc + BitVec.ofNat 64 amt
      out := if remote then (hearthAt s h.val).net.out + BitVec.ofNat 64 amt else (hearthAt s h.val).net.out } := by
  rw [bookIssue, modNet, hearthAt_modHearth_self]

theorem hearths_issueRemote {agent dev ctr amt : Nat} (adm : admitted s (dev % 2 ^ 20) = true) :
    (issueRemote s h agent dev ctr amt).hearths = (bookIssue s h.val amt true).hearths :=
  sendFrame_increment_hearths rfl (by simpa using (admitted_congr (n := bookIssue s h.val amt true) rfl rfl _).trans adm)

theorem issueRemote_only (s : State) (h : HearthId) (agent dev ctr amt : Nat) :
    Only linkParts s (issueRemote s h agent dev ctr amt) :=
  ((bookIssue_only _ _ _ _).mono (by simp [linkParts])).trans
    (sendFrame_extends (fun _ _ _ => by nofun) _).only

/-- Settles O22: each word is done at once, and its hearth's state shows the increment or the mark. -/
theorem threadSignals : Obligations.ThreadSignals := by
  intro s th h x w atWord room
  dsimp only
  have turn := tookTurn_rights s th
  have quietAfter (quiet : reqsOf (tileAt s th.tile.val) th.core.val th.thr.val = false) :
      reqsOf (tileAt (tookTurn s th) th.tile.val) th.core.val th.thr.val = false := (reqsOf_tookTurn _ _ _ _ _).trans quiet
  have goesOn {k : Nat} {f : State → Nat → Thread → BWord → TRes} {n : State} (defined : bwDefined k = true) (op : fld w 63 58 = k)
      (done : f (tookTurn s th) h.val x w = .next n x) :=
    congrArg (Host.Outcome.next (φ := Fault) (ρ := Refusal)) (thRun_next atWord op defined room done rfl)
  refine ⟨fun k op quiet named lt => ?_, fun op quiet zero small => ⟨fun loc within => ?_, fun other foreign adm => ?_⟩,
    fun op below aligned => ?_⟩
  · have done := thLnd_done (x := x) (quietAfter quiet) ((turn.tileNamed _ _ _ _).trans named)
    refine ⟨_, goesOn rfl op done, threadAt_withThread _ _ _, ?_, turn_only (by decide) (landInc_stays _ _ _).2⟩
    rw [landAt_withThread, landAt_landInc lt (fld_lt _ _ _), if_pos rfl, landAt_tookTurn]
  · have done := thCinc_local (h := h) (w := w) (quietAfter quiet) zero small (by rwa [devNo, turn.topo]) (by rwa [turn.ctrIn])
    obtain ⟨only, flights⟩ := issueLocal_flight (tookTurn s th) (some h.val) (fld (breg x (Bw.ra w)) 15 0) (breg x (Bw.rb w)).toNat
    have books := bookIssue_books (tookTurn s th) h (breg x (Bw.rb w)).toNat false
    rw [BitVec.ofNat_toNat, BitVec.setWidth_eq] at books
    refine ⟨_, goesOn rfl op done, threadAt_withThread _ _ _, flights.trans ?_, congrArg HNet.issued books, congrArg HNet.loc books,
      turn_only (by decide) (only.mono (by decide))⟩
    rw [Option.bind_some, toHid, dif_pos h.isLt]
    rfl
  · have below : fld (breg x (Bw.ra w)) 63 44 % 2 ^ 20 = fld (breg x (Bw.ra w)) 63 44 := Nat.mod_eq_of_lt (fld_lt _ _ _)
    have done := thCinc_remote (h := h) (w := w) (quietAfter quiet) zero small (by rw [devNo, turn.topo]; exact not_or.2 ⟨other, foreign⟩)
      (by rwa [turn.admitted])
    have books := bookIssue_books (tookTurn s th) h (breg x (Bw.rb w)).toNat true
    rw [BitVec.ofNat_toNat, BitVec.setWidth_eq, ← hearthAt_of_hearths (hearths_issueRemote (agent := 0x100000 + th.tile.val)
      (ctr := fld (breg x (Bw.ra w)) 15 0) (by rw [below, turn.admitted]; exact adm)) h.val] at books
    have only := issueRemote_only (tookTurn s th) h (0x100000 + th.tile.val) (fld (breg x (Bw.ra w)) 63 44)
      (fld (breg x (Bw.ra w)) 15 0) (breg x (Bw.rb w)).toNat
    exact ⟨_, goesOn rfl op done, threadAt_withThread _ _ _, congrArg HNet.issued books, congrArg HNet.out books,
      only .flights (by decide), turn_only (by decide) (only.mono (by decide))⟩
  · have done := thArs_done (s := tookTurn s th) below aligned
    refine ⟨_, goesOn rfl op done, threadAt_withThread _ _ _, ?_, turn_only (by decide) ((modHearth_only _ _ _).mono (by decide)),
      OnlyTile.trans (tookTurn_onlyTile s th) (withThread_onlyTile _ _ _), fun k other => ?_⟩
    · rw [hearthAt_withThread, hearthAt_modHearth_self]
      rfl
    · rw [hearthAt_withThread]
      exact modHearth_onlyHearth _ _ _ _ other

end Sys2Proof.Machine
end

section
/-! The ends of the entries of the send table (10, R225; 11, R270, R273; 12, R290). -/

namespace Sys2Proof.Machine

variable {s u v n : State} {e : SendEntry} {f : Frame} {t : TileId} {core grp i dev fnum st : Nat} {r : Req}

/-! ### Entries of the send table -/

theorem findEntry_named (found : findEntry s dev fnum = some e) : e.dev.toNat = dev ∧ e.frame.fnum = fnum := by
  simpa using List.find?_some found

theorem findEntry_modEntry {g : SendEntry → SendEntry} (kept : ∀ e, (g e).dev = e.dev ∧ (g e).frame = e.frame)
    (found : findEntry s dev fnum = some e) : findEntry (modEntry s dev fnum g) dev fnum = some (g e) := by
  have named (x : SendEntry) : (decide ((if x.dev.toNat = dev ∧ x.frame.fnum = fnum then g x else x).dev.toNat = dev) &&
      decide ((if x.dev.toNat = dev ∧ x.frame.fnum = fnum then g x else x).frame.fnum = fnum)) =
      (decide (x.dev.toNat = dev) && decide (x.frame.fnum = fnum)) := by
    split
    · rw [(kept x).1, (kept x).2]
    · rfl
  rw [findEntry, modEntry, List.find?_map, Function.comp_def]
  simp only [named]
  rw [show List.find? (fun e => decide (e.dev.toNat = dev) && decide (e.frame.fnum = fnum)) s.lnk.send = some e from found,
    Option.map_some, if_pos (findEntry_named found)]

/-! ### Requests -/

/-- Requests that stay where they are keep their places. -/
theorem RequestsStay.reqIdx (stay : RequestsStay s n) (t core grp fnum : Nat) (dev : BitVec 20) :
    reqIdx n t core grp fnum dev = reqIdx s t core grp fnum dev := by simp only [Machine.reqIdx, stay.reqs]

/-- A request of rows commits: it is gone from its tile. -/
theorem reqDone_rows {dev : BitVec 20} (idle : (tileAt s t.val).blw.draining = none) (named : reqIdx s t.val core grp fnum dev = some i)
    (req : (tileAt s t.val).blw.reqs[i]? = some r) (rows : r.ent = none) : (reqDone s t.val core grp fnum dev).lnk = s.lnk ∧
      (tileAt (reqDone s t.val core grp fnum dev) t.val).blw.reqs = (tileAt s t.val).blw.reqs.eraseIdx i ∧
      (reqDone s t.val core grp fnum dev).mem = s.mem := by
  rw [reqDone, named]
  refine ⟨?_, removeReq_rows_reqs idle req rows⟩
  dsimp only
  rw [removeReq_rows idle req rows]
  rfl

/-! ### Acknowledgements (12, R290) -/

theorem bookDone_books (s : State) (h : HearthId) (amt : Nat) (remote : Bool) :
    (hearthAt (bookDone s h.val amt remote) h.val).net = { (hearthAt s h.val).net with
      done := (hearthAt s h.val).net.done + BitVec.ofNat 64 amt
      loc := if remote then (hearthAt s h.val).net.loc else (hearthAt s h.val).net.loc - BitVec.ofNat 64 amt
      out := if remote then (hearthAt s h.val).net.out - BitVec.ofNat 64 amt else (hearthAt s h.val).net.out } := by
  rw [bookDone, modNet, hearthAt_modHearth_self]

section
variable (found : findEntry s dev fnum = some e)
include found

theorem gotAck_deferred (later : st = 2 ∨ st = 3) :
    gotAck s dev fnum st = modEntry s dev fnum (fun e => { e with resends := 0, deferred := some (fc s) }) := by
  rw [gotAck, found]
  exact if_pos later

theorem gotAck_ends (done : st = 0 ∨ st = 4) : gotAck s dev fnum st = entryAcked s e st := by
  rw [gotAck, found]
  exact if_neg (by simp only [aRATE, aBUSY]; omega)

theorem gotAck_increment {h : HearthId} {amt : Nat} (done : st = 0 ∨ st = 4) (inc : e.use = .inc h amt) :
    gotAck s dev fnum st = afterEntry (bookDone (dropEntry s e) h.val amt true) e.dev.toNat := by
  rw [gotAck_ends found done]
  unfold entryAcked
  rcases done with rfl | rfl <;> rw [inc] <;> rfl

theorem gotAck_request (done : st = 0 ∨ st = 4) (req : e.use = .req t core grp) :
    gotAck s dev fnum st = afterEntry (reqDone (dropEntry s e) t.val core grp e.frame.fnum e.dev) e.dev.toNat := by
  rw [gotAck_ends found done]
  unfold entryAcked
  rcases done with rfl | rfl <;> rw [req] <;> rfl

end

/-! ### Frames that arrive -/

theorem rxFront_ok {p ty : Nat} (front : rxFront s p f ty = .ok u) : ∃ g, u = modSess s f.sdev g := by
  unfold rxFront at front
  dsimp only at front
  split at front
  · nomatch front
  · split at front
    · nomatch front
    · split at front
      · nomatch front
      · split at front
        · nomatch front
        · exact ⟨_, (Except.ok.inj front).symm⟩

theorem arrive_takes {p ty : Nat} {body : State → Option State} (front : rxFront s p f ty = .ok u) (takes : body u = some n) :
    arrive s p f ty body = freeRx n p f := by
  rw [arrive, front]
  dsimp only
  rw [takes]

theorem rxAck_fresh {p : Nat} (front : rxFront s p f fACK = .ok u) (fresh : isDup u f = false) :
    rxAck s p f = freeRx (gotAck (acceptNum u f.sdev f.fnum) f.sdev (fld f.opx 63 0) (fld f.opx 71 64)) p f :=
  arrive_takes front (by rw [fresh]; rfl)

/-! ### Data of a READ (10, R225; 12, R290) -/

/-- Bytes for an address are stored there, and the links do not change. -/
theorem deliver_stores {h k b off : Nat} {bs : List Byte} {ps : List Nat} (dst : r.dst = .loc b)
    (d : deliver s h k r off bs ps = some n) :
    RequestsStay s n ∧ n.mem = (store s (b + off) bs []).mem ∧ n.lnk = s.lnk := by
  have written {u : State} (hu : RequestsStay s u ∧ u.mem = s.mem ∧ u.lnk = s.lnk) {ps : List Nat}
      (w : devWrite u (some h) r.hint (b + off) bs ps = some n) :
      RequestsStay s n ∧ n.mem = (store s (b + off) bs []).mem ∧ n.lnk = s.lnk := by
    obtain ⟨stay, mem, lnk⟩ := hu
    obtain ⟨stay', mem'⟩ := devWrite_some w
    have links : n.lnk = u.lnk := devWrite_only _ _ _ _ _ _ _ _ n w .lnk (by decide)
    exact ⟨stay.trans stay', mem'.trans (store_mem_congr mem stay.pair _ bs []), links.trans lnk⟩
  unfold deliver at d
  rw [dst] at d
  refine written ?_ d
  split
  · obtain ⟨stay, mem⟩ := dropMcst_stays s h _ _ bs.length
    exact ⟨stay, mem, (Only.forEach (ps := [.tiles]) _ _ (fun _ _ => modTile_only _ _ _) _) .lnk (by decide)⟩
  · exact ⟨.refl _, rfl, rfl⟩

theorem readData_request {h off : Nat} {bs : List Byte} {ps : List Nat} (req : e.use = .req t core grp)
    (named : reqIdx s t.val core grp e.frame.fnum e.dev = some i) (row : (tileAt s t.val).blw.reqs[i]? = some r)
    (owner : reqHearth s t.val = some h) :
    readData s e off bs ps = deliver s h t.val { r with hint := .noalloc } (32 * off) bs ps := by
  unfold readData
  rw [req]
  dsimp only
  rw [named, Option.bind_some, row, owner]

theorem findEntry_acceptNum (links : v.lnk = u.lnk) (d k dev fnum : Nat) :
    findEntry (acceptNum v d k) dev fnum = findEntry u dev fnum := by
  rw [findEntry, findEntry, ← links]
  rfl

/-- The units of the response that have arrived with this frame. -/
def unitsWith (e : SendEntry) (f : Frame) : List Nat :=
  e.units ++ ((List.range (f.payload.length / 32)).map (· + fld f.opx 70 64)).filter
    (fun k => decide (k < fld e.frame.opx 79 72) && !e.units.contains k)

section
variable (fresh : isDup u f = false) (found : findEntry u f.sdev (fld f.opx 63 0) = some e)
  (data : readData u e (fld f.opx 70 64) f.payload f.poison = some v)
include fresh found data

theorem rdataBody_last (req : e.use = .req t core grp) (all : fld e.frame.opx 79 72 ≤ (unitsWith e f).length) (links : v.lnk = u.lnk) :
    rdataBody f u = some (afterEntry (reqDone (dropEntry (acceptNum v f.sdev f.fnum) e) t.val core grp (fld f.opx 63 0) e.dev) f.sdev) := by
  have still := (findEntry_acceptNum links f.sdev f.fnum f.sdev (fld f.opx 63 0)).trans found
  unfold rdataBody
  dsimp only
  rw [fresh, if_neg Bool.false_ne_true, found]
  dsimp only
  rw [data, Option.map_some, still]
  dsimp only
  rw [req]
  exact congrArg some (if_pos all)

theorem rdataBody_more (more : (unitsWith e f).length < fld e.frame.opx 79 72) :
    rdataBody f u = some (modEntry (acceptNum v f.sdev f.fnum) f.sdev (fld f.opx 63 0) (fun x => { x with units := unitsWith e f })) := by
  unfold rdataBody
  dsimp only
  rw [fresh, if_neg Bool.false_ne_true, found]
  dsimp only
  rw [data, Option.map_some]
  exact congrArg some (if_neg (by unfold unitsWith at more; omega))

end

/-- Settles O34: an acknowledgement defers its entry or ends it with its increment or request, and data of a READ is stored before its
entry ends or waits for more. -/
theorem entriesEnd : Obligations.EntriesEnd := by
  refine fun s => ⟨fun p f u front fresh => congrArg Host.Outcome.next (rxAck_fresh front fresh), ?ackn, ?ends, ?rdata⟩
  case ackn =>
    intro dev fnum st e found inc
    refine congrArg Host.Outcome.next ?_
    unfold incAck
    rw [found]
    exact if_pos inc
  case ends =>
    refine fun dev fnum st e found => ⟨fun later => ?_, fun h amt done inc => ?_, fun t core grp i r done req named row rows idle => ?_⟩
    · rw [gotAck_deferred found later]
      exact ⟨_, findEntry_modEntry (fun _ => ⟨rfl, rfl⟩) found, rfl, rfl⟩
    · have books := bookDone_books (dropEntry s e) h amt true
      exact ⟨_, gotAck_increment found done inc, rfl, congrArg HNet.done books, congrArg HNet.out books⟩
    · obtain ⟨lnk, reqs, -⟩ := reqDone_rows (s := dropEntry s e) (t := t) idle named row rows
      exact ⟨_, gotAck_request found done req, congrArg (·.send) lnk, reqs⟩
  case rdata =>
    intro p f u v e t core grp i r a h front fresh found req named row rows idle owned dst number
    dsimp only
    intro data
    obtain ⟨g, rfl⟩ := rxFront_ok front
    have data' := (readData_request (s := modSess s f.sdev g) req named row (reqHearth_idle owned idle)).trans data
    obtain ⟨stay, mem, links⟩ := deliver_stores (r := { r with hint := .noalloc }) dst data
    have mem' : v.mem = (store s (a + 32 * fld f.opx 70 64) f.payload []).mem := 
      mem.trans (store_mem_congr (s := s) (n := modSess s f.sdev g) rfl (fun _ => rfl) _ _ _)
    refine ⟨fun all => ?_, fun more => ?_⟩
    · let w := dropEntry (acceptNum v f.sdev f.fnum) e
      have reqs : (tileAt w t.val).blw.reqs = (tileAt s t.val).blw.reqs := stay.reqs t.val
      obtain ⟨-, gone, memw⟩ := reqDone_rows (s := w) (t := t) (fnum := fld f.opx 63 0) ((stay.draining t.val).trans idle)
        ((stay.reqIdx _ _ _ _ _).trans (number ▸ named)) (reqs ▸ row) rows
      exact ⟨_, congrArg Host.Outcome.next (arrive_takes front (rdataBody_last fresh found data' req all links)), memw.trans mem',
        gone.trans (congrArg (·.eraseIdx i) reqs)⟩
    · have still := (findEntry_acceptNum links f.sdev f.fnum f.sdev (fld f.opx 63 0)).trans found
      exact ⟨_, _, congrArg Host.Outcome.next (arrive_takes front (rdataBody_more fresh found data' more)), mem',
        findEntry_modEntry (fun _ => ⟨rfl, rfl⟩) still, rfl⟩

end Sys2Proof.Machine
end

section
/-! What accesses to memory, notices and the end of an epoch leave of the hearths: their hold states and their arenas (09, R207; 10,
R243, Table 10-9; 15, R362 to R364). -/

namespace Sys2Proof.Machine

variable {s₀ s n : State}

/-- The hold state of a hearth and its arena (10, R243, Table 10-9). -/
def holdAndArena (m : HMem) : Nat × Reg × Reg × Reg := (fld m.sched 34 32, m.actBase, m.actLim, m.actUsed)

/-- No hearth has another hold state or another arena. -/
def HoldsStay (s n : State) : Prop := ∀ k, holdAndArena (hearthAt n k).mem = holdAndArena (hearthAt s k).mem

namespace HoldsStay

theorem refl (s : State) : HoldsStay s s := fun _ => rfl
theorem trans (h : HoldsStay s₀ s) (k : HoldsStay s n) : HoldsStay s₀ n := fun j => (k j).trans (h j)
theorem ite {c : Prop} [Decidable c] (h : HoldsStay s₀ s) (k : HoldsStay s₀ n) : HoldsStay s₀ (if c then s else n) := by
  split <;> assumption
theorem of_hearths (same : n.hearths = s.hearths) : HoldsStay s n := fun k => by simp only [hearthAt, same]
theorem of_only {ps : List Part} (only : Only ps s n) (apart : .hearths ∉ ps := by decide) : HoldsStay s n :=
  of_hearths (only .hearths apart)
theorem forEach {α : Type} {l : List α} {f : α → State → State} (each : ∀ x u, HoldsStay u (f x u)) (s : State) :
    HoldsStay s (forEach l s f) :=
  List.foldlRecOn (motive := HoldsStay s) l _ (refl s) fun u hu x _ => hu.trans (each x u)

theorem holdState (h : HoldsStay s n) (k : Nat) : holdState n k = holdState s k := congrArg (·.1) (h k)

end HoldsStay

/-! ### Hearths -/

theorem modHearth_holdsStay (s : State) (h : Nat) {f : Hearth → Hearth}
    (same : ∀ x, holdAndArena (f x).mem = holdAndArena x.mem := by intro x; rfl) : HoldsStay s (modHearth s h f) := by
  intro k
  rw [hearthAt_modHearth]
  split
  · next e => rw [same, e.1]
  · rfl
theorem modNet_holdsStay (s : State) (h : Nat) (f : HNet → HNet) : HoldsStay s (modNet s h f) := modHearth_holdsStay s h
theorem modRun_holdsStay (s : State) (h : Nat) (f : HRun → HRun) : HoldsStay s (modRun s h f) := modHearth_holdsStay s h
theorem modChk_holdsStay (s : State) (h : Nat) (f : HChk → HChk) : HoldsStay s (modChk s h f) := modHearth_holdsStay s h
theorem endCause_holdsStay (s : State) (h cause : Nat) : HoldsStay s (endCause s h cause) := by
  refine modHearth_holdsStay s h fun x => ?_
  rw [holdAndArena, setBit, fld_setFld_apart _ _ _ _ _ _ (by omega) (by omega)]
  rfl
theorem raise_holdsStay (s : State) (space code detail : Nat) (h : Option Nat) (agent a0 : Nat) :
    HoldsStay s (raise s space code detail h agent a0) := .of_only (raise_only s _ _ _ _ _ _ _ _ _)

/-! ### Accesses to memory (09, R207 to R213) -/

theorem mtlStat_holdsStay (s : State) (h : Option Nat) (word hi lo k : Nat) : HoldsStay s (mtlStat s h word hi lo k) := by
  unfold mtlStat
  split
  · refine modHearth_holdsStay _ _ fun x => ?_
    dsimp only
    split <;> rfl
  · exact .refl s

theorem touch_holdsStay {h : Option Nat} {hint : Hint} {a k : Nat} {wr : Bool} {line : Option Nat}
    (e : touch s h hint a k wr line = some n) : HoldsStay s n := by
  refine touch_rel .refl (fun _ _ _ => .trans) (fun u v b hb => ?_) e
  rcases touchBlock_cases hb with rfl | ⟨hi, lo, f, rfl, -⟩
  · exact mtlStat_holdsStay _ _ _ _ _ _
  · exact (mtlStat_holdsStay u h 0 hi lo 1).trans (.of_only (modPool_only _ _ _))

theorem noteCodes_hearths (s : State) (a : Nat) (e : EccHits) : (noteCodes s a e).hearths = s.hearths := by
  unfold noteCodes
  dsimp only
  split <;> rfl

theorem seeDeep_hearths (s : State) (seen : Nat → Bool) : (seeDeep s seen).1.hearths = s.hearths := by
  unfold seeDeep
  refine List.foldlRecOn (motive := fun r : State × List Nat => r.1.hearths = s.hearths) _ _ rfl ?_
  intro r hr x _
  split
  · exact hr
  · exact ((raise_only _ _ _ _ _ _ _ _ _ _) .hearths (by decide)).trans hr
  · exact hr

theorem fillPoison_hearths (clean : Bool) (k : Nat) (s : State) : (fillPoison clean k s).hearths = s.hearths := by
  unfold fillPoison
  split
  · rfl
  · split <;> rfl

theorem eccDeep_hearths (s₀ s : State) (a k : Nat) (wr : Bool) : (eccDeep s₀ s a k wr).1.hearths = s.hearths := by
  have filled (seen : Nat → Bool) (l : List Nat) :
      (l.foldl (fun s k => fillPoison (!wr) k s) (seeDeep s seen).1).hearths = s.hearths :=
    List.foldlRecOn (motive := fun u : State => u.hearths = s.hearths) _ _ (seeDeep_hearths s seen)
      fun _ hu _ _ => (fillPoison_hearths _ _ _).trans hu
  unfold eccDeep
  dsimp only
  split
  · rfl
  · split
    · exact List.foldlRecOn (motive := fun u : State => u.hearths = s.hearths) _ _ (filled _ _) fun _ hu _ _ => hu
    · exact filled _ _

theorem devWrite_holdsStay {h : Option Nat} {hint : Hint} {a : Nat} {bs : List Byte} {ps : List Nat} {line : Option Nat} {e : EccHits}
    (write : devWrite s h hint a bs ps line e = some n) : HoldsStay s n := by
  have noted := HoldsStay.of_hearths (noteCodes_hearths s a e)
  unfold devWrite at write
  split at write
  · obtain ⟨u, hu, rfl⟩ := Option.map_eq_some_iff.1 write
    exact ((noted.trans (touch_holdsStay hu)).trans (.of_hearths (eccDeep_hearths _ _ _ _ _))).trans (.of_only (store_only_mem _ _ _ _))
  · cases write
    exact noted.trans (.of_only (store_only_mem _ _ _ _))

theorem devRead_holdsStay {h : Option Nat} {hint : Hint} {a k : Nat} {line : Option Nat} {e : EccHits} {r : State × List Byte × List Nat}
    (read : devRead s h hint a k e line = some r) : HoldsStay s r.1 := by
  have noted := HoldsStay.of_hearths (noteCodes_hearths s a e)
  unfold devRead at read
  split at read
  · obtain ⟨u, hu, rfl⟩ := Option.map_eq_some_iff.1 read
    exact (noted.trans (touch_holdsStay hu)).trans (.of_hearths (eccDeep_hearths _ _ _ _ _))
  · cases read
    exact noted.trans (.of_hearths (seen_seeWords _ _ _).hearths)

theorem waitTile_holdsStay (s : State) (m : MAccess) : HoldsStay s (waitTile s m) := .ite (.refl s) (.of_only (modPool_only _ _ _))

theorem postWrite_holdsStay (s : State) (a : Agent) (h : Nat) (hint : Hint) (addr : Nat) (bs : List Byte) (ps : List Nat) :
    HoldsStay s (postWrite s a h hint addr bs ps) := by
  unfold postWrite
  cases write : devWrite s (some h) hint addr bs ps with
  | none =>
    rw [Option.getD_none]
    exact waitTile_holdsStay _ _
  | some n => exact devWrite_holdsStay write

/-! ### Windows, frames and notices (12, R290; 13, R331; 15, R363) -/

theorem phaseEntry_holdsStay (s : State) (h start tag agent kind : Nat) : HoldsStay s (phaseEntry s h start tag agent kind) := by
  unfold phaseEntry
  dsimp only
  have counted := modNet_holdsStay s h (fun x => { x with phPtr := x.phPtr + 1 })
  refine HoldsStay.ite (counted.trans (postWrite_holdsStay _ _ _ _ _ _ _)) (HoldsStay.ite counted ?_)
  exact counted.trans ((modRun_holdsStay _ _ _).trans (raise_holdsStay _ _ _ _ _ _ _))

theorem dropActive_holdsStay (s : State) (p h : Nat) : HoldsStay s (dropActive s p h) := by
  unfold dropActive
  split
  · exact (HoldsStay.of_only (modPort_only _ _ _)).trans (phaseEntry_holdsStay _ _ _ _ _ _)
  · exact .refl s

theorem enterSend_only (s : State) (e : SendEntry) : Only ([.tiles, .ports, .lnk] ++ recParts) s (enterSend s e) := by
  unfold enterSend
  split
  · exact Only.refl _ _
  · refine Only.trans ?_ ((launch_only _ _).mono fun _ => List.mem_cons_of_mem _)
    split
    · exact Only.trans ((Only.trans (lnk_only s _) (lnk_only _ _)).mono (by simp)) ((modTile_only _ _ _).mono (by simp))
    · exact (Only.trans (lnk_only s _) (lnk_only _ _)).mono (by simp)

theorem sendNotice_holdsStay {e : SendEntry} {h : HearthId} {rank : Nat} (notice : e.use = .notice h rank) (s : State) :
    HoldsStay s (sendFrame s e) := by
  have failed : HoldsStay s (entryFail s e) := by
    unfold entryFail
    rw [notice]
    exact .ite ((modRun_holdsStay _ _ _).trans (modNet_holdsStay _ _ _)) (modRun_holdsStay _ _ _)
  have emitted {c : Prop} [Decidable c] {o : Output} : HoldsStay s (if c then s else emit s o) := .ite (.refl s) (.of_hearths rfl)
  exact .ite (failed.trans (.of_only (rxRaise_only _ _ _ _ _ _ _)))
    (.ite (.of_only (enterSend_only _ _)) (emitted.trans (.of_only (lnk_only _ _))))

theorem noticeNext_holdsStay (s : State) (h : HearthId) (rank : Nat) : HoldsStay s (noticeNext s h rank) := by
  unfold noticeNext
  refine .ite (.refl s) ?_
  split
  · exact .refl s
  · exact ((modRun_holdsStay _ _ _).trans (sendNotice_holdsStay rfl _)).trans
      ((modNet_holdsStay _ _ _).trans (sendNotice_holdsStay rfl _))

theorem postNotice_holdsStay (s : State) (h kind trig : Nat) : HoldsStay s (postNotice s h kind trig) := by
  unfold postNotice
  split
  · exact .ite (.forEach (fun _ _ => (modRun_holdsStay _ _ _).trans (noticeNext_holdsStay _ _ _)) s) (.refl s)
  · exact .refl s

/-! ### Retraction (15, R362, R364) -/

theorem stopHearth_only (s : State) (h : Nat) (chk : Option Nat) : Only [.tiles] s (stopHearth s h chk) := by
  refine Only.forEach _ _ (fun t u => Only.ite ?_ (Only.refl _ _)) s
  split
  · exact (modTile_only _ _ _).trans (stopStream_only _ _)
  · exact stopStream_only _ _

theorem retractPort_holdsStay (h e p : Nat) (s : State) : HoldsStay s (retractJob h e p (retractActive h e p s)) := by
  have failed (u : State) (k : Nat) : HoldsStay u (collFailed u p h k) := .forEach (fun _ _ => .of_only (modQueue_only _ _ _)) u
  refine HoldsStay.trans (s := retractActive h e p s) ?_ ?_
  · unfold retractActive
    split
    · exact .ite ((failed _ _).trans (dropActive_holdsStay _ _ _)) (.refl s)
    · exact .refl s
  · unfold retractJob
    split
    · exact .ite (.of_only (modPort_only _ _ _)) (.refl _)
    · exact .refl _

theorem becomeRetracted_holdsStay (s : State) (h trig : Nat) : HoldsStay s (becomeRetracted s h trig) := by
  unfold becomeRetracted
  dsimp only
  refine HoldsStay.trans ?ports (.forEach (fun _ _ => .of_only (modTile_only _ _ _)) _)
  refine HoldsStay.trans ?items (.forEach (retractPort_holdsStay h (epochE s h)) _)
  refine HoldsStay.trans (HoldsStay.trans ?epoch (.of_only (stopHearth_only _ _ _))) (.forEach (fun _ _ => .of_only (modQueue_only _ _ _)) _)
  refine HoldsStay.trans (HoldsStay.trans ?run (.of_only (lnk_only _ _))) (endCause_holdsStay _ _ _)
  exact (modChk_holdsStay _ _ _).trans ((modChk_holdsStay _ _ _).trans (modRun_holdsStay _ _ _))

/-- A hearth whose epoch is retracted stays in its hold state. -/
theorem retractEpoch_holdsStay (s : State) (h trig : Nat) : HoldsStay s (retractEpoch s h trig) :=
  .ite ((becomeRetracted_holdsStay s h trig).trans ((modChk_holdsStay _ _ _).trans
    ((raise_holdsStay _ _ _ _ _ _ _).trans (postNotice_holdsStay _ _ _ _)))) (.refl s)

end Sys2Proof.Machine
end

section
/-! The hold states of a hearth (10, R245 to R247, R490, Table 10-9; 16, R403). -/

namespace Sys2Proof.Machine

variable {s n : State} {h : HearthId}

/-! ### A hold that is requested (10, R490) -/

theorem breachNoted_onlyHearth (s : State) (h cause tile agent : Nat) : OnlyHearth h s (breachNoted s h cause tile agent) := by
  intro k other
  unfold breachNoted
  dsimp only
  split
  · exact (hearthAt_raise _ _ _ _ _ _ _ _).trans (modHearth_onlyHearth _ _ _ k other)
  · exact modHearth_onlyHearth _ _ _ k other

/-- A hearth that runs or resumes begins to hold; in another state it stays there (10, Table 10-9). -/
theorem beginsHold (s : State) (h : HearthId) :
    let n := if holdState s h.val = 0 ∨ holdState s h.val = 3 then setHold s h.val 1 else s
    ((holdState s h.val = 0 ∨ holdState s h.val = 3) → holdState n h.val = 1) ∧
      (holdState s h.val ≠ 0 → holdState s h.val ≠ 3 → holdState n h.val = holdState s h.val) ∧
      (∀ i, 34 < i → i < 64 → bit (hearthAt n h.val).mem.sched i = bit (hearthAt s h.val).mem.sched i) ∧
      (hearthAt n h.val).mem.brch = (hearthAt s h.val).mem.brch ∧ Only [.hearths] s n ∧ OnlyHearth h.val s n := by
  dsimp only
  by_cases going : holdState s h.val = 0 ∨ holdState s h.val = 3
  · have held : (hearthAt (setHold s h.val 1) h.val).mem = { (hearthAt s h.val).mem with
        sched := setFld (hearthAt s h.val).mem.sched 34 32 1 } := by rw [setHold, hearthAt_modHearth_self]
    rw [if_pos going]
    refine ⟨fun _ => holdState_setHold s h.isLt 1, fun run resume => absurd going (not_or.2 ⟨run, resume⟩), fun i above lt => ?_, ?_,
      setHold_only _ _ _, modHearth_onlyHearth _ _ _⟩
    · rw [held]
      exact bit_setFld_apart _ _ lt (.inr above)
    · rw [held]
  · rw [if_neg going]
    exact ⟨fun run => absurd run going, fun _ _ => rfl, fun _ _ _ => rfl, rfl, Only.refl _ _, fun _ _ => rfl⟩

/-- A requested hold of a tile's agent or of another that names tile k (10, R245, R490). -/
theorem softBreach_leaves (s : State) (h : HearthId) (k agent : Nat) :
    let n := breach s h.val cSOFT (some k) agent
    bit (hearthAt n h.val).mem.sched 47 = true ∧ fld (hearthAt n h.val).mem.brch 15 8 = 8 ∧
      ((holdState s h.val = 0 ∨ holdState s h.val = 3) → holdState n h.val = 1) ∧
      (holdState s h.val ≠ 0 → holdState s h.val ≠ 3 → holdState n h.val = holdState s h.val) ∧
      Only ([.hearths] ++ recParts) s n ∧ OnlyHearth h.val s n := by
  obtain ⟨only, shown⟩ := breachNoted_leaves s h cSOFT k agent
  have alone := breachNoted_onlyHearth s h.val cSOFT k agent
  dsimp only
  rw [breach_tile _ _ _ _ _ (by decide)]
  dsimp only
  generalize breachNoted s h.val cSOFT k agent = u at only shown alone
  have caused : (hearthAt (setCause u h.val cSOFT true) h.val).mem =
      { (hearthAt u h.val).mem with sched := setBit (hearthAt u h.val).mem.sched 47 true } :=
    congrArg Hearth.mem (hearthAt_modHearth_self _ _ _)
  have state : holdState (setCause u h.val cSOFT true) h.val = holdState s h.val := by
    rw [holdState, caused, shown]
    exact fld_setFld_apart _ _ _ _ _ _ (by decide) (by decide)
  obtain ⟨begins, stays, bits, brch, only', alone'⟩ := beginsHold (setCause u h.val cSOFT true) h
  rw [← state]
  refine ⟨?_, ?_, begins, stays, only.trans (Only.trans ((modHearth_only _ _ _).mono (by simp)) (only'.mono (by simp))),
    OnlyHearth.trans alone (OnlyHearth.trans (modHearth_onlyHearth _ _ _) alone')⟩
  · rw [bits 47 (by decide) (by decide), caused]
    exact bit_setBit_self _ (by decide) true
  · rw [brch, caused, shown]
    exact (fld_setFld_apart _ _ _ _ _ _ (by decide) (by decide)).trans (fld_setFld _ _ _ _ (by decide))

/-- Tile that a requested hold of this agent names. -/
def softTile : Agent → Option Nat
  | .tile t => some t.val
  | _ => none

theorem softWrite_hold {a : Agent} (may : mayHearth s a h.val = true) (off : bit (hearthAt s h.val).mem.sched 47 = false) :
    softWrite s a h.val true false = breach s h.val cSOFT (softTile a) a.code := by
  unfold softWrite
  dsimp only
  rw [if_neg (by simp [may]), if_neg (by decide), if_pos (by rw [show 39 + cSOFT = 47 from rfl, off]; rfl)]
  cases a <;> rfl

theorem softWrite_release {a : Agent} (may : mayHearth s a h.val = true) (on : bit (hearthAt s h.val).mem.sched 47 = true) :
    softWrite s a h.val false true = endCause s h.val cSOFT := by
  unfold softWrite
  dsimp only
  rw [if_neg (by simp [may]), if_neg (by decide), if_neg (by simp), if_pos (by rw [show 39 + cSOFT = 47 from rfl, on]; rfl)]

theorem softHold_leaves (s : State) (h : HearthId) (tile : Option Nat) (agent : Nat) :
    let n := breach s h.val cSOFT tile agent
    bit (hearthAt n h.val).mem.sched 47 = true ∧ fld (hearthAt n h.val).mem.brch 15 8 = 8 ∧
      ((holdState s h.val = 0 ∨ holdState s h.val = 3) → holdState n h.val = 1) ∧
      (holdState s h.val ≠ 0 → holdState s h.val ≠ 3 → holdState n h.val = holdState s h.val) ∧
      Only ([.hearths, .fresh] ++ recParts) s n ∧ OnlyHearth h.val s n := by
  have widen : ∀ p ∈ [Part.hearths] ++ recParts, p ∈ [Part.hearths, .fresh] ++ recParts := by decide
  cases tile with
  | some k =>
    obtain ⟨on, code, begins, stays, only, alone⟩ := softBreach_leaves s h k agent
    exact ⟨on, code, begins, stays, only.mono widen, alone⟩
  | none =>
    obtain ⟨on, code, begins, stays, only, alone⟩ := softBreach_leaves (draw s).2 h (Config.freeTile s.fresh).toNat agent
    exact ⟨on, code, begins, stays, Only.trans ((draw_only s).mono (by decide)) (only.mono widen), alone⟩

/-! ### The hold point (10, Table 10-9; 16, R403) -/

/-- The books that balance, in the bits of the first audit word (16, Table 16-11). -/
def booksWord (bs : List Bool) : Nat := (List.range 6).foldl (fun b i => b + (if bs.getD i true then 2 ^ i else 0)) 0

theorem booksWord_bits (a b c d e f : Bool) :
    ∀ i < 6, (BitVec.ofNat 64 (0x80 + booksWord [a, b, c, d, e, f])).getLsbD i = [a, b, c, d, e, f].getD i true := by
  decide +revert

/-- The record of book i when it does not balance. -/
def bookRecord (h : Nat) (bs : List Bool) (i : Nat) (s : State) : State :=
  if bs.getD i true then s else raise s gLOG lgBOOKS i (some h) 0

theorem bookRecord_extends (h : Nat) (bs : List Bool) (i : Nat) (s : State) : Extends recParts s (bookRecord h bs i s) :=
  Extends.ite (Extends.refl _ _) (raise_extends _ _ _ _ _ _ _ _ _)

theorem bookRecords_none {bs : List Bool} {l : List Nat} (all : ∀ i ∈ l, bs.getD i true = true) (k : Nat) (s : State) :
    forEach l s (bookRecord k bs) = s :=
  List.foldlRecOn (motive := fun u => u = s) l _ rfl fun _ hu i hi => (if_pos (all i hi)).trans hu

/-- The first book that does not balance has the first record. -/
theorem bookRecords_first {bs : List Bool} {l : List Nat} {i : Nat} (sorted : l.Pairwise (· < ·)) (mem : i ∈ l) (small : i < 256)
    (fails : bs.getD i true = false) (before : ∀ j < i, bs.getD j true = true) (k : Nat) (s : State) :
    Recorded s (forEach l s (bookRecord k bs)) 0 0x0D 5 i := by
  induction l with
  | nil => nomatch mem
  | cons j l ih =>
    rw [forEach_cons]
    rcases List.mem_cons.1 mem with rfl | later
    · have recorded : Recorded s (bookRecord k bs i s) 0 0x0D 5 i := by
        rw [bookRecord, fails, if_neg Bool.false_ne_true]
        have recorded := raise_recorded s gLOG lgBOOKS i (some k) 0 0 0 0
        rwa [Nat.mod_eq_of_lt small] at recorded
      exact recorded_grows recorded (extends_forEach (bookRecord_extends k bs) _ _).log
    · obtain ⟨first, rest⟩ := List.pairwise_cons.1 sorted
      rw [bookRecord, if_pos (before j (first i later))]
      exact ih rest later

/-- The state at the hold point, before its records (16, R403). -/
def heldPoint (s : State) (h : Nat) : State :=
  let u := (draw (setHold s h 2)).2
  let ws := auditWords u h (booksWord (books (setHold s h 2) h)) (Config.crWire s.fresh).toNat
  modChk u h (fun c => { c with audit := Vector.ofFn (fun i => BitVec.ofNat 64 (ws.getD i.val 0)) })

theorem books_setHold (s : State) (h : HearthId) (st : Nat) : books (setHold s h.val st) h.val = books s h.val := by
  have net : (hearthAt (setHold s h.val st) h.val).net = (hearthAt s h.val).net := by
    rw [setHold, hearthAt_modHearth_self]
  unfold books
  dsimp only
  rw [net]
  rfl

theorem hearthHeld_records (state : holdState s h.val = 1) (stopped : tilesStopped s h.val = true) :
    hearthHeld s h.val = forEach (List.range 6) (heldPoint s h.val) (bookRecord h.val (books s h.val)) := by
  unfold hearthHeld
  rw [if_neg (by simp [state, stopped])]
  dsimp only
  rw [books_setHold, heldPoint, books_setHold]
  rfl

theorem heldPoint_leaves (s : State) (h : HearthId) :
    holdState (heldPoint s h.val) h.val = 2 ∧ (hearthAt (heldPoint s h.val) h.val).run.since = fc s ∧
      vget (hearthAt (heldPoint s h.val) h.val).chk.audit 0 0 = BitVec.ofNat 64 (0x80 + booksWord (books s h.val)) ∧
      (heldPoint s h.val).recs = s.recs ∧ Only [.hearths, .fresh] s (heldPoint s h.val) ∧ OnlyHearth h.val s (heldPoint s h.val) := by
  have drawn : hearthAt (draw (setHold s h.val 2)).2 h.val = hearthAt (setHold s h.val 2) h.val := rfl
  refine ⟨?_, ?_, ?_, rfl, ?_, OnlyHearth.trans (modHearth_onlyHearth s _ _) (modHearth_onlyHearth _ _ _)⟩
  · rw [holdState, heldPoint, modChk, hearthAt_modHearth_self]
    exact holdState_setHold s h.isLt 2
  · rw [heldPoint, modChk, hearthAt_modHearth_self, drawn, setHold, hearthAt_modHearth_self]
  · rw [heldPoint, modChk, hearthAt_modHearth_self, books_setHold]
    rfl
  · exact Only.trans ((setHold_only _ _ _).mono (by decide))
      (Only.trans ((draw_only _).mono (by decide)) ((modHearth_only _ _ _).mono (by decide)))

/-! ### The end of a hold and the stall (10, R247) -/

theorem setHold_put (s : State) (h : HearthId) (st : Nat) : setHold s h.val st = putHearth s h { hearthAt s h.val with
    mem := { (hearthAt s h.val).mem with sched := setFld (hearthAt s h.val).mem.sched 34 32 st }
    run := { (hearthAt s h.val).run with since := fc s } } := modHearth_put s h _

theorem tileAt_stopStream_other (s : State) {t u : Nat} (other : u ≠ t) : tileAt (stopStream s t) u = tileAt s u := by
  unfold stopStream
  split
  · dsimp only
    rw [tileAt_modTile, if_neg (fun e => other e.1), setCs, tileAt_modTile, if_neg (fun e => other e.1)]
  · rfl

theorem csState_stopStream {t : TileId} (runs : csState s t.val = 1) : csState (stopStream s t.val) t.val = 3 := by
  rw [csState, stopStream_running runs, tileAt_put]
  exact fld_setFld _ _ _ _ (by decide)

/-- A stream that has stopped stays where it is. -/
theorem Stays.csState (k : Stays s n) {t : Nat} (off : csState s t ≠ 1) : csState n t = csState s t := by
  rw [Machine.csState, (k.tile t).csCtl off]
  rfl

/-- A stream of these tiles stops if it runs. -/
def stopRunning (t : Nat) (s : State) : State := if csState s t = csRunning then stopStream s t else s

theorem stopRunning_stays (t : Nat) (s : State) : Stays s (stopRunning t s) := Stays.ite (stopStream_stays s t) (.refl s)

theorem stopRunning_all {l : List Nat} (tiles : ∀ t ∈ l, t < 32) {t : Nat} (mem : t ∈ l) (s : State) (runs : csState s t = 1) :
    csState (forEach l s stopRunning) t = 3 := by
  induction l generalizing s with
  | nil => nomatch mem
  | cons u l ih =>
    rw [forEach_cons]
    by_cases e : t = u
    · subst e
      have off : csState (stopRunning t s) t = 3 := by
        rw [stopRunning, csRunning, if_pos runs]
        exact csState_stopStream (t := ⟨t, tiles t mem⟩) runs
      rw [(stays_forEach stopRunning_stays l _).csState (by rw [off]; decide), off]
    · refine ih (fun v hv => tiles v (.tail _ hv)) ((List.mem_cons.1 mem).resolve_left e) _ ?_
      rw [stopRunning]
      split
      · rwa [csState, tileAt_stopStream_other s e]
      · exact runs

theorem hTiles_lt {k t : Nat} (mem : t ∈ hTiles s k) : t < 32 := by
  unfold hTiles at mem
  split at mem
  · exact lt_of_mem_setBits mem
  · nomatch mem

/-- The running streams of a hearth that stalls stop (10, R247). -/
theorem schedStall_leaves (state : holdState s h.val = 2)
    (long : (hearthAt s h.val).run.since + 2 ^ fld (hearthAt s h.val).mem.sched 13 8 ≤ fc s) :
    holdState (schedStall s h.val) h.val = 4 ∧ Recorded s (schedStall s h.val) 0 8 0x10 0 ∧
      ∀ t ∈ hTiles s h.val, csState s t = 1 → csState (schedStall s h.val) t = 3 := by
  let u := stopHearth (setHold s h.val 4) h.val none
  let v := raise u 0x08 0x10 0 (some h.val) 0
  have end_ : schedStall s h.val = retractEpoch v h.val 6 := if_pos ⟨state, long⟩
  have recs : u.recs = s.recs := (stopHearth_only (setHold s h.val 4) h.val none) .recs (by decide)
  have held : holdState v h.val = 4 := by
    refine ((raise_holdsStay _ _ _ _ _ _ _).holdState _).trans ?_
    exact ((HoldsStay.of_only (stopHearth_only _ _ _)).holdState _).trans (holdState_setHold s h.isLt 4)
  have later : Stays u (schedStall s h.val) := by
    rw [end_]
    exact (raise_extends_retract _ _ _ _ _ _ _).stays_retract.trans (retractEpoch_stays _ _ _)
  rw [end_]
  refine ⟨((retractEpoch_holdsStay _ _ _).holdState _).trans held, ?_, fun t mem runs => ?_⟩
  · exact recorded_stays (recorded_congr (raise_recorded u 0x08 0x10 0 (some h.val) 0 0 0 0) recs) (retractEpoch_stays _ _ _)
  · have off : csState u t = 3 := stopRunning_all (fun _ => hTiles_lt) mem _ runs
    rw [← end_, later.csState (by rw [off]; decide), off]

/-- Settles O27: a requested hold is a breach of its own cause, the hold point keeps the books, and the hearth resumes or stalls. -/
theorem holdStates : Obligations.HoldStates := by
  intro s h
  dsimp only
  refine ⟨fun a may => ⟨fun off => ?hold, fun on => ?release⟩, fun state stopped => ?held, fun state clear => ?clear,
    fun state long => ?resume, fun state long => ⟨_, rfl, schedStall_leaves state long⟩⟩
  case hold => exact ⟨_, congrArg Host.Outcome.next (softWrite_hold may off), softHold_leaves s h (softTile a) a.code⟩
  case release =>
    refine congrArg Host.Outcome.next ((softWrite_release may on).trans ?_)
    exact modHearth_put s h _
  case held =>
    obtain ⟨two, since, audit, recs, only, alone⟩ := heldPoint_leaves s h
    have records := extends_forEach (bookRecord_extends h.val (books s h.val)) (List.range 6) (heldPoint s h.val)
    have same (k : Nat) := hearthAt_of_hearths (records.only .hearths (by decide)) k
    refine ⟨_, congrArg Host.Outcome.next (hearthHeld_records state stopped), ?_, ?_, ?_, fun all => ?_, fun i lt fails before => ?_, ?_,
      fun k other => (same k).trans (alone k other)⟩
    · rw [holdState, same]
      exact two
    · rw [same, since]
    · rw [same, audit]
      exact booksWord_bits _ _ _ _ _ _
    · rw [bookRecords_none (fun i mem => all i (List.mem_range.1 mem)), recs]
    · exact recorded_congr (bookRecords_first List.pairwise_lt_range (List.mem_range.2 lt) (by omega) fails before _ _) recs
    · exact Only.trans (only.mono (by decide)) (records.only.mono (by decide))
  case clear => exact congrArg Host.Outcome.next ((if_pos ⟨state, clear⟩).trans (setHold_put s h 3))
  case resume => exact congrArg Host.Outcome.next ((if_pos ⟨state, long⟩).trans (setHold_put s h 0))

end Sys2Proof.Machine
end

section
/-! Requests of a bellows core (10, R225): what issuing them leaves, and that they issue while the core has tokens. -/

namespace Sys2Proof.Machine

variable {s n m : State} {th : ThreadId} {t : TileId} {rs ss : List Req}

/-! ### States between which requests have been issued -/

/-- The tile with these requests in flight. -/
def withReqs (l : List Req) (x : Tile) : Tile := { x with blw := { x.blw with reqs := l } }

/-- Nothing but the links, the records and the requests of tile t differs between the states, and these requests have come to the
tile's, in their order (10, R225). -/
structure Issued (t : Nat) (rs : List Req) (s n : State) : Prop where
  tile : ∃ l, tileAt n t = withReqs l (tileAt s t) ∧ l.map bare = (tileAt s t).blw.reqs.map bare ++ rs.map bare
  others : OnlyTile t s n
  only : Only ([.tiles, .ports, .lnk] ++ recParts) s n
  topo : n.lnk.topo = s.lnk.topo
  ids : n.lnk.ids = s.lnk.ids

namespace Issued

theorem refl (t : Nat) (s : State) : Issued t [] s s :=
  ⟨⟨(tileAt s t).blw.reqs, rfl, by rw [List.map_nil, List.append_nil]⟩, fun _ _ => rfl, Only.refl _ _, rfl, rfl⟩

theorem trans {t : Nat} (h : Issued t rs s n) (k : Issued t ss n m) : Issued t (rs ++ ss) s m := by
  obtain ⟨l, at_n, shown⟩ := h.tile
  obtain ⟨l', at_m, shown'⟩ := k.tile
  refine ⟨⟨l', by rw [at_m, at_n]; rfl, ?_⟩, OnlyTile.trans h.others k.others, h.only.trans k.only, k.topo.trans h.topo,
    k.ids.trans h.ids⟩
  rw [shown', at_n, List.map_append, ← List.append_assoc, ← shown]
  rfl

theorem of_tiles {t : Nat} (only : Only ([.ports, .lnk] ++ recParts) s n) (topo : n.lnk.topo = s.lnk.topo) (ids : n.lnk.ids = s.lnk.ids) :
    Issued t [] s n := by
  have tiles : n.tiles = s.tiles := only .tiles (by decide)
  have same (u : Nat) : tileAt n u = tileAt s u := by simp only [tileAt, tiles]
  exact ⟨⟨(tileAt s t).blw.reqs, (same t).trans rfl, by rw [List.map_nil, List.append_nil]⟩, fun u _ => same u, only.mono (by decide),
    topo, ids⟩

theorem rights {t : Nat} (h : Issued t rs s n) : SameRights s n := by
  obtain ⟨l, at_n, -⟩ := h.tile
  have misc (u : Nat) : (tileAt n u).misc = (tileAt s u).misc := by
    by_cases e : u = t
    · rw [e, at_n]; rfl
    · rw [h.others u e]
  have tmp : n.tmp = s.tmp := h.only .tmp (by decide)
  exact ⟨congrArg (·.cur) tmp, h.topo, h.ids, fun u => congrArg _ (misc u), fun u => congrArg _ (misc u)⟩

theorem mem {t : Nat} (h : Issued t rs s n) : Part.mem.same s n := h.only .mem (by decide)
theorem hearths {t : Nat} (h : Issued t rs s n) : n.hearths = s.hearths := h.only .hearths (by decide)

end Issued

/-- Tokens are counted in the requests as their instructions made them. -/
theorem reqCount_bare (x : Tile) (core : Nat) : reqCount x core = ((x.blw.reqs.map bare).filter (fun r => r.core == core)).length := by
  rw [reqCount, List.filter_map, List.length_map]
  rfl

theorem Issued.reqCount_le {t : Nat} (h : Issued t rs s n) (core : Nat) :
    reqCount (tileAt n t) core ≤ reqCount (tileAt s t) core + rs.length := by
  obtain ⟨l, at_n, shown⟩ := h.tile
  have filtered := List.length_filter_le (fun r : Req => r.core == core) (rs.map bare)
  rw [List.length_map] at filtered
  rw [reqCount_bare, reqCount_bare, at_n, withReqs, shown, List.filter_append, List.length_append]
  omega

/-! ### One request -/

theorem bareAll_bindFirst (core grp : Nat) (dev : BitVec 20) (fnum : Nat) (l : List Req) :
    (bindFirst core grp dev fnum l).map bare = l.map bare := by
  induction l with
  | nil => rfl
  | cons r l ih =>
    rw [bindFirst]
    split
    · rfl
    · rw [List.map_cons, List.map_cons, ih]

theorem modReqs_issued (s : State) (t : TileId) {f : List Req → List Req}
    (shown : (f (tileAt s t.val).blw.reqs).map bare = (tileAt s t.val).blw.reqs.map bare ++ rs.map bare) :
    Issued t.val rs s (modTile s t.val (fun x => withReqs (f x.blw.reqs) x)) :=
  ⟨⟨_, tileAt_modTile_self _ _ _, shown⟩, modTile_onlyTile _ _ _, (modTile_only _ _ _).mono (by simp), rfl, rfl⟩

theorem pushed_issued (s : State) (t : TileId) {r q : Req} (same : bare q = bare r) :
    Issued t.val [r] s (modBlw s t.val (fun b => { b with reqs := b.reqs ++ [q] })) := by
  refine modReqs_issued (f := (· ++ [q])) s t ?_
  rw [List.map_append, List.map_cons, same]
  rfl

theorem bindReq_issued (s : State) (t : TileId) (core grp : Nat) (dev : BitVec 20) (fnum : Nat) :
    Issued t.val [] s (bindReq s t.val core grp dev fnum) := by
  refine modReqs_issued (f := bindFirst core grp dev fnum) s t ?_
  rw [bareAll_bindFirst, List.map_nil, List.append_nil]

theorem rxRaise_topo (s : State) (code dev arg0 detail : Nat) (h : Option Nat) (space : Nat) :
    (rxRaise s code dev arg0 detail h space).lnk.topo = s.lnk.topo := by
  unfold rxRaise
  dsimp only
  split
  · rfl
  · split
    · rfl
    · exact congrArg (·.topo) (raise_only _ _ _ _ _ _ _ _ _ _ .lnk (by decide))

theorem launch_devices (s : State) (f : Frame) : (launch s f).lnk.topo = s.lnk.topo ∧ (launch s f).lnk.ids = s.lnk.ids := by
  have put (p : Nat) (f : Frame) : (putOut s p 12 f).lnk = s.lnk := putOut_only s p 12 f .lnk (by decide)
  unfold launch
  dsimp only
  split
  · rw [put]; exact ⟨rfl, rfl⟩
  · rw [put]; exact ⟨rfl, rfl⟩
  · exact ⟨rxRaise_topo _ _ _ _ _ _ _, rxRaise_ids _ _ _ _ _ _ _⟩
  · exact ⟨rfl, rfl⟩

theorem launch_issued (s : State) (t : Nat) (f : Frame) : Issued t [] s (launch s f) :=
  .of_tiles (launch_only s f) (launch_devices s f).1 (launch_devices s f).2

theorem enterSend_issued {e : SendEntry} {core grp : Nat} (req : e.use = .req t core grp) (s : State) : Issued t.val [] s (enterSend s e) := by
  have entered (l : List Session) (q : List SendEntry) : Issued t.val [] s { s with lnk := { s.lnk with sessions := l, send := q } } :=
    .of_tiles ((lnk_only s _).mono (by decide)) rfl rfl
  unfold enterSend
  split
  · exact .refl _ s
  · rw [req]
    exact ((entered _ _).trans (bindReq_issued _ t core grp _ _)).trans (launch_issued _ _ _)

/-- A request's frame to an admitted device takes its place among the frames (12, R290). -/
theorem sendFrame_issued {e : SendEntry} {core grp : Nat} (req : e.use = .req t core grp) (adm : admitted s e.dev.toNat = true) :
    Issued t.val [] s (sendFrame s e) := by
  unfold sendFrame
  dsimp only
  rw [if_neg (by simp [adm])]
  split
  · exact enterSend_issued req s
  · refine .of_tiles (Only.trans ?_ ((lnk_only _ _).mono (by decide))) ?_ ?_
    · exact Only.ite (Only.refl _ _) ((emit_only _ _).mono (by decide))
    · split <;> rfl
    · split <;> rfl

/-! ### The requests of a row -/

/-- The requests that read another device name an admitted one. -/
def ReadsAdmitted (s : State) (rs : List Req) : Prop := ∀ r ∈ rs, ∀ d, r.srcDev = some d → admitted s d.toNat = true

theorem ReadsAdmitted.mono (h : ReadsAdmitted s rs) (r : SameRights s n) : ReadsAdmitted n rs :=
  fun q hq d hd => (r.admitted d.toNat).trans (h q hq d hd)

/-- Requests issue while the core has tokens for them (10, R225). -/
theorem pushReqs_issues (admits : ReadsAdmitted s rs) (tokens : reqCount (tileAt s th.tile.val) th.core.val + rs.length ≤ 48) :
    ∃ n, pushReqs s th rs = (n, []) ∧ Issued th.tile.val rs s n := by
  induction rs generalizing s with
  | nil => exact ⟨s, rfl, .refl _ s⟩
  | cons r rs ih =>
    rw [List.length_cons] at tokens
    have goesOn {u : State} (one : Issued th.tile.val [r] s u) : ∃ n, pushReqs u th rs = (n, []) ∧ Issued th.tile.val (r :: rs) s n := by
      have count := one.reqCount_le th.core.val
      rw [List.length_singleton] at count
      obtain ⟨n, pushed, rest⟩ := ih (s := u) (ReadsAdmitted.mono (fun q hq => admits q (.tail _ hq)) one.rights) (by omega)
      exact ⟨n, pushed, one.trans rest⟩
    unfold pushReqs
    dsimp only
    rw [if_neg (by omega)]
    cases src : r.srcDev with
    | none => exact goesOn (pushed_issued s th.tile rfl)
    | some d =>
      have pushed := pushed_issued s th.tile (r := r) (q := { r with srcDev := some d, sent := true }) (by simp only [bare, src])
      refine goesOn (pushed.trans (sendFrame_issued rfl ?_))
      rw [pushed.rights.admitted]
      simpa using admits r (.head _) d src

/-- Requests of local bytes only come to the tile's. -/
theorem pushReqs_local (here : ∀ r ∈ rs, r.srcDev = none) (tokens : reqCount (tileAt s th.tile.val) th.core.val + rs.length ≤ 48) :
    pushReqs s th rs = (modBlw s th.tile.val (fun b => { b with reqs := b.reqs ++ rs }), []) := by
  induction rs generalizing s with
  | nil =>
    rw [pushReqs, modBlw, modTile_put]
    simp only [List.append_nil]
    exact congrArg (·, []) (putTile_self s th.tile).symm
  | cons r rs ih =>
    have count := (pushed_issued s th.tile (r := r) (q := r) rfl).reqCount_le th.core.val
    rw [List.length_cons] at tokens
    rw [List.length_singleton] at count
    unfold pushReqs
    dsimp only
    rw [if_neg (by omega), here r (.head _)]
    dsimp only
    rw [ih (fun q hq => here q (.tail _ hq)) (by omega)]
    simp only [modBlw, modTile_put, tileAt_put, putTile_putTile, List.append_assoc, List.singleton_append]

/-! ### Requests of rows -/

theorem rowReqs_congr (r : SameRights s n) (th : ThreadId) (g : Nat) (hint : Hint) (src dst len : Nat) :
    rowReqs n th g hint src dst len = rowReqs s th g hint src dst len := by simp only [rowReqs, r.isLocal]

theorem mcstReqs_congr (r : SameRights s n) (th : ThreadId) (g : Nat) (hint : Hint) (src off : Nat) (mask : BitVec 32) (len : Nat) :
    mcstReqs n th g hint src off mask len = mcstReqs s th g hint src off mask len := by simp only [mcstReqs, r.isLocal]

theorem dataReqs_congr (r : SameRights s n) (th : ThreadId) (g dst : Nat) (bs : List Byte) :
    dataReqs n th g dst bs = dataReqs s th g dst bs := by simp only [dataReqs, r.isLocal, rowReqs_congr r]

/-- Rows that the hearth may read name an admitted device, or none. -/
theorem sourceDev_admitted {h src len : Nat} (ok : gOk s h src len = true) {d : BitVec 20}
    (dev : (if isLocal s src then none else some (BitVec.ofNat 20 (gDev src))) = some d) : admitted s d.toNat = true := by
  split at dev
  · nomatch dev
  · next far =>
    have named : d.toNat = gDev src := by
      rw [← Option.some.inj dev, BitVec.toNat_ofNat]
      exact Nat.mod_eq_of_lt (Nat.mod_lt _ (by decide))
    rw [gOk, if_neg far] at ok
    rwa [named]

theorem rowReqs_admitted {h src len : Nat} (ok : gOk s h src len = true) (th : ThreadId) (g : Nat) (hint : Hint) (dst : Nat) :
    ReadsAdmitted s (rowReqs s th g hint src dst len) := by
  intro r mem d dev
  obtain ⟨p, -, rfl⟩ := List.mem_map.1 mem
  exact sourceDev_admitted ok dev

theorem mcstReqs_admitted {h src len : Nat} (ok : gOk s h src len = true) (th : ThreadId) (g : Nat) (hint : Hint) (off : Nat)
    (mask : BitVec 32) : ReadsAdmitted s (mcstReqs s th g hint src off mask len) := by
  intro r mem d dev
  obtain ⟨p, -, rfl⟩ := List.mem_map.1 mem
  exact sourceDev_admitted ok dev

theorem dataReqs_admitted (s : State) (th : ThreadId) (g dst : Nat) (bs : List Byte) : ReadsAdmitted s (dataReqs s th g dst bs) := by
  intro r mem d dev
  obtain ⟨p, -, rfl⟩ := List.mem_map.1 mem
  nomatch dev

end Sys2Proof.Machine
end

section
/-! Instructions of many rows (10, R225, R230): the state in which their rows begin, the rows' requests and the landing. -/

namespace Sys2Proof.Machine

variable {s n u : State} {th : ThreadId} {h k aux : Nat} {x y : Thread} {w : BWord} {m : Move}
  {rs todo : List Req} {plan : Thread → State → Nat → Nat → RowPlan} {row : Nat → List Req}

/-! ### The beginning -/

theorem walkBegun_modBlw (s : State) (th : ThreadId) : walkBegun s th =
    modBlw (tookTurn s th) th.tile.val (fun b => { b with nextGrp := (tileAt s th.tile.val).blw.nextGrp + 1 }) := by
  rw [modBlw, modTile_put]
  rfl

theorem nextGrp_tookTurn (s : State) (th : ThreadId) (u : Nat) : (tileAt (tookTurn s th) u).blw.nextGrp = (tileAt s u).blw.nextGrp := by
  obtain ⟨l, e⟩ := blw_tookTurn s th u
  rw [e]

theorem walkBegun_blw (s : State) (th : ThreadId) : ∃ l, (tileAt (walkBegun s th) th.tile.val).blw =
    { (tileAt s th.tile.val).blw with turns := l, nextGrp := (tileAt s th.tile.val).blw.nextGrp + 1 } := by
  obtain ⟨l, e⟩ := blw_tookTurn s th th.tile.val
  exact ⟨l, by rw [walkBegun_modBlw, modBlw, tileAt_modTile_self, e]⟩

theorem walkBegun_rights (s : State) (th : ThreadId) : SameRights s (walkBegun s th) := by
  rw [walkBegun_modBlw]
  exact (tookTurn_rights s th).trans (.modBlw _ _ _)

theorem walkBegun_only (s : State) (th : ThreadId) : Only [.tiles] s (walkBegun s th) := by
  rw [walkBegun_modBlw]
  exact (tookTurn_only s th).trans (modTile_only _ _ _)

theorem walkBegun_onlyTile (s : State) (th : ThreadId) : OnlyTile th.tile.val s (walkBegun s th) := by
  rw [walkBegun_modBlw]
  exact OnlyTile.trans (tookTurn_onlyTile s th) (modTile_onlyTile _ _ _)

theorem reqs_walkBegun (s : State) (th : ThreadId) :
    (tileAt (walkBegun s th) th.tile.val).blw.reqs = (tileAt s th.tile.val).blw.reqs := by
  obtain ⟨l, e⟩ := walkBegun_blw s th
  rw [e]

theorem tokensFor_walkBegun (tokens : TokensFor s th rs) :
    reqCount (tileAt (walkBegun s th) th.tile.val) th.core.val + rs.length ≤ 48 := by
  rw [reqCount, reqs_walkBegun]
  exact tokens

/-! ### Checks -/

theorem firstChk_pass {b : Bool} {c d : Nat} {l : List (Bool × Nat × Nat)} (passes : b = false) (rest : firstChk l = none) :
    firstChk ((b, c, d) :: l) = none := by
  rw [passes]
  exact rest

theorem anyRow_passes {p : Nat → Bool} (each : ∀ r < k, p r = false) : anyRow k p = false := by
  rw [anyRow, List.any_eq_false]
  exact fun r mem => by rw [each r (List.mem_range.1 mem)]; decide

theorem odd32_passes {v : BitVec 64} (even : v.toNat % 32 = 0) : odd32 v = false := by rw [odd32, even]; rfl

/-- A landing needs local destinations only. -/
theorem landing_passes {p : Bool} (lands : fld w 17 17 = 1 → p = false) : (Bw.lv w == 1 && p) = false := by
  cases e : Bw.lv w == 1
  · rfl
  · exact lands (beq_iff_eq.1 e)

/-! ### Rows -/

/-- What each row keeps as its requests issue, all the rows keep. -/
theorem rowsFrom_inv {R : Nat → State → Prop} (begins : R 0 s)
    (each : ∀ r < k, ∀ u, R r u → ∃ v n, plan x u r aux = .ok v (row r) aux ∧ pushReqs v th (row r) = (n, []) ∧ R (r + 1) n) :
    ∃ n, rowsFrom th x plan k s 0 aux = .next n { x with going := true, aux := aux } ∧ R k n := by
  have from' (j r : Nat) (end_ : r + j = k) (u : State) (done : R r u) :
      ∃ n, rowsFrom th x plan j u r aux = .next n { x with going := true, aux := aux } ∧ R k n := by
    induction j generalizing r u with
    | zero =>
      subst end_
      exact ⟨u, rfl, done⟩
    | succ j ih =>
      obtain ⟨v, n, planned, pushed, next⟩ := each r (by omega) u done
      obtain ⟨m, rest, all⟩ := ih (r + 1) (by omega) n next
      refine ⟨m, ?_, all⟩
      rw [rowsFrom, planned]
      dsimp only
      rw [pushed]
      exact rest
  exact from' k 0 (Nat.zero_add k) s begins

theorem flatMap_range_succ {α : Type} (row : Nat → List α) (r : Nat) :
    (List.range (r + 1)).flatMap row = (List.range r).flatMap row ++ row r := by
  rw [List.range_succ, List.flatMap_append, List.flatMap_singleton]

theorem flatMap_range_length {α : Type} (row : Nat → List α) {r k : Nat} (lt : r < k) :
    ((List.range r).flatMap row).length + (row r).length ≤ ((List.range k).flatMap row).length := by
  rw [← List.length_append, ← flatMap_range_succ]
  exact (List.Sublist.flatMap (List.range_sublist.2 lt) row).length_le

/-- The rows whose plans leave the state as it is issue their requests (10, R225). -/
theorem rowsFrom_issues (plans : ∀ r < k, ∀ l u, Issued th.tile.val l s u → plan x u r aux = .ok u (row r) aux)
    (admits : ∀ r < k, ReadsAdmitted s (row r))
    (tokens : reqCount (tileAt s th.tile.val) th.core.val + ((List.range k).flatMap row).length ≤ 48) :
    ∃ n, rowsFrom th x plan k s 0 aux = .next n { x with going := true, aux := aux } ∧
      Issued th.tile.val ((List.range k).flatMap row) s n := by
  refine rowsFrom_inv (row := row) (R := fun r u => Issued th.tile.val ((List.range r).flatMap row) s u) (.refl _ s) fun r lt u done => ?_
  have within := flatMap_range_length row lt
  have count := done.reqCount_le th.core.val
  obtain ⟨n, pushed, issued⟩ := pushReqs_issues (s := u) (th := th) ((admits r lt).mono done.rights) (by omega)
  exact ⟨u, n, plans r lt _ u done, pushed, flatMap_range_succ row r ▸ done.trans issued⟩

/-! ### The whole instruction -/

/-- The landing of an instruction is posted when it has one (10, R230). -/
def posted (th : ThreadId) (w : BWord) (g : Nat) (mask : Option (BitVec 32)) (s : State) : State :=
  match mask with
  | some k => if Bw.lv w = 1 then modBlw s th.tile.val (fun b => { b with landings := b.landings ++ [⟨g, Bw.land w, k⟩] }) else s
  | none => s

/-- The thread as an instruction of many rows begins with it. -/
def walking (x : Thread) (g aux : Nat) : Thread :=
  { x with going := true, begun := true, step := 0, aux := aux, grp := g, todo := [] }

theorem moveRows_done (rows : rowsFrom th x (m.plan x.grp) (m.rows - x.step) s x.step x.aux = .next n y) :
    moveRows th w m s x = .next (posted th w y.grp m.mask n) (m.finish y) := by
  rw [moveRows, rows]
  rfl

/-- An instruction that passes its checks, has its tables and does all its rows at once (10, R225, R230). -/
theorem moveExec_done {s₂ s₃ s₄ : State} {bs : List (List Byte × Bool)} {aux' : Nat} (idle : x.going = false)
    (passes : firstChk (m.chk (tookTurn s th)) = none)
    (here : ∀ t ∈ m.tabs, isLocal s t.1 = true)
    (read : ∀ z, readTabs z h (walkBegun s th) 0 m.tabs = some (s₂, bs))
    (begins : m.begin' s₂ (tileAt s th.tile.val).blw.nextGrp bs = .ok (s₃, aux, todo))
    (pushed : pushReqs s₃ th todo = (s₄, []))
    (rows : rowsFrom th (walking x (tileAt s th.tile.val).blw.nextGrp aux) (m.plan (tileAt s th.tile.val).blw.nextGrp) m.rows s₄ 0 aux =
      .next n { walking x (tileAt s th.tile.val).blw.nextGrp aux with aux := aux' }) :
    moveExec th w m (tookTurn s th) h x = .next (posted th w (tileAt s th.tile.val).blw.nextGrp m.mask n)
      (m.finish { walking x (tileAt s th.tile.val).blw.nextGrp aux with aux := aux' }) := by
  have noReads (g : Nat) : (m.tabs.zipIdx.map (fun e => tabReqs (tookTurn s th) th g e.2 e.1)).flatten = [] := by
    rw [List.flatten_eq_nil_iff]
    intro l mem
    obtain ⟨e, inTabs, rfl⟩ := List.mem_map.1 mem
    have tab := here e.1 (List.fst_mem_of_mem_zipIdx inTabs)
    rw [tabReqs, (tookTurn_rights s th).isLocal, if_pos tab]
  unfold moveExec
  dsimp only
  rw [idle, if_neg Bool.false_ne_true, passes]
  dsimp only
  rw [noReads, nextGrp_tookTurn, ← walkBegun_modBlw, moveRun, pushReqs]
  dsimp only
  rw [if_neg Bool.false_ne_true, read]
  dsimp only
  rw [begins]
  dsimp only
  rw [pushed]
  exact moveRows_done rows

/-- One that reads no table and has no first effects. -/
theorem moveExec_rows {aux' : Nat} (idle : x.going = false) (passes : firstChk (m.chk (tookTurn s th)) = none) (tabs : m.tabs = [])
    (begins : ∀ u g, m.begin' u g [] = .ok (u, 0, []))
    (rows : rowsFrom th (walking x (tileAt s th.tile.val).blw.nextGrp 0) (m.plan (tileAt s th.tile.val).blw.nextGrp) m.rows
      (walkBegun s th) 0 0 = .next n { walking x (tileAt s th.tile.val).blw.nextGrp 0 with aux := aux' }) :
    moveExec th w m (tookTurn s th) h x = .next (posted th w (tileAt s th.tile.val).blw.nextGrp m.mask n)
      (m.finish { walking x (tileAt s th.tile.val).blw.nextGrp 0 with aux := aux' }) :=
  moveExec_done idle passes (by rw [tabs]; nofun) (fun z => by rw [tabs, readTabs]) (begins _ _) (by rw [pushReqs]) rows

/-! ### Where it leaves the thread -/

theorem posted_only (th : ThreadId) (w : BWord) (g : Nat) (mask : Option (BitVec 32)) (s : State) :
    Only [.tiles] s (posted th w g mask s) ∧ OnlyTile th.tile.val s (posted th w g mask s) ∧ SameRights s (posted th w g mask s) := by
  unfold posted
  split
  · split
    · exact ⟨modTile_only _ _ _, modTile_onlyTile _ _ _, .modBlw _ _ _⟩
    · exact ⟨Only.refl _ _, fun _ _ => rfl, .refl _⟩
  · exact ⟨Only.refl _ _, fun _ _ => rfl, .refl _⟩

/-- The landings of a tile once one is posted. -/
def postedLandings (w : BWord) (g : Nat) (mask : Option (BitVec 32)) (l : List Landing) : List Landing :=
  match mask with
  | some k => l ++ (if Bw.lv w = 1 then [⟨g, Bw.land w, k⟩] else [])
  | none => l

theorem posted_blw (th : ThreadId) (w : BWord) (g : Nat) (mask : Option (BitVec 32)) (s : State) :
    (tileAt (posted th w g mask s) th.tile.val).blw =
      { (tileAt s th.tile.val).blw with landings := postedLandings w g mask (tileAt s th.tile.val).blw.landings } := by
  unfold posted postedLandings
  split
  · split
    · rw [modBlw, tileAt_modTile_self]
    · rw [List.append_nil]
  · rfl

theorem withThread_rights (n : State) (th : ThreadId) (y : Thread) : SameRights n (withThread n th y) := by
  rw [withThread, setThread]
  exact .modBlw _ _ _

/-- The rows' requests have come to the tile of a thread whose instruction began: it has moved them (10, R225, R230, R236). -/
theorem moved_of_issued {mask : Option (BitVec 32)} {g : Nat} (grp : g = (tileAt s th.tile.val).blw.nextGrp)
    (reqs : (tileAt n th.tile.val).blw.reqs.map bare = (tileAt s th.tile.val).blw.reqs.map bare ++ rs.map bare)
    (next : (tileAt n th.tile.val).blw.nextGrp = (tileAt s th.tile.val).blw.nextGrp + 1)
    (landings : (tileAt n th.tile.val).blw.landings = (tileAt s th.tile.val).blw.landings)
    (runs : y.st = .run) (free : y.stall = none) (loops : y.loops = x.loops) :
    Moved s (withThread (posted th w g mask n) th (threadTo (x.pc + 1) y)) th x w rs mask := by
  have blw : ∃ l, (tileAt (withThread (posted th w g mask n) th (threadTo (x.pc + 1) y)) th.tile.val).blw =
      { (tileAt n th.tile.val).blw with
        threads := l, landings := postedLandings w g mask (tileAt n th.tile.val).blw.landings } := by
    rw [withThread, setThread, modBlw, tileAt_modTile_self, posted_blw]
    exact ⟨_, rfl⟩
  obtain ⟨l, blw⟩ := blw
  unfold Moved
  dsimp only
  rw [blw, threadAt_withThread, landings, grp]
  refine ⟨reqs, next, fun k e => ?_, fun e => ?_, _, rfl, runs, rfl, free, rfl, loops⟩
  · rw [e]; rfl
  · rw [e]; rfl

/-- The bellows of the tile are those with which the instruction began, and then these requests have issued. -/
theorem issued_blw (begun : (tileAt u th.tile.val).blw = (tileAt (walkBegun s th) th.tile.val).blw) (issued : Issued th.tile.val rs u n) :
    (tileAt n th.tile.val).blw.reqs.map bare = (tileAt s th.tile.val).blw.reqs.map bare ++ rs.map bare ∧
      (tileAt n th.tile.val).blw.nextGrp = (tileAt s th.tile.val).blw.nextGrp + 1 ∧
      (tileAt n th.tile.val).blw.landings = (tileAt s th.tile.val).blw.landings := by
  obtain ⟨l, at_n, shown⟩ := issued.tile
  obtain ⟨turns, first⟩ := walkBegun_blw s th
  rw [at_n, withReqs]
  dsimp only
  rw [shown, begun, first]
  exact ⟨rfl, rfl, rfl⟩

/-- What an instruction leaves whose requests have all issued (10, R225, R230). -/
theorem thRun_moves {f : State → Nat → Thread → BWord → TRes} {op : Nat} {z : Thread} {mask : Option (BitVec 32)}
    (atWord : AtWord s th h x w) (room : x.pc < 4095) (code : fld w 63 58 = op) (defined : bwDefined op = true)
    (begun : (tileAt u th.tile.val).blw = (tileAt (walkBegun s th) th.tile.val).blw) (issued : Issued th.tile.val rs u n)
    (done : f (tookTurn s th) h x w = .next (posted th w (tileAt s th.tile.val).blw.nextGrp mask n) z)
    (same : z.pc = x.pc ∧ z.st = x.st ∧ z.stall = x.stall ∧ z.loops = x.loops) :
    ∃ m, thRun th (isOp op) f s = m ∧ Moved s m th x w rs mask ∧
      threadAt (tileAt m th.tile.val) th.core.val th.thr.val = some (threadTo (x.pc + 1) z) ∧ Only [.tiles] n m ∧ SameRights n m := by
  obtain ⟨pc, st, stall, loops⟩ := same
  have at_ := atWord
  obtain ⟨-, -, runs, free, -⟩ := at_
  obtain ⟨reqs, next, landings⟩ := issued_blw begun issued
  obtain ⟨only, -, rights⟩ := posted_only th w (tileAt s th.tile.val).blw.nextGrp mask n
  exact ⟨_, thRun_next atWord code defined room done pc,
    moved_of_issued rfl reqs next landings (st.trans runs) (stall.trans free) loops, threadAt_withThread _ _ _,
    only.trans (withThread_only _ _ _), rights.trans (withThread_rights _ _ _)⟩

/-- The bytes of memory stay as rows issue that begin where the instruction did. -/
theorem walk_mem (issued : Issued th.tile.val rs (walkBegun s th) n) {m : State} (only : Only [.tiles] n m) : Part.mem.same s m :=
  Part.same_trans ((walkBegun_only s th) .mem (by decide)) (Part.same_trans issued.mem (only .mem (by decide)))

end Sys2Proof.Machine
end

section
/-! MOVE and MCST (10, R236, R238): their rows pass their checks, issue their requests and land. -/

namespace Sys2Proof.Machine

variable {s n : State} {th : ThreadId} {h : Nat} {x : Thread} {w : BWord}

/-- Group of the instruction that a thread of the tile begins. -/
def groupNext (s : State) (th : ThreadId) : Nat := (tileAt s th.tile.val).blw.nextGrp

/-! ### MOVE -/

/-- The requests of a MOVE, row by row (10, R236). -/
def moveReqs (s : State) (th : ThreadId) (x : Thread) (w : BWord) (r : Nat) : List Req :=
  rowReqs s th (groupNext s th) (hintOf (Bw.hnt w)) (rowAt x (Bw.rs w) (Bw.rss w) r) (rowAt x (Bw.rt w) (Bw.rts w) r) (Bw.len w)

/-- The checks of a row from src to dst (10, R236). -/
def RowPasses (s : State) (h : Nat) (w : BWord) (src dst len : Nat) : Prop :=
  gOk s h src len = true ∧ gOk s h dst len = true ∧ (isLocal s src = true ∨ isLocal s dst = true) ∧
    (fld w 17 17 = 1 → isLocal s dst = true)

theorem passes_range {src dst len : Nat} (ok : gOk s h dst len = true ∧ (isLocal s src = true ∨ isLocal s dst = true)) :
    (!gOk s h dst len || (!isLocal s src && !isLocal s dst)) = false := by
  rw [ok.1]
  rcases ok.2 with e | e <;> simp [e]

theorem landings_pass {k : Nat} {p : Nat → Bool} (near : ∀ r < k, fld w 17 17 = 1 → p r = true) :
    (Bw.lv w == 1 && anyRow k (fun r => !p r)) = false :=
  landing_passes fun lands => anyRow_passes fun r lt => by rw [near r lt lands]; rfl

theorem thMove_rows (idle : x.going = false) (hint : Bw.hnt w ≠ 3) (evenSrc : (breg x (Bw.rs w)).toNat % 32 = 0)
    (evenDst : (breg x (Bw.rt w)).toNat % 32 = 0) (evenSrcs : (breg x (Bw.rss w)).toNat % 32 = 0)
    (evenDsts : (breg x (Bw.rts w)).toNat % 32 = 0)
    (ok : ∀ r < Bw.rows w, RowPasses s h w (rowAt x (Bw.rs w) (Bw.rss w) r) (rowAt x (Bw.rt w) (Bw.rts w) r) (Bw.len w))
    (tokens : TokensFor s th ((List.range (Bw.rows w)).flatMap (moveReqs s th x w))) :
    ∃ n, Issued th.tile.val ((List.range (Bw.rows w)).flatMap (moveReqs s th x w)) (walkBegun s th) n ∧
      thMove th (tookTurn s th) h x w = .next (posted th w (groupNext s th)
        (landMask s th.tile.val (rowAt x (Bw.rt w) (Bw.rts w) 0)) n) (walking x (groupNext s th) 0) := by
  have turn := tookTurn_rights s th
  have begun := walkBegun_rights s th
  obtain ⟨n, rows, issued⟩ := rowsFrom_issues (s := walkBegun s th) (th := th) (x := walking x (groupNext s th) 0) (aux := 0)
    (plan := fun _ u r _ => .ok u (rowReqs u th (groupNext s th) (hintOf (Bw.hnt w)) (rowAt x (Bw.rs w) (Bw.rss w) r)
      (rowAt x (Bw.rt w) (Bw.rts w) r) (Bw.len w)) 0)
    (row := moveReqs s th x w) (fun r _ l u issued => by rw [rowReqs_congr (begun.trans issued.rights)]; rfl)
    (fun r lt => (rowReqs_admitted (ok r lt).1 _ _ _ _).mono begun) (tokensFor_walkBegun tokens)
  refine ⟨n, issued, ?_⟩
  rw [← turn.landMask]
  refine moveExec_rows idle ?_ rfl (fun _ _ => rfl) rows
  dsimp only
  simp only [turn.gOk, turn.isLocal]
  refine firstChk_pass (beq_false_of_ne hint) (firstChk_pass ?_ (firstChk_pass ?_ (firstChk_pass ?_ (firstChk_pass ?_ rfl))))
  · rw [odd32_passes evenSrc, odd32_passes evenSrcs, odd32_passes evenDst, odd32_passes evenDsts]
    rfl
  · exact anyRow_passes fun r lt => by rw [(ok r lt).1]; rfl
  · exact anyRow_passes fun r lt =>
      have ⟨_, dst, near, _⟩ := ok r lt
      passes_range ⟨dst, near⟩
  · exact landings_pass fun r lt => (ok r lt).2.2.2

theorem movePair_alike {mism : Bool} {s₀ : State} (alike : mism = true → tileRole n th.tile.val ≠ 1) : movePair th mism s₀ n = n := by
  unfold movePair
  dsimp only
  split
  · refine if_neg fun differs => ?_
    simp only [Bool.and_eq_true, beq_iff_eq] at differs
    obtain ⟨⟨mism, -⟩, role⟩ := differs
    exact alike mism role
  · rfl

/-! ### MCST -/

/-- The tiles of the instruction's group (10, R238). -/
def mcstMask (s : State) (h : Nat) (w : BWord) : BitVec 32 :=
  BitVec.ofNat 32 (fld (vget (hearthAt s h).mem.mcg (Bw.scl w % 16) 0) 31 0)

/-- The requests of an MCST, row by row (10, R238). -/
def multicastReqs (s : State) (th : ThreadId) (h : Nat) (x : Thread) (w : BWord) (r : Nat) : List Req :=
  mcstReqs s th (groupNext s th) (hintOf (Bw.hnt w)) (rowAt x (Bw.rs w) (Bw.rss w) r) (rowAt x (Bw.rt w) (Bw.rts w) r)
    (mcstMask s h w) (Bw.len w)

theorem setBits_nonempty {k : Nat} {mask : BitVec k} (nonzero : mask ≠ 0) : (setBits mask).isEmpty = false := by
  rw [List.isEmpty_eq_false_iff]
  intro none
  refine nonzero (BitVec.eq_of_getLsbD_eq fun i lt => ?_)
  have off := List.filter_eq_nil_iff.1 none i (List.mem_range.2 lt)
  simpa using off

theorem thMcst_rows (idle : x.going = false) (hint : Bw.hnt w ≠ 3) (evenSrc : (breg x (Bw.rs w)).toNat % 32 = 0)
    (evenDst : (breg x (Bw.rt w)).toNat % 32 = 0) (evenSrcs : (breg x (Bw.rss w)).toNat % 32 = 0)
    (evenDsts : (breg x (Bw.rts w)).toNat % 32 = 0) (nonzero : mcstMask s h w ≠ 0)
    (tiles : ∀ k ∈ setBits (mcstMask s h w), tileHearth s k = some h ∧ tileRole s k ≠ 2 ∧
      ∀ r < Bw.rows w, inScratch s k (rowAt x (Bw.rt w) (Bw.rts w) r) (Bw.len w) = true)
    (ok : ∀ r < Bw.rows w, gOk s h (rowAt x (Bw.rs w) (Bw.rss w) r) (Bw.len w) = true)
    (tokens : TokensFor s th ((List.range (Bw.rows w)).flatMap (multicastReqs s th h x w))) :
    ∃ n, Issued th.tile.val ((List.range (Bw.rows w)).flatMap (multicastReqs s th h x w)) (walkBegun s th) n ∧
      thMcst th (tookTurn s th) h x w = .next (posted th w (groupNext s th) (some (mcstMask s h w)) n) (walking x (groupNext s th) 0) := by
  have turn := tookTurn_rights s th
  have begun := walkBegun_rights s th
  obtain ⟨n, rows, issued⟩ := rowsFrom_issues (s := walkBegun s th) (th := th) (x := walking x (groupNext s th) 0) (aux := 0)
    (plan := fun _ u r _ => .ok u (mcstReqs u th (groupNext s th) (hintOf (Bw.hnt w)) (rowAt x (Bw.rs w) (Bw.rss w) r)
      (rowAt x (Bw.rt w) (Bw.rts w) r) (mcstMask s h w) (Bw.len w)) 0)
    (row := multicastReqs s th h x w) (fun r _ l u issued => by rw [mcstReqs_congr (begun.trans issued.rights)]; rfl)
    (fun r lt => (mcstReqs_admitted (ok r lt) _ _ _ _ _).mono begun) (tokensFor_walkBegun tokens)
  refine ⟨n, issued, ?_⟩
  refine moveExec_rows idle ?_ rfl (fun _ _ => rfl) rows
  dsimp only
  simp only [turn.gOk, turn.tileHearth, turn.inScratch, turn.tileRole]
  refine firstChk_pass (beq_false_of_ne hint) (firstChk_pass ?_ (firstChk_pass ?_ (firstChk_pass ?_ (firstChk_pass ?_ rfl))))
  · rw [odd32_passes evenSrc, odd32_passes evenSrcs, odd32_passes evenDst, odd32_passes evenDsts]
    rfl
  · refine Bool.or_eq_false_iff.2 ⟨setBits_nonempty nonzero, List.any_eq_false.2 fun k mem => ?_⟩
    rw [(tiles k mem).1]
    simp
  · exact anyRow_passes fun r lt => by rw [ok r lt]; rfl
  · refine anyRow_passes fun r lt => List.any_eq_false.2 fun k mem => ?_
    obtain ⟨-, role, scratch⟩ := tiles k mem
    rw [scratch r lt]
    simpa using role

end Sys2Proof.Machine
end

section
/-! GATH and PFT (10, R237, R239): rows from the indexes of a table in a scratch window, and rows that are fetched or dropped. -/

namespace Sys2Proof.Machine

variable {s n u : State} {th : ThreadId} {h : Nat} {x : Thread} {w : BWord}

theorem lOk_local {a k : Nat} (ok : lOk s h a k = true) : isLocal s a = true := (Bool.and_eq_true_iff.1 ok).1
theorem lOk_gOk {a k : Nat} (ok : lOk s h a k = true) : gOk s h a k = true := by
  rw [gOk, if_pos (lOk_local ok)]
  exact (Bool.and_eq_true_iff.1 ok).2

/-! ### Tables in a scratch window -/

theorem window_bounds {a t o : Nat} (placed : place a = .win t o) : scrWin ≤ a ∧ a < scrWin + 32 * 0x2000000 := by
  unfold place at placed
  split at placed
  · nomatch placed
  · split at placed
    · next within => exact within
    · split at placed <;> nomatch placed

theorem gLoc_add {a t o d : Nat} (placed : place (gLoc a) = .win t o) (small : d < 2 ^ 32) : gLoc (a + d) = gLoc a + d := by
  obtain ⟨-, below⟩ := window_bounds placed
  unfold gLoc at *
  simp only [scrWin] at below
  omega

theorem place_above {a t o d : Nat} (placed : place a = .win t o) (b : Nat) : place (a + d) ≠ .deep b := by
  obtain ⟨above, -⟩ := window_bounds placed
  unfold place
  rw [if_neg (by simp only [deepTop, scrWin] at *; omega)]
  split
  · nofun
  · split <;> nofun

/-- Bytes without a wrong code word outside deep memory are read at once. -/
theorem devRead_window {k : Option Nat} {hint : Hint} {a len : Nat} (outside : ∀ b, place a ≠ .deep b) (clean : s.codes.words = []) :
    devRead s k hint a len [] = some (s, readMem s.mem a len, poisoned s a len) := by
  unfold devRead
  split
  · next b e => exact absurd e (outside b)
  · rw [noteCodes_nil, seeWords_clean clean]

theorem poisoned_within {a len b k : Nat} (clean : poisoned s a len = []) (some : 0 < k) (above : a ≤ b) (below : b + k ≤ a + len) :
    poisoned s b k = [] := by
  have long : len ≠ 0 := by omega
  rw [poisoned, if_neg long, List.filter_eq_nil_iff] at clean
  rw [poisoned, if_neg (by omega), List.filter_eq_nil_iff]
  intro sector mem inside
  refine clean sector mem ?_
  simp only [Bool.and_eq_true, decide_eq_true_eq] at inside ⊢
  have := Nat.div_le_div_right (c := 32) above
  have := Nat.div_le_div_right (c := 32) (show b + k - 1 ≤ a + len - 1 by omega)
  omega

/-! ### GATH -/

/-- Source of row r of a GATH (10, R237). -/
def gathFrom (s : State) (x : Thread) (w : BWord) (r : Nat) : Nat :=
  (breg x (Bw.rss w) + BitVec.ofNat 64 (leNat (readMem s.mem (gLoc (breg x (Bw.rs w)).toNat + 4 * r) 4) * 2 ^ Bw.scl w)).toNat

/-- The requests of a GATH, row by row (10, R237). -/
def gathReqs (s : State) (th : ThreadId) (x : Thread) (w : BWord) (r : Nat) : List Req :=
  rowReqs s th (groupNext s th) (hintOf (Bw.hnt w)) (gathFrom s x w r) (rowAt x (Bw.rt w) (Bw.rts w) r) (Bw.len w)

theorem rows_le (w : BWord) : Bw.rows w ≤ 512 := fld_lt w 41 33

section
variable {t₀ base : Nat} (within : lOk s h (breg x (Bw.rs w)).toNat (4 * Bw.rows w) = true)
  (placed : place (gLoc (breg x (Bw.rs w)).toNat) = .win t₀ base) (inside : (breg x (Bw.rs w)).toNat + 4 * Bw.rows w ≤ 2 ^ 64)

include inside in
theorem gathIdx_eq {r : Nat} (lt : r < Bw.rows w) : gathIdx x w r = (breg x (Bw.rs w)).toNat + 4 * r := by
  rw [gathIdx, BitVec.toNat_add, BitVec.toNat_ofNat]
  omega

include placed inside in
/-- The index of a row is read as it issues. -/
theorem gathIdx_reads {hint : Hint} (unpoisoned : poisoned s (gLoc (breg x (Bw.rs w)).toNat) (4 * Bw.rows w) = [])
    (clean : s.codes.words = []) (same : Part.mem.same s u) {r : Nat} (lt : r < Bw.rows w) :
    devRead u (some h) hint (gLoc (gathIdx x w r)) 4 [] =
      some (u, readMem s.mem (gLoc (breg x (Bw.rs w)).toNat + 4 * r) 4, []) := by
  obtain ⟨mem, poison, codes⟩ := same
  have rows := rows_le w
  have none : poisoned u (gLoc (breg x (Bw.rs w)).toNat + 4 * r) 4 = [] := by
    rw [poisoned, poison]
    exact poisoned_within unpoisoned (by decide) (by omega) (by omega)
  rw [gathIdx_eq inside lt, gLoc_add placed (by omega), devRead_window (place_above placed) (by rw [codes, clean]), mem, none]

include within placed inside in
theorem thGath_rows (idle : x.going = false) (hint : Bw.hnt w ≠ 3) (fine : 5 ≤ Bw.scl w) (coarse : Bw.scl w ≤ 20)
    (evenTab : (breg x (Bw.rs w)).toNat % 4 = 0) (evenDst : (breg x (Bw.rt w)).toNat % 32 = 0)
    (evenSrc : (breg x (Bw.rss w)).toNat % 32 = 0) (evenDsts : (breg x (Bw.rts w)).toNat % 32 = 0)
    (unpoisoned : poisoned s (gLoc (breg x (Bw.rs w)).toNat) (4 * Bw.rows w) = []) (clean : s.codes.words = [])
    (ok : ∀ r < Bw.rows w, RowPasses s h w (gathFrom s x w r) (rowAt x (Bw.rt w) (Bw.rts w) r) (Bw.len w))
    (tokens : TokensFor s th ((List.range (Bw.rows w)).flatMap (gathReqs s th x w))) :
    ∃ n, Issued th.tile.val ((List.range (Bw.rows w)).flatMap (gathReqs s th x w)) (walkBegun s th) n ∧
      thGath th (tookTurn s th) h x w = .next (posted th w (groupNext s th)
        (landMask s th.tile.val (rowAt x (Bw.rt w) (Bw.rts w) 0)) n) (walking x (groupNext s th) 0) := by
  have turn := tookTurn_rights s th
  have begun := walkBegun_rights s th
  have table : gathIdx x w 0 = (breg x (Bw.rs w)).toNat := gathIdx_eq inside (Nat.succ_pos _)
  have near : (!isLocal (tookTurn s th) (gathIdx x w 0)) = false := by rw [table, turn.isLocal, lOk_local within]; rfl
  unfold thGath
  dsimp only
  rw [near, turn.landMask]
  refine (rowsFrom_issues (s := walkBegun s th) (th := th) (x := walking x (groupNext s th) 0) (aux := 0) (row := gathReqs s th x w)
    ?plans (fun r lt => (rowReqs_admitted (ok r lt).1 _ _ _ _).mono begun) (tokensFor_walkBegun tokens)).elim
    fun n ⟨rows, issued⟩ => ⟨n, issued, moveExec_rows idle ?passes rfl (fun _ _ => rfl) rows⟩
  case plans =>
    intro r lt l u issued
    have rights := begun.trans issued.rights
    have index : gathIdx (walking x (groupNext s th) 0) w r = gathIdx x w r := rfl
    have read := gathIdx_reads (h := h) (hint := hintOf (Bw.hnt w)) placed inside unpoisoned clean
      (Part.same_trans ((walkBegun_only s th) .mem (by decide)) issued.mem) lt
    obtain ⟨src, dst, side, -⟩ := ok r lt
    have passes : ¬ ((!gOk u h (gathFrom s x w r) (Bw.len w)) = true ∨
        (!isLocal u (gathFrom s x w r)) = true ∧ (!isLocal u (rowAt x (Bw.rt w) (Bw.rts w) r)) = true) := by
      rw [rights.gOk, rights.isLocal, rights.isLocal, src]
      rcases side with e | e <;> simp [e]
    dsimp only
    rw [if_neg Bool.false_ne_true, index, read]
    dsimp only [Option.map_some, List.isEmpty_nil]
    rw [if_neg (by decide)]
    refine (if_neg passes).trans ?_
    rw [rowReqs_congr rights]
    rfl
  case passes =>
    dsimp only
    simp only [turn.gOk, turn.isLocal, table]
    refine firstChk_pass (beq_false_of_ne hint) (firstChk_pass ?_ (firstChk_pass ?_ (firstChk_pass ?_ (firstChk_pass ?_
      (firstChk_pass ?_ rfl)))))
    · rw [decide_eq_false (by omega), decide_eq_false (by omega)]
      rfl
    · rw [evenTab, odd32_passes evenSrc, odd32_passes evenDst, odd32_passes evenDsts]
      rfl
    · rw [lOk_gOk within]
      rfl
    · exact anyRow_passes fun r lt => by rw [(ok r lt).2.1]; rfl
    · exact landings_pass fun r lt => (ok r lt).2.2.2

end

/-! ### PFT -/

/-- A prefetch drops row r (10, R239). -/
def pftDrops (s : State) (h : Nat) (x : Thread) (w : BWord) (r : Nat) : Bool :=
  odd32 (breg x (Bw.rs w)) || odd32 (breg x (Bw.rss w)) || Bw.hnt w == 3 || !lOk s h (rowAt x (Bw.rs w) (Bw.rss w) r) (Bw.len w)

/-- The requests of a PFT, row by row (10, R239). -/
def pftReqs (s : State) (th : ThreadId) (h : Nat) (x : Thread) (w : BWord) (r : Nat) : List Req :=
  if pftDrops s h x w r then [] else
    (rowReqs s th (groupNext s th) .alloc (rowAt x (Bw.rs w) (Bw.rss w) r) (rowAt x (Bw.rs w) (Bw.rss w) r) (Bw.len w)).map
      (fun q => { q with dst := .none })

/-- The bellows with more requests, and with more rows dropped. -/
def prefetched (rs : List Req) (drops : Nat) (b : Bellows) : Bellows :=
  { b with reqs := b.reqs ++ rs, pfdrop := (fun v => bumpSat v 31 0 1)^[drops] b.pfdrop }

theorem prefetched_more (rs ss : List Req) (d e : Nat) (b : Bellows) :
    prefetched ss e (prefetched rs d b) = prefetched (rs ++ ss) (d + e) b := by
  simp only [prefetched, List.append_assoc, Nat.add_comm d e, Function.iterate_add_apply]

theorem prefetched_drop : prefetched [] 1 = fun b => { b with pfdrop := bumpSat b.pfdrop 31 0 1 } :=
  funext fun b => by rw [prefetched, List.append_nil, Function.iterate_one]

theorem fld_drops (v : Reg) (d : Nat) :
    fld ((fun v => bumpSat v 31 0 1)^[d] v) 31 0 = min (2 ^ 32 - 1) (fld v 31 0 + d) := by
  induction d with
  | zero =>
    have := fld_lt v 31 0
    rw [Function.iterate_zero_apply]
    omega
  | succ d ih =>
    rw [Function.iterate_succ_apply', fld_bumpSat (by decide), ih]
    omega

theorem modBlw_modBlw (s : State) (t : TileId) (f g : Bellows → Bellows) :
    modBlw (modBlw s t.val f) t.val g = modBlw s t.val (fun b => g (f b)) := by
  simp only [modBlw, modTile_put, tileAt_put, putTile_putTile]

theorem modBlw_same (s : State) (t : TileId) {f : Bellows → Bellows} (same : ∀ b, f b = b) : modBlw s t.val f = s := by
  rw [modBlw, modTile_put, same]
  exact putTile_self s t

/-- Rows so far that a prefetch has dropped. -/
def dropsBefore (s : State) (h : Nat) (x : Thread) (w : BWord) (r : Nat) : Nat := ((List.range r).filter (pftDrops s h x w)).length

theorem dropsBefore_succ (s : State) (h : Nat) (x : Thread) (w : BWord) (r : Nat) :
    dropsBefore s h x w (r + 1) = dropsBefore s h x w r + if pftDrops s h x w r then 1 else 0 := by
  rw [dropsBefore, List.range_succ, List.filter_append, List.length_append, dropsBefore]
  cases e : pftDrops s h x w r <;> simp [e]

theorem pftReqs_local {r : Nat} : ∀ q ∈ pftReqs s th h x w r, q.srcDev = none := by
  intro q mem
  unfold pftReqs at mem
  split at mem
  · nomatch mem
  · next keeps =>
    have near : isLocal s (rowAt x (Bw.rs w) (Bw.rss w) r) = true := by
      simp only [pftDrops, Bool.or_eq_true, not_or, Bool.not_eq_true, Bool.not_eq_false'] at keeps
      exact lOk_local keeps.2
    obtain ⟨p, inRow, rfl⟩ := List.mem_map.1 mem
    obtain ⟨c, -, rfl⟩ := List.mem_map.1 inRow
    exact if_pos near

theorem thPft_rows (idle : x.going = false) (tokens : TokensFor s th ((List.range (Bw.rows w)).flatMap (pftReqs s th h x w))) :
    thPft th (tookTurn s th) h x w = .next (modBlw (walkBegun s th) th.tile.val
      (prefetched ((List.range (Bw.rows w)).flatMap (pftReqs s th h x w)) (dropsBefore s h x w (Bw.rows w))))
      (walking x (groupNext s th) 0) := by
  have begun := walkBegun_rights s th
  have tokens' := tokensFor_walkBegun tokens
  unfold thPft
  dsimp only
  refine (rowsFrom_inv (k := Bw.rows w) (th := th) (x := walking x (groupNext s th) 0) (aux := 0)
    (row := pftReqs s th h x w) (s := walkBegun s th)
    (R := fun r u => u = modBlw (walkBegun s th) th.tile.val
      (prefetched ((List.range r).flatMap (pftReqs s th h x w)) (dropsBefore s h x w r))) ?begins ?each).elim
    fun n ⟨rows, all⟩ => (moveExec_rows idle rfl rfl (fun _ _ => rfl) rows).trans (by rw [← all]; rfl)
  case begins => exact (modBlw_same _ _ fun b => by rw [List.range_zero, List.flatMap_nil, prefetched, List.append_nil]; rfl).symm
  case each =>
    rintro r lt _ rfl
    have rights := begun.trans (.modBlw (walkBegun s th) th.tile.val
      (prefetched ((List.range r).flatMap (pftReqs s th h x w)) (dropsBefore s h x w r)))
    have within := flatMap_range_length (pftReqs s th h x w) lt
    have count : reqCount (tileAt (modBlw (walkBegun s th) th.tile.val (prefetched ((List.range r).flatMap (pftReqs s th h x w))
        (dropsBefore s h x w r))) th.tile.val) th.core.val ≤ reqCount (tileAt (walkBegun s th) th.tile.val) th.core.val +
          ((List.range r).flatMap (pftReqs s th h x w)).length := by
      rw [modBlw, tileAt_modTile_self, reqCount, prefetched, List.filter_append, List.length_append]
      exact Nat.add_le_add_left (List.length_filter_le _ _) _
    have more : modBlw (modBlw (walkBegun s th) th.tile.val (prefetched ((List.range r).flatMap (pftReqs s th h x w))
        (dropsBefore s h x w r))) th.tile.val (prefetched (pftReqs s th h x w r) (if pftDrops s h x w r then 1 else 0)) =
          modBlw (walkBegun s th) th.tile.val
            (prefetched ((List.range (r + 1)).flatMap (pftReqs s th h x w)) (dropsBefore s h x w (r + 1))) := by
      rw [modBlw_modBlw, flatMap_range_succ, dropsBefore_succ]
      exact congrArg _ (funext fun b => prefetched_more _ _ _ _ b)
    generalize modBlw (walkBegun s th) th.tile.val (prefetched ((List.range r).flatMap (pftReqs s th h x w)) (dropsBefore s h x w r)) = u
      at rights count more
    have drops : ((odd32 (breg x (Bw.rs w)) || odd32 (breg x (Bw.rss w)) || Bw.hnt w == 3) = true ∨
        (!lOk u h (rowAt x (Bw.rs w) (Bw.rss w) r) (Bw.len w)) = true) ↔ pftDrops s h x w r = true := by
      rw [rights.lOk, pftDrops]
      exact (iff_of_eq (Bool.or_eq_true _ _)).symm
    cases dropped : pftDrops s h x w r with
    | true =>
      rw [dropped, pftReqs, if_pos dropped] at more
      refine ⟨_, _, (if_pos (drops.2 dropped)).trans ?_, by rw [pftReqs, if_pos dropped, pushReqs], more⟩
      rw [pftReqs, if_pos dropped, if_pos rfl, prefetched_drop]
    | false =>
      rw [dropped] at more
      refine ⟨_, _, (if_neg (fun e => Bool.false_ne_true (dropped.symm.trans (drops.1 e)))).trans ?_,
        pushReqs_local pftReqs_local (by omega), more⟩
      rw [pftReqs, dropped, rowReqs_congr rights]
      rfl

end Sys2Proof.Machine
end

section
/-! MOVE, GATH, MCST and PFT of a thread at its word, and what its tile shows afterwards (10, R236 to R239). -/

namespace Sys2Proof.Machine

variable {s : State} {th : ThreadId} {h : Nat} {x : Thread} {w : BWord}

theorem prefetched_leaves (s : State) (th : ThreadId) (rs : List Req) (d : Nat) :
    (∃ l, (tileAt (modBlw (walkBegun s th) th.tile.val (prefetched rs d)) th.tile.val).blw = prefetched rs d
      { (tileAt s th.tile.val).blw with turns := l, nextGrp := (tileAt s th.tile.val).blw.nextGrp + 1 }) ∧
      Only [.tiles] s (modBlw (walkBegun s th) th.tile.val (prefetched rs d)) ∧
      OnlyTile th.tile.val s (modBlw (walkBegun s th) th.tile.val (prefetched rs d)) := by
  obtain ⟨l, begun⟩ := walkBegun_blw s th
  refine ⟨⟨l, ?_⟩, (walkBegun_only s th).trans (modTile_only _ _ _), OnlyTile.trans (walkBegun_onlyTile s th) (modTile_onlyTile _ _ _)⟩
  rw [modBlw, tileAt_modTile_self, ← begun]

theorem move_moves (mism : Bool) (atWord : AtWord s th h x w) (room : x.pc < 4095) (idle : x.going = false) (code : fld w 63 58 = 0x20)
    (hint : Bw.hnt w ≠ 3) (alike : mism = true → tileRole s th.tile.val ≠ 1) (evenSrc : (breg x (Bw.rs w)).toNat % 32 = 0)
    (evenDst : (breg x (Bw.rt w)).toNat % 32 = 0) (evenSrcs : (breg x (Bw.rss w)).toNat % 32 = 0)
    (evenDsts : (breg x (Bw.rts w)).toNat % 32 = 0)
    (ok : ∀ r < Bw.rows w, RowPasses s h w (rowAt x (Bw.rs w) (Bw.rss w) r) (rowAt x (Bw.rt w) (Bw.rts w) r) (Bw.len w))
    (tokens : TokensFor s th ((List.range (Bw.rows w)).flatMap (moveReqs s th x w))) :
    ∃ m, exec (.move th mism) s = .next m ∧ Moved s m th x w ((List.range (Bw.rows w)).flatMap (moveReqs s th x w))
      (landMask s th.tile.val (rowAt x (Bw.rt w) (Bw.rts w) 0)) ∧ Part.mem.same s m := by
  obtain ⟨n, issued, done⟩ := thMove_rows idle hint evenSrc evenDst evenSrcs evenDsts ok tokens
  obtain ⟨m, run, moved, -, only, rights⟩ := thRun_moves atWord room code rfl rfl issued done ⟨rfl, rfl, rfl, rfl⟩
  refine ⟨m, congrArg Host.Outcome.next ?_, moved, walk_mem issued only⟩
  rw [run]
  refine movePair_alike fun e => ?_
  rw [rights.tileRole, issued.rights.tileRole, (walkBegun_rights s th).tileRole]
  exact alike e

/-- A prefetch changes its tile alone. -/
theorem pft_moves (atWord : AtWord s th h x w) (room : x.pc < 4095) (idle : x.going = false) (code : fld w 63 58 = 0x23)
    (tokens : TokensFor s th ((List.range (Bw.rows w)).flatMap (pftReqs s th h x w))) :
    ∃ m, exec (.pft th) s = .next m ∧ Moved s m th x w ((List.range (Bw.rows w)).flatMap (pftReqs s th h x w)) none ∧
      fld (tileAt m th.tile.val).blw.pfdrop 31 0 =
        min (2 ^ 32 - 1) (fld (tileAt s th.tile.val).blw.pfdrop 31 0 + ((List.range (Bw.rows w)).filter (pftDrops s h x w)).length) ∧
      Only [.tiles] s m ∧ OnlyTile th.tile.val s m := by
  have done := thPft_rows idle tokens
  obtain ⟨⟨turns, blw⟩, only, alone⟩ :=
    prefetched_leaves s th ((List.range (Bw.rows w)).flatMap (pftReqs s th h x w)) (dropsBefore s h x w (Bw.rows w))
  generalize modBlw (walkBegun s th) th.tile.val _ = n at blw only alone done
  have at_ := atWord
  obtain ⟨-, -, runs, free, -⟩ := at_
  refine ⟨_, congrArg Host.Outcome.next (thRun_next atWord code rfl room done rfl),
    moved_of_issued (mask := none) (g := groupNext s th) rfl ?_ ?_ ?_ runs free rfl, ?_, only.trans (withThread_only _ _ _),
    OnlyTile.trans alone (withThread_onlyTile _ _ _)⟩
  · rw [blw, prefetched, List.map_append]
  · rw [blw]; rfl
  · rw [blw]; rfl
  · rw [withThread, setThread, modBlw, tileAt_modTile_self]
    dsimp only
    rw [blw]
    exact fld_drops _ _

end Sys2Proof.Machine
end

section
/-! Tables of lengths and offsets that an instruction reads whole (10, R242): what the reads leave, and the words of their bytes. -/

namespace Sys2Proof.Machine

variable {s n m : State} {th : ThreadId} {h : Nat} {x : Thread} {w : BWord}

/-! ### What a read leaves -/

/-- After reads of memory the rights, the bellows, the bytes of memory and the arenas are what they were. -/
structure ReadLeaves (s n : State) : Prop where
  rights : SameRights s n
  blw : ∀ u, (tileAt n u).blw = (tileAt s u).blw
  mem : n.mem = s.mem
  holds : HoldsStay s n

theorem ReadLeaves.trans (a : ReadLeaves s n) (b : ReadLeaves n m) : ReadLeaves s m :=
  ⟨a.rights.trans b.rights, fun u => (b.blw u).trans (a.blw u), b.mem.trans a.mem, a.holds.trans b.holds⟩

/-- A read keeps of each tile all but the register of its bad code words. -/
theorem devRead_tiles {k : Option Nat} {hint : Hint} {a len : Nat} {e : EccHits} {line : Option Nat} {r : State × List Byte × List Nat}
    (read : devRead s k hint a len e line = some r) : ∀ u, ∃ v, tileAt r.1 u = withScrEcc v (tileAt s u) := by
  have noted := noteCodes_bytesStay s a e
  have same {n : State} (tiles : n.tiles = s.tiles) (u : Nat) : ∃ v, tileAt n u = withScrEcc v (tileAt s u) :=
    ⟨_, by rw [tileAt, tiles]; rfl⟩
  unfold devRead at read
  split at read
  · obtain ⟨u, touched, rfl⟩ := Option.map_eq_some_iff.1 read
    exact same (noted.trans ((touch_bytesStay touched).trans (eccDeep_bytesStay s u a len false))).tiles
  · cases read
    intro u
    obtain ⟨v, seen⟩ := (seen_seeWords (noteCodes s a e) a len).tile u
    exact ⟨v, by rw [seen, tileAt, noted.tiles]; rfl⟩

theorem devRead_only {k : Option Nat} {hint : Hint} {a len : Nat} {e : EccHits} {line : Option Nat} {r : State × List Byte × List Nat}
    (read : devRead s k hint a len e line = some r) : Only memParts s r.1 := by
  have noted := noteCodes_only s a e
  unfold devRead at read
  split at read
  · obtain ⟨u, touched, rfl⟩ := Option.map_eq_some_iff.1 read
    exact noted.trans (Only.trans (touch_only _ _ _ _ _ _ _ u touched) (eccDeep_only s u a len false))
  · cases read
    exact noted.trans (seeWords_only _ _ _)

theorem devRead_leaves {k : Option Nat} {hint : Hint} {a len : Nat} {e : EccHits} {line : Option Nat} {bs : List Byte} {ps : List Nat}
    (read : devRead s k hint a len e line = some (n, bs, ps)) : ReadLeaves s n ∧ bs = readMem s.mem a len := by
  obtain ⟨-, mem, bytes⟩ := devRead_some read
  have tiles := devRead_tiles read
  have only := devRead_only read
  have holds := devRead_holdsStay read
  have lnk : n.lnk = s.lnk := only .lnk (by decide)
  have tmp : n.tmp = s.tmp := only .tmp (by decide)
  have same {α : Type} (F : Tile → α) (apart : ∀ v y, F (withScrEcc v y) = F y) (u : Nat) : F (tileAt n u) = F (tileAt s u) := by
    obtain ⟨v, e⟩ := tiles u
    rw [show tileAt n u = withScrEcc v (tileAt s u) from e, apart]
  have rights : SameRights s n := ⟨congrArg (·.cur) tmp, congrArg (·.topo) lnk, congrArg (·.ids) lnk,
    same (·.misc.chkTcfg) fun _ _ => rfl, same (·.misc.lend) fun _ _ => rfl⟩
  exact ⟨⟨rights, same (·.blw) fun _ _ => rfl, mem, holds⟩, bytes⟩

/-! ### Tables on this device -/

/-- A table on this device that is read without poison, and the tables after it. -/
theorem readTabs_cons {k a len : Nat} {bs : List Byte} {r : List Tab} {rest : List (List Byte × Bool)} (z : Thread)
    (near : isLocal s a = true) (read : devRead s (some h) .alloc (gLoc a) len [] = some (n, bs, []))
    (more : readTabs z h n (k + 1) r = some (m, rest)) : readTabs z h s k ((a, len) :: r) = some (m, (bs, false) :: rest) := by
  rw [readTabs]
  dsimp only
  rw [if_pos near, read]
  exact congrArg (Option.map _) more

theorem readMem_bytes (l : List Host.Cell) (a k : Nat) : readMem l a k = (List.range k).map (fun i => readByte l (a + i)) := by
  refine List.map_congr_left fun i lt => ?_
  have inside := List.mem_range.1 lt
  rw [readByte]
  exact look_filter (fun c => decide (a ≤ c) && decide (c < a + k)) l (a + i) 0 (by simp; omega)

theorem readMem_slice (l : List Host.Cell) {a k d c : Nat} (within : d + c ≤ k) :
    ((readMem l a k).drop d).take c = readMem l (a + d) c := by
  rw [readMem_bytes, readMem_bytes, ← List.map_drop, ← List.map_take]
  refine List.ext_getElem ?_ fun i _ _ => ?_
  · simp; omega
  · simp [Nat.add_assoc]

/-- The words of a table, as memory holds them. -/
theorem words32_readMem (l : List Host.Cell) (a k : Nat) :
    words32 (readMem l a (4 * k)) = (List.range k).map (fun i => leNat (readMem l (a + 4 * i) 4)) := by
  have long : (readMem l a (4 * k)).length / 4 = k := by rw [readMem_bytes, List.length_map, List.length_range]; omega
  rw [words32, long]
  refine List.map_congr_left fun i lt => ?_
  have inside := List.mem_range.1 lt
  rw [leAt, readMem_slice l (by omega)]

theorem map_range_getD {α : Type} (f : Nat → α) (d : α) {k i : Nat} (lt : i < k) : ((List.range k).map f).getD i d = f i := by
  rw [List.getD_eq_getElem?_getD, List.getElem?_map, List.getElem?_range lt]
  rfl

/-! ### Offsets of rows back to back (10, R242) -/

theorem offsetsOf_sums (l : List Nat) (o : Nat) : offsetsOf l o = (List.range l.length).map (fun i => o + (l.take i).sum) := by
  induction l generalizing o with
  | nil => rfl
  | cons a l ih =>
    rw [offsetsOf, ih, List.length_cons, List.range_succ_eq_map, List.map_cons, List.map_map]
    refine congrArg₂ List.cons (by simp) (List.map_congr_left fun i _ => ?_)
    rw [Function.comp_apply, List.take_succ_cons, List.sum_cons, Nat.add_assoc]

/-- Where row k begins when the rows before it have these lengths. -/
def sumTo (f : Nat → Nat) (k : Nat) : Nat := ((List.range k).map f).foldl (· + ·) 0

theorem offsetsOf_range (f : Nat → Nat) (k : Nat) : offsetsOf ((List.range k).map f) 0 = (List.range k).map (sumTo f) := by
  rw [offsetsOf_sums, List.length_map, List.length_range]
  refine List.map_congr_left fun i lt => ?_
  rw [Nat.zero_add, ← List.map_take, List.take_range, Nat.min_eq_left (Nat.le_of_lt (List.mem_range.1 lt)), List.sum_eq_foldl]
  rfl

/-! ### Rows of given lengths -/

/-- The rows that have bytes. -/
def fullRows (src dst ls : Nat → Nat) (k : Nat) : List (Nat × Nat × Nat) :=
  ((List.range k).map (fun i => (src i, dst i, ls i))).filter (fun r => r.2.2 != 0)

theorem mem_fullRows {src dst ls : Nat → Nat} {k : Nat} {r : Nat × Nat × Nat} (mem : r ∈ fullRows src dst ls k) :
    ∃ i < k, ls i ≠ 0 ∧ r = (src i, dst i, ls i) := by
  obtain ⟨inRows, full⟩ := List.mem_filter.1 mem
  obtain ⟨i, lt, rfl⟩ := List.mem_map.1 inRows
  exact ⟨i, List.mem_range.1 lt, by simpa using full, rfl⟩

theorem fullRows_pass {src dst ls : Nat → Nat} {k : Nat} {p : Nat × Nat × Nat → Bool}
    (each : ∀ i < k, ls i ≠ 0 → p (src i, dst i, ls i) = false) : (fullRows src dst ls k).any p = false := by
  rw [List.any_eq_false]
  intro r mem
  obtain ⟨i, lt, full, rfl⟩ := mem_fullRows mem
  rw [each i lt full]
  decide

/-- The requests of rows that lengths give, row by row: a row of length zero has none (10, R242). -/
def packedReqs (s : State) (th : ThreadId) (w : BWord) (src dst ls : Nat → Nat) (i : Nat) : List Req :=
  if ls i = 0 then [] else rowReqs s th (groupNext s th) (hintOf (Bw.hnt w)) (src i) (dst i) (ls i)

theorem packReqs_fullRows (r : SameRights s n) (src dst ls : Nat → Nat) (k : Nat) :
    packReqs n th (groupNext s th) (hintOf (Bw.hnt w)) (fullRows src dst ls k) =
      (List.range k).flatMap (packedReqs s th w src dst ls) := by
  rw [packReqs, fullRows, List.filter_map, List.flatMap_map]
  induction List.range k with
  | nil => rfl
  | cons i l ih =>
    rw [List.flatMap_cons, ← ih, List.filter_cons, packedReqs]
    by_cases empty : ls i = 0
    · rw [if_pos empty, if_neg (by simp [empty])]
      rfl
    · rw [if_neg empty, if_pos (by simpa using empty), List.flatMap_cons, rowReqs_congr r]

theorem packedReqs_admitted {src dst ls : Nat → Nat} {k : Nat} (ok : ∀ i < k, ls i ≠ 0 → gOk s h (src i) (ls i) = true) :
    ReadsAdmitted s ((List.range k).flatMap (packedReqs s th w src dst ls)) := by
  intro r mem
  obtain ⟨i, lt, inRow⟩ := List.mem_flatMap.1 mem
  unfold packedReqs at inRow
  split at inRow
  · nomatch inRow
  · next full => exact rowReqs_admitted (ok i (List.mem_range.1 lt) full) _ _ _ _ r inRow

theorem badLen_none {ls : Nat → Nat} {k top : Nat} (each : ∀ i < k, ls i ≤ top ∧ ls i % 32 = 0) :
    badLen ((List.range k).map ls) top = none := by
  rw [badLen, List.findIdx?_eq_none_iff]
  intro v mem
  obtain ⟨i, lt, rfl⟩ := List.mem_map.1 mem
  obtain ⟨le, even⟩ := each i (List.mem_range.1 lt)
  rw [decide_eq_false (by omega), even]
  rfl

end Sys2Proof.Machine
end

section
/-! ZPK and ZUP (10, R242, R243): rows placed back to back and fetched from their offsets. -/

namespace Sys2Proof.Machine

variable {s n u s₁ s₂ : State} {th : ThreadId} {h : HearthId} {x : Thread} {w : BWord} {lb ob : List Byte} {rs : List Req}

theorem beginWith_pass {l : List (Bool × Nat × Nat)} {r : State × Nat × List Req} (passes : firstChk l = none) :
    beginWith l r = .ok r := by rw [beginWith, passes]

/-- Word i of the table at a global address on this device. -/
def tableWord (s : State) (a i : Nat) : Nat := leNat (readMem s.mem (gLoc a + 4 * i) 4)

theorem tableWords_read (bytes : lb = readMem (walkBegun s th).mem (gLoc a) (4 * k)) :
    words32 lb = (List.range k).map (tableWord s a) := by
  rw [bytes, words32_readMem]
  rfl

/-- Instructions whose tables have been read issue requests that the core has tokens for. -/
theorem tokensFor_begun (begun : (tileAt u th.tile.val).blw = (tileAt (walkBegun s th) th.tile.val).blw) (tokens : TokensFor s th rs) :
    reqCount (tileAt u th.tile.val) th.core.val + rs.length ≤ 48 := by
  rw [reqCount, begun, reqs_walkBegun]
  exact tokens

/-! ### ZPK -/

/-- Address of the first packed row (10, R242, R243). -/
def zpkBase (s : State) (h : Nat) (x : Thread) (w : BWord) : Nat :=
  if Bw.scl w % 2 = 1 then ofLoc ((hearthAt s h).mem.actBase.toNat + (hearthAt s h).mem.actUsed.toNat) else (breg x (Bw.rt w)).toNat

/-- Bytes of the rows before row k. -/
def zpkSum (s : State) (x : Thread) (w : BWord) : Nat → Nat := sumTo (tableWord s (breg x (Bw.rss w)).toNat)

/-- Where row i of a ZPK is, and where it goes. -/
def zpkSrc (x : Thread) (w : BWord) (i : Nat) : Nat := (breg x (Bw.rs w) + BitVec.ofNat 64 (i * Bw.len w)).toNat
def zpkDst (s : State) (h : Nat) (x : Thread) (w : BWord) (i : Nat) : Nat := (zpkBase s h x w + zpkSum s x w i) % 2 ^ 64

/-- The requests of a ZPK: its rows, and then the offsets (10, R242). -/
def zpkReqs (s : State) (th : ThreadId) (h : Nat) (x : Thread) (w : BWord) : List Req :=
  (List.range (Bw.rows w)).flatMap
    (packedReqs s th w (zpkSrc x w) (zpkDst s h x w) (tableWord s (breg x (Bw.rss w)).toNat)) ++
  dataReqs s th (groupNext s th) (breg x (Bw.rts w)).toNat ((List.range (Bw.rows w)).flatMap (fun i => leBytes 4 (zpkSum s x w i)))

/-- The mark of the arena has moved on (10, R243). -/
def markMoved (h : Nat) (w : BWord) (sum : Nat) (s : State) : State :=
  if Bw.scl w % 2 = 1 then modHearth s h (fun y => { y with mem := { y.mem with actUsed := y.mem.actUsed + BitVec.ofNat 64 sum } }) else s

/-- The thread at the end of a ZPK (10, R242). -/
def zpkEnd (x : Thread) (w : BWord) (g sum : Nat) : Thread :=
  if Bw.scl w % 2 = 1 then walking x g sum
  else setBreg (walking x g sum) (Bw.rt w) (breg x (Bw.rt w) + BitVec.ofNat 64 sum)

theorem markMoved_tiles (h : Nat) (w : BWord) (sum : Nat) (s : State) : (markMoved h w sum s).tiles = s.tiles := by
  unfold markMoved
  split <;> rfl

theorem markMoved_rights (h : Nat) (w : BWord) (sum : Nat) (s : State) : SameRights s (markMoved h w sum s) := by
  unfold markMoved
  split
  · exact ⟨rfl, rfl, rfl, fun _ => rfl, fun _ => rfl⟩
  · exact .refl s

theorem markMoved_mem (h : Nat) (w : BWord) (sum : Nat) (s : State) : (markMoved h w sum s).mem = s.mem := by
  unfold markMoved
  split <;> rfl

/-- The arena as an instruction finds it once its tables are read. -/
theorem arena_begun (leaves : ReadLeaves (walkBegun s th) s₁) (h : Nat) :
    (hearthAt s₁ h).mem.actBase = (hearthAt s h).mem.actBase ∧ (hearthAt s₁ h).mem.actLim = (hearthAt s h).mem.actLim ∧
      (hearthAt s₁ h).mem.actUsed = (hearthAt s h).mem.actUsed := by
  have same : holdAndArena (hearthAt s₁ h).mem = holdAndArena (hearthAt s h).mem := leaves.holds h
  simp only [holdAndArena, Prod.mk.injEq] at same
  exact same.2

theorem thZpk_packs (idle : x.going = false) (hint : Bw.hnt w ≠ 3) (evenLens : (breg x (Bw.rss w)).toNat % 32 = 0)
    (evenOffs : (breg x (Bw.rts w)).toNat % 32 = 0) (lens : lOk s h.val (breg x (Bw.rss w)).toNat (4 * Bw.rows w) = true)
    (offs : lOk s h.val (breg x (Bw.rts w)).toNat (4 * Bw.rows w) = true)
    (legal : ∀ i < Bw.rows w, tableWord s (breg x (Bw.rss w)).toNat i ≤ Bw.len w ∧ tableWord s (breg x (Bw.rss w)).toNat i % 32 = 0)
    (read : devRead (walkBegun s th) (some h.val) .alloc (gLoc (breg x (Bw.rss w)).toNat) (4 * Bw.rows w) [] = some (s₁, lb, []))
    (evenSrc : (breg x (Bw.rs w)).toNat % 32 = 0) (evenDst : ¬ Bw.scl w % 2 = 1 → (breg x (Bw.rt w)).toNat % 32 = 0)
    (fits : Bw.scl w % 2 = 1 →
      (hearthAt s h.val).mem.actUsed.toNat + zpkSum s x w (Bw.rows w) ≤ (hearthAt s h.val).mem.actLim.toNat)
    (ok : ∀ i < Bw.rows w, tableWord s (breg x (Bw.rss w)).toNat i ≠ 0 →
      gOk s h.val (zpkSrc x w i) (tableWord s (breg x (Bw.rss w)).toNat i) = true ∧
      gOk s h.val (zpkDst s h.val x w i) (tableWord s (breg x (Bw.rss w)).toNat i) = true ∧
      (isLocal s (zpkSrc x w i) = true ∨ isLocal s (zpkDst s h.val x w i) = true))
    (lands : fld w 17 17 = 1 → isLocal s (zpkBase s h.val x w) = true) (tokens : TokensFor s th (zpkReqs s th h.val x w)) :
    ∃ n, Issued th.tile.val (zpkReqs s th h.val x w) (markMoved h.val w (zpkSum s x w (Bw.rows w)) s₁) n ∧
      thZpk th (tookTurn s th) h.val x w = .next (posted th w (groupNext s th) (landMask s th.tile.val
        (if Bw.scl w % 2 = 1 then ofLoc (hearthAt s h.val).mem.actBase.toNat else (breg x (Bw.rt w)).toNat)) n)
        (zpkEnd x w (groupNext s th) (zpkSum s x w (Bw.rows w))) := by
  have turn := tookTurn_rights s th
  obtain ⟨leaves, bytes⟩ := devRead_leaves read
  have rights₁ := (walkBegun_rights s th).trans leaves.rights
  have rights := rights₁.trans (markMoved_rights h.val w (zpkSum s x w (Bw.rows w)) s₁)
  have blw : (tileAt (markMoved h.val w (zpkSum s x w (Bw.rows w)) s₁) th.tile.val).blw = (tileAt (walkBegun s th) th.tile.val).blw := by
    rw [tileAt, markMoved_tiles]
    exact leaves.blw _
  have admits : ReadsAdmitted s (zpkReqs s th h.val x w) := fun r mem => (List.mem_append.1 mem).elim
    (packedReqs_admitted (fun i lt full => (ok i lt full).1) r) (dataReqs_admitted _ _ _ _ _ r)
  obtain ⟨n, pushed, issued⟩ := pushReqs_issues (admits.mono rights) (tokensFor_begun blw tokens)
  refine ⟨n, issued, ?_⟩
  obtain ⟨base, lim, used⟩ := arena_begun leaves h.val
  have words := tableWords_read bytes
  have rows : ((List.range (Bw.rows w)).map (fun i => ((breg x (Bw.rs w) + BitVec.ofNat 64 (i * Bw.len w)).toNat,
      (zpkBase s h.val x w + ((List.range (Bw.rows w)).map (sumTo (tableWord s (breg x (Bw.rss w)).toNat))).getD i 0) % 2 ^ 64,
      ((List.range (Bw.rows w)).map (tableWord s (breg x (Bw.rss w)).toNat)).getD i 0))).filter (fun r => r.2.2 != 0) =
      fullRows (zpkSrc x w) (zpkDst s h.val x w) (tableWord s (breg x (Bw.rss w)).toNat) (Bw.rows w) := by
    refine congrArg (List.filter _) (List.map_congr_left fun i mem => ?_)
    rw [map_range_getD _ _ (List.mem_range.1 mem), map_range_getD _ _ (List.mem_range.1 mem)]
    rfl
  unfold thZpk
  dsimp only
  rw [turn.landMask]
  simp only [beq_iff_eq]
  refine moveExec_done (s₂ := s₁) (bs := [(lb, false)]) (todo := zpkReqs s th h.val x w) (aux := zpkSum s x w (Bw.rows w))
    idle ?passes ?here (fun z => readTabs_cons z ?near read rfl) ?begins pushed rfl
  case near => rw [(walkBegun_rights s th).isLocal, lOk_local lens]
  case here =>
    intro t mem
    rw [List.mem_singleton.1 mem, lOk_local lens]
  case passes =>
    dsimp only
    rw [turn.gOk, turn.gOk]
    refine firstChk_pass (beq_false_of_ne hint) (firstChk_pass ?_ (firstChk_pass ?_ rfl))
    · rw [odd32_passes evenSrc, odd32_passes evenLens, odd32_passes evenOffs]
      by_cases arena : Bw.scl w % 2 = 1
      · rw [arena]; rfl
      · rw [odd32_passes (evenDst arena), Bool.and_false]; rfl
    · rw [lOk_gOk lens, lOk_gOk offs]; rfl
  case begins =>
    have dst : (if Bw.scl w % 2 = 1 then ofLoc ((hearthAt s h.val).mem.actBase.toNat + (hearthAt s h.val).mem.actUsed.toNat)
      else (breg x (Bw.rt w)).toNat) = zpkBase s h.val x w := rfl
    simp only [List.headD_cons, words, offsetsOf_range, base, lim, used, dst, rows, rights₁.gOk, rights₁.isLocal]
    refine (beginWith_pass ?checks).trans (congrArg Except.ok ?result)
    case checks =>
      refine firstChk_pass rfl (firstChk_pass ?_ (firstChk_pass ?_ (firstChk_pass ?_ (firstChk_pass ?_ (firstChk_pass ?_ rfl)))))
      · rw [badLen_none legal]; rfl
      · exact fullRows_pass fun i lt full => by rw [(ok i lt full).1]; rfl
      · by_cases arena : Bw.scl w % 2 = 1
        · exact Bool.and_eq_false_imp.2 fun _ => decide_eq_false (Nat.not_lt.2 (fits arena))
        · exact Bool.and_eq_false_imp.2 fun e => absurd (beq_iff_eq.1 e) arena
      · exact fullRows_pass fun i lt full => passes_range (ok i lt full).2
      · exact landing_passes fun e => by rw [lands e]; rfl
    case result =>
      refine Prod.ext rfl (Prod.ext rfl (congrArg₂ _ (packReqs_fullRows rights₁ _ _ _ _) ?_))
      rw [dataReqs_congr rights₁, List.flatMap_map]
      rfl

/-! ### ZUP -/

/-- Address from which the offsets of a ZUP count (10, R242). -/
def zupBase (s : State) (h : Nat) (x : Thread) (w : BWord) : Nat :=
  if Bw.scl w % 2 = 1 then ofLoc (hearthAt s h).mem.actBase.toNat else (breg x (Bw.rs w)).toNat

/-- Where row i of a ZUP is, and where it goes. -/
def zupSrc (s : State) (h : Nat) (x : Thread) (w : BWord) (i : Nat) : Nat :=
  (zupBase s h x w + tableWord s (breg x (Bw.rts w)).toNat i) % 2 ^ 64
def zupDst (x : Thread) (w : BWord) (i : Nat) : Nat := (breg x (Bw.rt w) + BitVec.ofNat 64 (i * Bw.len w)).toNat

/-- The requests of a ZUP (10, R242). -/
def zupReqs (s : State) (th : ThreadId) (h : Nat) (x : Thread) (w : BWord) : List Req :=
  (List.range (Bw.rows w)).flatMap
    (packedReqs s th w (zupSrc s h x w) (zupDst x w) (tableWord s (breg x (Bw.rss w)).toNat))

theorem offsets_pass {os : Nat → Nat} {k : Nat} (even : ∀ i < k, os i % 32 = 0) :
    ((List.range k).map os).findIdx? (fun o => o % 32 != 0) = none := by
  rw [List.findIdx?_eq_none_iff]
  intro v mem
  obtain ⟨i, lt, rfl⟩ := List.mem_map.1 mem
  rw [even i (List.mem_range.1 lt)]
  rfl

theorem thZup_fetches (idle : x.going = false) (hint : Bw.hnt w ≠ 3) (evenLens : (breg x (Bw.rss w)).toNat % 32 = 0)
    (evenOffs : (breg x (Bw.rts w)).toNat % 32 = 0) (lens : lOk s h.val (breg x (Bw.rss w)).toNat (4 * Bw.rows w) = true)
    (offs : lOk s h.val (breg x (Bw.rts w)).toNat (4 * Bw.rows w) = true)
    (legal : ∀ i < Bw.rows w, tableWord s (breg x (Bw.rss w)).toNat i ≤ Bw.len w ∧ tableWord s (breg x (Bw.rss w)).toNat i % 32 = 0)
    (readLens : devRead (walkBegun s th) (some h.val) .alloc (gLoc (breg x (Bw.rss w)).toNat) (4 * Bw.rows w) [] = some (s₁, lb, []))
    (readOffs : devRead s₁ (some h.val) .alloc (gLoc (breg x (Bw.rts w)).toNat) (4 * Bw.rows w) [] = some (s₂, ob, []))
    (evenSrc : ¬ Bw.scl w % 2 = 1 → (breg x (Bw.rs w)).toNat % 32 = 0) (evenDst : (breg x (Bw.rt w)).toNat % 32 = 0)
    (even : ∀ i < Bw.rows w, tableWord s (breg x (Bw.rts w)).toNat i % 32 = 0)
    (ok : ∀ i < Bw.rows w, tableWord s (breg x (Bw.rss w)).toNat i ≠ 0 →
      gOk s h.val (zupSrc s h.val x w i) (tableWord s (breg x (Bw.rss w)).toNat i) = true ∧
      gOk s h.val (zupDst x w i) (tableWord s (breg x (Bw.rss w)).toNat i) = true ∧
      (isLocal s (zupSrc s h.val x w i) = true ∨ isLocal s (zupDst x w i) = true))
    (lands : fld w 17 17 = 1 → ∀ i < Bw.rows w, isLocal s (zupDst x w i) = true) (tokens : TokensFor s th (zupReqs s th h.val x w)) :
    ∃ n, Issued th.tile.val (zupReqs s th h.val x w) s₂ n ∧
      thZup th (tookTurn s th) h.val x w = .next (posted th w (groupNext s th) (landMask s th.tile.val (zupDst x w 0)) n)
        (walking x (groupNext s th) 0) := by
  have turn := tookTurn_rights s th
  obtain ⟨first, lensBytes⟩ := devRead_leaves readLens
  obtain ⟨second, offsBytes⟩ := devRead_leaves readOffs
  have leaves := first.trans second
  have rights := (walkBegun_rights s th).trans leaves.rights
  have admits : ReadsAdmitted s (zupReqs s th h.val x w) := packedReqs_admitted fun i lt full => (ok i lt full).1
  obtain ⟨n, pushed, issued⟩ := pushReqs_issues (admits.mono rights) (tokensFor_begun (leaves.blw _) tokens)
  refine ⟨n, issued, ?_⟩
  obtain ⟨base, -, -⟩ := arena_begun leaves h.val
  have lensWords := tableWords_read lensBytes
  have offsWords := tableWords_read (s := s) (th := th) (a := (breg x (Bw.rts w)).toNat) (offsBytes.trans (by rw [first.mem]))
  have rows : ((List.range (Bw.rows w)).map (fun i =>
      ((zupBase s h.val x w + ((List.range (Bw.rows w)).map (tableWord s (breg x (Bw.rts w)).toNat)).getD i 0) % 2 ^ 64,
      (breg x (Bw.rt w) + BitVec.ofNat 64 (i * Bw.len w)).toNat,
      ((List.range (Bw.rows w)).map (tableWord s (breg x (Bw.rss w)).toNat)).getD i 0))).filter (fun r => r.2.2 != 0) =
      fullRows (zupSrc s h.val x w) (zupDst x w) (tableWord s (breg x (Bw.rss w)).toNat) (Bw.rows w) := by
    refine congrArg (List.filter _) (List.map_congr_left fun i mem => ?_)
    rw [map_range_getD _ _ (List.mem_range.1 mem), map_range_getD _ _ (List.mem_range.1 mem)]
    rfl
  unfold thZup
  dsimp only
  rw [turn.landMask]
  simp only [beq_iff_eq]
  refine moveExec_done (s₂ := s₂) (bs := [(lb, false), (ob, false)]) (todo := zupReqs s th h.val x w) (aux := 0)
    idle ?passes ?here (fun z => readTabs_cons z ?nearLens readLens (readTabs_cons z ?nearOffs readOffs rfl)) ?begins pushed rfl
  case nearLens => rw [(walkBegun_rights s th).isLocal, lOk_local lens]
  case nearOffs => rw [((walkBegun_rights s th).trans first.rights).isLocal, lOk_local offs]
  case here =>
    intro t mem
    rcases List.mem_pair.1 mem with rfl | rfl
    · exact lOk_local lens
    · exact lOk_local offs
  case passes =>
    dsimp only
    rw [turn.gOk, turn.gOk]
    refine firstChk_pass (beq_false_of_ne hint) (firstChk_pass ?_ (firstChk_pass ?_ rfl))
    · rw [odd32_passes evenDst, odd32_passes evenLens, odd32_passes evenOffs]
      by_cases arena : Bw.scl w % 2 = 1
      · rw [arena]; rfl
      · rw [odd32_passes (evenSrc arena), Bool.and_false]; rfl
    · rw [lOk_gOk lens, lOk_gOk offs]; rfl
  case begins =>
    have src : (if Bw.scl w % 2 = 1 then ofLoc (hearthAt s h.val).mem.actBase.toNat else (breg x (Bw.rs w)).toNat) =
      zupBase s h.val x w := rfl
    simp only [List.headD_cons, List.drop_succ_cons, List.drop_zero, lensWords, offsWords, base, src, rows, rights.gOk, rights.isLocal,
      badLen_none legal, offsets_pass even]
    refine (beginWith_pass ?checks).trans (congrArg Except.ok ?result)
    case checks =>
      refine firstChk_pass rfl (firstChk_pass rfl (firstChk_pass ?_ (firstChk_pass ?_ (firstChk_pass ?_ rfl))))
      · exact fullRows_pass fun i lt full => by rw [(ok i lt full).1]; rfl
      · exact fullRows_pass fun i lt full => passes_range (ok i lt full).2
      · exact landings_pass fun i lt e => lands e i lt
    case result => exact congrArg (fun l => (s₂, 0, l)) (packReqs_fullRows rights _ _ _ _)

end Sys2Proof.Machine
end

section
/-! What ZPK and ZUP leave, and the statement (10, R225, R230, R236 to R239, R242, R243). -/

namespace Sys2Proof.Machine

variable {s n m s₁ s₂ : State} {th : ThreadId} {h : HearthId} {x : Thread} {w : BWord} {lb ob : List Byte} {rs : List Req}

theorem markMoved_blw (leaves : ReadLeaves (walkBegun s th) s₁) (h : Nat) (w : BWord) (sum : Nat) :
    (tileAt (markMoved h w sum s₁) th.tile.val).blw = (tileAt (walkBegun s th) th.tile.val).blw := by
  rw [tileAt, markMoved_tiles]
  exact leaves.blw _

/-- A packed instruction in the arena moves its mark on by the bytes of the rows (10, R243). -/
theorem markMoved_used (leaves : ReadLeaves (walkBegun s th) s₁) (h : HearthId) (arena : Bw.scl w % 2 = 1) (sum : Nat) :
    (hearthAt (markMoved h.val w sum s₁) h.val).mem.actUsed = (hearthAt s h.val).mem.actUsed + BitVec.ofNat 64 sum := by
  obtain ⟨-, -, used⟩ := arena_begun leaves h.val
  rw [markMoved, if_pos arena, hearthAt_modHearth_self]
  dsimp only
  rw [used]

theorem zpkEnd_same (x : Thread) (w : BWord) (g sum : Nat) : (zpkEnd x w g sum).pc = x.pc ∧ (zpkEnd x w g sum).st = x.st ∧
    (zpkEnd x w g sum).stall = x.stall ∧ (zpkEnd x w g sum).loops = x.loops := by
  unfold zpkEnd setBreg
  split
  · exact ⟨rfl, rfl, rfl, rfl⟩
  · split <;> exact ⟨rfl, rfl, rfl, rfl⟩

theorem zpkEnd_arena (arena : Bw.scl w % 2 = 1) (g sum : Nat) : (zpkEnd x w g sum).b = x.b := by
  rw [zpkEnd, if_pos arena]
  rfl

theorem zpkEnd_register (plain : ¬ Bw.scl w % 2 = 1) (named : Bw.rt w ≠ 0) (g sum : Nat) :
    (zpkEnd x w g sum).b = vput x.b (Bw.rt w) (breg x (Bw.rt w) + BitVec.ofNat 64 sum) := by
  rw [zpkEnd, if_neg plain, setBreg, if_neg named]
  rfl

/-- The bytes of memory stay as an instruction reads its tables and issues its requests. -/
theorem read_mem {u : State} (leaves : ReadLeaves (walkBegun s th) s₁) (same : u.mem = s₁.mem) (issued : Issued th.tile.val rs u n)
    (only : Only [.tiles] n m) : m.mem = s.mem := by
  obtain ⟨after, -, -⟩ : Part.mem.same n m := only .mem (by decide)
  obtain ⟨through, -, -⟩ := issued.mem
  obtain ⟨first, -, -⟩ : Part.mem.same s (walkBegun s th) := walkBegun_only s th .mem (by decide)
  rw [after, through, same, leaves.mem, first]

/-- The length of a row as the statement gives it. -/
theorem len_eq (w : BWord) : 32 * (fld w 32 25 + 1) = Bw.len w := Nat.mul_comm _ _

/-- Settles O23: the rows of each instruction pass their checks and issue all their requests, and then its landing is posted. -/
theorem threadTransfers : Obligations.ThreadTransfers := by
  refine ⟨fun s th h x w atWord room idle => ?moves, fun s th h x w atWord room idle hint => ?packs⟩
  case moves =>
    dsimp only
    simp only [len_eq]
    refine ⟨fun mism code hint alike even0 even1 even2 even3 ok tokens => ?move,
      fun base t₀ code hint fine coarse even0 even1 even2 even3 within placed inside unpoisoned clean ok tokens => ?gath,
      fun code hint even0 even1 even2 even3 nonzero tiles ok tokens => ?mcst, fun code tokens => ?pft⟩
    case move => exact move_moves mism atWord room idle code hint alike even0 even1 even2 even3 ok tokens
    case gath =>
      obtain ⟨n, issued, done⟩ := thGath_rows within placed inside idle hint fine coarse even0 even1 even2 even3 unpoisoned clean ok tokens
      obtain ⟨m, run, moved, -, only, -⟩ := thRun_moves atWord room code rfl rfl issued done ⟨rfl, rfl, rfl, rfl⟩
      exact ⟨m, congrArg Host.Outcome.next run, moved, walk_mem issued only⟩
    case mcst =>
      obtain ⟨n, issued, done⟩ := thMcst_rows idle hint even0 even1 even2 even3 nonzero tiles ok tokens
      obtain ⟨m, run, moved, -, only, -⟩ := thRun_moves atWord room code rfl rfl issued done ⟨rfl, rfl, rfl, rfl⟩
      exact ⟨m, congrArg Host.Outcome.next run, moved, walk_mem issued only⟩
    case pft => exact pft_moves atWord room idle code tokens
  case packs =>
    dsimp only
    simp only [len_eq]
    intro evenLens evenOffs lens offs legal
    refine ⟨fun s₁ lb code read evenSrc evenDst fits ok lands tokens => ?zpk,
      fun s₁ s₂ lb ob code readLens readOffs evenSrc evenDst even ok lands tokens => ?zup⟩
    case zpk =>
      obtain ⟨n, issued, done⟩ := thZpk_packs idle hint evenLens evenOffs lens offs legal read evenSrc evenDst fits ok lands tokens
      obtain ⟨leaves, -⟩ := devRead_leaves read
      obtain ⟨m, run, moved, thread, only, -⟩ := thRun_moves atWord room code rfl (markMoved_blw leaves _ _ _) issued done
        (zpkEnd_same _ _ _ _)
      have hearths : m.hearths = (markMoved h.val w (zpkSum s x w (Bw.rows w)) s₁).hearths :=
        Eq.trans (only .hearths (by decide)) issued.hearths
      refine ⟨m, _, congrArg Host.Outcome.next run, moved, read_mem leaves (markMoved_mem _ _ _ _) issued only, thread,
        fun arena => ⟨?_, zpkEnd_arena arena _ _⟩, fun plain named => zpkEnd_register plain named _ _⟩
      rw [hearthAt_of_hearths hearths]
      exact markMoved_used leaves h arena _
    case zup =>
      obtain ⟨n, issued, done⟩ := thZup_fetches idle hint evenLens evenOffs lens offs legal readLens readOffs evenSrc evenDst even ok
        lands tokens
      obtain ⟨first, -⟩ := devRead_leaves readLens
      obtain ⟨second, -⟩ := devRead_leaves readOffs
      have leaves := first.trans second
      obtain ⟨m, run, moved, -, only, -⟩ := thRun_moves atWord room code rfl (leaves.blw _) issued done ⟨rfl, rfl, rfl, rfl⟩
      exact ⟨m, congrArg Host.Outcome.next run, moved, read_mem leaves rfl issued only⟩

end Sys2Proof.Machine
end
